-- ==== Sys2Proof/Word.lean ====
section
/-! DEFINITION. The word types of the Hivik's registers, entries and memory. -/

namespace Sys2Proof

/-- One byte of memory. -/
abbrev Byte := BitVec 8
/-- A 32-bit register, hoop index or message word. -/
abbrev W32 := BitVec 32
/-- A 64-bit register, qword of an entry or address field. -/
abbrev W64 := BitVec 64

end Sys2Proof
end

