-- ==== Sys2Proof/Syntax.lean ====
section
/-! DEFINITION. The commands of the Hivik: one constructor of Instr per row of the opcode table, with its operands. -/

namespace Sys2Proof

/-- A function: a physical function, virtual function i of physical function p, or the bring-up function (R43, R307). -/
inductive Fn where
  | pf (p : Nat)
  | vf (p i : Nat)
  | bu
deriving DecidableEq, Repr

/-- A ring of entries: a data hoop, or the admin hoop of physical function a (16: of the bring-up function). -/
inductive Ring where
  | data (h : Nat)
  | admin (a : Nat)
deriving DecidableEq, Repr

/-- Where a QUERY_CAPS or RESYNC was issued: an admin hoop, or an entry of a virtual function's data hoop (R83). -/
inductive Issuer where
  | admin (a : Nat)
  | entry (h : Nat) (i : W32)
deriving DecidableEq, Repr

/-- How a ladle ended a segment: finished, failed at its target with a number of bytes known written, or delivered
under a superseded epoch (R73, R113, R115). -/
inductive SegRes where
  | ok
  | failed (bytes : Nat)
  | late
deriving DecidableEq, Repr

/-- Answer to a Translation Request (R203). -/
inductive AtsResp where
  | grant (pa size : Nat) (r w u : Bool)
  | error
deriving DecidableEq, Repr

/-- Response code of a page request group (R212). -/
inductive PrgCode where
  | success
  | invalid
  | failure
deriving DecidableEq, Repr

/-- Completion of a non-posted request on a host port (R285). -/
inductive Cpl where
  | success
  | poisoned
  | unsupported
  | abort
deriving DecidableEq, Repr

/-- PCIe AtomicOp to PF BAR2 (R286). -/
inductive BarAtomic where
  | fetchAdd
  | swap
  | cas
deriving DecidableEq, Repr

/-- A capability that configuration space shows or lacks (R277, R278, R307). -/
inductive CfgFeature where
  | ari
  | sriov
  | ats
  | pri
  | pasid
  | atomicRequester
  | atomicCompleter
  | aer
  | doe
  | ide
  | tag14
  | flitMode
  | aspmL1
  | l1Substates
  | msix
  | msi
  | expansionRom
deriving DecidableEq, Repr

/-- An item of configuration space that the manual gives a value (R203, R277, R278, R280, R281, R289, R307, R453). -/
inductive CfgItem where
  | classCode
  | bar (k : Nat)
  | vfBar (k : Nat)
  | totalVfs
  | firstVfOffset
  | vfStride
  | numVfs
  | vfEnable
  | interruptPin
  | msixVectors
  | invalQueueDepth
  | globalInval
  | pageAligned
  | noSoftReset
  | dState
  | busMaster
  | maxPayload
  | doeProtocol (k : Nat)
  | selectiveStreams
  | feature (x : CfgFeature)
deriving DecidableEq, Repr

/-- A configuration request: a read of an item, or a write of a setting that has no row of its own (R211, R212, R235, R286, R289,
R453). -/
inductive CfgOp where
  | read (x : CfgItem)
  | pmeEnable (on : Bool)
  | priReset
  | priAllocation (n : Nat)
  | relaxedOrdering (on : Bool)
  | maxPayload (n : Nat)
  | ideRid (stream : Nat) (block : Option (Nat × Nat))
  | ideAddr (stream : Nat) (block : Option (Nat × Nat))
deriving DecidableEq, Repr

/-- A configuration request at a port: routing ID offset n of it, and what is asked (R280, R446). -/
structure CfgRequest where
  p : Nat
  n : Nat
  op : CfgOp
deriving DecidableEq, Repr

/-- Where an AtomicOp goes: an offset of BAR0 or of BAR2 (R286). -/
structure BarPlace where
  bar0 : Bool
  off : Nat
deriving DecidableEq, Repr

/-- What trains behind a far-memory port: as CXL or not; of an expander, whether it is a single logical device with HDM-H, and its
bytes (R303). -/
structure Expander where
  isCxl : Bool
  single : Bool
  hdmH : Bool
  bytes : Nat
deriving DecidableEq, Repr

/-- An event of a Rennet source: uncorrectable or not (R381), and the numbers of the 64-byte granules that ECC cannot correct in
the scratchpad of a cell that fails (R160). -/
structure FaultEvent where
  unc : Bool
  lost : List Nat
deriving DecidableEq, Repr

/-- A P-384 point as two coordinates (R439). -/
structure EcPoint where
  x : Nat
  y : Nat
deriving DecidableEq, Repr

/-- A channel over which SPDM runs: the DOE mailbox of a physical function or of the bring-up port, MCTP, a peer port (R432). -/
inductive SpdmCh where
  | doe (p : Nat)
  | bu
  | mctp
  | peer (p : Nat)
deriving DecidableEq, Repr

/-- The other SPDM requests of R432, and any request it does not support. -/
inductive SpdmCode where
  | getVersion
  | getCapabilities
  | negotiateAlgorithms
  | getDigests
  | getCertificate (slot : Nat)
  | challenge
  | finish (macOk : Bool)
  | heartbeat
  | keyUpdate
  | endSession
  | unsupported
deriving DecidableEq, Repr

/-- An MCTP message over SMBus: a power reading, a sensor reading, or SPDM (R428, R488). -/
inductive Mctp where
  | power
  | sensor (island : Nat)
  | spdm (c : SpdmCode)
deriving DecidableEq, Repr

/-- A host CXL.mem request (R300, R301). -/
inductive HdmOp where
  | readShared
  | readExclusive
  | write (data : List Byte)
deriving DecidableEq, Repr

/-- State of a line of the coherent window cache, with the two transients of R298: a fill that awaits its GO, and a
line in an eviction buffer. -/
inductive Mesi where
  | i
  | s
  | e
  | m
  | fillS
  | fillE
deriving DecidableEq, Repr

/-- What the Hivik takes from one 256-byte Acdoic flit: whether its CRC holds, its trailer, and the NTC slots its
messages fill (R317, R318). -/
structure Flit where
  crcOk : Bool
  seq : BitVec 16
  ack : BitVec 16
  credVc : Nat
  cred : Nat
  nak : Bool
  ntcSlots : Nat
deriving DecidableEq, Repr

/-- What the Hivik takes from one peer frame: CRC and tag checks, its fields, and the TYPE codes of its packets (R345, R348). -/
structure Frame where
  crcOk : Bool
  tagOk : Bool
  seq : W32
  ack : W32
  credTc : Nat
  credHop : Nat
  cred : Nat
  nak : Bool
  idle : Bool
  keyPhase : Bool
  types : List Nat
deriving DecidableEq, Repr

/-- A peer packet: the fields of its header (R253) and its payload. -/
structure Pkt where
  tc : Nat
  hops : Nat
  dst : Nat
  src : Nat
  fdom : Nat
  tag : Nat
  len : Nat
  wide : Bool
  atop : Nat
  reason : Nat
  offset : Nat
  payload : List Byte
  ret : Bool := false
deriving DecidableEq, Repr

/-- What the identifiers at a port's receive fibres show in training (R334): each at its place, receive fibres 0 and 1 of a peer
port crossed, or any other crossing. -/
inductive Crossing where
  | straight
  | rx01
  | other
deriving DecidableEq, Repr

/-- Rosham port n trains, with what its receive fibres show (R334, R355). -/
structure Training where
  n : Nat
  x : Crossing
deriving DecidableEq, Repr

/-- A reference clock input (R484). -/
inductive RefClk where
  | rosham
  | acdoic
  | bringUp
  | xtal
deriving DecidableEq, Repr

/-- A supply rail (R398). -/
inductive Rail where
  | logic
  | photonic
  | r18
deriving DecidableEq, Repr

/-- What wakes the device (R374, R455). -/
inductive WakeCause where
  | inbound
  | watched (slot : Nat)
  | waken
  | smbus
  | alarm
deriving DecidableEq, Repr

/-- A host's change to MSI-X control: MSI-X Enable, Function Mask, or the mask of one vector (R371). -/
inductive MsixCtl where
  | enable (b : Bool)
  | funcMask (b : Bool)
  | vecMask (v : Nat) (b : Bool)
deriving DecidableEq, Repr

/-- An IEEE 1149.1 operation (R431, R481). -/
inductive Jtag where
  | reset
  | shiftIr (code : Nat)
  | shiftDr (bits : Nat)
deriving DecidableEq, Repr

/-- Key of a journal record: an entry of a hoop, or a peer's entry and segment (R75, R260). -/
inductive JKey where
  | entry (h : Nat) (i : W32)
  | peer (node hoop : Nat) (i : W32) (seg : Nat)
deriving DecidableEq, Repr

/-- A unit with a write gate or a spare (R388, R390). -/
inductive Unit_ where
  | ladle (q k : Nat)
  | engine (q k : Nat)
  | cell (c : Nat)
  | walker (k : Nat)
  | affineur
  | security
  | hcPort (p : Nat)
  | peerPort (p : Nat)
  | acdPort (q : Nat)
deriving DecidableEq, Repr

/-- The commands of spec/opcode_table.json. -/
inductive Instr where
  /-- COPY, R90. -/
  | copy (h : Nat) (i : W32) (j : Nat)
  /-- FILL, R92. -/
  | fill (h : Nat) (i : W32) (j : Nat)
  /-- GATHER, R93. -/
  | gather (h : Nat) (i : W32) (j : Nat)
  /-- SCATTER, R94. -/
  | scatter (h : Nat) (i : W32) (j : Nat)
  /-- TRANSFORM, R96. -/
  | transform (h : Nat) (i : W32) (j : Nat)
  /-- REDUCE, R97. -/
  | reduce (h : Nat) (i : W32) (j : Nat)
  /-- ACCUMULATE, R98. -/
  | accumulate (h : Nat) (i : W32) (j : Nat)
  /-- RESOLVE, R99. -/
  | resolve (h : Nat) (i : W32) (j : Nat)
  /-- ATOMIC, R102. -/
  | atomic (h : Nat) (i : W32) (j : Nat)
  /-- FENCE_SIGNAL, R38. -/
  | fenceSignal (h : Nat) (i : W32)
  /-- FENCE_WAIT, R39. -/
  | fenceWait (h : Nat) (i : W32)
  /-- PREFETCH, R106. -/
  | prefetch (h : Nat) (i : W32) (j : Nat)
  /-- ADVISE, R106. -/
  | advise (h : Nat) (i : W32) (j : Nat)
  /-- LAUNCH, R111. -/
  | launch (h : Nat) (i : W32)
  /-- INVALIDATE, R109. -/
  | invalidate (h : Nat) (i : W32)
  /-- NOP, R105. -/
  | nop (h : Nat) (i : W32)
  /-- CREATE_HOOP, R119. -/
  | createHoop (a : Nat)
  /-- CREATE_EVENT_HOOP, R119. -/
  | createEventHoop (a : Nat)
  /-- DESTROY_HOOP, R79. -/
  | destroyHoop (a : Nat)
  /-- DESTROY_EVENT_HOOP, R81. -/
  | destroyEventHoop (a : Nat)
  /-- DISABLE_HOOP, R77. -/
  | disableHoop (a : Nat)
  /-- CREATE_VAT, R221. -/
  | createVat (a : Nat)
  /-- DESTROY_VAT, R50. -/
  | destroyVat (a : Nat)
  /-- LOAD_RECIPE, R150. -/
  | loadRecipe (a : Nat)
  /-- UNLOAD_RECIPE, R152. -/
  | unloadRecipe (a : Nat)
  /-- CREATE_WHEEL, R414. -/
  | createWheel (a : Nat)
  /-- DELETE_WHEEL, R414. -/
  | deleteWheel (a : Nat)
  /-- BIND_MOVE, R417. -/
  | bindMove (a : Nat)
  /-- BIND_VATS, R417. -/
  | bindVats (a : Nat)
  /-- BIND_EVQS, R417. -/
  | bindEvqs (a : Nat)
  /-- BIND_SHARE, R416. -/
  | bindShare (a : Nat)
  /-- VF_GRANT, R421. -/
  | vfGrant (a : Nat)
  /-- FUNC_RESET, R422. -/
  | funcReset (a : Nat)
  /-- WHEEL_RESET, R423. -/
  | wheelReset (a : Nat)
  /-- QUERY_CAPS, R48. -/
  | queryCaps (w : Issuer)
  /-- RESYNC, R460. -/
  | resync (w : Issuer)
  /-- FREEZE, R122. -/
  | freeze (a : Nat)
  /-- SAVE_STATE, R123. -/
  | saveState (a : Nat)
  /-- RESTORE_STATE, R124. -/
  | restoreState (a : Nat)
  /-- THAW, R125. -/
  | thaw (a : Nat)
  /-- CALIBRATE, R357. -/
  | calibrate (a : Nat)
  /-- SELFTEST, R397. -/
  | selftest (a : Nat)
  /-- KEY_SESSION_OPEN, R435. -/
  | keySessionOpen (a : Nat)
  /-- KEY_SESSION_STEP, R435. -/
  | keySessionStep (a : Nat)
  /-- KEY_SESSION_CLOSE, R434. -/
  | keySessionClose (a : Nat)
  /-- FW_UPDATE, R450. -/
  | fwUpdate (a : Nat) (spiOk : Bool)
  /-- FW_ACTIVATE, R451. -/
  | fwActivate (a : Nat)
  /-- DOORBELL, R61. -/
  | doorbell (f : Fn) (n : Nat) (v : W64)
  /-- PUSH, R62. -/
  | push (f : Fn) (n : Nat) (slot : Nat) (words : List W64)
  /-- ADMIN_DOORBELL, R84. -/
  | adminDoorbell (f : Fn) (v : W64)
  /-- RING_FETCH, R64. -/
  | ringFetch (r : Ring) (count : Nat)
  /-- OWN_REREAD, R64. -/
  | ownReread (r : Ring)
  /-- ENTRY_START, R67. -/
  | entryStart (r : Ring) (i : W32)
  /-- SEGMENT_DONE, R113. -/
  | segmentDone (h : Nat) (i : W32) (j : Nat) (res : SegRes)
  /-- HEAD_PUBLISH_TIMER, R71. -/
  | headPublishTimer (h : Nat)
  /-- FREEZE_TIMEOUT, R122. -/
  | freezeTimeout (f : Fn)
  /-- VAT_TEARDOWN_COMPLETE, R50. -/
  | vatTeardownComplete (v : Nat)
  /-- VAT_LOAD, R31. -/
  | vatLoad (v : Nat)
  /-- VAT_SLOT_EXPIRY, R32. -/
  | vatSlotExpiry (v : Nat)
  /-- HOOP_RESUME, R74. -/
  | hoopResume (h : Nat)
  /-- WATCHER_REREAD, R40. -/
  | watcherReread (w : Nat)
  /-- WATCHER_POLL, R40. -/
  | watcherPoll (w : Nat)
  /-- HOOP_ENGINE_POLL, R39. -/
  | hoopEnginePoll (k : Nat)
  /-- TRANSLATION_COMPLETION, R203. -/
  | translationCompletion (p : Nat) (tag : Nat) (r : AtsResp)
  /-- WALK_COMPLETE, R222. -/
  | walkComplete (v : Nat) (va : W64) (poisoned : Bool)
  /-- PAGE_REQUEST_RESPONSE, R212. -/
  | pageRequestResponse (pf : Nat) (index : Nat) (code : PrgCode)
  /-- PRI_TIMEOUT, R212. -/
  | priTimeout (pf : Nat) (index : Nat)
  /-- PRG_INDEX_FREE, R213. -/
  | prgIndexFree (pf : Nat) (index : Nat)
  /-- INVALIDATE_REQUEST, R214. -/
  | invalidateRequest (p : Nat) (itag : Nat) (rf : Fn) (pasid : Option Nat) (addr : Nat) (len : Nat)
  /-- INVALIDATE_COMPLETION, R214. -/
  | invalidateCompletion (p : Nat) (itag : Nat)
  /-- XLATE_FLUSH, R223. -/
  | xlateFlush (f : Fn)
  /-- HOST_COMPLETION, R285. -/
  | hostCompletion (p : Nat) (tag : Nat) (c : Cpl)
  /-- COMPLETION_TIMEOUT, R285. -/
  | completionTimeout (p : Nat) (tag : Nat)
  /-- BAR2_READ, R286. -/
  | bar2Read (f : Fn) (off : Nat) (len : Nat)
  /-- BAR2_WRITE, R286. -/
  | bar2Write (f : Fn) (off : Nat) (data : List Byte) (poisoned : Bool)
  /-- BAR2_ATOMICOP, R286. -/
  | bar2AtomicOp (f : Fn) (at_ : BarPlace) (op : BarAtomic) (width : Nat) (operand : Nat) (compare : Nat)
  /-- CONFIG_REQUEST, R446. -/
  | configRequest (r : CfgRequest)
  /-- HOST_LINK_TRAINED, R277. -/
  | hostLinkTrained (p : Nat) (gts128 : Bool) (negCxl : Bool)
  /-- HOST_LINK_DOWN, R283. -/
  | hostLinkDown (p : Nat)
  /-- HOT_RESET, R283. -/
  | hotReset (p : Nat)
  /-- PF_FLR, R283. -/
  | pfFlr (p : Nat)
  /-- VF_FLR, R282. -/
  | vfFlr (p : Nat) (v : Nat)
  /-- VF_ENABLE_SET, R281. -/
  | vfEnableSet (p : Nat) (n : Nat)
  /-- VF_ENABLE_CLEAR, R282. -/
  | vfEnableClear (p : Nat)
  /-- BUS_MASTER_ENABLE, R284. -/
  | busMasterEnable (p : Nat)
  /-- PMCSR_D_STATE, R453. -/
  | pmcsrDState (p : Nat) (d3 : Bool)
  /-- L0P_REQUEST, R279. -/
  | l0pRequest (p : Nat) (width : Nat)
  /-- IDE_KM_QUERY, R290. -/
  | ideKmQuery (p : Nat)
  /-- IDE_KM_KEY_PROG, R290. -/
  | ideKmKeyProg (p : Nat) (stream : Nat) (ks : Nat)
  /-- IDE_KM_K_SET_GO, R290. -/
  | ideKmKSetGo (p : Nat) (stream : Nat) (ks : Nat)
  /-- IDE_KM_K_SET_STOP, R290. -/
  | ideKmKSetStop (p : Nat) (stream : Nat) (ks : Nat)
  /-- IDE_CHECK_FAILED, R291. -/
  | ideCheckFailed (p : Nat) (stream : Nat)
  /-- GET_MEASUREMENTS, R436. -/
  | getMeasurements (ch : SpdmCh) (index : Nat)
  /-- KEY_EXCHANGE, R432. -/
  | keyExchange (ch : SpdmCh) (pt : EcPoint)
  /-- SPDM_REQUEST, R432. -/
  | spdmRequest (ch : SpdmCh) (code : SpdmCode)
  /-- MCTP_MESSAGE, R428. -/
  | mctpMessage (m : Mctp)
  /-- SNP_DATA, R298. -/
  | snpData (p : Nat) (addr : Nat)
  /-- SNP_INV, R298. -/
  | snpInv (p : Nat) (addr : Nat)
  /-- SNP_CUR, R298. -/
  | snpCur (p : Nat) (addr : Nat)
  /-- GO_WRITEPULL, R298. -/
  | goWritePull (p : Nat) (addr : Nat)
  /-- GO_WRITEPULL_DROP, R298. -/
  | goWritePullDrop (p : Nat) (addr : Nat)
  /-- CACHE_FILL_GO, R296. -/
  | cacheFillGo (p : Nat) (addr : Nat) (st : Mesi) (data : List Byte)
  /-- HDM_REQUEST, R300. -/
  | hdmRequest (p : Nat) (win : Nat) (off : Nat) (op : HdmOp)
  /-- BIRSP, R301. -/
  | biRsp (p : Nat) (line : Nat) (wb : Option (List Byte))
  /-- BISNP_TIMEOUT, R302. -/
  | biSnpTimeout (p : Nat) (line : Nat)
  /-- FAR_LINK_UP, R303. -/
  | farLinkUp (p : Nat) (x : Expander)
  /-- FAR_MEDIA_READY, R303. -/
  | farMediaReady (p : Nat) (bytes : Nat)
  /-- FAR_RESPONSE, R304. -/
  | farResponse (p : Nat) (tag : Nat) (ok : Bool)
  /-- FAR_TIMEOUT, R304. -/
  | farTimeout (p : Nat) (tag : Nat)
  /-- FAR_LINK_DOWN, R306. -/
  | farLinkDown (p : Nat)
  /-- DIE_PARAMS, R316. -/
  | dieParams (q : Nat) (w0 : W64) (w1 : W64) (w2 : W64)
  /-- ACD_TRAIN_TIMEOUT, R315. -/
  | acdTrainTimeout (q : Nat)
  /-- ACD_FLIT, R317. -/
  | acdFlit (q : Nat) (f : Flit)
  /-- ACD_REPLAY_TIMEOUT, R326. -/
  | acdReplayTimeout (q : Nat)
  /-- ACD_LANE_FAILURE, R314. -/
  | acdLaneFailure (q : Nat) (m : Nat) (spareLeft : Bool)
  /-- ACD_MODULE_REJOIN, R314. -/
  | acdModuleRejoin (q : Nat) (m : Nat)
  /-- ACD_RD_DATA, R320. -/
  | acdRdData (q : Nat) (tag : Nat) (poisoned : Bool)
  /-- ACD_WR_ACK, R321. -/
  | acdWrAck (q : Nat) (tag : Nat)
  /-- AT_DATA, R321. -/
  | atData (q : Nat) (tag : Nat)
  /-- COND_ACK, R323. -/
  | condAck (q : Nat) (tag : Nat) (success : Bool)
  /-- ERR, R326. -/
  | err (q : Nat) (launch : Bool) (tag : Nat) (reason : Nat)
  /-- ACCEPT, R325. -/
  | accept (q : Nat) (tag : Nat) (retry : Bool)
  /-- THERMAL, R327. -/
  | thermal (q : Nat) (stack : Nat) (rate : Nat)
  /-- FAULT, R326. -/
  | fault (q : Nat) (scope : Nat) (tag : Nat) (addr : Nat) (stack : Nat)
  /-- COMPLETE, R325. -/
  | complete (q : Nat) (tag : Nat) (failed : Bool)
  /-- FENCE_HINT, R322. -/
  | fenceHint (q : Nat) (addr : Nat)
  /-- CLAIM, R324. -/
  | claim (q : Nat) (ctag : Nat) (line : Nat) (write : Bool)
  /-- LAUNCH_RESEND, R325. -/
  | launchResend (q : Nat) (tag : Nat)
  /-- NO_ACCEPT, R325. -/
  | noAccept (q : Nat) (tag : Nat)
  /-- LAUNCH_THERMAL_TIMEOUT, R112. -/
  | launchThermalTimeout (q : Nat) (tag : Nat)
  /-- ACD_REQUEST_RELEASE, R327. -/
  | acdRequestRelease (q : Nat) (tag : Nat)
  /-- HOLD_BEACON, R269. -/
  | holdBeacon (q : Nat)
  /-- HOLD_TIMEOUT, R271. -/
  | holdTimeout (q : Nat)
  /-- HOLD_SPACE_DRAIN, R270. -/
  | holdSpaceDrain (q : Nat)
  /-- RD_REQ, R251. -/
  | rdReq (p : Nat) (k : Pkt)
  /-- RD_DATA, R259. -/
  | rdData (p : Nat) (k : Pkt)
  /-- WR, R251. -/
  | wr (p : Nat) (k : Pkt)
  /-- WR_ACK, R254. -/
  | wrAck (p : Nat) (k : Pkt)
  /-- AT_REQ, R260. -/
  | atReq (p : Nat) (k : Pkt)
  /-- AT_RESP, R260. -/
  | atResp (p : Nat) (k : Pkt)
  /-- NAK, R255. -/
  | nak (p : Nat) (k : Pkt)
  /-- HOLD, R269. -/
  | hold (p : Nat) (k : Pkt)
  /-- STEP_DONE, R266. -/
  | stepDone (p : Nat) (k : Pkt)
  /-- OUTCOME, R266. -/
  | outcome (p : Nat) (k : Pkt)
  /-- JOIN, R265. -/
  | join (p : Nat) (k : Pkt)
  /-- REQ_TIMEOUT, R263. -/
  | reqTimeout (tag : Nat)
  /-- PROGRESS_TIMEOUT, R268. -/
  | progressTimeout (g : Nat)
  /-- JOURNAL_RETRY, R260. -/
  | journalRetry (tag : Nat)
  /-- JOURNAL_RECORD_EXPIRY, R260. -/
  | journalRecordExpiry (q : Nat) (key : JKey)
  /-- PEER_FRAME, R345. -/
  | peerFrame (p : Nat) (f : Frame)
  /-- FRAME_REPLAY_TIMEOUT, R347. -/
  | frameReplayTimeout (p : Nat)
  /-- REPLAY_STUCK, R347. -/
  | replayStuck (p : Nat)
  /-- PEER_KEY_RENEWAL, R261. -/
  | peerKeyRenewal (p : Nat)
  /-- PEER_SESSION_ESTABLISHED, R433. -/
  | peerSessionEstablished (p : Nat) (node : Nat) (authOk : Bool)
  /-- PEER_LINK_DOWN, R262. -/
  | peerLinkDown (p : Nat)
  /-- ROSHAM_TRAINED, R355. -/
  | roshamTrained (x : Training)
  /-- SWAP, R342. -/
  | swap (fb : Nat) (lane : Nat) (spare : Nat)
  /-- MARK, R342. -/
  | mark (fb : Nat) (lane : Nat)
  /-- DONE, R342. -/
  | done (fb : Nat) (lane : Nat)
  /-- LASER_INPUT_FAULT, R351. -/
  | laserInputFault (k : Nat)
  /-- LSR_FLT, R352. -/
  | lsrFlt
  /-- REFCLK_LOSS, R485. -/
  | refclkLoss (c : RefClk)
  /-- SOURCE_EVENT, R381. -/
  | sourceEvent (src : Nat) (ev : FaultEvent) (alive : Bool)
  /-- WINDOW_EXPIRY, R381. -/
  | windowExpiry (src : Nat)
  /-- WRITE_GATE_CLOSED, R390. -/
  | writeGateClosed (u : Unit_)
  /-- LOG_RECORD_WRITE, R402. -/
  | logRecordWrite (verifyOk : Bool)
  /-- MRAM_WRITE_WAIT_TIMEOUT, R398. -/
  | mramWriteWaitTimeout
  /-- TURN_DUE, R394. -/
  | turnDue (kind : Nat) (q : Nat)
  /-- TURN_TEST_DONE, R394. -/
  | turnTestDone (pass : Bool)
  /-- LOGIC_RAIL_LOW, R398. -/
  | logicRailLow
  /-- PHOT_RAIL_LOW, R398. -/
  | photRailLow
  /-- RAIL_18_LOW, R398. -/
  | rail18Low
  /-- RAIL_RESTORED, R398. -/
  | railRestored (r : Rail)
  /-- CORE_RAIL_LOSS, R478. -/
  | coreRailLoss
  /-- CAVE_POWER_LOSS, R478. -/
  | cavePowerLoss
  /-- THERM_TRIP, R488. -/
  | thermTrip
  /-- COLD_START, R446. -/
  | coldStart
  /-- WARM_RESET, R444. -/
  | warmReset
  /-- BU_RESET, R444. -/
  | buReset
  /-- BU_LINK_TRAINED, R307. -/
  | buLinkTrained (rate : Nat) (width : Nat)
  /-- PORT_CONFIG_COMMIT, R446. -/
  | portConfigCommit
  /-- VAT_STORE_REMIRROR, R449. -/
  | vatStoreRemirror
  /-- REST_ENTER, R454. -/
  | restEnter (f : Fn)
  /-- DEEP_REST_ENTER, R454. -/
  | deepRestEnter (f : Fn)
  /-- REST_WAKE, R455. -/
  | restWake (c : WakeCause)
  /-- WAKEN_ASSERT, R374. -/
  | wakenAssert
  /-- CAVE_ALARM_MATCH, R378. -/
  | caveAlarmMatch
  /-- DEEP_REST_WAKE, R456. -/
  | deepRestWake (c : WakeCause)
  /-- CORE_RAILS_READY, R479. -/
  | coreRailsReady
  /-- TIME_REALIGN, R18. -/
  | timeRealign
  /-- POWER_WINDOW, R428. -/
  | powerWindow (milliwatts : Nat)
  /-- ENERGY_WINDOW, R487. -/
  | energyWindow (optBits : Nat) (acdBits : Nat)
  /-- DRBG_RESEED, R430. -/
  | drbgReseed
  /-- MIG_SESSION_EXPIRY, R434. -/
  | migSessionExpiry (n : Nat)
  /-- COALESCE_TIMEOUT, R367. -/
  | coalesceTimeout (e : Nat)
  /-- MSIX_MESSAGE_SEND, R371. -/
  | msixMessageSend (e : Nat)
  /-- MSIX_UNMASK, R371. -/
  | msixUnmask (f : Fn) (m : MsixCtl)
  /-- CLAIM_READ, R368. -/
  | claimRead (f : Fn) (v : Nat)
  /-- INT_DONE, R370. -/
  | intDone (f : Fn) (v : W64)
  /-- FAST_DONE, R370. -/
  | fastDone (f : Fn) (v : W64)
  /-- VF_INT_DONE, R377. -/
  | vfIntDone (f : Fn) (v : W64)
  /-- MASK_SET, R366. -/
  | maskSet (f : Fn) (q : Nat) (v : W64)
  /-- MASK_CLR, R365. -/
  | maskClr (f : Fn) (q : Nat) (v : W64)
  /-- PEND_SET, R365. -/
  | pendSet (f : Fn) (q : Nat) (v : W64)
  /-- PEND_CLR, R365. -/
  | pendClr (f : Fn) (q : Nat) (v : W64)
  /-- EVQ_ROUTE_WRITE, R367. -/
  | evqRouteWrite (f : Fn) (e : Nat) (v : W64)
  /-- FAST_SRC_WRITE, R372. -/
  | fastSrcWrite (f : Fn) (k : Nat) (v : W64)
  /-- HOOP_ENABLE, R78. -/
  | hoopEnable (f : Fn) (n : Nat)
  /-- ADMIN_ENABLE, R84. -/
  | adminEnable (f : Fn)
  /-- ADMIN_DISABLE, R84. -/
  | adminDisable (f : Fn)
  /-- SRC_STATUS_CLEAR, R384. -/
  | srcStatusClear (f : Fn) (src : Nat)
  /-- SRC_FORCE, R383. -/
  | srcForce (f : Fn) (src : Nat)
  /-- HC_LINK_ENABLE, R275. -/
  | hcLinkEnable (f : Fn) (p : Nat)
  /-- HC_LINK_DISABLE, R283. -/
  | hcLinkDisable (f : Fn) (p : Nat)
  /-- ACD_LINK_ENABLE, R315. -/
  | acdLinkEnable (f : Fn) (q : Nat)
  /-- ACD_LINK_DISABLE, R329. -/
  | acdLinkDisable (f : Fn) (q : Nat)
  /-- RETRAIN, R315. -/
  | retrain (f : Fn) (q : Nat)
  /-- PEER_PORT_ENABLE, R355. -/
  | peerPortEnable (f : Fn) (p : Nat)
  /-- PEER_PORT_DISABLE, R262. -/
  | peerPortDisable (f : Fn) (p : Nat)
  /-- COLL_GROUP_ENABLE, R265. -/
  | collGroupEnable (f : Fn) (g : Nat) (v : W64)
  /-- COLL_GROUP_DISABLE, R273. -/
  | collGroupDisable (f : Fn) (g : Nat)
  /-- ROUTE_WRITE, R262. -/
  | routeWrite (f : Fn) (n : Nat) (v : W64)
  /-- DEVMGR_WRITE, R408. -/
  | devmgrWrite (f : Fn) (v : W64)
  /-- HDM_WIN_WRITE, R300. -/
  | hdmWinWrite (f : Fn) (p : Nat) (k : Nat) (v : W64)
  /-- REGISTER_WRITE, R475. -/
  | registerWrite (f : Fn) (off : Nat) (data : List (Option Byte)) (poisoned : Bool)
  /-- RESERVATION_TIMEOUT, R140. -/
  | reservationTimeout (home : Nat) (granule : Nat)
  /-- NT_LINE_TIMEOUT, R241. -/
  | ntLineTimeout (line : Nat)
  /-- AFF_LOAD, R230. -/
  | affLoad (addr : Nat) (len : Nat)
  /-- AFF_STORE, R240. -/
  | affStore (addr : Nat) (data : List Byte)
  /-- AFF_NT_STORE, R241. -/
  | affNtStore (addr : Nat) (data : List Byte)
  /-- AFF_RESERVED_LOAD, R244. -/
  | affReservedLoad (addr : Nat)
  /-- AFF_CONDITIONAL_STORE, R245. -/
  | affConditionalStore (addr : Nat) (off : Nat) (data : List Byte)
  /-- BAR_LD, R231. -/
  | barLd
  /-- BAR_ST, R231. -/
  | barSt
  /-- BAR_FULL, R231. -/
  | barFull
  /-- ADMIN_COMMAND_COMPLETE, R82. -/
  | adminCommandComplete (a : Nat)
  /-- PORT_CALIBRATION_DONE, R359. -/
  | portCalibrationDone (n : Nat) (result : Nat) (ms : Nat)
  /-- REST_ENTRY_COMPLETE, R454. -/
  | restEntryComplete
  /-- HOST_TEARDOWN_COMPLETE, R284. -/
  | hostTeardownComplete (p : Nat)
  /-- JOIN_ACKNOWLEDGED, R265. -/
  | joinAcknowledged (g : Nat)
  /-- REFCLK_RESTORED, R485. -/
  | refclkRestored (c : RefClk)
  /-- LASER_INPUT_RESTORED, R351. -/
  | laserInputRestored (k : Nat)
  /-- THERM_TRIP_CLEARED, R488. -/
  | thermTripCleared
  /-- BU_LINK_DOWN, R307. -/
  | buLinkDown
  /-- JTAG_ACCESS, R431. -/
  | jtagAccess (op : Jtag)
deriving DecidableEq, Repr

end Sys2Proof
end

