-- ==== Sys2Proof/Machine/Digest.lean ====
section
/-! DEFINITION. SHA-384 as FIPS 180-4 gives it: the digest of recipe and firmware images (R150, R436). -/

namespace Sys2Proof.Machine

open Sys2Proof

/-- Initial hash value of SHA-384 (FIPS 180-4). -/
def shaInit : List W64 :=
  ([0xCBBB9D5DC1059ED8, 0x629A292A367CD507, 0x9159015A3070DD17, 0x152FECD8F70E5939, 0x67332667FFC00B31,
   0x8EB44A8768581511, 0xDB0C2E0D64F98FA7, 0x47B5481DBEFA4FA4] : List Nat).map (BitVec.ofNat 64)

/-- Round constants 0 to 39 (FIPS 180-4). -/
def shaK0 : List Nat :=
  [0x428A2F98D728AE22, 0x7137449123EF65CD, 0xB5C0FBCFEC4D3B2F, 0xE9B5DBA58189DBBC, 0x3956C25BF348B538,
   0x59F111F1B605D019, 0x923F82A4AF194F9B, 0xAB1C5ED5DA6D8118, 0xD807AA98A3030242, 0x12835B0145706FBE,
   0x243185BE4EE4B28C, 0x550C7DC3D5FFB4E2, 0x72BE5D74F27B896F, 0x80DEB1FE3B1696B1, 0x9BDC06A725C71235,
   0xC19BF174CF692694, 0xE49B69C19EF14AD2, 0xEFBE4786384F25E3, 0x0FC19DC68B8CD5B5, 0x240CA1CC77AC9C65,
   0x2DE92C6F592B0275, 0x4A7484AA6EA6E483, 0x5CB0A9DCBD41FBD4, 0x76F988DA831153B5, 0x983E5152EE66DFAB,
   0xA831C66D2DB43210, 0xB00327C898FB213F, 0xBF597FC7BEEF0EE4, 0xC6E00BF33DA88FC2, 0xD5A79147930AA725,
   0x06CA6351E003826F, 0x142929670A0E6E70, 0x27B70A8546D22FFC, 0x2E1B21385C26C926, 0x4D2C6DFC5AC42AED,
   0x53380D139D95B3DF, 0x650A73548BAF63DE, 0x766A0ABB3C77B2A8, 0x81C2C92E47EDAEE6, 0x92722C851482353B]

/-- Round constants 40 to 79 (FIPS 180-4). -/
def shaK1 : List Nat :=
  [0xA2BFE8A14CF10364, 0xA81A664BBC423001, 0xC24B8B70D0F89791, 0xC76C51A30654BE30, 0xD192E819D6EF5218,
   0xD69906245565A910, 0xF40E35855771202A, 0x106AA07032BBD1B8, 0x19A4C116B8D2D0C8, 0x1E376C085141AB53,
   0x2748774CDF8EEB99, 0x34B0BCB5E19B48A8, 0x391C0CB3C5C95A63, 0x4ED8AA4AE3418ACB, 0x5B9CCA4F7763E373,
   0x682E6FF3D6B2B8A3, 0x748F82EE5DEFB2FC, 0x78A5636F43172F60, 0x84C87814A1F0AB72, 0x8CC702081A6439EC,
   0x90BEFFFA23631E28, 0xA4506CEBDE82BDE9, 0xBEF9A3F7B2C67915, 0xC67178F2E372532B, 0xCA273ECEEA26619C,
   0xD186B8C721C0C207, 0xEADA7DD6CDE0EB1E, 0xF57D4F7FEE6ED178, 0x06F067AA72176FBA, 0x0A637DC5A2C898A6,
   0x113F9804BEF90DAE, 0x1B710B35131C471B, 0x28DB77F523047D84, 0x32CAAB7B40C72493, 0x3C9EBE0A15C9BEBC,
   0x431D67C49C100D4C, 0x4CC5D4BECB3E42B6, 0x597F299CFC657E2A, 0x5FCB6FAB3AD6FAEC, 0x6C44198C4A475817]

/-- Round constants, as words. -/
def shaK : List W64 := (shaK0 ++ shaK1).map (BitVec.ofNat 64)

/-- Large sigma and small sigma functions: rotations by a and b, and a rotation or shift by c. -/
def shaSum (x : W64) (a b c : Nat) : W64 := x.rotateRight a ^^^ x.rotateRight b ^^^ x.rotateRight c
/-- Small sigma of the message schedule. -/
def shaSig (x : W64) (a b c : Nat) : W64 := x.rotateRight a ^^^ x.rotateRight b ^^^ (x >>> c)

/-- The message schedule, newest word first: n further words after the 16 of a block. -/
def shaSchedule : Nat → List W64 → List W64
  | 0, w => w
  | n + 1, w =>
    shaSchedule n ((shaSig (w.getD 1 0) 19 61 6 + w.getD 6 0 + shaSig (w.getD 14 0) 1 8 7 + w.getD 15 0) :: w)

/-- One round on the working variables a to h. -/
def shaRound (v : List W64) (kw : W64) : List W64 :=
  match v with
  | [a, b, c, d, e, f, g, h] =>
    let t1 := h + shaSum e 14 18 41 + ((e &&& f) ^^^ (~~~ e &&& g)) + kw
    let t2 := shaSum a 28 34 39 + ((a &&& b) ^^^ (a &&& c) ^^^ (b &&& c))
    [t1 + t2, a, b, c, d + t1, e, f, g]
  | _ => v

/-- The compression of one block of 16 words. -/
def shaBlock (v w : List W64) : List W64 :=
  let kw := List.zipWith (· + ·) shaK (shaSchedule 64 w.reverse).reverse
  List.zipWith (· + ·) v (kw.foldl shaRound v)

/-- A word of eight bytes, most significant first. -/
def shaWord (l : List Byte) : W64 := BitVec.ofNat 64 (l.foldl (fun x b => 256 * x + b.toNat) 0)

/-- n consecutive words of a byte string. -/
def shaWords : Nat → List Byte → List W64
  | 0, _ => []
  | n + 1, l => shaWord (l.take 8) :: shaWords n (l.drop 8)

/-- n consecutive blocks, compressed in order. -/
def shaBlocks : Nat → List Byte → List W64 → List W64
  | 0, _, v => v
  | n + 1, l, v => shaBlocks n (l.drop 128) (shaBlock v (shaWords 16 (l.take 128)))

/-- The padded message: a 1 bit, zeros, and the length in bits as 128 bits. -/
def shaPad (l : List Byte) : List Byte :=
  l ++ [0x80] ++ List.replicate ((239 - l.length % 128) % 128) 0 ++
    (List.range 16).map (fun k => BitVec.ofNat 8 (8 * l.length / 256 ^ (15 - k)))

/-- SHA-384 of a byte string: the 48 digest bytes, the first of them least significant. -/
def sha384 (l : List Byte) : Nat :=
  ((((shaBlocks ((l.length + 144) / 128) (shaPad l) shaInit).take 6).flatMap (fun w =>
    (List.range 8).map (fun k => w.toNat / 256 ^ (7 - k) % 256))).reverse).foldl (fun x b => 256 * x + b) 0

end Sys2Proof.Machine
end

