-- ==== Sys2Proof/Config.lean ====
section
/-! DEFINITION. What one implementation fixes and the manual leaves open: opaque values that no proof can see. -/

namespace Sys2Proof

/-- Free byte number n: contents the manual calls undefined (R91, R106, R116, R133). -/
opaque Config.freeByte : Nat → Byte
/-- Free choice number n: which of several outcomes the manual allows (R94). -/
opaque Config.freeNat : Nat → Nat
/-- Whether a firmware image's signature chains to the Pahasil root (R447). -/
opaque Config.fwSigned : List Byte → Bool
/-- The security version number that a firmware image carries (R447). -/
opaque Config.fwSvnOf : List Byte → Nat
/-- The outcome of one SPDM message of a migration session: an error code of R439, or the state reached and the reply (R435). -/
opaque Config.spdmStep : Nat → Nat → List Byte → Except Nat (Bool × List Byte)
/-- The first message of the requester of a migration session (R435). -/
opaque Config.spdmFirst : Nat → List Byte
/-- The digest that measurement index k reports over what it measures (R436); the manual gives its inputs, not their layout. -/
opaque Config.measure : Nat → List Byte → Nat
/-- The opaque serial number of the part (R465). -/
opaque Config.serialSeed : BitVec 64
/-- Routing ID that the host of a port uses in its requests and completions (R289); the manual gives none. -/
opaque Config.hostRid : Nat → Nat
/-- Values of AER, SPDM and MCTP responses that the manual leaves to their standards. -/
opaque Config.response : Nat → List Byte

end Sys2Proof
end

