-- ==== Sys2Proof/Machine/State.lean ====
section
/-! DEFINITION. The state of the Hivik as plain data, its faults and refusals, and the state after reset. -/

namespace Sys2Proof.Machine

open Sys2Proof

/-- Where a fetched entry stands between its arrival and its status word (R64 to R67, R266): the status word of one that is
written awaits the target's answer (R80), and one that is diverted ended under a superseded epoch (R73). -/
inductive EPhase where
  | fetched
  | checking
  | ready
  | started
  | agreeing
  | finishing
  | written
  | diverted
deriving DecidableEq, Repr

/-- State of one segment (R113): not moved, its peer reads sent, moved with requests outstanding, finished, failed. -/
inductive SegState where
  | todo
  | asked
  | busy
  | done
  | failed
deriving DecidableEq, Repr

/-- Causes for which part of a running entry fails (R115). -/
inductive FailCause where
  | target
  | peerLost (unanswered : Bool)
  | revoked (rind : Bool)
  | cellLost
  | overIndex
  | heldOut
deriving DecidableEq, Repr

/-- Completion statuses (R117, R490). -/
inductive Status where
  | ok
  | partialDone
  | malformed
  | badOpcode
  | badVat
  | xlateFault
  | rindViolation
  | aborted
  | peerLost
  | thermalTimeout
  | recipeFault
  | accumOverflow
  | notQuiesced
  | busy
  | cryptoReject
deriving DecidableEq, Repr

/-- States of a vat (R30). -/
inductive VatState where
  | free
  | idle
  | resident
  | pinned
  | aborting
deriving DecidableEq, Repr

/-- States of an event hoop's interrupt (R367). -/
inductive IntState where
  | idle
  | armed
  | signalled
  | claimed
deriving DecidableEq, Repr

/-- States of a virtual function (R121). -/
inductive VfState where
  | running
  | freezing
  | frozen
  | saving
  | restored
deriving DecidableEq, Repr

/-- Holder of a reservation: an LDR node of a replica (function, handle, replica, node), or an Affineur core (R139, R244). -/
inductive ResvOwner where
  | node (fn : Fn) (handle replica node : Nat)
  | core (k : Nat)
deriving DecidableEq, Repr

/-- Access that a translation must permit (R204). -/
inductive Access where
  | read
  | write
  | atomic
deriving DecidableEq, Repr

/-- Where a request goes (R227). -/
inductive Tgt where
  | host (p : Nat)
  | acd (q : Nat)
  | far (p : Nat)
  | peer (n : Nat)
deriving DecidableEq, Repr

/-- The work that waits on a request. -/
inductive Owner where
  | none
  | seg (h : Nat) (i : W32) (j : Nat)
  | ring (r : Ring)
  | status (h : Nat) (i : W32)
  | head (h : Nat)
  | input (h : Nat) (i : W32)
  | adminInput (a : Nat)
  | watcher (w : Nat)
  | poll (k : Nat)
  | push (h : Nat) (i : W32)
  | table (v : Nat) (va : W64)
  | claim (q ctag : Nat)
  | core
  | record (e : Nat)
  | peerReq (src tag : Nat)
  | hdm (p off : Nat)
deriving DecidableEq, Repr

/-- Kind of a request (R320, R254). -/
inductive ReqKind where
  | read
  | write
  | atomic
  | cond
deriving DecidableEq, Repr

/-- Power and start-up state (R444, R446, R452). -/
inductive Boot where
  | held
  | running
  | rest
  | deepRest
  | deepWake
  | off
deriving DecidableEq, Repr

/-- An event record before PHASE, LOSS and TIME are added, with the interrupt source that it pulses (R43, R362). -/
structure EvRec where
  cookie : W64
  kind : Nat
  status : Nat
  source : Nat
  fn : BitVec 16
  vat : Nat
  detail : Nat
  isrc : Option Nat
deriving DecidableEq, Repr

/-- Long-running admin commands that ADMIN_COMMAND_COMPLETE, or a later step, ends (R82). -/
inductive AdminKind where
  | bind (block : List W64)
  | wheelReset (w : Nat)
  | funcReset (f : Fn)
  | loadRecipe
  | unload (f : Fn) (handle : Nat)
  | saveState (f : Fn)
  | restoreState (f : Fn)
  | thaw (f : Fn)
  | resync
  | destroyEvq (e : Nat)
  | fwUpdate
  | fwActivate
  | selftest
  | calibrate (all : List Nat)
  | freeze (f : Fn)
  | disable (h : Nat)
  | destroyVat (v : Nat)
deriving DecidableEq, Repr

/-- The admin entry in progress: its index, what it is, the status and DONE_BYTES it will carry, and for CALIBRATE the
ports left and the address of the next result. -/
structure AdminWork where
  idx : W32
  kind : AdminKind
  status : Status
  doneBytes : Nat
  ports : List Nat
  dst : Nat
deriving DecidableEq, Repr

/-- An MRAM write that waits on a supply block (R398). -/
inductive MramJob where
  | cal (n ms : Nat)
  | cfg
  | log
deriving DecidableEq, Repr

/-- An SPDM session on a channel: algorithms negotiated, key exchange done, session secured (R432). -/
structure SpdmSess where
  negotiated : Bool := false
  keyed : Bool := false
  secured : Bool := false
  updates : Nat := 0
deriving DecidableEq, Repr

/-- What a port or pin sends out (R6). -/
inductive Out where
  | msix (f : Fn) (v : Nat)
  | pme (p : Nat)
  | barData (f : Fn) (data : Nat) (poisoned : Bool)
  | barUr (f : Fn)
  | aer (p : Nat) (code : Nat)
  | ats (p tag : Nat) (rf : Fn) (pasid : Option Nat) (addr : Nat)
  | pageRequest (pf index : Nat) (rf : Fn) (pasid : Option Nat) (addr : Nat) (write : Bool)
  | stopMarker (p : Nat) (pasid : Nat)
  | invalDone (p itag : Nat)
  | cfgRetry (p : Nat)
  | cfgAnswer (p n value : Nat)
  | cfgUr (p n : Nat)
  | acd (q msg tag addr : Nat) (q1 : W64)
  | acdNak (q : Nat) (from_ : BitVec 16)
  | acdReplay (q : Nat) (from_ : BitVec 16)
  | packet (p type : Nat) (k : Pkt)
  | hostReq (p tag : Nat) (kind : ReqKind) (addr len : Nat)
  | hostWr (p addr : Nat) (data : List Byte) (relaxed : Bool)
  | frameNak (p : Nat) (from_ : W32)
  | frameReplay (p : Nat) (from_ : W32)
  | d2h (p : Nat) (what : String) (addr : Nat) (data : List Byte) (bogus : Bool)
  | biSnp (p line : Nat) (inv : Bool)
  | hdm (p off : Nat) (data : List Byte) (poisoned : Bool)
  | lane (fb : Nat) (what : String) (lane spare : Nat)
  | spdm (ch : SpdmCh) (what : String) (data : List Byte)
  | spdmError (ch : SpdmCh) (code : Nat)
  | mctp (what : String) (value : Nat)
  | sensor (island k value : Nat)
  | ide (p : Nat) (what : String) (value : Nat)
  | l0p (p width : Nat) (accepted : Bool)
  | far (p : Nat) (what : String) (value : Nat)
  | migration (what : String) (value : Nat)
  | bits (what : String) (value : Nat)
deriving DecidableEq, Repr

/-- Raised by an Affineur access to an address at which R195 and R22 place no memory; safe: the spec gives such an
address no location, so no effect is lost. -/
inductive Fault where
  | absentAddress
deriving DecidableEq, Repr

/-- Raised by no meaning; notModelled stands for a command without a meaning. Safe: nothing is claimed of it. -/
inductive Refusal where
  | notModelled (mnemonic : String)
deriving DecidableEq, Repr

/-- One IDE stream of a host port (R289 to R291). -/
structure IdeStream where
  /-- key sets programmed (R290). -/
  keySet : BitVec 2 := 0
  /-- key set in use (R290). -/
  going : Option Nat := none
  /-- Insecure state (R291). -/
  insecure : Bool := false
  /-- RID association block of a Selective stream: first and last routing ID, while valid (R289). -/
  rid : Option (Nat × Nat) := none
  /-- address association block of a Selective stream: first and last address, while valid (R289). -/
  addr : Option (Nat × Nat) := none
deriving DecidableEq, Repr

/-- One RSH_MAP register (R339, R360). -/
structure FibreMap where
  /-- channel of each lane (R360 LANE). -/
  lanes : List (Nat × Nat) := []
  /-- spare channel (R360 SPARE_CH). -/
  spare : Nat := 8
  /-- spare tested and ready (R360 SPARE_OK). -/
  spareOk : Bool := false
  /-- lane whose switch is in progress (R342). -/
  switching : Option Nat := none
  /-- MARK sent or received for the lane being switched (R342). -/
  started : Bool := false
deriving DecidableEq, Repr

/-- One launch tag (R325). -/
structure Launch where
  /-- hoop (R325). -/
  hoop : Nat := 0
  /-- entry (R325). -/
  idx : W32 := 0
  /-- LAUNCH message sent (R325, R328). -/
  sent : Bool := false
  /-- ACCEPT without RETRY received (R325). -/
  accepted : Bool := false
  /-- ACCEPT with RETRY received, resend due (R325). -/
  retry : Bool := false
  /-- how the launch ended, while its entry is being resumed (R112). -/
  ended : Option Status := none
deriving DecidableEq, Repr

/-- One claim of the die (R324). -/
structure Claim where
  /-- line, a port offset (R324). -/
  line : Nat := 0
  /-- WRITE (R324). -/
  write : Bool := false
deriving DecidableEq, Repr

/-- One host window entry of a vat (R220). -/
structure Win where
  /-- function whose requester ID is used (R220 REQ_FUNC). -/
  reqFn : Fn := .bu
  /-- sign extension (R193) (R220 SX). -/
  sx : Bool := false
  /-- page requests allowed (R220 PRI_EN). -/
  priEn : Bool := false
  /-- requests carry a PASID (R220 PASID_EN). -/
  pasidEn : Bool := false
  /-- PASID (R220 PASID). -/
  pasid : Nat := 0
deriving DecidableEq, Repr

/-- One placed copy of a recipe (R151). -/
structure Replica where
  /-- slices it lies in or spans (R151). -/
  slices : List Nat := []
  /-- logical cells (64 x slice + cell) taken, one per node, 8 for a gang (R151). -/
  cells : List Nat := []
  /-- not lost to a failed cell (R161). -/
  alive : Bool := true
  /-- entries that a lost replica still waits for before its other cells are freed: hoop and index (R161). -/
  users : List (Nat × W32) := []
deriving DecidableEq, Repr

/-- The port configuration record (R446). -/
structure PortCfg where
  /-- HC_CTRL.MODE of each port (R446). -/
  far : BitVec 16 := 0
  /-- CXL_EN of each port (R446). -/
  cxlEn : BitVec 16 := 0
  /-- LINK_EN of each port (R446). -/
  hcEn : BitVec 16 := 0
  /-- RSH_CTRL.EN of each peer port (R446). -/
  peerEn : BitVec 16 := 0
  /-- LINK_EN of each Acdoic port (R446). -/
  acdEn : BitVec 4 := 0
  /-- DEVMGR (R446). -/
  devmgr : Nat := 0
deriving DecidableEq, Repr

/-- A turning or SELFTEST test (R394 to R397, R404). -/
structure Turn where
  /-- kind under test (R404 TURN_STATE.KIND). -/
  kind : Nat := 0
  /-- unit under test (R404 TURN_STATE.INDEX). -/
  index : Nat := 0
  /-- quadrant (R394). -/
  quad : Nat := 0
  /-- admin hoop whose SELFTEST it serves (R397). -/
  selftest : Option Nat := none
  /-- the unit was swapped for the spare (R394). -/
  swapped : Bool := false
  /-- unit that serves in its place (R402). -/
  spare : Nat := 65535
deriving DecidableEq, Repr

/-- One FENCE_WAIT being served (R37, R39, R42). -/
structure Wait where
  /-- hoop of the wait (R39). -/
  hoop : Nat := 0
  /-- entry of the wait (R39). -/
  idx : W32 := 0
  /-- W (R37). -/
  want : W64 := 0
deriving DecidableEq, Repr

/-- An entry that a hoop has fetched or been pushed and whose status word is not yet visible (R56, R64, R67). -/
structure Entry where
  /-- free-running entry index (R54). -/
  idx : W32 := 0
  /-- CONTROL word as fetched (R56, R57). -/
  control : W64 := 0
  /-- SRC (R56). -/
  src : W64 := 0
  /-- DST (R56). -/
  dst : W64 := 0
  /-- LEN_STRIDE (R56). -/
  lenStride : W64 := 0
  /-- OPERAND (R56). -/
  operand : W64 := 0
  /-- FENCE_VAL (R56). -/
  fenceVal : W64 := 0
  /-- COOKIE (R56). -/
  cookie : W64 := 0
  /-- OWN as fetched (R57, R64). -/
  own : Bool := false
  /-- re-reads made of an entry fetched with OWN = 0 (R64). -/
  ownTries : Nat := 0
  /-- where the entry stands (R64 to R67). -/
  phase : EPhase := .fetched
  /-- its segments, once started (R113). -/
  segs : List SegState := []
  /-- segments that must stop before a revoked page: segment, its units before that page, cause (R24, R218). -/
  stops : List (Nat × (Nat × FailCause)) := []
  /-- bytes of each segment known written, beside segs (R116, R57). -/
  segDone : List Nat := []
  /-- parameter qwords read at queue time (R95, 05 R142). -/
  params : List W64 := []
  /-- REDUCE operand list read at queue time (R97). -/
  opsRead : List W64 := []
  /-- GATHER or SCATTER index array read at queue time (R93). -/
  idxRead : List Nat := []
  /-- page list read at queue time (R106). -/
  pages : List W64 := []
  /-- inputs: 0 not asked for, 1 asked for, 2 read (R208). -/
  inputs : Nat := 0
  /-- pages of its range list that the check process has found good, from the first on (R23, R208). -/
  checked : Nat := 0
  /-- usable slices taken by the Harp when the entry started (R114). -/
  slices : List Nat := []
  /-- some byte or operand of the entry has been applied (R115). -/
  applied : Bool := false
  /-- a RESOLVE or REDUCE element was flagged (R187). -/
  flagged : Bool := false
  /-- first failure met while running (R115). -/
  cause : Option FailCause := none
  /-- completion status once decided (R117). -/
  status : Status := .ok
  /-- SEGMAP of the status word to be written (R57, 04 R115). -/
  segmap : Bool := false
  /-- DONE_BYTES of the status word to be written (R57). -/
  done : Nat := 0
  /-- epoch under which the entry was issued (R73). -/
  epoch : BitVec 8 := 0
  /-- order of its validation among all entries (R210). -/
  order : Nat := 0
  /-- bytes of output that a QUERY_CAPS or RESYNC has sent (R120, R493). -/
  report : Nat := 0
  /-- the entry has started: from then on it is in flight (R67). -/
  begun : Bool := false
  /-- fetched again after a move or THAW, at or below the last entry started (R74, 04 R125). -/
  again : Bool := false
  /-- FENCE_SIGNALLED record that takes the place of ENTRY_DONE when the entry ends OK (R42, 04 R104). -/
  sig : Option EvRec := none
deriving DecidableEq, Repr

/-- One data hoop with its doorbell page registers (R11, R35, R59, R85). -/
structure Hoop where
  /-- the hoop exists (R85 HOOP_STATE.EXISTS). -/
  present : Bool := false
  /-- owning function (R35). -/
  fn : Fn := .bu
  /-- its vat (R85 RING_CFG.VAT_ID). -/
  vat : Nat := 0
  /-- event hoop of its ENTRY_DONE records (R85 RING_CFG.EVQ). -/
  evq : Nat := 0
  /-- ring address (R85 RING_BASE). -/
  ringBase : Nat := 0
  /-- head word address (R85 HEAD_ADDR). -/
  headAddr : Nat := 0
  /-- publication count of R71 (R85 RING_CFG.PUB_COUNT). -/
  pubCount : Nat := 0
  /-- log2 of the ring's entries (R85 RING_CFG.LOG2_SIZE). -/
  log2 : Nat := 0
  /-- doorbell slot of a virtual function's hoop (R119 VF_SLOT). -/
  vfSlot : Nat := 0
  /-- hoop enabled (R85 HOOP_STATE.ENABLED). -/
  enabled : Bool := false
  /-- a gentle disable is in progress (R77). -/
  disabling : Bool := false
  /-- admin hoop whose DISABLE_HOOP waits for IDLE (R77). -/
  disableBy : Option Nat := none
  /-- disabled, nothing in flight, head published equal to tail (R85 HOOP_STATE.IDLE). -/
  idle : Bool := true
  /-- between an epoch increment and resumption (R76, R85 HOOP_STATE.MIGRATING). -/
  migrating : Bool := false
  /-- current epoch (R73, R85 HOOP_STATE.EPOCH). -/
  epoch : BitVec 8 := 0
  /-- hardware head (R71, R85 HOOP_STATE.HEAD). -/
  head : W32 := 0
  /-- accepted tail (R61 TAIL). -/
  tail : W32 := 0
  /-- last published head (R71). -/
  pub : W32 := 0
  /-- next index to fetch from the ring (R64). -/
  fetchNext : W32 := 0
  /-- the 1 us publication timer runs (R71). -/
  pubTimer : Bool := false
  /-- a publication is due and waits for a translation (R71). -/
  pubDue : Bool := false
  /-- results diverted to whey, saturating (R73, R85 WHEY_COUNT). -/
  whey : W32 := 0
  /-- RING_FAULT (R85 HOOP_ERR[5]). -/
  ringFault : Bool := false
  /-- DB_WHILE_DISABLED (R85 HOOP_ERR[4]). -/
  dbDisabled : Bool := false
  /-- PUSH_MISMATCH (R85 HOOP_ERR[3]). -/
  pushMismatch : Bool := false
  /-- DB_BAD_WIDTH (R85 HOOP_ERR[2]). -/
  dbBadWidth : Bool := false
  /-- TAIL_RANGE (R85 HOOP_ERR[1]). -/
  tailRange : Bool := false
  /-- OWN_TIMEOUT (R85 HOOP_ERR[0]). -/
  ownTimeout : Bool := false
  /-- push buffer: index and the eight words (R63). -/
  pushed : List (W32 × List W64) := []
  /-- fetched entries from head on, in index order (R64, R67). -/
  entries : List Entry := []
  /-- entries complete beyond the hardware head (R71). -/
  doneAhead : List W32 := []
  /-- after a move or THAW: entries below this index whose status word shows OWN = 0 are complete (R74, 04 R125). -/
  resumeTo : Option W32 := none
  /-- unit whose drain or gate closure a moving hoop waits for (R74). -/
  oldUnit : Option Unit_ := none
  /-- records of completed entries that wait for the head publication before them (R70). -/
  recsDue : List EvRec := []
  /-- starts of other hoops of its engine since this hoop became startable (R69). -/
  passed : Nat := 0
deriving DecidableEq, Repr

/-- The admin hoop of a physical function, or of the bring-up function (R82, R84, R308). -/
structure AdminHoop where
  /-- ring address (R84 ADMIN_BASE). -/
  base : Nat := 0
  /-- log2 of the ring's entries (R84 ADMIN_CFG.LOG2_SIZE). -/
  log2 : Nat := 4
  /-- event hoop of admin records (R84 ADMIN_CFG.EVQ). -/
  evq : Nat := 0
  /-- post ENTRY_DONE records (R84 ADMIN_CFG.EVQ_VALID). -/
  evqValid : Bool := false
  /-- head word address (R84 ADMIN_HEAD_ADDR). -/
  headAddr : Nat := 0
  /-- a write of ENABLE = 1 failed (R84 ADMIN_CTRL.CFG_ERR). -/
  cfgErr : Bool := false
  /-- admin hoop enabled (R84 ADMIN_CTRL.ENABLE). -/
  enable : Bool := false
  /-- admin hoop running (R84 ADMIN_STATE.ENABLED). -/
  running : Bool := false
  /-- no admin entry in progress (R84 ADMIN_STATE.IDLE). -/
  idle : Bool := true
  /-- hardware head (R84 ADMIN_STATE.HEAD). -/
  head : W32 := 0
  /-- accepted tail (R84 ADMIN_TAIL). -/
  tail : W32 := 0
  /-- last published head (R71, R82). -/
  pub : W32 := 0
  /-- next index to fetch (R64). -/
  fetchNext : W32 := 0
  /-- RING_FAULT (R84 ADMIN_ERR[5]). -/
  ringFault : Bool := false
  /-- DB_WHILE_DISABLED (R84 ADMIN_ERR[4]). -/
  dbDisabled : Bool := false
  /-- DB_BAD_WIDTH (R84 ADMIN_ERR[2]). -/
  dbBadWidth : Bool := false
  /-- TAIL_RANGE (R84 ADMIN_ERR[1]). -/
  tailRange : Bool := false
  /-- OWN_TIMEOUT (R84 ADMIN_ERR[0]). -/
  ownTimeout : Bool := false
  /-- fetched entries in index order (R64). -/
  entries : List Entry := []
  /-- long-running command in progress (R82, 16 R450). -/
  cur : Option AdminWork := none
deriving DecidableEq, Repr

/-- One vat record of the vat store (R27, R30, R34, R206, R220). -/
structure Vat where
  /-- FREE, IDLE, RESIDENT, PINNED or ABORTING (R30). -/
  st : VatState := .free
  /-- owning function (R27). -/
  fn : Fn := .bu
  /-- wheel (R27). -/
  wheel : Nat := 0
  /-- physical address of the level-4 table (R220 ROOT). -/
  root : Nat := 0
  /-- a root exists (R220 ROOT_VALID). -/
  rootValid : Bool := false
  /-- event hoop for VAT_FAULT and VAT_ABORTED (R220 FAULT_EVQ). -/
  faultEvq : Nat := 0
  /-- such records are posted (R220 FAULT_EVQ_VALID). -/
  faultEvqValid : Bool := false
  /-- host windows that may be used (R220 WINDOW_MASK). -/
  windowMask : BitVec 16 := 0
  /-- window entries (R220). -/
  windows : List (Nat × Win) := []
  /-- created with PIN (R33). -/
  pin : Bool := false
  /-- hardware slot held (R30, R31). -/
  slot : Option Nat := none
  /-- DEVICE_TIME of the load into the slot (R32). -/
  loadedAt : Nat := 0
  /-- order of last use, for eviction (R31). -/
  lastUse : Nat := 0
  /-- slot time expired: starts no new entry (R32). -/
  expired : Bool := false
  /-- XLATE_SEEN (R34). -/
  xlateSeen : Bool := false
  /-- RIND_SEEN (R34). -/
  rindSeen : Bool := false
  /-- PAGE_REQ_SEEN (R34). -/
  pageReqSeen : Bool := false
  /-- PARTIAL_SEEN (R34). -/
  partialSeen : Bool := false
  /-- cause that set XLATE_SEEN or RIND_SEEN (R206 CAUSE). -/
  cause : Nat := 0
  /-- address that set it (R206 FAULT_VA). -/
  faultVa : W64 := 0
  /-- page requests outstanding (R34). -/
  prOut : Nat := 0
  /-- admin hoop whose DESTROY_VAT waits for the teardown (R50). -/
  destroyBy : Option Nat := none
  /-- the teardown posts no VAT_ABORTED and its hoops' host writes are discarded (R52, 10 R283). -/
  tearSilent : Bool := false
deriving DecidableEq, Repr

/-- One resident fence watcher (R39 to R42). -/
structure Watcher where
  /-- vat of the address (R39). -/
  vat : Nat := 0
  /-- fence address (R39). -/
  va : W64 := 0
  /-- waits sharing the watcher (R39). -/
  waits : List Wait := []
  /-- VALUE as last read (R461). -/
  lastVal : W64 := 0
deriving DecidableEq, Repr

/-- One event hoop with its route and interrupt state (R35, R43, R45, R367 to R370). -/
structure EvHoop where
  /-- the event hoop exists (R35). -/
  present : Bool := false
  /-- owning function (R119). -/
  fn : Fn := .bu
  /-- ring address (R119). -/
  ringBase : Nat := 0
  /-- vat that translates the ring; none: reached as the admin ring is (R36). -/
  vat : Option Nat := none
  /-- log2 of the ring's records (R119). -/
  log2 : Nat := 0
  /-- slot of the next record (R461 next slot). -/
  wr : Nat := 0
  /-- PHASE of the next record (R43 PHASE). -/
  phase : Bool := true
  /-- slot at which software last stopped reading (R369 READ). -/
  rd : Nat := 0
  /-- records dropped since the last record written (R43 LOSS). -/
  loss : Bool := false
  /-- route in force (R375 EVQ_ROUTE.EN). -/
  en : Bool := false
  /-- first vector (R375 VECTOR). -/
  vector : Nat := 0
  /-- target mask (R375 TMASK). -/
  tmask : BitVec 8 := 0
  /-- records dropped, saturating at 4,095 (R375 DROPPED). -/
  dropped : Nat := 0
  /-- coalescing count (R375 COUNT). -/
  coalCount : Nat := 0
  /-- coalescing time (R375 TIME_US). -/
  coalTime : Nat := 0
  /-- interrupt state (R367). -/
  ist : IntState := .idle
  /-- events counted (R367). -/
  cnt : Nat := 0
  /-- events counted since the claim (R370). -/
  sinceClaim : Nat := 0
  /-- DEVICE_TIME at which the timer started (R367). -/
  timerAt : Nat := 0
  /-- next record's slot when SIGNALLED was entered (R368). -/
  sigSlot : Nat := 0
  /-- per slot from rd on, the sources of the unconsumed records (R370). -/
  writers : List Nat := []
  /-- SIGNALLED was entered and its messages are not yet sent (R371). -/
  msgDue : Bool := false
deriving DecidableEq, Repr

/-- One MSI-X table entry (R373, R376). -/
structure MsixEntry where
  /-- message address (R373, R376). -/
  addr : W64 := 0
  /-- message data (R373, R376). -/
  data : W32 := 0
  /-- vector mask (R368, R371). -/
  mask : Bool := true
  /-- pending bit (R368, R371). -/
  pba : Bool := false
deriving DecidableEq, Repr

/-- Per-function state. -/
structure FnState where
  /-- the function is in D3hot (R452, R453). -/
  dstate3 : Bool := false
  /-- PME_En (R453). -/
  pmeEn : Bool := false
  /-- MSI-X Enable (R371). -/
  msixEn : Bool := false
  /-- Function Mask (R371). -/
  funcMask : Bool := false
  /-- MSI-X table and PBA (R373). -/
  msix : List (Nat × MsixEntry) := []
  /-- claim queues, oldest first (R367, R368). -/
  claimQ : List (Nat × List Nat) := []
  /-- DONE_BAD (R375 INT_ERR[1]). -/
  doneBad : Bool := false
  /-- READ_BAD (R375 INT_ERR[0]). -/
  readBad : Bool := false
  /-- DONE_BAD of the fast bank (R376 FAST_ERR[1]). -/
  fDoneBad : Bool := false
  /-- READ_BAD of the fast bank (R376 FAST_ERR[0]). -/
  fReadBad : Bool := false
  /-- SLOT_BAD (R376 FAST_ERR[2]). -/
  slotBad : Bool := false
  /-- changes of the capability table (R465 CAPS_GEN). -/
  capsGen : BitVec 8 := 0
  /-- a virtual function granted from the pool (R281). -/
  granted : Bool := false
  /-- state of a virtual function (R121). -/
  vfState : VfState := .running
  /-- admin hoop whose FREEZE waits (R122). -/
  freezeBy : Option Nat := none
  /-- grant of vats (R421). -/
  grVats : Nat := 0
  /-- grant of data hoops (R421). -/
  grHoops : Nat := 0
  /-- grant of event hoops (R421). -/
  grEvqs : Nat := 0
  /-- BYTES_RD (R442). -/
  bytesRd : W64 := 0
  /-- BYTES_WR (R442). -/
  bytesWr : W64 := 0
  /-- ENTRIES (R442). -/
  entriesDone : W64 := 0
  /-- BYTES_RD as it stood at the last whole millisecond (R427, R442). -/
  snapRd : W64 := 0
  /-- BYTES_WR as it stood at the last whole millisecond (R427, R442). -/
  snapWr : W64 := 0
  /-- ENTRIES as it stood at the last whole millisecond (R427, R442). -/
  snapEntries : W64 := 0
deriving DecidableEq, Repr

/-- One interrupt source (R362 to R366). -/
structure Src where
  /-- MASK (R365). -/
  mask : Bool := false
  /-- PENDING (R365). -/
  pending : Bool := false
  /-- SENSE; none: its reset value (R364). -/
  sense : Option Nat := none
  /-- LEVEL: re-sampled since its last event (R364). -/
  armed : Bool := true
  /-- last level of a condition source's input (R363). -/
  level : Bool := false
  /-- event hoop of the source's last record (R362). -/
  evq : Option Nat := none
deriving DecidableEq, Repr

/-- One fast source slot (R372, R376). -/
structure FastSrc where
  /-- slot in use (R376 FAST_SRC.VALID). -/
  valid : Bool := false
  /-- source named (R376 FAST_SRC.SOURCE). -/
  source : Nat := 0
  /-- physical function that set the slot (R372). -/
  by_ : Nat := 0
  /-- mode of the named source (R364, R376 FAST_SRC.SENSE) (R376). -/
  sense : Nat := 1
deriving DecidableEq, Repr

/-- One Rennet source SRC[s] (R381 to R384, R404). -/
structure Rsrc where
  /-- sticky event bit (R404 STATUS). -/
  status : Bool := false
  /-- severe (R404 SEVERE). -/
  severe : Bool := false
  /-- condition persists (R404 CAUSE). -/
  cause : Bool := false
  /-- severity came from an uncorrectable event (R404 UNCORR). -/
  uncorr : Bool := false
  /-- events in the window (R404 COUNT). -/
  count : Nat := 0
  /-- N; none: the default of R380 (R404 THRESH). -/
  thresh : Option Nat := none
  /-- window in us; none: the default of R380 (R404 WINDOW). -/
  window : Option Nat := none
  /-- REACTION taken, 0 if none (R385). -/
  reaction : Nat := 0
  /-- severity came from FORCE (R383). -/
  forced : Bool := false
  /-- the source drove its scope into the safe state (R393). -/
  drives : Bool := false
deriving DecidableEq, Repr

/-- One persistent log record (R402). -/
structure LogRec where
  /-- SEQ (R402). -/
  seq : Nat := 0
  /-- BOOT (R402). -/
  boot : Nat := 0
  /-- TIME (R402). -/
  time : Nat := 0
  /-- SOURCE (R402). -/
  source : Nat := 0
  /-- REACTION (R402). -/
  reaction : Nat := 0
  /-- FLAGS[0] (R402). -/
  uncorr : Bool := false
  /-- FLAGS[1] (R402). -/
  forced : Bool := false
  /-- COUNT (R402). -/
  count : Nat := 0
  /-- THRESH (R402). -/
  thresh : Nat := 0
  /-- SPARE (R402). -/
  spare : Nat := 65535
deriving DecidableEq, Repr

/-- Spares of one quadrant (R388, R404 SPARE_Q). -/
structure SpareQ where
  /-- physical ladles out of service (R404 LADLES_FAILED). -/
  ladleFailed : List Nat := []
  /-- physical hoop engines out of service (R404 HE_FAILED). -/
  heFailed : List Nat := []
  /-- physical ladle that is the spare (R404 LADLE_SPARE). -/
  ladleSpare : Option Nat := some 8
  /-- physical hoop engine that is the spare (R404 HE_SPARE). -/
  heSpare : Option Nat := some 4
  /-- physical ladle serving each slice of the quadrant (R380). -/
  ladleMap : List (Nat × Nat) := []
  /-- physical hoop engine serving each pair of slices (R380). -/
  heMap : List (Nat × Nat) := []
  /-- logical cells (64 x slice + cell) out of service (R404 CELLS_OUT, 05 R161). -/
  cellsOut : List Nat := []
  /-- tiles (4 x slice + tile) whose spare is in service (R404 CELL_SPARES_FREE). -/
  tilesUsed : List Nat := []
  /-- tiles whose spare cell is out of service (R386). -/
  cellSpareBad : List Nat := []
  /-- next unit of each kind to turn, round robin (R394). -/
  nextTurn : List (Nat × Nat) := []
deriving DecidableEq, Repr

/-- One loaded recipe (R150 to R153). -/
structure Recipe where
  /-- function for which it is loaded (R150). -/
  fn : Fn := .bu
  /-- handle (R150). -/
  handle : Nat := 0
  /-- image bytes (R143). -/
  image : List Byte := []
  /-- replicas (R151). -/
  replicas : List Replica := []
  /-- admin hoop whose UNLOAD_RECIPE waits for entries in flight (R152). -/
  unloadBy : Option Nat := none
deriving DecidableEq, Repr

/-- One reservation (R139, R140, R244). -/
structure Resv where
  /-- LDR node of a replica, or Affineur core (R139, 08 R244). -/
  owner : ResvOwner := .core 0
  /-- granule address (global location) (R139, 08 R244). -/
  granule : Nat := 0
  /-- watch slot, on compute-die memory (R323). -/
  watch : Option Nat := none
deriving DecidableEq, Repr

/-- One cached translation (R202, R217). -/
structure Xlat where
  /-- ASID of a device-local translation (R217). -/
  vat : Nat := 0
  /-- host port of an ATC entry; none: device-local (R202). -/
  port : Option Nat := none
  /-- REQ_FUNC tag (R202). -/
  reqFn : Fn := .bu
  /-- PASID tag or its absence (R202). -/
  pasid : Option Nat := none
  /-- untranslated page address (R202). -/
  page : Nat := 0
  /-- page size (R202). -/
  size : Nat := 4096
  /-- translated address (R202). -/
  pa : Nat := 0
  /-- READ or R (R204). -/
  rd : Bool := false
  /-- WRITE or W (R204). -/
  wr : Bool := false
  /-- ATOMIC (R204). -/
  at_ : Bool := false
  /-- U = 1: accessed with untranslated requests (R203). -/
  untrans : Bool := false
  /-- an Invalidate Request has stopped accesses through it (R214). -/
  stopped : Bool := false
  /-- a valid entry of the ATC (R202). -/
  atc : Bool := false
  /-- slices whose micro-TLB holds it (R209); 32: kept for accesses made for no hoop. -/
  slices : List Nat := []
deriving DecidableEq, Repr

/-- One outstanding Translation Request (R203, R216). -/
structure AtsReq where
  /-- host port (R203). -/
  port : Nat := 0
  /-- request number (R203). -/
  tag : Nat := 0
  /-- vat that asked (R203). -/
  vat : Nat := 0
  /-- REQ_FUNC (R203). -/
  reqFn : Fn := .bu
  /-- PASID (R203). -/
  pasid : Option Nat := none
  /-- untranslated address asked for (R203). -/
  page : Nat := 0
  /-- access needed (R204). -/
  need : Access := .read
  /-- its vat's translations were removed since (R50). -/
  stale : Bool := false
  /-- sent after a successful page request (R212). -/
  afterPri : Bool := false
  /-- device virtual address that asked (R203). -/
  va : W64 := 0
  /-- slice for which it was sent (R209). -/
  slice : Nat := 32
  /-- ranges of the Invalidate Requests for its tag received since it was sent: start, length (R216). -/
  invals : List (Nat × Nat) := []
deriving DecidableEq, Repr

/-- One page request group (R211 to R213). -/
structure PageReq where
  /-- physical function whose index it uses (R211). -/
  pf : Nat := 0
  /-- group index (R211). -/
  index : Nat := 0
  /-- vat (R211). -/
  vat : Nat := 0
  /-- requester (R211). -/
  reqFn : Fn := .bu
  /-- host port (R211). -/
  port : Nat := 0
  /-- PASID (R211). -/
  pasid : Option Nat := none
  /-- untranslated address (R211). -/
  page : Nat := 0
  /-- access asked for (R211). -/
  need : Access := .read
  /-- device virtual address (R211). -/
  va : W64 := 0
  /-- slice for which it was sent (R209). -/
  slice : Nat := 32
  /-- cancelled or timed out: the index waits to be freed (R213). -/
  dead : Bool := false
deriving DecidableEq, Repr

/-- One Invalidate Request being processed (R214). -/
structure Inval where
  /-- host port (R214). -/
  port : Nat := 0
  /-- its tag (R214). -/
  itag : Nat := 0
  /-- requester (R214). -/
  reqFn : Fn := .bu
  /-- PASID (R214). -/
  pasid : Option Nat := none
  /-- start of the range (R214). -/
  lo : Nat := 0
  /-- length; 2^64: the whole address space (R215). -/
  len : Nat := 0
deriving DecidableEq, Repr

/-- One pointer entry of the walk cache (R222). -/
structure WalkPtr where
  /-- ASID (R222). -/
  vat : Nat := 0
  /-- level of the table pointed to (R196, R222). -/
  level : Nat := 0
  /-- index of the span of addresses that the table serves (R217). -/
  span : Nat := 0
  /-- address of the table (R197). -/
  table : Nat := 0
deriving DecidableEq, Repr

/-- One walk in progress (R222). -/
structure Walk where
  /-- vat (R222). -/
  vat : Nat := 0
  /-- address (R222). -/
  va : W64 := 0
  /-- access needed (R204). -/
  need : Access := .read
  /-- slice whose micro-TLB missed (R222). -/
  slice : Nat := 32
deriving DecidableEq, Repr

/-- One held slot of a micro-TLB (R209, R210). -/
structure Held where
  /-- slice of the micro-TLB (R209). -/
  slice : Nat := 0
  /-- hoop of the entry (R209). -/
  hoop : Nat := 0
  /-- entry that holds it (R209). -/
  idx : W32 := 0
  /-- vat (R209). -/
  vat : Nat := 0
  /-- page (R209). -/
  page : Nat := 0
  /-- access needed (R204). -/
  need : Access := .read
deriving DecidableEq, Repr

/-- A failed translation waiting for the entry that needs it (R205, R208, R218). -/
structure XFault where
  /-- vat (R205). -/
  vat : Nat := 0
  /-- 4 KiB page address (R205). -/
  page : Nat := 0
  /-- access needed (R204). -/
  need : Access := .read
  /-- cause (R205). -/
  cause : Nat := 0
deriving DecidableEq, Repr

/-- One outstanding request of the Hivik on a port, standing for the requests of one piece of work (R285, R304, R319, R254). -/
structure Req where
  /-- port or node (R285, 11 R319, 09 R253). -/
  tgt : Tgt := .host 0
  /-- tag (R285, 11 R319, 09 R253). -/
  tag : Nat := 0
  /-- work that waits on it (R285). -/
  owner : Owner := .none
  /-- read, write, atomic or conditional (R320, 09 R254). -/
  kind : ReqKind := .read
  /-- first address (R320). -/
  addr : Nat := 0
  /-- bytes (R320). -/
  len : Nat := 0
  /-- sent; false: waits for a tag, credits, rate, retry or hold (R285, R318, R319, R327). -/
  sent : Bool := true
  /-- has a tag of its target's tags; false: waits for one (R285, 11 R319, 09 R253). -/
  tagged : Bool := true
  /-- NAKed with HOLD_FULL (R270). -/
  held : Bool := false
  /-- epoch under which it was issued (R73). -/
  epoch : BitVec 8 := 0
  /-- traffic class of a peer request (R256). -/
  tc : Nat := 2
  /-- peer port of the first hop of a peer request (R259). -/
  hop : Option Nat := none
  /-- wheel that issues a peer request (R257). -/
  wheel : Nat := 0
  /-- packet of a peer request, for sending again (R260, R270). -/
  pkt : Option Pkt := none
deriving DecidableEq, Repr

/-- One journal record (R75, R112, R260). -/
structure Journal where
  /-- entry of a hoop, or peer entry and segment (R75, 09 R260). -/
  key : JKey := .entry 0 0
  /-- operands applied per segment (R75). -/
  marks : List (Nat × Nat) := []
  /-- resolved values kept per segment (R100). -/
  kept : List (Nat × List Byte) := []
deriving DecidableEq, Repr

/-- One host-class port (R275, R309). -/
structure HcPort where
  /-- at most 64 GT/s (R309 HC_CTRL.RATE_CAP). -/
  rateCap : Bool := false
  /-- offer CXL (R309 HC_CTRL.CXL_EN). -/
  cxlEn : Bool := false
  /-- FAR mode (R309 HC_CTRL.MODE). -/
  far : Bool := false
  /-- link enabled (R309 HC_CTRL.LINK_EN). -/
  linkEn : Bool := false
  /-- MODE in effect: FAR (R275). -/
  modeAct : Bool := false
  /-- CXL_EN in effect (R275). -/
  cxlAct : Bool := false
  /-- link trained (R309 HC_STATE.LINK_UP). -/
  linkUp : Bool := false
  /-- trained as CXL (R309 HC_STATE.CXL). -/
  cxl : Bool := false
  /-- link rate code (R309 HC_STATE.RATE). -/
  rate : Nat := 0
  /-- lanes in use (R309 HC_STATE.WIDTH). -/
  width : Nat := 0
  /-- L0p request waiting for a spare switch (R340). -/
  pendWidth : Option Nat := none
  /-- FAR_NOT_CXL to LINK_DOWN (R309 HC_ERR). -/
  err : BitVec 10 := 0
  /-- coherent window (R309 COH_WIN). -/
  cohWin : W64 := 0
  /-- HDM window 0 (R309 HDM_WIN[0]). -/
  hdm0 : W64 := 0
  /-- HDM window 1 (R309 HDM_WIN[1]). -/
  hdm1 : W64 := 0
  /-- the expander is enumerated and its HDM decoder programmed (R303). -/
  farOk : Bool := false
  /-- far tier in service (R309 FAR_STATE.READY). -/
  ready : Bool := false
  /-- a far-memory key is held (R309 FAR_STATE.ENC_KEY_VALID). -/
  encKey : Bool := false
  /-- capacity in 256 MiB units (R309 FAR_STATE.CAPACITY). -/
  capacity : Nat := 0
  /-- held Function Level Resets, by index (R309 VF_FLR_REQ). -/
  vfFlrReq : List Nat := []
  /-- Bus Master Enable of the physical function (R284). -/
  busMaster : Bool := false
  /-- VF Enable (R281). -/
  vfEnable : Bool := false
  /-- virtual functions granted (R309 HC_STATE.NUM_VFS). -/
  numVfs : Nat := 0
  /-- the port's host is lost (R284). -/
  lost : Bool := false
  /-- the teardown of R283 is not complete (R284). -/
  tearing : Bool := false
  /-- port in its safe state (R391). -/
  safe : Bool := false
  /-- IDE streams: 0 Link, 1 to 4 Selective (R289). -/
  ide : List (Nat × IdeStream) := []
  /-- Max_Payload_Size (R286). -/
  mps : Nat := 512
  /-- Relaxed Ordering enable (R235). -/
  relaxed : Bool := true
  /-- Invalidate Requests being processed (R224 INVAL_PENDING). -/
  invals : Nat := 0
  /-- page requests that the host allows the physical function and its virtual functions at once (R211; at reset 512, a DESIGN CHOICE: log entry 143). -/
  priAlloc : Nat := 512
deriving DecidableEq, Repr

/-- One Acdoic port (R311 to R329). -/
structure AcdPort where
  /-- port enabled (R329 ACD_CTRL.LINK_EN). -/
  linkEn : Bool := false
  /-- training in progress; RETRAIN reads 1 while set by RETRAIN (R329 ACD_CTRL.RETRAIN). -/
  training : Bool := false
  /-- RETRAIN not yet ended (R329 ACD_CTRL.RETRAIN). -/
  retrain : Bool := false
  /-- port up (R329 ACD_STATE.UP). -/
  up : Bool := false
  /-- safe state (R329 ACD_STATE.SAFE). -/
  safe : Bool := false
  /-- DIE_PARAMS accepted (R329 ACD_STATE.PARAMS_VALID). -/
  paramsValid : Bool := false
  /-- modules in the stripe (R329 ACD_STATE.MODULE_MASK). -/
  modules : BitVec 16 := 0
  /-- NO_ACCEPT to LINK_DOWN (R329 ACD_ERR). -/
  err : BitVec 8 := 0
  /-- stack size (R329 ACD_DIE0.STACK_LOG2). -/
  stackLog2 : Nat := 0
  /-- stacks (R329 ACD_DIE0.STACKS). -/
  stackCount : Nat := 0
  /-- on-chip bytes per cluster (R329 ACD_DIE1.ONCHIP_BYTES). -/
  onchip : Nat := 0
  /-- splits allowed (R329 ACD_DIE1.SPLIT_MASK). -/
  splitMask : BitVec 8 := 0
  /-- default split (R329 ACD_DIE1.DEFAULT_SPLIT). -/
  defSplit : Nat := 0
  /-- threads per group (R329 ACD_DIE1.MAX_THREADS). -/
  maxThreads : Nat := 0
  /-- permitted rate of each stack (R329 ACD_THERMAL). -/
  rates : List (Nat × Nat) := []
  /-- modules out of the stripe for good (R314). -/
  dead : BitVec 16 := 0
  /-- redundant lanes in use per module (R329 ACD_REPAIR). -/
  repaired : List (Nat × Nat) := []
  /-- REQ slots free at the die (R318). -/
  reqCred : Nat := 0
  /-- slots of the die's REQ buffer (R316 REQ_CREDITS). -/
  reqSize : Nat := 0
  /-- slots of the die's CTL buffer (R316 CTL_CREDITS). -/
  ctlSize : Nat := 0
  /-- CTL slots free at the die (R318). -/
  ctlCred : Nat := 0
  /-- NTC slots free at the Hivik (R318). -/
  ntcFree : Nat := 1024
  /-- NTC slots to return to the die (R318). -/
  credRet : Nat := 0
  /-- SEQ of the next flit sent (R317). -/
  txSeq : BitVec 16 := 0
  /-- SEQ of the next flit expected (R317). -/
  rxSeq : BitVec 16 := 0
  /-- next SEQ not yet acknowledged by the die (R317). -/
  ackd : BitVec 16 := 0
  /-- flits kept for replay, by SEQ (R317). -/
  replay : List (BitVec 16) := []
  /-- launch tags in use (R325, R329 ACD_OUT.LAUNCHES). -/
  launches : List (Nat × Launch) := []
  /-- claims outstanding (R324). -/
  claims : List (Nat × Claim) := []
  /-- watch slots in use: slot and granule (R323). -/
  watches : List (Nat × Nat) := []
  /-- DEVICE_TIME at which a thermal hold of the port began (R269, R271). -/
  holdSince : Option Nat := none
  /-- writes held in the hold space, oldest first: offset and bytes (R270, 05 R133). -/
  heldWr : List (Nat × List Byte) := []
  /-- the hold has lasted 500 ms (R271). -/
  holdTimedOut : Bool := false
deriving DecidableEq, Repr

/-- One peer port (R261, R273, R345 to R348). -/
structure PeerPort where
  /-- enable (R360 RSH_CTRL.EN). -/
  en : Bool := false
  /-- link trained and session held (R273 PEER_PORT_STATE.UP). -/
  up : Bool := false
  /-- NODE_ID of the far end (R273 FAR_NODE). -/
  farNode : Nat := 0
  /-- packets discarded, saturating (R273 BAD_TYPE). -/
  badType : Nat := 0
  /-- packets forwarded, wrapping (R273 FORWARDED). -/
  forwarded : W32 := 0
  /-- port in its safe state (R391). -/
  safe : Bool := false
  /-- SEQ of the next frame sent (R345). -/
  txSeq : W32 := 0
  /-- SEQ of the next frame expected (R345). -/
  rxSeq : W32 := 0
  /-- next SEQ not yet acknowledged (R345). -/
  ackd : W32 := 0
  /-- frames kept for replay, by SEQ (R347). -/
  replay : List W32 := []
  /-- key phase in use (R348). -/
  keyPhase : Bool := false
  /-- a link key is held (R261). -/
  keyHeld : Bool := false
  /-- 64-byte units free per class and hop index (5 x class + hop) (R256, 12 R346). -/
  credits : List (Nat × Nat) := []
  /-- packets that wait for credits, oldest first: TYPE and packet (R256). -/
  txq : List (Nat × Pkt) := []
  /-- TC2 and TC3 share what TC0 and TC1 leave: a TC3 packet was sent last (R256). -/
  lastTc3 : Bool := false
deriving DecidableEq, Repr

/-- One export slot (R273). -/
structure Export where
  /-- FDOM, BASE, SIZE_LOG2, KIND, ATOMIC, WRITE, READ, VALID (R273 EXPORT qword 0). -/
  q0 : W64 := 0
  /-- owning wheel (R273 EXPORT qword 1). -/
  wheel : Nat := 0
deriving DecidableEq, Repr

/-- One collective group (R265 to R273). -/
structure Coll where
  /-- ENABLE, EVQ, COLL_TAG, HOOP, PARENT, CHILDREN, ROOT, WHEEL (READY is kept beside) (R273 COLL_GROUP qword 0). -/
  q0 : W64 := 0
  /-- tree joined (R273 READY). -/
  ready : Bool := false
  /-- closing entries started since ENABLE (R273 INSTANCE). -/
  inst : Nat := 0
  /-- nodes whose JOIN has arrived (R265). -/
  joins : List Nat := []
  /-- own JOIN acknowledged (R265). -/
  joinAck : Bool := false
  /-- STEP_DONE outcomes of the current instance, by node (R266). -/
  reports : List (Nat × Nat) := []
  /-- STEP_DONE sent, or OUTCOME decided at the root (R266). -/
  reported : Bool := false
  /-- agreed status of the current instance (R266, R267). -/
  agreed : Option Nat := none
  /-- closing entry waiting for agreement (R266). -/
  closing : Option W32 := none
  /-- closing entry started for the current instance (R266, 03 R74). -/
  cur : Option W32 := none
  /-- origins whose hold is known, with the time of the last beacon (R269). -/
  holdOrigin : List (Nat × Nat) := []
  /-- ENABLE written 0, hoop not yet idle (R273). -/
  ending : Bool := false
  /-- the group has left READY and must be enabled again (R268). -/
  left : Bool := false
deriving DecidableEq, Repr

/-- One ROUTE entry (R257, R273). -/
structure Route where
  /-- peer ports toward the node (R273 PORT_MASK). -/
  mask : BitVec 16 := 0
  /-- links to the node (R273 LINKS). -/
  links : Nat := 0
  /-- node lost (R273 LOST). -/
  lost : Bool := false
deriving DecidableEq, Repr

/-- One Rosham port (R355, R360). -/
structure RshPort where
  /-- physical layer up (R360 TRAINED). -/
  trained : Bool := false
  /-- CALIBRATE in progress (R360 CALIBRATING). -/
  calibrating : Bool := false
  /-- lanes out of the stripe (8 f + l) (R344, R360 LANES_UP). -/
  lanesDown : List Nat := []
  /-- AUTH_FAIL to FIBRE_CROSS (R360 RSH_ERR). -/
  err : BitVec 7 := 0
  /-- corrected symbols, saturating (R360 RSH_FEC.CORRECTED). -/
  fecCorr : W32 := 0
  /-- uncorrectable codewords, saturating (R360 RSH_FEC.UNCORRECTABLE). -/
  fecUncorr : W32 := 0
  /-- lane map of each fibre (R360 RSH_MAP). -/
  maps : List (Nat × FibreMap) := []
deriving DecidableEq, Repr

/-- One wheel (R406 to R410, R414, R441). -/
structure Wheel where
  /-- wheel exists (R441 WHEEL_STATE.EXISTS). -/
  present : Bool := false
  /-- WHEEL_RESET in progress (R441 RESETTING). -/
  resetting : Bool := false
  /-- wheel in its safe state (R441 SAFE). -/
  safe : Bool := false
  /-- manager (R441 MANAGER). -/
  manager : Nat := 0
  /-- pinned vats allowed (R441 PIN_QUOTA). -/
  pinQuota : Nat := 0
  /-- hold cells per slice (R441 HOLD_CELLS). -/
  holdCells : Nat := 0
  /-- bandwidth share (R441 WEIGHT). -/
  weight : Nat := 1
  /-- fabric domain (R273 WHEEL_FDOM.FDOM). -/
  fdom : Nat := 0
  /-- wheel may issue peer requests (R273 WHEEL_FDOM.VALID). -/
  fdomValid : Bool := false
  /-- event hoop for GUARANTEE_YIELDED (R441 WHEEL_YIELD.EVQ). -/
  yieldEvq : Nat := 0
  /-- post GUARANTEE_YIELDED (R441 WHEEL_YIELD.EVQ_VALID). -/
  yieldValid : Bool := false
  /-- bytes written by ladles (R441 WHEEL_BYTES). -/
  bytes : W64 := 0
  /-- entries completed (R441 WHEEL_ENTRIES). -/
  entries : W64 := 0
  /-- DEVICE_TIME of the last yield per reason and object (R426). -/
  yields : List (Nat × Nat) := []
deriving DecidableEq, Repr

/-- One clock island (R13, R17, R18). -/
structure Island where
  /-- local copy of DEVICE_TIME (R18). -/
  time : Nat := 0
  /-- runs on its standby oscillator (R17). -/
  onStandby : Bool := false
  /-- standby oscillator in service (R17). -/
  standbyOk : Bool := true
deriving DecidableEq, Repr

/-- One firmware slot of the SPI flash (R447, R450). -/
structure FwImage where
  /-- digest of the image (R436). -/
  digest : Nat := 0
  /-- security version number (R447). -/
  svn : Nat := 0
  /-- the signature chains to the Pahasil root (R447). -/
  valid : Bool := false
deriving DecidableEq, Repr

/-- One migration session (R434, R435). -/
structure MigSession where
  /-- session number (R434). -/
  num : Nat := 0
  /-- virtual function bound (R434). -/
  fn : Fn := .bu
  /-- ROLE (R435 ROLE). -/
  responder : Bool := false
  /-- established (R434). -/
  established : Bool := false
  /-- spent (R434). -/
  spent : Bool := false
  /-- images saved in the session (R434). -/
  images : Nat := 0
  /-- messages taken (R435). -/
  steps : Nat := 0
deriving DecidableEq, Repr

/-- One line of the coherent window cache (R296). -/
structure CohLine where
  /-- port tag (R296). -/
  port : Nat := 0
  /-- host physical line address (R295). -/
  addr : Nat := 0
  /-- MESI state, or fill or eviction in progress (R296). -/
  st : Mesi := .i
  /-- data of a line in M (R296). -/
  data : List Byte := []
deriving DecidableEq, Repr

/-- One line of the snoop filter (R301). -/
structure Filt where
  /-- host port (R301). -/
  port : Nat := 0
  /-- device physical line address (R301). -/
  line : Nat := 0
  /-- held exclusive; otherwise shared (R301). -/
  excl : Bool := false
  /-- a BISnp is unanswered (R301, R302). -/
  snooping : Bool := false
  /-- the last BISnp sent was a BISnpInv (R301). -/
  inv : Bool := false
  /-- accesses and claims waiting (R301). -/
  waiters : List Owner := []
deriving DecidableEq, Repr

/-- One line of the combining buffer (R241). -/
structure NtLine where
  /-- line address (R241). -/
  addr : Nat := 0
  /-- written bytes by offset (R241). -/
  bytes : List (Nat × Byte) := []
  /-- the line must leave and waits for its stack or a host (R241, R269, R301). -/
  due : Bool := false
deriving DecidableEq, Repr

/-- Memory reached through the Hivik (R3, R22, R195, R227), poison, and the counter of free values. -/
structure MemS where
  /-- every memory location: scratchpad, compute-die, far tier, peer and host memory (R3, 01 R22, 07 R195, 08 R227). -/
  mem : List Host.Cell := []
  /-- poisoned 64-byte granules (R160, 14 R412). -/
  poison : List Nat := []
  /-- counter of free values taken (the model's own). -/
  free : Nat := 0
deriving DecidableEq, Repr

/-- What the ports and pins have sent, and the state of pins and sensors (R6, R481 to R488). -/
structure PinS where
  /-- what the ports have sent, oldest first (R6 (ports and pins); the model's own record). -/
  out : List Out := []
  /-- SAFEn pin driven low (R483, 14 R404 SAFEN). -/
  safen : Bool := true
  /-- LSR_EN pin (R483 LSR_EN). -/
  lsrEn : Bool := false
  /-- VCORE_EN pin (R483 VCORE_EN). -/
  vcoreEn : Bool := true
  /-- output pins undriven (R478, R483). -/
  undriven : Bool := false
  /-- laser source fault (R352 LSR_FLTn, 18 R481). -/
  lsrFlt : Bool := false
  /-- reference inputs lost (R485). -/
  refclkLost : List Nat := []
  /-- die temperature at or above the trip (R488). -/
  thermTrip : Bool := false
  /-- mean power of the last window (R441 POWER_TELEM.WATTS). -/
  watts : Nat := 0
  /-- windows completed (R441 POWER_TELEM.WINDOWS). -/
  windows : W32 := 0
  /-- Acdoic injection is paced (R487). -/
  paced : Bool := false
deriving DecidableEq, Repr

/-- Power state, time base and islands (R13 to R18, R444 to R457). -/
structure TimeS where
  /-- power and start-up state (R444, R446, R452). -/
  boot : Boot := .held
  /-- cold starts (R402 BOOT). -/
  bootCount : Nat := 0
  /-- neither firmware slot passed (R447). -/
  recovery : Bool := false
  /-- time base in ns (R18 DEVICE_TIME). -/
  deviceTime : Nat := 0
  /-- the Cave runs (R478). -/
  timeKnown : Bool := true
  /-- islands (R13). -/
  islands : List (Nat × Island) := []
  /-- Deep Rest selected (R457 REST_CTRL.DEEP). -/
  restDeep : Bool := false
  /-- entry in progress (R457 REST_CTRL.ENTER). -/
  restEnter : Bool := false
  /-- wakes since cold start (R457 REST_STATE.WAKES). -/
  wakes : Nat := 0
  /-- reason of the last refused entry (R457 REST_STATE.REFUSED). -/
  refused : Nat := 0
deriving DecidableEq, Repr

/-- The Cave block (R378). -/
structure CaveS where
  /-- wake on the alarm (R378 CAVE_FIXED.ALARM_EN). -/
  caveAlarmEn : Bool := false
  /-- wake on an MCTP message (R378 CAVE_FIXED.SMBUS_EN). -/
  caveSmbEn : Bool := false
  /-- wake on WAKEn (R378 CAVE_FIXED.WAKEN_EN). -/
  caveWakeEn : Bool := true
  /-- a wake occurred (R378 CAVE_CAUSE.WOKE). -/
  woke : Bool := false
  /-- kind of the wake (R378 CAVE_CAUSE.KIND). -/
  wakeKind : Nat := 0
  /-- watch slot (R378 CAVE_CAUSE.SLOT). -/
  wakeSlot : Nat := 0
  /-- alarm ticks (R378 CAVE_ALARM). -/
  caveAlarm : Nat := 0
  /-- timekeeper ticks (R378 CAVE_TIME). -/
  caveTime : Nat := 0
  /-- part of a timekeeper tick elapsed (R378, 18 R484). -/
  caveSub : Nat := 0
  /-- watch slots (R378 CAVE_WATCH). -/
  caveWatch : List (Nat × (Bool × Nat)) := []
deriving DecidableEq, Repr

/-- What a hoop engine keeps to choose among its hoops (R69, 15 R424). -/
structure Engine where
  /-- starts left to each wheel in the current round (R424). -/
  left : List (Nat × Nat) := []
  /-- hoops in the order of their last start, oldest first (R69). -/
  served : List Nat := []
deriving DecidableEq, Repr

/-- Hoops, vats, watchers, journals and recipes. -/
structure WorkS where
  /-- data hoops (R59). -/
  hoops : List (Nat × Hoop) := []
  /-- hoop engines, one for two slices (R11, R69). -/
  engines : List (Nat × Engine) := []
  /-- admin hoops of physical functions 0 to 15 and, as 16, the bring-up function (R84, 10 R308). -/
  admins : List (Nat × AdminHoop) := []
  /-- vats (R27). -/
  vats : List (Nat × Vat) := []
  /-- vats waiting for a slot, oldest first (R32). -/
  vatWait : List Nat := []
  /-- DEVICE_TIME at which the waiting period began (R32). -/
  waitStart : Nat := 0
  /-- validations so far (R210). -/
  orderStamp : Nat := 0
  /-- order of vat uses (R31). -/
  useStamp : Nat := 0
  /-- resident fence watchers (R39). -/
  watchers : List (Nat × Watcher) := []
  /-- waits that the hoop engine polls (R39). -/
  polls : List (Nat × Watcher) := []
  /-- journal records, by quadrant (R75). -/
  journals : List (Nat × Journal) := []
  /-- journal records of peer operands, by quadrant (R260). -/
  peerJournals : List (Nat × Journal) := []
  /-- loaded recipes (R150). -/
  recipes : List Recipe := []
  /-- reservations, oldest first, by home (cell number, or 2,048 + port) (R139, 08 R244). -/
  resvs : List (Nat × Resv) := []
deriving DecidableEq, Repr

/-- Event hoops, functions and interrupt sources. -/
structure EventS where
  /-- event hoops (R35, 13 R375). -/
  evhoops : List (Nat × EvHoop) := []
  /-- records that wait for their ring's translation (R46, 13 R371). -/
  heldRecs : List (Nat × EvRec) := []
  /-- functions (R281, 13 R373). -/
  fns : List (Fn × FnState) := []
  /-- interrupt sources (R362). -/
  srcs : List (Nat × Src) := []
  /-- fast source slots (R376). -/
  fastSrcs : List (Nat × FastSrc) := []
deriving DecidableEq, Repr

/-- Rennet: sources, summaries, safe states, gates (R380 to R393). -/
structure RennetS where
  /-- Rennet sources (R380, R404). -/
  rsrcs : List (Nat × Rsrc) := []
  /-- event hoop of summaries (R404 RENNET_CTRL.EVQ). -/
  rennetEvq : Nat := 0
  /-- post summaries (R404 RENNET_CTRL.EVQ_VALID). -/
  rennetEvqValid : Bool := false
  /-- device in its safe state (R404 RENNET_STATE.DEVICE_SAFE). -/
  deviceSafe : Bool := false
  /-- slices in their safe state (R391). -/
  safeSlices : List Nat := []
  /-- quadrants in their safe state (R391). -/
  safeQuads : List Nat := []
  /-- units whose write gate is closing or closed (R390). -/
  gates : List Unit_ := []
  /-- units whose gate has completed closure (R390). -/
  gatesClosed : List Unit_ := []
deriving DecidableEq, Repr

/-- Spares and turning (R388 to R397). -/
structure SpareS where
  /-- spare walkers free (R404, 07 R224 WALKER_SPARES_FREE). -/
  walkerSpares : Nat := 8
  /-- walkers out of service beyond the spares (R386). -/
  walkersOut : Nat := 0
  /-- standby security engine ready (R404 SEC_STANDBY_OK). -/
  secStandby : Bool := true
  /-- standby Affineur core ready (R404 AFF_STANDBY_OK). -/
  affStandby : Bool := true
  /-- spare MRAM sectors unused (R404 MRAM_SPARE_FREE). -/
  mramSpare : Nat := 32
  /-- spare laser inputs free (R404 LASER_SPARES_FREE). -/
  laserSpares : Nat := 2
  /-- spares of each quadrant (R404 SPARE_Q). -/
  spareQs : List (Nat × SpareQ) := []
  /-- spare rows used per array source (R389). -/
  sramRows : List (Nat × Nat) := []
  /-- turning enabled (R404 TURN_CTRL.EN). -/
  turnEn : Bool := true
  /-- turn interval (R404 TURN_CTRL.PERIOD). -/
  turnPeriod : Nat := 10
  /-- test running (R404 TURN_STATE). -/
  turn : Option Turn := none
  /-- turns completed (R404 TURN_STATE.TURNS). -/
  turns : W32 := 0
  /-- deferred turns (kind, quadrant), in order due (R394). -/
  deferred : List (Nat × Nat) := []
deriving DecidableEq, Repr

/-- Supply monitor, MRAM and SPI flash (R398 to R402, R446 to R451, R356). -/
structure StoreS where
  /-- MRAM writes blocked (R404 SUPPLY_STATE.MRAM_BLOCKED). -/
  mramBlocked : Bool := false
  /-- logic rail low (R404 LOGIC_LOW). -/
  logicLow : Bool := false
  /-- photonic rail low (R404 PHOT_LOW). -/
  photLow : Bool := false
  /-- MRAM block episodes, saturating (R404 BLOCKS). -/
  blocks : Nat := 0
  /-- persistent log, oldest first (R400, R402). -/
  log : List LogRec := []
  /-- severe events whose record is not yet committed (R402). -/
  logPending : List LogRec := []
  /-- MRAM writes waiting on a supply block (R398). -/
  mramWaits : List MramJob := []
  /-- records lost, saturating (R404 LOG_STATE.LOST). -/
  logLost : Nat := 0
  /-- slot read through LOG_DATA (R404 LOG_SEL). -/
  logSel : Nat := 0
  /-- port configuration record in MRAM (R446, 14 R400). -/
  portCfg : Option PortCfg := none
  /-- a stored field changed and is not yet committed (R446). -/
  cfgDirty : Bool := false
  /-- Rosham ports with a valid calibration record (R356, R360 CAL_VALID). -/
  calValid : List Nat := []
  /-- SEQ of each port's calibration record (R401). -/
  calSeq : List (Nat × Nat) := []
  /-- active firmware slot (R447). -/
  fwActive : Nat := 0
  /-- SVN most recently activated (R447). -/
  fwSvn : Nat := 0
  /-- firmware slots (R447). -/
  fwSlots : List (Nat × FwImage) := []
  /-- slot whose image runs (R436). -/
  fwRunning : Nat := 0
  /-- an image is pending in the inactive slot (R450, 15 R437 UPDATE_PENDING). -/
  fwPending : Bool := false
  /-- Acdoic ports that hold a copy of the vat store (R449). -/
  vatStore : List Nat := []
deriving DecidableEq, Repr

/-- Translation (R192 to R225). -/
structure XlatS where
  /-- cached translations (R202, R209). -/
  xlats : List Xlat := []
  /-- walk-cache pointer entries (R222). -/
  walkCache : List WalkPtr := []
  /-- Translation Requests outstanding (R203, R224 ATS_OUT). -/
  atsReqs : List AtsReq := []
  /-- Translation Requests that wait for a free request number (R203, R212). -/
  atsWait : List AtsReq := []
  /-- held slots of the micro-TLBs (R209, R210). -/
  held : List Held := []
  /-- page request groups (R211, R224 PRI_OUT). -/
  pageReqs : List PageReq := []
  /-- page requests waiting for an index (R211). -/
  pageWait : List PageReq := []
  /-- walks in progress (R222, R224 WALKERS_BUSY). -/
  walks : List Walk := []
  /-- failed translations not yet taken by their entry (R205). -/
  xfaults : List XFault := []
  /-- Invalidate Requests being processed (R214). -/
  invals : List Inval := []
  /-- physical functions whose page requests are stopped (R224 PRI_STATE.STOPPED). -/
  priStopped : List Nat := []
  /-- PRI_TIMEOUT code (R224 PRI_CTRL.TIMEOUT). -/
  priTimeout : Nat := 7
  /-- ATC lookups (R224 ATC_LOOKUPS). -/
  atcLookups : W64 := 0
  /-- ATC misses (R224 ATC_MISSES). -/
  atcMisses : W64 := 0
  /-- walks begun (R224 WALKS). -/
  walkCount : W64 := 0
  /-- page requests sent (R224 PAGE_REQUESTS). -/
  pageReqCount : W64 := 0
deriving DecidableEq, Repr

/-- Ports and outstanding requests (R275, R309, R311, R329, R345, R360). -/
structure LinkS where
  /-- outstanding requests (R285, 11 R319, 09 R253). -/
  reqs : List Req := []
  /-- next tag tried (R319, 09 R253). -/
  nextTag : Nat := 0
  /-- host-class ports (R309). -/
  hc : List (Nat × HcPort) := []
  /-- Acdoic ports (R329). -/
  acd : List (Nat × AcdPort) := []
  /-- peer ports (R273). -/
  peer : List (Nat × PeerPort) := []
  /-- Rosham ports: host-class 0 to 15, peer 16 to 31 (R360). -/
  rsh : List (Nat × RshPort) := []
  /-- laser inputs in limits (R360 RSH_LASER.IN_LIMITS). -/
  laserIn : BitVec 8 := 0
  /-- input feeding each group (R360 RSH_LASER_MAP). -/
  laserMap : List (Nat × Nat) := []
  /-- bring-up link trained (R309 BU_STATE.LINK_UP). -/
  buLinkUp : Bool := false
  /-- rate (R309 BU_STATE.RATE). -/
  buRate : Nat := 0
  /-- width (R309 BU_STATE.WIDTH). -/
  buWidth : Nat := 0
  /-- virtual functions free (R309 VF_POOL.FREE). -/
  vfFree : Nat := 2048
deriving DecidableEq, Repr

/-- Coherent window cache and snoop filter (R296, R301). -/
structure CxlS where
  /-- coherent window cache (R296). -/
  cohLines : List CohLine := []
  /-- eviction buffers (R296, R298). -/
  evict : List CohLine := []
  /-- snoop filter, least recently used first (R301). -/
  filter : List Filt := []
deriving DecidableEq, Repr

/-- The peer block (R250 to R274). -/
structure PeerS where
  /-- NODE_ID in force (R273 PEER_NODE.NODE_VALID). -/
  nodeValid : Bool := false
  /-- node number (R273 PEER_NODE.NODE_ID). -/
  nodeId : Nat := 0
  /-- progress timeout code (R273 PEER_CTRL.PROGRESS). -/
  progress : Nat := 4
  /-- request timeout code (R273 PEER_CTRL.REQ_TIMEOUT). -/
  reqTimeout : Nat := 3
  /-- export slots (R273). -/
  exports : List (Nat × Export) := []
  /-- collective groups (R273). -/
  colls : List (Nat × Coll) := []
  /-- routes (R273). -/
  routes : List (Nat × Route) := []
  /-- requests of other nodes, with their TYPE, that wait at this target, in the order of their arrival (R259, R270, R301). -/
  waiting : List (Nat × Pkt) := []
deriving DecidableEq, Repr

/-- Wheels and bindings (R406 to R426). -/
structure WheelS where
  /-- wheels (R441). -/
  wheels : List (Nat × Wheel) := []
  /-- wheel of each slice (R406). -/
  sliceWheel : List (Nat × Nat) := []
  /-- wheel of each host-class port (R406). -/
  hcWheel : List (Nat × Nat) := []
  /-- wheel of each peer port (R406). -/
  peerWheel : List (Nat × Nat) := []
  /-- wheel of each Acdoic port (R406). -/
  acdWheel : List (Nat × Nat) := []
  /-- wheel of each VAT block (R441 VAT_BLOCK_MAP). -/
  vatBlock : List (Nat × Nat) := []
  /-- wheel of each event hoop block (R441 EVQ_BLOCK_MAP). -/
  evqBlock : List (Nat × Nat) := []
  /-- second copy of the bindings, where it differs from the first (R412). -/
  gateBind : List (Nat × Nat) := []
  /-- device manager; none when every port is in FAR mode (R407, R441 DEVMGR). -/
  devmgr : Option Nat := some 0
  /-- a BIND or WHEEL_RESET is in progress (R441 BIND_BUSY). -/
  bindBusy : Bool := false
  /-- wheels that the BIND in progress changes (R438). -/
  bindWheels : List Nat := []
deriving DecidableEq, Repr

/-- Security engine and sessions (R430 to R435). -/
structure SecS where
  /-- DRBG requests since the last reseed (R430). -/
  drbg : Nat := 0
  /-- keys generated on die so far (R431, R305). -/
  keyGen : Nat := 0
  /-- SPDM sessions by channel (R432). -/
  spdm : List (SpdmCh × SpdmSess) := []
  /-- migration sessions (R434). -/
  migs : List MigSession := []
  /-- next session number (R434). -/
  nextMig : Nat := 1
deriving DecidableEq, Repr

/-- The active Affineur core as an observer (R226, R230, R240, R241). -/
structure AffS where
  /-- store buffer of the active Affineur core (R230). -/
  affBuf : List (Nat × Byte) := []
  /-- Affineur data cache: line and 64 bytes (R240). -/
  affCache : List (Nat × List Byte) := []
  /-- combining buffer, oldest first (R241). -/
  ntLines : List NtLine := []
  /-- bytes returned by the last Affineur load (R230). -/
  affData : List Byte := []
  /-- conditional store on compute-die memory that awaits COND_ACK: address and bytes (R245, 11 R323). -/
  affCond : Option (Nat × List Byte) := none
  /-- result of the last conditional store (R245). -/
  affOk : Bool := false
  /-- a store or full barrier waits for earlier stores (R231, R241). -/
  barSt : Bool := false
  /-- a full barrier waits for earlier stores (R231, R241). -/
  barFull : Bool := false
deriving DecidableEq, Repr

/-- The machine: the queue of waiting commands (the model's own) and everything the spec gives the Hivik. -/
structure State where
  /-- Commands that wait, first in first out. -/
  pending : List Instr := []
  /-- Memory reached through the Hivik (R3, R22, R195, R227), poison, and the counter of free values. -/
  m : MemS := {}
  /-- What the ports and pins have sent, and the state of pins and sensors (R6, R481 to R488). -/
  pin : PinS := {}
  /-- Power state, time base and islands (R13 to R18, R444 to R457). -/
  tm : TimeS := {}
  /-- The Cave block (R378). -/
  cv : CaveS := {}
  /-- Hoops, vats, watchers, journals and recipes. -/
  wk : WorkS := {}
  /-- Event hoops, functions and interrupt sources. -/
  ev : EventS := {}
  /-- Rennet: sources, summaries, safe states, gates (R380 to R393). -/
  rn : RennetS := {}
  /-- Spares and turning (R388 to R397). -/
  sp : SpareS := {}
  /-- Supply monitor, MRAM and SPI flash (R398 to R402, R446 to R451, R356). -/
  st : StoreS := {}
  /-- Translation (R192 to R225). -/
  xl : XlatS := {}
  /-- Ports and outstanding requests (R275, R309, R311, R329, R345, R360). -/
  lk : LinkS := {}
  /-- Coherent window cache and snoop filter (R296, R301). -/
  cx : CxlS := {}
  /-- The peer block (R250 to R274). -/
  pr : PeerS := {}
  /-- Wheels and bindings (R406 to R426). -/
  wh : WheelS := {}
  /-- Security engine and sessions (R430 to R435). -/
  se : SecS := {}
  /-- The active Affineur core as an observer (R226, R230, R240, R241). -/
  af : AffS := {}
deriving DecidableEq, Repr

/-- The machine right after reset: every field at the value that the spec states, or that log entries 2 and 3 name.
Wheel 0 exists with every resource and quota 32 (R407, R441); slot A of the flash holds a valid image. -/
def State.reset : State :=
  { wh := { wheels := [(0, { present := true, pinQuota := 32 })] }
    st := { fwSlots := [(0, { valid := true })] } }

end Sys2Proof.Machine
end

