-- ==== Sys2Proof/Machine/Ops.lean ====
section
/-! DEFINITION. The named operations over the state: tables, memory, bit fields, locations, bindings, outputs and the
clock tick. -/

namespace Sys2Proof.Machine

open Sys2Proof

/-! ### Tables -/

/-- The entry of a table under a key; d where the table lists none. -/
def tabGet {κ α : Type} [DecidableEq κ] (d : α) : List (κ × α) → κ → α
  | [], _ => d
  | (k, v) :: r, q => if k = q then v else tabGet d r q

/-- The table with v under the key. -/
def tabSet {κ α : Type} [DecidableEq κ] : List (κ × α) → κ → α → List (κ × α)
  | [], q, v => [(q, v)]
  | (k, w) :: r, q, v => if k = q then (q, v) :: r else (k, w) :: tabSet r q v

/-- The table without the key. -/
def tabDel {κ α : Type} [DecidableEq κ] (t : List (κ × α)) (q : κ) : List (κ × α) :=
  t.filter (fun e => e.1 ≠ q)

/-- Whether the table lists the key. -/
def tabHas {κ α : Type} [DecidableEq κ] (t : List (κ × α)) (q : κ) : Bool := t.any (fun e => e.1 = q)

/-- The least number below n that fails p, if there is one. -/
def firstFree (n : Nat) (used : Nat → Bool) : Option Nat := (List.range n).find? (fun k => !used k)

/-! ### Bit fields and byte order (R56: little-endian) -/

/-- Bits hi to lo of x. -/
def field (x hi lo : Nat) : Nat := x / 2 ^ lo % 2 ^ (hi + 1 - lo)

/-- Bit i of x. -/
def bitOf (x i : Nat) : Bool := x / 2 ^ i % 2 == 1

/-- 1 for true, 0 for false. -/
def b2n (b : Bool) : Nat := if b then 1 else 0

/-- The positions below n at which x has a 1. -/
def bitsSet (n x : Nat) : List Nat := (List.range n).filter (bitOf x)

/-- The number with a 1 at each position of l. -/
def maskOf (n : Nat) (l : List Nat) : Nat :=
  (List.range n).foldl (fun a i => if l.contains i then a + 2 ^ i else a) 0

/-- The number that bytes spell, lowest byte first. -/
def leNat : List Byte → Nat
  | [] => 0
  | b :: r => b.toNat + 256 * leNat r

/-- The n lowest bytes of x, lowest first. -/
def natLe : Nat → Nat → List Byte
  | 0, _ => []
  | n + 1, x => BitVec.ofNat 8 x :: natLe n (x / 256)

/-- Whole 64-bit words of a byte string. -/
def qwords : Nat → List Byte → List W64
  | 0, _ => []
  | n + 1, bs => BitVec.ofNat 64 (leNat (bs.take 8)) :: qwords n (bs.drop 8)

/-- Smallest power of two that is at least n, n below 2^64. -/
def pow2Above (n : Nat) : Nat :=
  ((List.range 65).find? (fun e => n ≤ 2 ^ e)).elim (2 ^ 64) (2 ^ ·)

/-- n divided by d, rounded up. -/
def ceilDiv (n d : Nat) : Nat := if d = 0 then 0 else (n + d - 1) / d

/-! ### Memory -/

/-- The byte at a location: an unlisted location reads 0 (R132 for the scratchpad; DESIGN CHOICE elsewhere, log entry 1). -/
def memByte : List Host.Cell → Nat → Byte
  | [], _ => 0
  | (k, b) :: r, a => if k = a then b else memByte r a

/-- The memory with byte b at location a, in canonical form. -/
def memSet : List Host.Cell → Nat → Byte → List Host.Cell
  | [], a, b => if b = 0 then [] else [(a, b)]
  | (k, c) :: r, a, b =>
    if a < k then (if b = 0 then (k, c) :: r else (a, b) :: (k, c) :: r)
    else if a = k then (if b = 0 then r else (a, b) :: r)
    else (k, c) :: memSet r a b

/-- The canonical form: locations strictly rising, no byte 0. -/
abbrev Memory.wf (m : List Host.Cell) : Prop :=
  m.Pairwise (fun x y => x.1 < y.1) ∧ ∀ c ∈ m, c.2 ≠ 0

/-- The memory with a string of bytes from location a on. -/
def memPut (m : List Host.Cell) (a : Nat) : List Byte → List Host.Cell
  | [] => m
  | b :: r => memPut (memSet m a b) (a + 1) r

/-- Byte at a location. -/
def byteAt (s : State) (a : Nat) : Byte := memByte s.m.mem a

/-- The n bytes from location a on. -/
def readBytes (s : State) (a n : Nat) : List Byte := (List.range n).map (fun i => byteAt s (a + i))

/-- The little-endian number in the n bytes from location a on. -/
def readNat (s : State) (a n : Nat) : Nat := leNat (readBytes s a n)

/-- Whether a 64-byte granule of the range holds poison (R160, R412). -/
def poisonedAt (s : State) (a n : Nat) : Bool :=
  s.m.poison.any (fun g => a < 64 * g + 64 && 64 * g < a + n)

/-- Write bytes from location a on; a granule written whole loses its poison. -/
def writeBytes (a : Nat) (bs : List Byte) (s : State) : State :=
  { s with
    m.mem := memPut s.m.mem a bs
    m.poison := s.m.poison.filter (fun g => !(a ≤ 64 * g && 64 * g + 64 ≤ a + bs.length)) }

/-- Write the n-byte little-endian number x at location a. -/
def writeNat (a n x : Nat) (s : State) : State := writeBytes a (natLe n x) s

/-- Poison every granule of the range. -/
def poisonRange (a n : Nat) (s : State) : State :=
  let gs := (List.range ((a + n + 63) / 64 - a / 64)).map (· + a / 64)
  { s with m.poison := s.m.poison ++ gs.filter (fun g => !s.m.poison.contains g) }

/-- Zero a range and clear its poison: every listed byte of it goes. -/
def zeroRange (a n : Nat) (s : State) : State :=
  { s with
    m.mem := s.m.mem.filter (fun c => !(a ≤ c.1 && c.1 < a + n))
    m.poison := s.m.poison.filter (fun g => !(a < 64 * g + 64 && 64 * g < a + n)) }

/-- n free bytes: the manual leaves these contents undefined. -/
def freeBytes (n : Nat) (s : State) : List Byte := (List.range n).map (fun i => Config.freeByte (s.m.free + i))

/-- Advance the counter of free values by n. -/
def takeFree (n : Nat) (s : State) : State := { s with m.free := s.m.free + n }

/-! ### Locations (R22, R195; the places of scratchpad and host memory in the one list are the model's own) -/

/-- Location of byte off of the scratchpad window (R22). -/
def scratchLoc (off : Nat) : Nat := 2 ^ 52 + off

/-- Location of host memory at an untranslated or translated address of host port p; 16 is the bring-up host. -/
def hostLoc (p a : Nat) : Nat := (p + 1) * 2 ^ 64 + a

/-- What holds a location. -/
inductive Home where
  | acd (q : Nat)
  | far (p : Nat)
  | peer (n : Nat)
  | slice (k : Nat)
  | host (p : Nat)
  | none
deriving DecidableEq, Repr

/-- What holds a location (R195, R22). -/
def homeOf (a : Nat) : Home :=
  if a < 2 ^ 42 then .acd (a / 2 ^ 40)
  else if a < 2 ^ 48 then .none
  else if a < 2 ^ 48 + 2 ^ 46 then .far ((a - 2 ^ 48) / 2 ^ 42)
  else if a < 2 ^ 51 then .none
  else if a < 2 ^ 52 then .peer ((a - 2 ^ 51) / 2 ^ 38)
  else if a < 2 ^ 52 + 2 ^ 27 then .slice ((a - 2 ^ 52) / 2 ^ 22)
  else if a < 2 ^ 64 then .none
  else .host (a / 2 ^ 64 - 1)

/-- The data hoop that k names. -/
def State.hoop (s : State) (k : Nat) : Hoop := tabGet {} s.wk.hoops k
/-- s with the data hoop that k names changed by g. -/
def modHoop (k : Nat) (g : Hoop → Hoop) (s : State) : State :=
  { s with wk.hoops := tabSet s.wk.hoops k (g (s.hoop k)) }
/-- The admin hoop that k names. -/
def State.admin (s : State) (k : Nat) : AdminHoop := tabGet {} s.wk.admins k
/-- s with the admin hoop that k names changed by g. -/
def modAdmin (k : Nat) (g : AdminHoop → AdminHoop) (s : State) : State :=
  { s with wk.admins := tabSet s.wk.admins k (g (s.admin k)) }
/-- The vat that k names. -/
def State.vat (s : State) (k : Nat) : Vat := tabGet {} s.wk.vats k
/-- s with the vat that k names changed by g. -/
def modVat (k : Nat) (g : Vat → Vat) (s : State) : State :=
  { s with wk.vats := tabSet s.wk.vats k (g (s.vat k)) }
/-- The fence watcher that k names. -/
def State.watcher (s : State) (k : Nat) : Watcher := tabGet {} s.wk.watchers k
/-- s with the fence watcher that k names changed by g. -/
def modWatcher (k : Nat) (g : Watcher → Watcher) (s : State) : State :=
  { s with wk.watchers := tabSet s.wk.watchers k (g (s.watcher k)) }
/-- The polled wait that k names. -/
def State.pollWait (s : State) (k : Nat) : Watcher := tabGet {} s.wk.polls k
/-- s with the polled wait that k names changed by g. -/
def modPollWait (k : Nat) (g : Watcher → Watcher) (s : State) : State :=
  { s with wk.polls := tabSet s.wk.polls k (g (s.pollWait k)) }
/-- The event hoop that k names. -/
def State.evq (s : State) (k : Nat) : EvHoop := tabGet {} s.ev.evhoops k
/-- s with the event hoop that k names changed by g. -/
def modEvq (k : Nat) (g : EvHoop → EvHoop) (s : State) : State :=
  { s with ev.evhoops := tabSet s.ev.evhoops k (g (s.evq k)) }
/-- The function that f names. -/
def State.fnS (s : State) (f : Fn) : FnState := tabGet {} s.ev.fns f
/-- s with the function that f names changed by g. -/
def modFnS (f : Fn) (g : FnState → FnState) (s : State) : State :=
  { s with ev.fns := tabSet s.ev.fns f (g (s.fnS f)) }
/-- The interrupt source that k names. -/
def State.src (s : State) (k : Nat) : Src := tabGet {} s.ev.srcs k
/-- s with the interrupt source that k names changed by g. -/
def modSrc (k : Nat) (g : Src → Src) (s : State) : State :=
  { s with ev.srcs := tabSet s.ev.srcs k (g (s.src k)) }
/-- The fast source slot that k names. -/
def State.fast (s : State) (k : Nat) : FastSrc := tabGet {} s.ev.fastSrcs k
/-- s with the fast source slot that k names changed by g. -/
def modFast (k : Nat) (g : FastSrc → FastSrc) (s : State) : State :=
  { s with ev.fastSrcs := tabSet s.ev.fastSrcs k (g (s.fast k)) }
/-- The Rennet source that k names. -/
def State.rsrc (s : State) (k : Nat) : Rsrc := tabGet {} s.rn.rsrcs k
/-- s with the Rennet source that k names changed by g. -/
def modRsrc (k : Nat) (g : Rsrc → Rsrc) (s : State) : State :=
  { s with rn.rsrcs := tabSet s.rn.rsrcs k (g (s.rsrc k)) }
/-- The quadrant's spares that k names. -/
def State.spareQ (s : State) (k : Nat) : SpareQ := tabGet {} s.sp.spareQs k
/-- s with the quadrant's spares that k names changed by g. -/
def modSpareQ (k : Nat) (g : SpareQ → SpareQ) (s : State) : State :=
  { s with sp.spareQs := tabSet s.sp.spareQs k (g (s.spareQ k)) }
/-- The host-class port that k names. -/
def State.hc (s : State) (k : Nat) : HcPort := tabGet {} s.lk.hc k
/-- s with the host-class port that k names changed by g. -/
def modHc (k : Nat) (g : HcPort → HcPort) (s : State) : State :=
  { s with lk.hc := tabSet s.lk.hc k (g (s.hc k)) }
/-- The Acdoic port that k names. -/
def State.acd (s : State) (k : Nat) : AcdPort := tabGet {} s.lk.acd k
/-- s with the Acdoic port that k names changed by g. -/
def modAcd (k : Nat) (g : AcdPort → AcdPort) (s : State) : State :=
  { s with lk.acd := tabSet s.lk.acd k (g (s.acd k)) }
/-- The peer port that k names. -/
def State.peerP (s : State) (k : Nat) : PeerPort := tabGet {} s.lk.peer k
/-- s with the peer port that k names changed by g. -/
def modPeerP (k : Nat) (g : PeerPort → PeerPort) (s : State) : State :=
  { s with lk.peer := tabSet s.lk.peer k (g (s.peerP k)) }
/-- The Rosham port that k names. -/
def State.rsh (s : State) (k : Nat) : RshPort := tabGet {} s.lk.rsh k
/-- s with the Rosham port that k names changed by g. -/
def modRsh (k : Nat) (g : RshPort → RshPort) (s : State) : State :=
  { s with lk.rsh := tabSet s.lk.rsh k (g (s.rsh k)) }
/-- The export slot that k names. -/
def State.exp (s : State) (k : Nat) : Export := tabGet {} s.pr.exports k
/-- s with the export slot that k names changed by g. -/
def modExp (k : Nat) (g : Export → Export) (s : State) : State :=
  { s with pr.exports := tabSet s.pr.exports k (g (s.exp k)) }
/-- The collective group that k names. -/
def State.coll (s : State) (k : Nat) : Coll := tabGet {} s.pr.colls k
/-- s with the collective group that k names changed by g. -/
def modColl (k : Nat) (g : Coll → Coll) (s : State) : State :=
  { s with pr.colls := tabSet s.pr.colls k (g (s.coll k)) }
/-- The route that k names. -/
def State.route (s : State) (k : Nat) : Route := tabGet {} s.pr.routes k
/-- s with the route that k names changed by g. -/
def modRoute (k : Nat) (g : Route → Route) (s : State) : State :=
  { s with pr.routes := tabSet s.pr.routes k (g (s.route k)) }
/-- The wheel that k names. -/
def State.wheel (s : State) (k : Nat) : Wheel := tabGet {} s.wh.wheels k
/-- s with the wheel that k names changed by g. -/
def modWheel (k : Nat) (g : Wheel → Wheel) (s : State) : State :=
  { s with wh.wheels := tabSet s.wh.wheels k (g (s.wheel k)) }
/-- The island that k names. -/
def State.island (s : State) (k : Nat) : Island := tabGet {} s.tm.islands k
/-- s with the island that k names changed by g. -/
def modIsland (k : Nat) (g : Island → Island) (s : State) : State :=
  { s with tm.islands := tabSet s.tm.islands k (g (s.island k)) }
/-- The firmware slot that k names. -/
def State.fwSlot (s : State) (k : Nat) : FwImage := tabGet {} s.st.fwSlots k
/-- s with the firmware slot that k names changed by g. -/
def modFwSlot (k : Nat) (g : FwImage → FwImage) (s : State) : State :=
  { s with st.fwSlots := tabSet s.st.fwSlots k (g (s.fwSlot k)) }

/-! ### Functions and bindings -/

/-- The physical function of a function; 16 for the bring-up function. -/
def pfOf : Fn → Nat
  | .pf p => p
  | .vf p _ => p
  | .bu => 16

/-- Whether the function is a virtual function. -/
def isVf : Fn → Bool
  | .vf _ _ => true
  | _ => false

/-- FUNC_ID (R43); the bring-up function has none and reads 0. -/
def funcId : Fn → Nat
  | .pf p => p * 4096
  | .vf p i => p * 4096 + 2048 + i
  | .bu => 0

/-- The function that a FUNC_ID names (R43). -/
def fnOfId (x : Nat) : Fn := if bitOf x 11 then .vf (field x 15 12) (field x 8 0) else .pf (field x 15 12)

/-- The function of admin hoop a: physical function a, or for 16 the bring-up function (R84, R308). -/
def adminFn (a : Nat) : Fn := if a = 16 then .bu else .pf a

/-- Wheel of slice k (R406). -/
def sliceWheelOf (s : State) (k : Nat) : Nat := tabGet 0 s.wh.sliceWheel k
/-- Wheel of host-class port p. -/
def hcWheelOf (s : State) (p : Nat) : Nat := tabGet 0 s.wh.hcWheel p
/-- Wheel of peer port p. -/
def peerWheelOf (s : State) (p : Nat) : Nat := tabGet 0 s.wh.peerWheel p
/-- Wheel of Acdoic port q. -/
def acdWheelOf (s : State) (q : Nat) : Nat := tabGet 0 s.wh.acdWheel q
/-- Wheel of the VAT block that holds vat v. -/
def vatBlockOf (s : State) (v : Nat) : Nat := tabGet 0 s.wh.vatBlock (v / 256)
/-- Wheel of the event hoop block that holds event hoop e. -/
def evqBlockOf (s : State) (e : Nat) : Nat := tabGet 0 s.wh.evqBlock (e / 16)
/-- Wheel of a function: that of its host-class port; none for the bring-up function (R407). -/
def fnWheel (s : State) (f : Fn) : Option Nat :=
  match f with
  | .bu => none
  | _ => some (hcWheelOf s (pfOf f))
/-- The slice of hoop h (R11). -/
def sliceOf (h : Nat) : Nat := h / 512
/-- The wheel of hoop h's slice. -/
def hoopWheel (s : State) (h : Nat) : Nat := sliceWheelOf s (sliceOf h)

/-- Whether the port is in HOST mode (R275). -/
def hostMode (s : State) (p : Nat) : Bool := !(s.hc p).modeAct

/-- Whether f holds the rights of the device manager (R407, R408). -/
def isDevmgr (s : State) (f : Fn) : Bool := f = .bu || (s.wh.devmgr.elim false (fun d => f = .pf d))

/-- Whether f is the manager of wheel w (R409): named at creation, its port in w and in HOST mode. -/
def isManager (s : State) (f : Fn) (w : Nat) : Bool :=
  (s.wheel w).present && f = .pf (s.wheel w).manager && hcWheelOf s (s.wheel w).manager = w
    && hostMode s (s.wheel w).manager

/-- Whether a function has the manager's register rights over wheel w: its manager, or the bring-up function where that is
the device manager (R308, R409). -/
def regManager (s : State) (f : Fn) (w : Nat) : Bool :=
  isManager s f w || (f = .bu && s.wh.devmgr.elim false (fun d => isManager s (.pf d) w))

/-- Whether a function is the issuer or one of its virtual functions. -/
def ownsFn (a : Nat) (f : Fn) : Bool := pfOf f = a && f ≠ .bu

/-- Ports of node n's mask that are up (R257, R263). -/
def portsUp (s : State) (n : Nat) : List Nat :=
  (List.range 16).filter (fun p => (s.route n).mask.getLsbD p && (s.peerP p).up)

/-- Ports through which node n is reached: none while LINKS is 0 (R257, R273). -/
def upPorts (s : State) (n : Nat) : List Nat := if (s.route n).links = 0 then [] else portsUp s n

/-- A Rosham or Acdoic location is reachable: its port is up and outside its safe state, its slice is not safe
(R80, R391, R326). This Hivik's own node is served through its export table alone, never off the die (R250). -/
def homeUp (s : State) (h : Home) : Bool :=
  !s.rn.deviceSafe &&
  match h with
  | .acd q => (s.acd q).up && !(s.acd q).safe
  | .far p => (s.hc p).ready && !(s.hc p).safe
  | .peer n => s.pr.nodeValid && n ≠ s.pr.nodeId && !(s.route n).lost && !(upPorts s n).isEmpty
  | .slice k => !s.rn.safeSlices.contains k && !s.rn.safeQuads.contains (k / 8)
  | .host p => if p = 16 then s.lk.buLinkUp else (s.hc p).linkUp && !(s.hc p).safe && !(s.hc p).lost
  | .none => false

/-! ### Outputs and time -/

/-- Record what a port or pin sends. -/
def emit (o : Out) (s : State) : State := { s with pin.out := s.pin.out ++ [o] }

/-- Send one message of the Acdoic port q: it takes one flit, whose number is kept for replay (R317, R320). -/
def sendAcd (q msg tag addr : Nat) (q1 : W64) (s : State) : State :=
  let x := tabGet {} s.lk.acd q
  { s with lk.acd := tabSet s.lk.acd q { x with
      txSeq := x.txSeq + 1, replay := (x.replay ++ [x.txSeq]).drop (x.replay.length + 1 - 512) } }
  |> emit (.acd q msg tag addr q1)

/-- 64-byte units that a packet takes: its 16-byte header and its payload (R253, R256). -/
def pktUnits (k : Pkt) : Nat := (16 + k.payload.length + 63) / 64

/-- The receive buffer that a packet occupies at the far end: its class and the links it has crossed (R256). -/
def bufferOf (k : Pkt) : Nat := 5 * k.tc + k.hops

/-- Whether the far end's buffer has room for a packet (R256, R346). -/
def hasCredit (x : PeerPort) (k : Pkt) : Bool := pktUnits k ≤ tabGet 256 x.credits (bufferOf k)

/-- Put one packet on peer port p's link: it takes credits and one frame, whose number is kept for replay (R256, R345, R347). -/
def putPacket (p type : Nat) (k : Pkt) (s : State) : State :=
  let x := tabGet {} s.lk.peer p
  { s with lk.peer := tabSet s.lk.peer p { x with
      txSeq := x.txSeq + 1, replay := (x.replay ++ [x.txSeq]).drop (x.replay.length + 1 - 4096)
      credits := tabSet x.credits (bufferOf k) (tabGet 256 x.credits (bufferOf k) - pktUnits k)
      lastTc3 := if k.tc < 2 then x.lastTc3 else k.tc = 3 } }
  |> emit (.packet p type k)

/-- Send one packet through peer port p, which carries none while it is down or NODE_VALID is 0 (R250, R261); the packet waits
behind packets of its buffer that wait, and for credits (R256). -/
def sendPacket (p type : Nat) (k : Pkt) (s : State) : State :=
  let x := tabGet {} s.lk.peer p
  if !x.up || !s.pr.nodeValid then s
  else if hasCredit x k && !x.txq.any (fun w => bufferOf w.2 = bufferOf k) then putPacket p type k s
  else { s with lk.peer := tabSet s.lk.peer p { x with txq := x.txq ++ [(type, k)] } }

/-- The waiting packet that goes next: the oldest of its buffer, with credits, of TC0 before TC1 before TC2 and TC3, which
take turns (R256). -/
def nextWaiting (x : PeerPort) : Option (Nat × Pkt) :=
  let heads := (List.range 20).filterMap (fun b => x.txq.find? (fun w => bufferOf w.2 = b))
  let l := heads.filter (fun w => hasCredit x w.2)
  let ofTc (c : Nat) := l.find? (fun w => w.2.tc = c)
  (ofTc 0).or ((ofTc 1).or (if x.lastTc3 then (ofTc 2).or (ofTc 3) else (ofTc 3).or (ofTc 2)))

/-- Send up to n waiting packets of peer port p for which credits have come (R256). -/
def drainPackets (p : Nat) : Nat → State → State
  | 0, s => s
  | n + 1, s =>
    let x := tabGet {} s.lk.peer p
    match nextWaiting x with
    | none => s
    | some w => drainPackets p n (putPacket p w.1 w.2
        { s with lk.peer := tabSet s.lk.peer p { x with txq := x.txq.erase w } })

/-- A function's counters as they stand at a whole millisecond (R427). -/
def snapCounters (x : FnState) : FnState :=
  { x with snapRd := x.bytesRd, snapWr := x.bytesWr, snapEntries := x.entriesDone }

/-- One 40 ns period of the Cave's 25 MHz clock passes (R18, R378, R484; log entry 4): DEVICE_TIME and the copy of every
island advance by 40 (the model's copies do not drift: log entry 116), the counters' copies are taken at each whole
millisecond (R427), and the 32,768 Hz timekeeper gains a tick whenever a whole second's worth of 40 ns x 32,768 has
gathered. -/
def tick (s : State) : State :=
  if s.tm.timeKnown then
    let g := s.cv.caveSub + 40 * 32768
    let full := decide (1000000000 ≤ g)
    { s with
      tm.deviceTime := (s.tm.deviceTime + 40) % 2 ^ 64
      tm.islands := (List.range 60).map (fun k => (k, { s.island k with time := ((s.island k).time + 40) % 2 ^ 64 }))
      ev.fns := if (s.tm.deviceTime + 40) % 1000000 < 40 then s.ev.fns.map (fun f => (f.1, snapCounters f.2)) else s.ev.fns
      cv.caveSub := if full then g - 1000000000 else g
      cv.caveTime := if full then (s.cv.caveTime + 1) % 2 ^ 48 else s.cv.caveTime }
  else s

/-- Apply f for every element of a list, first to last. -/
def forAll {α : Type} (l : List α) (f : α → State → State) (s : State) : State := l.foldl (fun t x => f x t) s

/-- A list without its repeats. -/
def dedup {α : Type} [DecidableEq α] (l : List α) : List α := l.foldl (fun a x => if a.contains x then a else a ++ [x]) []

/-- An element inserted in a list that rises by a number, after its equals. -/
def insertBy {α : Type} (f : α → Nat) (x : α) : List α → List α
  | [] => [x]
  | y :: r => if f x < f y then x :: y :: r else y :: insertBy f x r

/-- A list in the rising order of a number. -/
def sortBy {α : Type} (f : α → Nat) (l : List α) : List α := l.foldl (fun r x => insertBy f x r) []

/-- f where c holds, nothing otherwise. -/
def when (c : Bool) (f : State → State) (s : State) : State := if c then f s else s

end Sys2Proof.Machine
end

