-- ==== Sys2Proof/Machine/Arith.lean ====
section
/-! DEFINITION. Arithmetic in transit: formats, exact values, rounding, conversion, Microscaling, the random generator,
the exact accumulators, checksums and the scalar atomics (R101, R163 to R190). -/

namespace Sys2Proof.Machine

open Sys2Proof

/-! ### Formats (R163, R164) -/

/-- Shape of a floating-point format: exponent bits, fraction bits, bias, whether it has infinities, whether the topmost
code alone is NaN (E4M3), and its canonical NaN (none: the format has no NaN). -/
structure FloatFmt where
  ebits : Nat
  mbits : Nat
  bias : Int
  hasInf : Bool
  topNan : Bool
  nan : Option Nat
deriving DecidableEq, Repr

/-- The floating-point format of a code (R163, R164). -/
def floatFmt : Nat → Option FloatFmt
  | 0x01 => some ⟨11, 52, 1023, true, false, some 0x7FF8000000000000⟩
  | 0x02 => some ⟨8, 23, 127, true, false, some 0x7FC00000⟩
  | 0x03 => some ⟨5, 10, 15, true, false, some 0x7E00⟩
  | 0x04 => some ⟨8, 7, 127, true, false, some 0x7FC0⟩
  | 0x08 => some ⟨4, 3, 7, false, true, some 0x7F⟩
  | 0x09 => some ⟨5, 2, 15, true, false, some 0x7E⟩
  | 0x0A => some ⟨3, 2, 3, false, false, none⟩
  | 0x0B => some ⟨2, 3, 1, false, false, none⟩
  | 0x0C => some ⟨2, 1, 1, false, false, none⟩
  | _ => none

/-- Width in bits of a format code; none for a reserved code (R163). -/
def fmtWidth : Nat → Option Nat
  | 0x01 => some 64
  | 0x02 => some 32
  | 0x03 => some 16
  | 0x04 => some 16
  | 0x08 => some 8
  | 0x09 => some 8
  | 0x0A => some 6
  | 0x0B => some 6
  | 0x0C => some 4
  | 0x0D => some 8
  | 0x0E => some 8
  | 0x10 => some 8
  | 0x11 => some 8
  | 0x12 => some 16
  | 0x13 => some 16
  | 0x14 => some 32
  | 0x15 => some 32
  | 0x16 => some 64
  | 0x17 => some 64
  | _ => none

/-- Width of a format, 8 for a reserved code. -/
def widthOf (f : Nat) : Nat := (fmtWidth f).getD 8

/-- Whether a code is an integer format, and whether a signed one. -/
def isIntFmt (f : Nat) : Bool := 0x10 ≤ f && f ≤ 0x17
/-- Signed integer formats have odd codes (R163). -/
def isSignedFmt (f : Nat) : Bool := isIntFmt f && f % 2 = 1

/-- The exponent emax of R164. -/
def emaxOf : Nat → Int
  | 0x08 => 8
  | 0x09 => 15
  | 0x0A => 4
  | 0x0B => 2
  | 0x0C => 2
  | _ => 0

/-! ### Exact values -/

/-- An exact value: NaN, an infinity, or m x 2^e with a sign, which a zero keeps. -/
inductive Val where
  | nan
  | inf (neg : Bool)
  | fin (neg : Bool) (m : Nat) (e : Int)
deriving DecidableEq, Repr

/-- The two's-complement value of the low w bits of x. -/
def signedOf (w x : Nat) : Int := if x % 2 ^ w < 2 ^ (w - 1) then (x % 2 ^ w : Nat) else (x % 2 ^ w : Nat) - 2 ^ w

/-- An integer as an exact value. -/
def valOfInt (i : Int) : Val := .fin (decide (i < 0)) i.natAbs 0

/-- The value of the bits of an element in format f (R163, R164). -/
def decodeVal (f x : Nat) : Val :=
  match floatFmt f with
  | some g =>
    let neg := bitOf x (g.ebits + g.mbits)
    let ex := field x (g.ebits + g.mbits - 1) g.mbits
    let fr := x % 2 ^ g.mbits
    if g.hasInf && ex = 2 ^ g.ebits - 1 then (if fr = 0 then .inf neg else .nan)
    else if g.topNan && ex = 2 ^ g.ebits - 1 && fr = 2 ^ g.mbits - 1 then .nan
    else if ex = 0 then .fin neg fr (1 - g.bias - g.mbits)
    else .fin neg (2 ^ g.mbits + fr) (ex - g.bias - g.mbits)
  | none =>
    if f = 0x0D then
      let i := signedOf 8 x
      .fin (decide (i < 0)) i.natAbs (-6)
    else if f = 0x0E then (if x % 256 = 255 then .nan else .fin false 1 ((x % 256 : Nat) - 127))
    else if isSignedFmt f then valOfInt (signedOf (widthOf f) x)
    else .fin false (x % 2 ^ widthOf f) 0

/-- floor(log2 m) for m at least 1. -/
def log2Floor (m : Nat) : Nat := Nat.log2 m

/-! ### Rounding (R167, R179) -/

/-- Divide m by 2^k and round the quotient by a mode. r and n: random lane and its width in bits, for SR (R179). -/
def roundShift (mode : Nat) (neg : Bool) (r n m k : Nat) : Nat :=
  let lo := m / 2 ^ k
  let rem := m % 2 ^ k
  let up : Bool :=
    if rem = 0 then false
    else match mode with
      | 0x1 => false
      | 0x2 => !neg
      | 0x3 => neg
      | 0x4 => 2 ^ k ≤ 2 * rem
      | 0x5 => r % 2 ^ n < rem * 2 ^ n / 2 ^ k
      | 0x7 => r % 2 ^ n < rem * 2 ^ n / 2 ^ k
      | _ => 2 ^ k < 2 * rem || (2 * rem = 2 ^ k && lo % 2 = 1)
  if up then lo + 1 else lo

/-- m x 2^e rounded to a multiple of 2^q, in units of 2^q. -/
def roundTo (mode : Nat) (neg : Bool) (r n m : Nat) (e q : Int) : Nat :=
  if q ≤ e then m * 2 ^ (e - q).toNat else roundShift mode neg r n m (q - e).toNat

/-- Exponent of the unit in the last place of a value m x 2^e in a format (gradual underflow). -/
def ulpExp (g : FloatFmt) (m : Nat) (e : Int) : Int := max (e + log2Floor m) (1 - g.bias) - g.mbits

/-- Largest finite magnitude of a format as a significand and an exponent (R164). -/
def maxFinite (g : FloatFmt) : Nat × Int :=
  if g.hasInf then (2 ^ (g.mbits + 1) - 1, 2 ^ g.ebits - 2 - g.bias - g.mbits)
  else if g.topNan then (2 ^ (g.mbits + 1) - 2, 2 ^ g.ebits - 1 - g.bias - g.mbits)
  else (2 ^ (g.mbits + 1) - 1, 2 ^ g.ebits - 1 - g.bias - g.mbits)

/-- The bits of v x 2^q, v at most 2^(mbits + 1), in a format. -/
def packFloat (g : FloatFmt) (neg : Bool) (v : Nat) (q : Int) : Nat :=
  let sgn := b2n neg * 2 ^ (g.ebits + g.mbits)
  if v < 2 ^ g.mbits then sgn + v
  else
    let k := log2Floor v
    let frac := if k = g.mbits then v - 2 ^ g.mbits else 0
    sgn + (q + k + g.bias).toNat * 2 ^ g.mbits + frac

/-- The largest finite value of a format, signed. -/
def packMax (g : FloatFmt) (neg : Bool) : Nat := packFloat g neg (maxFinite g).1 (maxFinite g).2

/-- An infinity of a format; in a format without one, its NaN code with the sign cleared (R171). -/
def packInf (g : FloatFmt) (neg : Bool) : Nat :=
  if g.hasInf then b2n neg * 2 ^ (g.ebits + g.mbits) + (2 ^ g.ebits - 1) * 2 ^ g.mbits
  else match g.nan with
    | some x => x
    | none => packMax g neg

/-- Whether a mode saturates (R167). -/
def isSat (mode : Nat) : Bool := mode = 0x6 || mode = 0x7

/-- Overflow under a mode (R171). -/
def packOverflow (g : FloatFmt) (mode : Nat) (neg : Bool) : Nat :=
  match mode with
  | 0x1 => packMax g neg
  | 0x2 => if neg then packMax g neg else packInf g neg
  | 0x3 => if neg then packInf g neg else packMax g neg
  | 0x6 => packMax g neg
  | 0x7 => packMax g neg
  | _ => packInf g neg

/-- An exact value rounded once to a floating-point format (R169 to R171). sat: every overflow saturates (R177). -/
def packVal (g : FloatFmt) (mode r n : Nat) (sat : Bool) : Val → Nat
  | .nan => g.nan.getD 0
  | .inf neg => if sat || isSat mode then packMax g neg else packInf g neg
  | .fin neg m e =>
    if m = 0 then packFloat g neg 0 0
    else
      let q := ulpExp g m e
      let v := roundTo mode neg r n m e q
      let (xm, xe) := maxFinite g
      let past : Bool := if xe ≤ q then xm < v * 2 ^ (q - xe).toNat else xm * 2 ^ (xe - q).toNat < v
      if past then (if sat then packMax g neg else packOverflow g mode neg) else packFloat g neg v q

/-- Range of an integer format. -/
def intRange (f : Nat) : Int × Int :=
  let w := widthOf f
  if isSignedFmt f then (-(2 ^ (w - 1)), 2 ^ (w - 1) - 1) else (0, 2 ^ w - 1)

/-- An integer saturated to a format's range, as bits. -/
def packInt (f : Nat) (i : Int) : Nat :=
  let (lo, hi) := intRange f
  ((max lo (min hi i)) % 2 ^ widthOf f).toNat

/-- An exact value rounded to an integer and saturated; NaN gives 0 (R170, R171). -/
def packToInt (f mode r n : Nat) : Val → Nat
  | .nan => 0
  | .inf neg => packInt f (if neg then (intRange f).1 else (intRange f).2)
  | .fin neg m e =>
    let v := roundTo mode neg r n m e 0
    packInt f (if neg then -(v : Int) else v)

/-- CVT of one element (R170). -/
def convert (fa fo mode r n x : Nat) : Nat :=
  if fa = fo then x % 2 ^ widthOf fa
  else match floatFmt fo with
    | some g => packVal g mode r n false (decodeVal fa x)
    | none => packToInt fo mode r n (decodeVal fa x)

/-! ### Floating-point operations (R169, R174, R175) -/

/-- The sum of two signed exact magnitudes; rdn: the mode is RDN, which decides the sign of an exact zero (R169). -/
def addVal (rdn : Bool) : Val → Val → Val
  | .nan, _ => .nan
  | _, .nan => .nan
  | .inf a, .inf b => if a = b then .inf a else .nan
  | .inf a, _ => .inf a
  | _, .inf b => .inf b
  | .fin a m e, .fin b k f =>
    let q := min e f
    let x : Int := (if a then -1 else 1) * (m * 2 ^ (e - q).toNat : Nat)
    let y : Int := (if b then -1 else 1) * (k * 2 ^ (f - q).toNat : Nat)
    if x + y = 0 then (if m = 0 && k = 0 && a = b then .fin a 0 0 else .fin rdn 0 0)
    else .fin (decide (x + y < 0)) (x + y).natAbs q

/-- The exact product; 0 x infinity is NaN (R175). -/
def mulVal : Val → Val → Val
  | .nan, _ => .nan
  | _, .nan => .nan
  | .inf a, .inf b => .inf (a ≠ b)
  | .inf a, .fin b m _ => if m = 0 then .nan else .inf (a ≠ b)
  | .fin a m _, .inf b => if m = 0 then .nan else .inf (a ≠ b)
  | .fin a m e, .fin b k f => .fin (a ≠ b) (m * k) (e + f)

/-- Whether x lies below y, with -0 below +0 (R174); neither is NaN. -/
def valLt : Val → Val → Bool
  | .inf a, .inf b => a && !b
  | .inf a, _ => a
  | _, .inf b => !b
  | .fin a m e, .fin b k f =>
    let q := min e f
    let x : Int := (if a then -1 else 1) * (m * 2 ^ (e - q).toNat : Nat)
    let y : Int := (if b then -1 else 1) * (k * 2 ^ (f - q).toNat : Nat)
    x < y || (x = 0 && y = 0 && a && !b)
  | _, _ => false

/-- A result in format f under a mode. -/
def packIn (f mode : Nat) (v : Val) : Nat :=
  match floatFmt f with
  | some g => packVal g mode 0 0 false v
  | none => 0

/-- FADD of one lane. -/
def fadd (f mode x y : Nat) : Nat := packIn f mode (addVal (mode = 0x3) (decodeVal f x) (decodeVal f y))
/-- FMUL of one lane. -/
def fmul (f mode x y : Nat) : Nat := packIn f mode (mulVal (decodeVal f x) (decodeVal f y))
/-- FMA of one lane, rounded once. -/
def fma (f mode x y z : Nat) : Nat :=
  packIn f mode (addVal (mode = 0x3) (mulVal (decodeVal f x) (decodeVal f y)) (decodeVal f z))
/-- FMIN of one lane (R174). -/
def fmin (f x y : Nat) : Nat :=
  match decodeVal f x, decodeVal f y with
  | .nan, _ => packIn f 0 .nan
  | _, .nan => packIn f 0 .nan
  | a, b => if valLt b a then y else x
/-- FMAX of one lane (R174). -/
def fmax (f x y : Nat) : Nat :=
  match decodeVal f x, decodeVal f y with
  | .nan, _ => packIn f 0 .nan
  | _, .nan => packIn f 0 .nan
  | a, b => if valLt a b then y else x
/-- FABS of one lane: the sign clears, and a NaN becomes the canonical one (R174). -/
def fabs (f x : Nat) : Nat :=
  match decodeVal f x with
  | .nan => packIn f 0 .nan
  | _ => x % 2 ^ (widthOf f - 1)

/-- ABSMAX of a block (R173). -/
def absMax (f : Nat) (l : List Nat) : Nat :=
  let vs := l.map (decodeVal f)
  if vs.any (· = .nan) then packIn f 0 .nan
  else l.foldl (fun a x => if valLt (decodeVal f a) (decodeVal f (fabs f x)) then fabs f x else a) 0

/-! ### Microscaling (R176 to R178) -/

/-- SCALE_MX (R176). -/
def scaleMx (fa fo x : Nat) : Nat :=
  match decodeVal fa x with
  | .nan => 0xFF
  | .inf _ => 0xFF
  | .fin _ m e =>
    if m = 0 then 0 else (max (-127) (min 127 (e + log2Floor m - emaxOf fo)) + 127).toNat

/-- One element of CVT_MX under scale code c (R177). -/
def cvtMx (fa fo mode r n c x : Nat) : Nat :=
  if c = 0xFF then 0
  else match decodeVal fa x, floatFmt fo with
    | .fin neg m e, some g => packVal g mode r n true (.fin neg m (e - ((c : Int) - 127)))
    | v, some g => packVal g mode r n true v
    | .nan, none => 0
    | .inf neg, none => if neg then 129 else 127
    | .fin neg m e, none =>
      let v := min 127 (roundTo mode neg r n m (e - ((c : Int) - 127) + 6) 0)
      if neg then (256 - v) % 256 else v

/-- One element of DEQ_MX under scale code c (R178). -/
def deqMx (fa fo mode c x : Nat) : Nat :=
  if c = 0xFF then packIn fo mode .nan
  else match decodeVal fa x with
    | .fin neg m e => packIn fo mode (.fin neg m (e + ((c : Int) - 127)))
    | v => packIn fo mode v

/-! ### The generator (R181): SipHash-2-4 -/

/-- The four words of the generator. -/
structure Sip where
  v0 : BitVec 64
  v1 : BitVec 64
  v2 : BitVec 64
  v3 : BitVec 64
deriving DecidableEq, Repr

/-- sipround of R181. -/
def sipRound (s : Sip) : Sip :=
  let a := s.v0 + s.v1
  let b := s.v1.rotateLeft 13 ^^^ a
  let a := a.rotateLeft 32
  let c := s.v2 + s.v3
  let d := s.v3.rotateLeft 16 ^^^ c
  let a := a + d
  let d := d.rotateLeft 21 ^^^ a
  let c := c + b
  let b := b.rotateLeft 17 ^^^ c
  ⟨a, b, c.rotateLeft 32, d⟩

/-- srng of R181. -/
def srng (k0 k1 p : BitVec 64) : BitVec 64 :=
  let len : BitVec 64 := 0x0800000000000000
  let s : Sip := ⟨k0 ^^^ 0x736F6D6570736575, k1 ^^^ 0x646F72616E646F6D, k0 ^^^ 0x6C7967656E657261,
    k1 ^^^ 0x7465646279746573 ^^^ p⟩
  let s := sipRound (sipRound s)
  let s := { s with v0 := s.v0 ^^^ p, v3 := s.v3 ^^^ len }
  let s := sipRound (sipRound s)
  let s := { s with v0 := s.v0 ^^^ len, v2 := s.v2 ^^^ 0xFF }
  let s := sipRound (sipRound (sipRound (sipRound s)))
  s.v0 ^^^ s.v1 ^^^ s.v2 ^^^ s.v3

/-! ### Exact accumulators (R183 to R188) -/

/-- VALUE and STATE of an accumulator; ganged: 2,240 bits in units of 2^-1074, else 320 bits in units of 2^-149. -/
structure Acc where
  ganged : Bool
  value : Nat
  state : Nat
deriving DecidableEq, Repr

/-- Bits of VALUE. -/
def accBits (ganged : Bool) : Nat := if ganged then 2240 else 320
/-- L of R186. -/
def accScale (ganged : Bool) : Nat := if ganged then 1074 else 149

/-- Apply one operand (R186). -/
def accApply (a : Acc) : Val → Acc
  | .nan => { a with state := a.state / 2 * 2 + 1 }
  | .inf false => { a with state := a.state + (if bitOf a.state 1 then 0 else 2) }
  | .inf true => { a with state := a.state + (if bitOf a.state 2 then 0 else 4) }
  | .fin neg m e =>
    if m = 0 then a
    else
      let b := accBits a.ganged
      let x : Int := roundTo 0x1 false 0 0 m e (-(accScale a.ganged : Int))
      let t := signedOf b a.value + (if neg then -x else x)
      let w : Int := if (2 : Int) ^ (b - 1) ≤ t then 1 else if t < -((2 : Int) ^ (b - 1)) then -1 else 0
      { a with
        value := (t % 2 ^ b).toNat
        state := (((field a.state 7 4 : Int) + w) % 16).toNat * 16 + a.state % 16 }

/-- Sign of RESOLVE's destination rules: the element of an accumulator, and whether it is flagged (R187). -/
def accResolve (a : Acc) (fo mode : Nat) : Nat × Bool :=
  let put (v : Val) : Nat :=
    match floatFmt fo with
    | some g => packVal g mode 0 0 false v
    | none => packToInt fo mode 0 0 v
  if bitOf a.state 0 || (bitOf a.state 1 && bitOf a.state 2) then (put .nan, false)
  else if bitOf a.state 1 then (put (.inf false), false)
  else if bitOf a.state 2 then (put (.inf true), false)
  else
    let wrap := signedOf 4 (field a.state 7 4)
    let t := signedOf (accBits a.ganged) a.value + 2 ^ accBits a.ganged * wrap
    (put (.fin (decide (t < 0)) t.natAbs (-(accScale a.ganged : Int))), wrap ≠ 0)

/-- Whether a code is a destination of RESOLVE and RED_ACC (R187). -/
def resolveFmt (ganged : Bool) (f : Nat) : Bool :=
  if ganged then f = 0x01 || f = 0x02
  else [0x01, 0x02, 0x03, 0x04, 0x08, 0x09, 0x15, 0x17].contains f

/-- Whether a mode is one that RESOLVE accepts (R168). -/
def resolveMode (m : Nat) : Bool := m ≤ 4 || m = 6

/-! ### Checksums (R190) -/

/-- One bit of the reflected CRC-32C. -/
def crcBit (c : BitVec 32) : BitVec 32 := if c.getLsbD 0 then (c >>> 1) ^^^ 0x82F63B78 else c >>> 1

/-- CRC-32C of a byte string (R190). -/
def crc32c (bs : List Byte) : BitVec 32 :=
  bs.foldl (fun c b => crcBit (crcBit (crcBit (crcBit (crcBit (crcBit (crcBit (crcBit (c ^^^ b.zeroExtend 32)))))))))
    0xFFFFFFFF ^^^ 0xFFFFFFFF

/-! ### Atomics (R101, R189) -/

/-- Result at the target of an atomic of width bytes (R101). -/
def atomicResult (atop width old operand cmp : Nat) : Nat :=
  let w := 8 * width
  let m := 2 ^ w
  let a := old % m
  let b := operand % m
  match atop with
  | 0x01 => (a + b) % m
  | 0x02 => b
  | 0x03 => if a = cmp % m then b else a
  | 0x04 => Nat.land a b
  | 0x05 => Nat.lor a b
  | 0x06 => Nat.xor a b
  | 0x07 => if signedOf w b < signedOf w a then b else a
  | 0x08 => if signedOf w a < signedOf w b then b else a
  | 0x09 => min a b
  | 0x0A => max a b
  | 0x10 => fadd (if width = 8 then 0x01 else 0x02) 0 a b
  | _ => a

/-- Codes of ATOP (R101). -/
def atopKnown (a : Nat) : Bool := (0x01 ≤ a && a ≤ 0x0A) || a = 0x10

end Sys2Proof.Machine
end

