-- ==== Sys2Proof/Machine/Operands.lean ====
section
/-! DEFINITION. The fields of entries and addresses: the control word, the operands of each opcode, ranges and
regions (R21, R56, R57, R87 to R90, R110, R118). -/

namespace Sys2Proof.Machine

open Sys2Proof

/-! ### The control word (R57) -/

/-- OPCODE, CONTROL[7:0]. -/
def Entry.opcode (e : Entry) : Nat := field e.control.toNat 7 0
/-- FENCE, CONTROL[8]. -/
def Entry.fence (e : Entry) : Bool := bitOf e.control.toNat 8
/-- EVENT, CONTROL[9]. -/
def Entry.event (e : Entry) : Bool := bitOf e.control.toNat 9
/-- OPFLAGS bit [10 + i]. -/
def Entry.flag (e : Entry) (i : Nat) : Bool := bitOf e.control.toNat (10 + i)
/-- OPFLAGS, CONTROL[15:10]. -/
def Entry.opflags (e : Entry) : Nat := field e.control.toNat 15 10
/-- VAT_ID, CONTROL[31:16]. -/
def Entry.vatId (e : Entry) : Nat := field e.control.toNat 31 16
/-- RECIPE_OR_SUBOP, CONTROL[47:32]. -/
def Entry.subop (e : Entry) : Nat := field e.control.toNat 47 32
/-- LENGTH, LEN_STRIDE[39:0]. -/
def Entry.length (e : Entry) : Nat := field e.lenStride.toNat 39 0
/-- ROW_BYTES, ELEM_BYTES or K, LEN_STRIDE[63:40]. -/
def Entry.rowBytes (e : Entry) : Nat := field e.lenStride.toNat 63 40
/-- Width of an ATOMIC's operands (R101). -/
def Entry.width (e : Entry) : Nat := if bitOf e.subop 8 then 8 else 4
/-- ATOP of an ATOMIC (R101). -/
def Entry.atop (e : Entry) : Nat := field e.subop 7 0
/-- Width of an index (R93 IDX64). -/
def Entry.idxWidth (e : Entry) : Nat := if e.flag 0 then 8 else 4
/-- Number of elements of a GATHER or SCATTER (R93). -/
def Entry.elems (e : Entry) : Nat := if e.rowBytes = 0 then 0 else e.length / e.rowBytes
/-- SRC_STRIDE and DST_STRIDE of a strided COPY (R87). -/
def Entry.srcStride (e : Entry) : Nat := field e.operand.toNat 31 0
/-- DST_STRIDE. -/
def Entry.dstStride (e : Entry) : Nat := field e.operand.toNat 63 32
/-- Rows of a strided COPY (R90). -/
def Entry.rows (e : Entry) : Nat := if e.rowBytes = 0 then 0 else e.length / e.rowBytes
/-- Offset of element k of a SCATTER's or GATHER's table side. -/
def Entry.elemOff (e : Entry) (k : Nat) : Nat := e.idxRead.getD k 0 * e.rowBytes

/-- The 64-byte entry that bytes spell, at index i (R56); R58: bits [62:0] of the status word are ignored. -/
def entryOfWords (i : W32) (ep : BitVec 8) (w : List W64) : Entry :=
  { idx := i, control := w.getD 0 0, src := w.getD 1 0, dst := w.getD 2 0, lenStride := w.getD 3 0
    operand := w.getD 4 0, fenceVal := w.getD 5 0, cookie := w.getD 6 0, own := (w.getD 7 0).msb, epoch := ep }

/-! ### Regions (R21) -/

/-- Region of a device virtual address: device-local, a host window, or unmapped (R21). -/
inductive Region where
  | dlocal
  | window (h : Nat)
  | unmapped
deriving DecidableEq, Repr

/-- The region of an address (R21). -/
def regionOf (va : Nat) : Region :=
  if va < 2 ^ 56 then .dlocal
  else if va < 2 ^ 58 then .unmapped
  else if va < 2 ^ 62 + 2 ^ 57 then
    if va % 2 ^ 58 < 2 ^ 57 then .window (va / 2 ^ 58 - 1) else .unmapped
  else .unmapped

/-- Whether an address lies in the scratchpad window (R22, R200). -/
def inScratch (va : Nat) : Bool := 0x00F0000000000000 ≤ va && va < 0x00F0000008000000

/-- Whether a range lies wholly in one region (R89). -/
def rangeOk (a n : Nat) : Bool :=
  a + n ≤ 2 ^ 64 && regionOf a ≠ .unmapped && (n = 0 || regionOf (a + n - 1) = regionOf a)

/-- Whether two ranges share a byte. -/
def overlap (a n b m : Nat) : Bool := n ≠ 0 && m ≠ 0 && a < b + m && b < a + n

/-- The 4 KiB pages that a range touches, in address order. -/
def pagesOf (a n : Nat) : List Nat :=
  if n = 0 then [] else (List.range ((a + n - 1) / 4096 + 1 - a / 4096)).map (fun k => (a / 4096 + k) * 4096)

end Sys2Proof.Machine
end

