-- ==== Sys2Proof/Machine/Flags.lean ====
section
/-! DEFINITION. Statuses, status words, segment maps and DONE_BYTES (R57, R115 to R117, R490). -/

namespace Sys2Proof.Machine

open Sys2Proof

/-- The code of a completion status (R117, R490). -/
def Status.code : Status → Nat
  | .ok => 0x0000
  | .partialDone => 0x0001
  | .malformed => 0x0010
  | .badOpcode => 0x0011
  | .badVat => 0x0012
  | .xlateFault => 0x0020
  | .rindViolation => 0x0021
  | .aborted => 0x0030
  | .peerLost => 0x0040
  | .thermalTimeout => 0x0041
  | .recipeFault => 0x0050
  | .accumOverflow => 0x0051
  | .notQuiesced => 0x0060
  | .busy => 0x0061
  | .cryptoReject => 0x0062

/-- The status word that the Hivik writes on completion: OWN 0 (R57, R58). -/
def statusWord (st : Status) (segmap : Bool) (segLast done : Nat) : Nat :=
  b2n segmap * 2 ^ 62 + (if segmap then segLast % 64 else 0) * 2 ^ 56 + done % 2 ^ 40 * 2 ^ 16 + st.code

/-- The segment map: bit j is 1 when segment j is complete (R116). -/
def segMap (e : Entry) : Nat := maskOf 64 ((List.range e.segs.length).filter (fun j => e.segs[j]? = some .done))

/-- Number of leading complete segments. -/
def leadDone (e : Entry) : Nat := (e.segs.takeWhile (· = .done)).length

/-- Opcodes whose DONE_BYTES count operands applied rather than a prefix: ATOMIC and ACCUMULATE (R116). -/
def countsOperands (op : Nat) : Bool := op = 0x09 || op = 0x07

/-- DONE_BYTES (R116): the contiguous prefix known written, or for ATOMIC and ACCUMULATE the bytes of operands applied. -/
def doneBytes (e : Entry) : Nat :=
  if countsOperands e.opcode then e.segDone.sum
  else (e.segDone.take (leadDone e + 1)).sum

/-- Status and SEGMAP of an entry in which some part failed (R115); anyApplied: some byte or operand was applied. -/
def failStatus (c : FailCause) (anyApplied : Bool) : Status × Bool :=
  match c, anyApplied with
  | .heldOut, _ => (.thermalTimeout, true)
  | .peerLost false, false => (.peerLost, false)
  | .peerLost true, _ => (.partialDone, true)
  | .revoked r, false => (if r then .rindViolation else .xlateFault, false)
  | .cellLost, false => (.recipeFault, false)
  | .overIndex, a => if a then (.partialDone, true) else (.malformed, false)
  | .target, _ => (.partialDone, true)
  | _, true => (.partialDone, true)

/-- Which cause decides when several parts of an entry fail: the row of R115 that stands first (R115). -/
def causeRank : FailCause → Nat
  | .heldOut => 0
  | .peerLost true => 1
  | .peerLost false => 2
  | .revoked _ => 3
  | .cellLost => 4
  | .target => 5
  | .overIndex => 6

/-- The cause that an entry keeps when another part fails with c. -/
def mergeCause (old : Option FailCause) (c : FailCause) : Option FailCause :=
  match old with
  | none => some c
  | some o => if causeRank c < causeRank o then some c else some o

end Sys2Proof.Machine
end

