-- ==== Sys2Proof/Machine/Xlat.lean ====
section
/-! DEFINITION. Translation as a lookup: the rind check, cached translations, and the start of walks and Translation
Requests (R192 to R204, R411, R491). -/

namespace Sys2Proof.Machine

open Sys2Proof

/-- Answer of a lookup: a location, no cached answer yet, or a cause of R205. -/
inductive Look where
  | ok (pa : Nat)
  | miss
  | fault (cause : Nat)
deriving DecidableEq, Repr

/-- First hop toward node n for a wheel: its lowest up port that the wheel holds (R257). -/
def firstHop (s : State) (w n : Nat) : Option Nat := (upPorts s n).find? (fun p => peerWheelOf s p = w)

/-- Whether node n is this Hivik (R250). -/
def ownNode (s : State) (n : Nat) : Bool := s.pr.nodeValid && s.pr.nodeId = n

/-- The rind check of a location for wheel w (R411, R252, R257). -/
def rindOk (s : State) (w : Nat) : Home → Bool
  | .acd q => acdWheelOf s q = w
  | .far p => hcWheelOf s p = w
  | .slice k => sliceWheelOf s k = w
  | .host p => hcWheelOf s p = w
  | .peer n => (s.wheel w).fdomValid && (ownNode s n || (upPorts s n).isEmpty || (firstHop s w n).isSome)
  | .none => true

/-- A physical address that is no memory, or lies behind a host-class port in host mode (R195, R491 check 4). -/
def paInvalid (s : State) (pa : Nat) : Bool :=
  match homeOf pa with
  | .acd _ => false
  | .peer _ => false
  | .far p => hostMode s p
  | .slice _ => true
  | .host _ => true
  | .none => true

/-- Bytes of compute-die memory that Acdoic port q reports (R316, R329: 0 while PARAMS_VALID is 0), without the 16 MiB of
a vat store (R449). -/
def acdCapacity (s : State) (q : Nat) : Nat :=
  if !(s.acd q).paramsValid then 0
  else (s.acd q).stackCount * 2 ^ (s.acd q).stackLog2 - (if s.st.vatStore.contains q then 2 ^ 24 else 0)

/-- A physical address beyond the capacity that its port reports (R491 check 6). -/
def paBeyond (s : State) (pa : Nat) : Bool :=
  match homeOf pa with
  | .acd q => acdCapacity s q ≤ pa % 2 ^ 40
  | .far p => (s.hc p).capacity * 2 ^ 28 ≤ (pa - 2 ^ 48) % 2 ^ 42
  | _ => false

/-- Whether a translation permits an access (R204). -/
def xlatPermits (x : Xlat) : Access → Bool
  | .read => x.rd
  | .write => x.wr
  | .atomic => x.rd && x.wr && (x.at_ || x.port.isSome)

/-- The wheel of a vat. -/
def vatWheel (s : State) (v : Nat) : Nat := (s.vat v).wheel

/-- The window entry of vat v toward host h. -/
def winOf (s : State) (v h : Nat) : Win := tabGet {} (s.vat v).windows h

/-- Window offset of an address, o of R193. -/
def winOff (va : Nat) : Nat := va % 2 ^ 58

/-- Untranslated address toward the host's IOMMU (R193). -/
def untransAddr (s : State) (v h va : Nat) : Nat :=
  if (winOf s v h).sx && bitOf (winOff va) 56 then winOff va + 0xFE00000000000000 else winOff va

/-- PASID that requests of a window carry (R201). -/
def winPasid (w : Win) : Option Nat := if w.pasidEn then some w.pasid else none

/-- Whether a cached translation answers an address of the range [page, page + size). -/
def xlatCovers (x : Xlat) (a : Nat) : Bool := x.page ≤ a && a < x.page + x.size && !x.stopped

/-- A failed translation recorded for this page and access, while its waiters are served. -/
def faultFor (s : State) (v va : Nat) (need : Access) : Option Nat :=
  (s.xl.xfaults.find? (fun x => x.vat = v && x.page = va / 4096 * 4096 &&
    (regionOf va = .dlocal || x.need = need))).map (·.cause)

/-! ### Export slots (R251, R273) -/

/-- FDOM of an export slot. -/
def Export.fdom (x : Export) : Nat := field x.q0.toNat 63 52
/-- BASE. -/
def Export.base (x : Export) : Nat := field x.q0.toNat 51 12 * 4096
/-- SIZE_LOG2. -/
def Export.sizeLog2 (x : Export) : Nat := field x.q0.toNat 11 7
/-- KIND 1: scratchpad. -/
def Export.scratch (x : Export) : Bool := x.q0.getLsbD 6
/-- ATOMIC. -/
def Export.atomic (x : Export) : Bool := x.q0.getLsbD 5
/-- WRITE. -/
def Export.write (x : Export) : Bool := x.q0.getLsbD 4
/-- READ. -/
def Export.read (x : Export) : Bool := x.q0.getLsbD 3
/-- VALID, with a SIZE_LOG2 that R273 allows. -/
def Export.valid (x : Export) : Bool := x.q0.getLsbD 0 && 12 ≤ x.sizeLog2 && x.sizeLog2 ≤ 32

/-- The checks of an export slot for a request of LEN n at a peer offset, in order: the location, or the NAK reason (R251,
R255); bytes beyond the capacity that the port reports, those of a vat store among them, are no reachable memory (R30, R449). -/
def exportCheck (s : State) (fdom off n : Nat) (need : Access) : Except Nat Nat :=
  let x := s.exp (field off 37 32)
  let o := off % 2 ^ 32
  if !x.valid || 2 ^ x.sizeLog2 ≤ o + n then .error 0x01
  else if x.fdom ≠ fdom then .error 0x02
  else if !(match need with | .read => x.read | .write => x.write | .atomic => x.read && x.write && x.atomic) then .error 0x03
  else
    let pa := if x.scratch then scratchLoc (x.base + o) else x.base + o
    if homeUp s (homeOf pa) && !paBeyond s (pa + n - 1) then .ok pa else .error 0x08

/-- The location that a physical address names: a peer address of this Hivik's own node is served through its own
export table (R250). -/
def ownLoc (s : State) (w pa : Nat) (need : Access) : Nat :=
  match homeOf pa with
  | .peer n =>
    if ownNode s n then
      match exportCheck s (s.wheel w).fdom (pa % 2 ^ 38) 1 need with
      | .ok loc => loc
      | .error _ => pa
    else pa
  | _ => pa

/-- Whether a cached translation is the one that vat v's address va uses: its ASID, or its port, requester and PASID, and for a
page under U = 1 its vat too (R202, R203, R217). -/
def xlatOf (s : State) (v va : Nat) (x : Xlat) : Bool :=
  match regionOf va with
  | .unmapped => false
  | .dlocal => x.port = none && x.vat = v && xlatCovers x va
  | .window h =>
    let w := winOf s v h
    x.port = some h && x.reqFn = w.reqFn && x.pasid = winPasid w && (!x.untrans || x.vat = v) &&
      xlatCovers x (untransAddr s v h va)

/-- The micro-TLB that serves accesses made for no hoop (DESIGN CHOICE, log entry 128). -/
def centralTlb : Nat := 32

/-- Whether a translation is found in the micro-TLB of slice k; with no slice given, in any cache. -/
def foundAt (k : Option Nat) (x : Xlat) : Bool := k.elim true x.slices.contains

/-- The lookup of a device virtual address by a vat for an access, in the order of R491, in the micro-TLB of one slice or, with
none given, in every cache. -/
def lookupIn (k : Option Nat) (s : State) (v va : Nat) (need : Access) : Look :=
  if inScratch va then
    let k := (va - 0x00F0000000000000) / 2 ^ 22
    if sliceWheelOf s k = vatWheel s v then .ok (scratchLoc (va - 0x00F0000000000000)) else .fault 0x10
  else
    match regionOf va with
    | .unmapped => .fault 0x06
    | .dlocal =>
      if !(s.vat v).rootValid then .fault 0x01
      else match faultFor s v va need with
        | some c => .fault c
        | none =>
          match s.xl.xlats.find? (fun x => xlatOf s v va x && foundAt k x) with
          | none => .miss
          | some x =>
            let pa := x.pa + (va - x.page)
            if !rindOk s (vatWheel s v) (homeOf pa) then .fault 0x10
            else if paBeyond s pa then .fault 0x05
            else if !xlatPermits x need then .fault 0x02
            else .ok (ownLoc s (vatWheel s v) pa need)
    | .window h =>
      if hcWheelOf s h ≠ vatWheel s v then .fault 0x10
      else if !(s.vat v).windowMask.getLsbD h || !hostMode s h || (s.hc h).lost then .fault 0x06
      else match faultFor s v va need with
        | some c => .fault c
        | none =>
          match s.xl.xlats.find? (fun x => xlatOf s v va x && xlatPermits x need && foundAt k x) with
          | none => .miss
          | some x => .ok (hostLoc h (x.pa + (untransAddr s v h va - x.page)))

/-- The translation of an address as its accesses use it, whichever micro-TLB holds it. -/
def lookup (s : State) (v va : Nat) (need : Access) : Look := lookupIn none s v va need

/-! ### Filling the caches (R202, R209, R210) -/

/-- Whether a held slot of slice k keeps a translation there (R210). -/
def heldAt (s : State) (k : Nat) (x : Xlat) : Bool :=
  s.xl.held.any (fun g => g.slice = k && xlatOf s g.vat g.page x)

/-- Translations that no cache holds any more are gone; one that an Invalidate Request stops stays until its accesses have
ended (R214). -/
def dropLost (s : State) : State :=
  { s with xl.xlats := s.xl.xlats.filter (fun x => x.atc || !x.slices.isEmpty || x.stopped) }

/-- Set of the ATC for a page: one of 8,192, by page number (DESIGN CHOICE, log entry 129). -/
def atcSet (x : Xlat) : Nat := x.page / x.size % 8192

/-- The oldest element of a list, newest first, that satisfies p loses what g takes from it. -/
def changeLast (p : Xlat → Bool) (g : Xlat → Xlat) (l : List Xlat) : List Xlat :=
  match l.reverse.findIdx? p with
  | some k => l.modify (l.length - 1 - k) g
  | none => l

/-- A full set of the ATC loses its least recently used entry (R202; the order of use stands for pseudo-LRU: DESIGN CHOICE, log
entry 129). -/
def trimAtc (x : Xlat) (s : State) : State :=
  let same (y : Xlat) : Bool := y.atc && atcSet y = atcSet x
  if (s.xl.xlats.filter same).length ≤ 16 then s
  else { s with xl.xlats := changeLast same (fun y => { y with atc := false }) s.xl.xlats }

/-- A full micro-TLB loses its oldest translation that no entry holds, though never the one that has just been taken; the
central one has no bound (R209, R210; log entry 128). -/
def trimTlb (k : Nat) (s : State) : State :=
  if k = centralTlb || (s.xl.xlats.filter (fun x => x.slices.contains k)).length ≤ 512 then s
  else match s.xl.xlats with
    | [] => s
    | y :: r =>
      let l := changeLast (fun x => x.slices.contains k && !heldAt s k x) (fun x => { x with slices := x.slices.filter (· ≠ k) }) r
      { s with xl.xlats := y :: l }

/-- The micro-TLB of slice k takes a translation that is cached (R209); it is then the newest. -/
def fillTlb (k : Nat) (x : Xlat) (s : State) : State :=
  { s with xl.xlats := { x with slices := x.slices.filter (· ≠ k) ++ [k] } :: s.xl.xlats.erase x } |> trimTlb k |> dropLost

/-- A new translation takes the place of those that it overlaps: in the ATC, and in the micro-TLB of the slice that asked; one
that an Invalidate Request has stopped stays (R202, R214, R222). -/
def addXlat (k : Nat) (x : Xlat) (s : State) : State :=
  let hit (y : Xlat) : Bool := y.port = x.port && (if x.port = none then y.vat = x.vat else
    y.reqFn = x.reqFn && y.pasid = x.pasid && (!y.untrans || y.vat = x.vat)) && !y.stopped && overlap y.page y.size x.page x.size
  let l := s.xl.xlats.map (fun y => if hit y then { y with atc := y.atc && !x.atc, slices := y.slices.filter (· ≠ k) } else y)
  { s with xl.xlats := x :: l } |> when x.atc (trimAtc x) |> fillTlb k x

/-! ### What finds a translation missing (R203, R222) -/

/-- A Translation Request number free on port p. -/
def freeAtsTag (s : State) (p : Nat) : Option Nat :=
  firstFree 256 (fun t => s.xl.atsReqs.any (fun r => r.port = p && r.tag = t))

/-- Send a Translation Request, or let it wait while 256 are outstanding on its port (R203). -/
def sendAts (r : AtsReq) (s : State) : State :=
  match freeAtsTag s r.port with
  | none => { s with xl.atsWait := s.xl.atsWait ++ [r] }
  | some t =>
    { s with xl.atsReqs := s.xl.atsReqs ++ [{ r with tag := t, stale := false, invals := [] }] }
    |> emit (.ats r.port t r.reqFn r.pasid r.page)

/-- The oldest Translation Request that waits on port p is sent, once a number is free. -/
def nextAts (p : Nat) (s : State) : State :=
  match s.xl.atsWait.find? (fun r => r.port = p), freeAtsTag s p with
  | some r, some _ => sendAts r { s with xl.atsWait := s.xl.atsWait.erase r }
  | _, _ => s

/-- Whether the ATC's search for the page of an access is under way: a Translation Request or a page request (R203, R211). -/
def asking (s : State) (v h u : Nat) (need : Access) : Bool :=
  (s.xl.atsReqs ++ s.xl.atsWait).any (fun r => r.vat = v && r.port = h && r.page = u && r.need = need) ||
  (s.xl.pageReqs ++ s.xl.pageWait).any (fun r => !r.dead && r.vat = v && r.port = h && r.page = u && r.need = need)

/-- Start what finds a translation that the micro-TLB of slice k misses: a walk (R222), or a lookup in the ATC and, where that
misses too, a Translation Request (R203); nothing while one for the same page and access is under way. -/
def startXlate (k v va : Nat) (need : Access) (s : State) : State :=
  match regionOf va with
  | .unmapped => s
  | .dlocal =>
    if s.xl.walks.any (fun x => x.vat = v && x.slice = k && x.va.toNat / 4096 = va / 4096) then s
    else if 64 - s.sp.walkersOut ≤ s.xl.walks.length then s
    else { s with
      xl.walks := s.xl.walks ++ [{ vat := v, va := BitVec.ofNat 64 va, need := need, slice := k }]
      xl.walkCount := s.xl.walkCount + 1 }
  | .window h =>
    let w := winOf s v h
    let u := untransAddr s v h va / 4096 * 4096
    if asking s v h u need then s
    else
      let s := { s with xl.atcLookups := s.xl.atcLookups + 1 }
      match s.xl.xlats.find? (fun x => x.atc && xlatOf s v va x && xlatPermits x need) with
      | some x => fillTlb k x s
      | none => sendAts { port := h, tag := 0, vat := v, reqFn := w.reqFn, pasid := winPasid w, page := u, need := need
                          va := BitVec.ofNat 64 va, slice := k } { s with xl.atcMisses := s.xl.atcMisses + 1 }

/-- Look an address up for slice k and start what finds a missing translation. -/
def askXlate (k v va : Nat) (need : Access) (s : State) : State :=
  if lookupIn (some k) s v va need = .miss then startXlate k v va need s else s

/-- Outcome of looking up a list of pages in order (R208): all present, some missing with none failing before, or the
earliest failure with its address and cause. -/
inductive Pages where
  | ok
  | wait
  | fault (va cause : Nat)
deriving DecidableEq, Repr

/-- The earliest failure among pages in order; a page still missing decides nothing and must be waited for (R208). -/
def pagesOutcome (s : State) (k : Option Nat) (v : Nat) : List (Nat × Access) → Pages
  | [] => .ok
  | (va, need) :: r =>
    match lookupIn k s v va need with
    | .ok _ => pagesOutcome s k v r
    | .miss => .wait
    | .fault c => .fault va c

/-- Start every missing page of a list. -/
def startPages (k v : Nat) (l : List (Nat × Access)) (s : State) : State := forAll l (fun p => askXlate k v p.1 p.2) s

/-- Pages of a range, each with the access it needs. -/
def needPages (a n : Nat) (need : Access) : List (Nat × Access) := (pagesOf a n).map (·, need)

/-- The part of a virtual range that lies in the page at a: its first address and its length. -/
def pagePart (va n a : Nat) : Nat × Nat := (max a va, min (a + 4096) (va + n) - max a va)

/-- The bytes of a virtual range of a vat, once every page of it is present. -/
def vread (s : State) (v va n : Nat) : List Byte :=
  (pagesOf va n).flatMap (fun a =>
    let (lo, k) := pagePart va n a
    match lookup s v lo .read with
    | .ok pa => readBytes s pa k
    | _ => List.replicate k 0)

/-- The number in n bytes of a virtual range. -/
def vreadNat (s : State) (v va n : Nat) : Nat := leNat (vread s v va n)

/-- Write bytes to a virtual range of a vat, page by page through its translation. -/
def vwrite (v : Nat) (need : Access) (va : Nat) (bs : List Byte) (s : State) : State :=
  forAll (pagesOf va bs.length) (fun a t =>
    let (lo, k) := pagePart va bs.length a
    match lookup t v lo need with
    | .ok pa => writeBytes pa ((bs.drop (lo - va)).take k) t
    | _ => t) s

/-- The locations of the first bytes of a virtual range's pages, for its homes. -/
def vhomes (s : State) (v va n : Nat) (need : Access) : List Home :=
  (pagesOf va n).filterMap (fun a => match lookup s v a need with | .ok pa => some (homeOf pa) | _ => none)

/-- Whether any byte of a virtual range is poisoned. -/
def vpoisoned (s : State) (v va n : Nat) : Bool :=
  (pagesOf va n).any (fun a =>
    let (lo, k) := pagePart va n a
    match lookup s v lo .read with
    | .ok pa => poisonedAt s pa k
    | _ => false)

end Sys2Proof.Machine
end

