-- ==== Sys2Proof/Machine/Requests.lean ====
section
/-! DEFINITION. Requests and writes as shared operations: tags, requests toward ports and nodes, reservations, a write applied
at its home, coherent windows and back-invalidation, and the words and records that the hoop engines write (R140, R227,
R235, R244, R253 to R259, R285, R295 to R301, R319). -/

namespace Sys2Proof.Machine

open Sys2Proof

/-! ### Tags (R253, R285, R319) -/

/-- Requests that may be outstanding toward a target: 8,192 non-posted ones of a host port (R285), 16,384 tags of an Acdoic
port (R319), the 13 bits of a peer packet's TAG (R253); for a far-memory port the 16 bits of a CXL.mem tag (PRESUMED, log
entry 118). -/
def tagSpace : Tgt → Nat
  | .host _ => 8192
  | .acd _ => 16384
  | .far _ => 65536
  | .peer _ => 8192

/-- Whether two targets draw from one set of tags: each port has its own, and a node's TAGs are unique over all its
requests to peers (R253). -/
def sameTags : Tgt → Tgt → Bool
  | .peer _, .peer _ => true
  | t, u => t = u

/-- A tag that no outstanding request of the target's set has (R253, R285, R319). -/
def freeTag (s : State) (t : Tgt) : Option Nat :=
  let used := (s.lk.reqs.filter (fun r => r.tagged && sameTags r.tgt t)).map (·.tag)
  if tagSpace t ≤ used.length then none
  else ((List.range (used.length + 1)).map (fun k => (s.lk.nextTag + k) % tagSpace t)).find? (fun x => !used.contains x)

/-- What a request that has its tag puts on the wire: a non-posted request toward a host, a packet toward a peer. -/
def putReq (type : Nat) (r : Req) (s : State) : State :=
  match r.tgt, r.hop, r.pkt with
  | .host p, _, _ => emit (.hostReq p r.tag r.kind (r.addr - hostLoc p 0) r.len) s
  | .peer _, some p, some k => sendPacket p type k s
  | _, _, _ => s

/-- Whether a request is a peer read, write or atomic: its TYPE (R254). -/
def typeOf (r : Req) : Nat :=
  match r.kind with
  | .read => 0x01
  | .write => 0x03
  | _ => 0x05

/-- First hop of a wheel's next request toward node d: that of its requests outstanding to d, since a first hop changes only once
every one of them has been answered, NAKed or timed out; none while that port is down (R257, R259). -/
def nextHop (s : State) (w d : Nat) : Option Nat :=
  match s.lk.reqs.findSome? (fun r => if r.tgt = .peer d && r.wheel = w && r.sent && !r.held then r.hop else none) with
  | some p => if (s.peerP p).up && peerWheelOf s p = w then some p else none
  | none => firstHop s w d

/-- What a request goes out with: a free tag, and toward a peer a first hop; none while it must wait for one of them (R253, R259,
R285, R319). -/
def readyWith (s : State) (r : Req) : Option (Nat × Option Nat) :=
  match freeTag s r.tgt, r.tgt with
  | some k, .peer d => (nextHop s r.wheel d).map (fun p => (k, some p))
  | some k, _ => some (k, none)
  | none, _ => none

/-- Give request r tag k and a first hop. -/
def withTag (r : Req) (k : Nat) (p : Option Nat) : Req :=
  { r with tag := k, tagged := true, sent := true, hop := p, pkt := r.pkt.map (fun x => { x with tag := k }) }

/-- Record one request: it is sent, or waits for a tag or a first hop (R259, R285, R319), and behind an earlier request of its
wheel to its node that waits. -/
def recordReq (r : Req) (s : State) : State :=
  let behind := match r.tgt with
    | .peer _ => s.lk.reqs.any (fun q => !q.tagged && q.tgt = r.tgt && q.wheel = r.wheel)
    | _ => false
  match if behind then none else readyWith s r with
  | none => { s with lk.reqs := s.lk.reqs ++ [{ r with tagged := false, sent := false }] }
  | some (k, p) => { s with lk.reqs := s.lk.reqs ++ [withTag r k p], lk.nextTag := (k + 1) % 65536 }
      |> putReq (typeOf r) (withTag r k p)

/-- The requests that wait for a tag or a first hop go out where they now can, oldest first (R259, R285, R319). -/
def giveTags (s : State) : State :=
  forAll (s.lk.reqs.filter (fun r => !r.tagged)) (fun r t =>
    match readyWith t r with
    | none => t
    | some (k, p) => { t with lk.reqs := t.lk.reqs.replace r (withTag r k p), lk.nextTag := (k + 1) % 65536 }
        |> putReq (typeOf r) (withTag r k p)) s

/-- Drop the outstanding requests that satisfy p; their tags are free. -/
def dropReqs (p : Req → Bool) (s : State) : State := giveTags { s with lk.reqs := s.lk.reqs.filter (fun r => !p r) }

/-- Largest request toward a target: 64 bytes to a host or the far tier (R227, R304), 256 to a compute die (R319), 4,096 to a
peer (R253); an atomic operation has at most 8 bytes (R101). -/
def reqUnit : Tgt → ReqKind → Nat
  | .peer _, _ => 4096
  | .acd _, .atomic => 8
  | .acd _, _ => 256
  | _, .atomic => 8
  | _, _ => 64

/-- The parts of [a, a + n) between multiples of u, in ascending order (R227); an empty range is one part. -/
def cutAt (u a n : Nat) : List (Nat × Nat) :=
  if n = 0 then [(a, 0)]
  else (List.range ((a + n - 1) / u + 1 - a / u)).map (fun k =>
    let lo := max a ((a / u + k) * u)
    (lo, min (a + n) ((a / u + k + 1) * u) - lo))

/-- Record the requests of one access, one for each unit, none crossing a boundary of it (R227, R285, R319). -/
def addReq (t : Tgt) (o : Owner) (k : ReqKind) (a n : Nat) (ep : BitVec 8) (s : State) : State :=
  forAll (cutAt (reqUnit t k) a n) (fun r => recordReq
    { tgt := t, owner := o, kind := k, addr := r.1, len := r.2, epoch := ep }) s

/-- The port or node that a location's requests go to; none: inside the Hivik. -/
def tgtOf : Home → Option Tgt
  | .acd q => some (.acd q)
  | .far p => some (.far p)
  | .peer n => some (.peer n)
  | .host p => some (.host p)
  | _ => none

/-- Whether some request serves a piece of work. -/
def waitsFor (s : State) (o : Owner) : Bool := s.lk.reqs.any (fun r => r.owner = o)

/-- Remove the requests that serve a piece of work. -/
def dropOwner (o : Owner) (s : State) : State := dropReqs (fun r => r.owner = o) s

/-! ### Peer requests (R252 to R259) -/

/-- A request packet to the node of a peer location (R253). -/
def reqPkt (s : State) (w tc tag pa n atop : Nat) (wide ret : Bool) (bs : List Byte) : Pkt :=
  { tc := tc, hops := 0, dst := (pa - 2 ^ 51) / 2 ^ 38, src := s.pr.nodeId, fdom := (s.wheel w).fdom, tag := tag
    len := n, wide := wide, atop := atop, reason := 0, offset := pa % 2 ^ 38, payload := bs, ret := ret }

/-- Issue one peer request of a piece of work, and record it (R257). -/
def sendPeer (w tc : Nat) (o : Owner) (k : ReqKind) (pa n atop : Nat) (wide ret : Bool) (bs : List Byte)
    (ep : BitVec 8) (s : State) : State :=
  let d := (pa - 2 ^ 51) / 2 ^ 38
  recordReq { tgt := .peer d, owner := o, kind := k, addr := pa, len := n, epoch := ep, tc := tc, wheel := w
              pkt := some (reqPkt s w tc 0 pa n atop wide ret bs) } s

/-! ### IDE streams (R289, R291) -/

/-- Whether the host of port p, whose routing ID is free (DESIGN CHOICE, log entry 144), or an address that a TLP carries, lies in
the association blocks of a Selective stream in use. -/
def ideMatches (p : Nat) (addr : Option Nat) (x : IdeStream) : Bool :=
  x.going.isSome &&
    (x.rid.elim false (fun r => r.1 ≤ Config.hostRid p && Config.hostRid p ≤ r.2) ||
      x.addr.elim false (fun r => addr.elim false (fun a => r.1 ≤ a && a ≤ r.2)))

/-- The IDE stream of a TLP between port p and its host: the lowest Selective stream with an association block that holds its
address or its partner, else the Link stream while that is in use (R289). -/
def ideStream (s : State) (p : Nat) (addr : Option Nat) : Option Nat :=
  let x := (s.hc p).ide
  ([1, 2, 3, 4].find? (fun k => ideMatches p addr (tabGet {} x k))).or (if (tabGet {} x 0).going.isSome then some 0 else none)

/-- Whether a TLP from the host of port p is discarded: its stream is in the Insecure state (R291). -/
def tlpDropped (s : State) (p : Nat) (addr : Option Nat) : Bool :=
  (ideStream s p addr).elim false (fun k => (tabGet {} (s.hc p).ide k).insecure)

/-- What a request of function f's host does, unless its TLP is discarded (R291). -/
def fromHost (f : Fn) (g : State → State) (s : State) : State := if tlpDropped s (pfOf f) none then s else g s

/-! ### Reservations and stores (R140, R161, R244, R296) -/

/-- Bytes of the granule of a reservation: 128 on compute-die memory, 64 elsewhere (R244). -/
def granuleLen (a : Nat) : Nat := if a < 2 ^ 42 then 128 else 64

/-- Free the watch slot of a lost reservation, telling the die (R323). -/
def freeWatch (r : Resv) (s : State) : State :=
  match r.watch with
  | none => s
  | some w =>
    let q := r.granule / 2 ^ 40
    s |> modAcd q (fun p => { p with watches := tabDel p.watches w })
      |> when (s.acd q).up (sendAcd q 0x11 w (r.granule % 2 ^ 40) 0)

/-- Lose every reservation that satisfies p (R140, R244). -/
def loseResv (p : Nat × Resv → Bool) (s : State) : State :=
  let gone := s.wk.resvs.filter p
  gone.foldl (fun t r => freeWatch r.2 t) { s with wk.resvs := s.wk.resvs.filter (fun r => !p r) }

/-- Lose the reservations on the granules that a write of n bytes at a touches (R140, R244). -/
def breakResv (a n : Nat) (s : State) : State :=
  loseResv (fun r => overlap a n r.2.granule (granuleLen r.2.granule)) s

/-- Location of a cached host line. -/
def lineLoc (l : CohLine) : Nat := hostLoc l.port l.addr

/-- Lines of the coherent window cache that the Hivik has written hold the new bytes, in M (R296). -/
def touchLines (a n : Nat) (s : State) : State :=
  { s with cx.cohLines := s.cx.cohLines.map (fun l =>
      if overlap a n (lineLoc l) 64 && (l.st = .e || l.st = .m) then { l with st := .m, data := readBytes s (lineLoc l) 64 }
      else l) }

/-- Whether a location lies in a logical cell that is out of service: its 64 KiB discard writes (R161). -/
def cellOut (s : State) (a : Nat) : Bool :=
  2 ^ 52 ≤ a && a < 2 ^ 52 + 2 ^ 27 && (s.spareQ ((a - 2 ^ 52) / 2 ^ 25)).cellsOut.contains ((a - 2 ^ 52) / 65536)

/-- A write through the Hivik applied at its home: reservations break, cached host lines follow. -/
def storeAt (a : Nat) (bs : List Byte) (s : State) : State :=
  if cellOut s a then s else s |> writeBytes a bs |> breakResv a bs.length |> touchLines a bs.length

/-! ### Back-invalidation and coherent windows (R295 to R301) -/

/-- The part of an access that lies in one page, with its location. -/
structure Part where
  va : Nat
  pa : Nat
  len : Nat
  need : Access
deriving DecidableEq, Repr

/-- Whether a part lies in another node's memory. -/
def isPeerPart (p : Part) : Bool := match homeOf p.pa with | .peer _ => true | _ => false

/-- Entries of the snoop filter with which an access conflicts: a read with an exclusive copy, a write or atomic with
any (R301). -/
def filterHits (s : State) (p : Part) : List Filt :=
  s.cx.filter.filter (fun f => overlap p.pa p.len f.line 64 && (p.need ≠ .read || f.excl))

/-- Ask the hosts that hold conflicting copies for their lines, and let the work wait; a line whose BISnp is unanswered is not
snooped again (R301). -/
def askHosts (o : Owner) (hits : List (Filt × Bool)) (s : State) : State :=
  hits.foldl (fun t x =>
    let f := x.1
    let fresh := !(t.cx.filter.any (fun g => g.port = f.port && g.line = f.line && g.snooping))
    let t := when fresh (emit (.biSnp f.port f.line x.2)) t
    { t with cx.filter := t.cx.filter.map (fun g => if g.port = f.port && g.line = f.line then
        { g with
          snooping := true, inv := if fresh then x.2 else g.inv
          waiters := if g.waiters.contains o then g.waiters else g.waiters ++ [o] } else g) }) s

/-- VALID, BASE and SIZE of COH_WIN (R309). -/
def cohRange (x : HcPort) : Option (Nat × Nat) :=
  if x.cohWin.getLsbD 0 then some (field x.cohWin.toNat 56 20 * 2 ^ 20, 2 ^ field x.cohWin.toNat 13 8) else none

/-- The port whose coherent window an access uses: its offset lies in the range, the port has trained as CXL, the
requests are not a virtual function's, and the translation has U = 0 (R293, R295). -/
def cohPort (s : State) (v va : Nat) : Option Nat :=
  match regionOf va with
  | .window h =>
    let w := winOf s v h
    let untrans := s.xl.xlats.any (fun x => xlatOf s v va x && x.untrans)
    match cohRange (s.hc h) with
    | some (b, n) => if (s.hc h).cxl && !isVf w.reqFn && !untrans && b ≤ winOff va && winOff va < b + n then some h else none
    | none => none
  | _ => none

/-- Line addresses (host physical, 64-byte aligned) of a part in host memory of port p. -/
def linesOf (p : Nat) (x : Part) : List Nat :=
  let a := x.pa - hostLoc p 0
  if x.len = 0 then [] else (List.range ((a + x.len - 1) / 64 + 1 - a / 64)).map (fun k => (a / 64 + k) * 64)

/-- The state of a line in the coherent window cache. -/
def cohState (s : State) (p a : Nat) : Mesi :=
  ((s.cx.cohLines.find? (fun l => l.port = p && l.addr = a)).map (·.st)).getD .i

/-- Drop a line from the cache, evicting it as R296 states; a line in M moves to an eviction buffer. -/
def evictLine (l : CohLine) (s : State) : State :=
  let s := { s with cx.cohLines := s.cx.cohLines.filter (fun x => !(x.port = l.port && x.addr = l.addr)) }
  match l.st with
  | .m => { s with cx.evict := s.cx.evict ++ [l] } |> emit (.d2h l.port "DirtyEvict" l.addr [] false)
  | .s => emit (.d2h l.port "CleanEvictNoData" l.addr [] false) s
  | .e => emit (.d2h l.port "CleanEvictNoData" l.addr [] false) s
  | _ => s

/-- The set of a line in the coherent window cache: 65,536 lines in 16 ways (R296; which address bits choose the set, and
that the oldest line of it leaves, are a DESIGN CHOICE, log entry 117). -/
def cohSet (a : Nat) : Nat := a / 64 % 4096

/-- Whether port p has one of its 64 eviction buffers free (R296). -/
def evictFree (s : State) (p : Nat) : Bool := (s.cx.evict.filter (fun l => l.port = p)).length < 64

/-- A way for line a: with all 16 of its set in use, the oldest line that awaits no GO, and that needs no eviction buffer or
finds one free, leaves; false where no way can be had now (R296). -/
def makeRoom (a : Nat) (s : State) : Bool × State :=
  let l := s.cx.cohLines.filter (fun x => cohSet x.addr = cohSet a)
  if l.length < 16 then (true, s)
  else match l.find? (fun x => x.st ≠ .fillS && x.st ≠ .fillE && (x.st ≠ .m || evictFree s x.port)) with
    | some x => (true, evictLine x s)
    | none => (false, s)

/-- Request a line for an access, once it has a way (R296). -/
def fillLine (p a : Nat) (own : Bool) (s : State) : State :=
  let s := { s with cx.cohLines := s.cx.cohLines.filter (fun l => !(l.port = p && l.addr = a)) }
  match makeRoom a s with
  | (true, t) => { t with cx.cohLines := t.cx.cohLines ++ [{ port := p, addr := a, st := if own then .fillE else .fillS }] }
      |> emit (.d2h p (if own then "RdOwn" else "RdShared") a [] false)
  | (false, t) => t

/-- Whether line a lacks what an access of part x needs: a read any copy, a write E or M unless it writes the whole line
of a line that awaits no GO,
an atomic E or M (R296). -/
def lineShort (s : State) (p a : Nat) (x : Part) : Bool :=
  let st := cohState s p a
  let held := st = .s || st = .e || st = .m
  let own := st = .e || st = .m
  let b := x.pa - hostLoc p 0
  match x.need with
  | .read => !held
  | .write => !own && !((st = .i || st = .s) && b ≤ a && a + 64 ≤ b + x.len)
  | .atomic => !own

/-- Lines that a part must still obtain. -/
def cohMissing (s : State) (v : Nat) (x : Part) : List (Nat × Nat × Bool) :=
  match cohPort s v x.va with
  | none => []
  | some p => ((linesOf p x).filter (fun a => lineShort s p a x)).map (fun a => (p, a, x.need ≠ .read))

/-- Ask for the missing lines, one request for each; a line in an eviction buffer is waited for (R296). -/
def askLines (l : List (Nat × Nat × Bool)) (s : State) : State :=
  l.foldl (fun t x =>
    let st := cohState t x.1 x.2.1
    if st = .fillS || st = .fillE || t.cx.evict.any (fun e => e.port = x.1 && e.addr = x.2.1) then t
    else fillLine x.1 x.2.1 x.2.2 t) s

/-- Whole lines written without being owned leave as ItoMWr; a shared copy is dropped (R296). -/
def itoM (v : Nat) (ps : List Part) (s : State) : State :=
  ps.foldl (fun t x => match cohPort t v x.va with
    | none => t
    | some p => if x.need = .write then
        (linesOf p x).foldl (fun u a => if cohState u p a = .i || cohState u p a = .s then
            { u with cx.cohLines := u.cx.cohLines.filter (fun l => !(l.port = p && l.addr = a)) }
            |> emit (.d2h p "ItoMWr" a (readBytes u (hostLoc p a) 64) false)
          else u) t
      else t) s

/-! ### Reachability and permitted rates (R115, R264, R327) -/

/-- Why a location cannot be reached now: a lost peer, or a failed target (R115, R264). -/
def failHome (s : State) (x : Home) : Option FailCause :=
  if homeUp s x then none
  else match x with
    | .peer n => if ownNode s n then some .target else some (.peerLost false)
    | _ => some .target

/-- Stack of a compute-die location (R316). -/
def stackOf (s : State) (q pa : Nat) : Nat := pa % 2 ^ 40 / 2 ^ (s.acd q).stackLog2

/-- Permitted rate of stack k of port q (R327). -/
def rateOf (s : State) (q k : Nat) : Nat := tabGet 0xFF (s.acd q).rates k

/-- Whether a location lies in a stack whose permitted rate is 0, or for which the hold space still holds data (R270, R327). -/
def isHot (s : State) (pa : Nat) : Bool :=
  match homeOf pa with
  | .acd q => rateOf s q (stackOf s q pa) = 0 || (s.acd q).heldWr.any (fun w => stackOf s q w.1 = stackOf s q pa)
  | _ => false

/-! ### Words and records that the Hivik writes (R46, R70, R71, R80, R235) -/

/-- Whether the coherent window cache holds a range's line with the right to write it: the write needs no request. -/
def ownsLine (s : State) (pa n : Nat) : Bool :=
  s.cx.cohLines.any (fun l => overlap pa n (lineLoc l) 64 && (l.st = .e || l.st = .m))

/-- Send posted writes of bytes that host port p's memory takes, cut at 64-byte boundaries, with Relaxed Ordering set or
clear and ID-Based Ordering clear (R227, R235). -/
def hostPut (p pa : Nat) (bs : List Byte) (relaxed : Bool) (s : State) : State :=
  if ownsLine s pa bs.length then s
  else forAll (cutAt 64 pa bs.length) (fun r => emit (.hostWr p (r.1 - hostLoc p 0) ((bs.drop (r.1 - pa)).take r.2) relaxed)) s

/-- Whether a write of n bytes for work o may be applied now; hosts are asked for conflicting copies and for the lines of a
coherent window that it must own, and the work waits (R295, R296, R301). -/
def ownedGate (o : Owner) (v va pa n : Nat) (s : State) : Bool × State :=
  let x : Part := { va := va, pa := pa, len := n, need := .write }
  let hits := (filterHits s x).map (·, true)
  let miss := cohMissing s v x
  if !hits.isEmpty then (false, askHosts o hits s)
  else if !miss.isEmpty then (false, askLines miss s)
  else (true, s)

/-- Write a status word, head word, segment map or event record: applied at its home, posted toward a host, and by a request
whose answer work o awaits toward a compute die, the far tier or a peer (DEDUCED from R46, R80 and R235, log entry 145). -/
def ctrlWrite (o : Owner) (w tc pa : Nat) (bs : List Byte) (ep : BitVec 8) (s : State) : State :=
  let s := storeAt pa bs s
  match homeOf pa with
  | .host p => hostPut p pa bs false s
  | .peer _ => sendPeer w tc o .write pa bs.length 0 false false bs ep s
  | .acd q => addReq (.acd q) o .write pa bs.length ep s
  | .far p => addReq (.far p) o .write pa bs.length ep s
  | _ => s

end Sys2Proof.Machine
end

