-- ==== Sys2Proof/Machine/Events.lean ====
section
/-! DEFINITION. Event records and interrupts as shared operations: sources, counting, the states of an event hoop's
interrupt, posting a record, and a vat's fault bits (R34, R43 to R46, R362 to R372, R385). -/

namespace Sys2Proof.Machine

open Sys2Proof

/-! ### Sources -/

/-- Whether a source is a Rennet summary, the only condition sources (R362, R363). -/
def isCondSrc (x : Nat) : Bool := 18432 ≤ x && x < 20480

/-- The valid fast source slot that names source x (R372). -/
def fastSlotOf (s : State) (x : Nat) : Option Nat := (s.ev.fastSrcs.find? (fun k => k.2.valid && k.2.source = x)).map (·.1)

/-- SENSE of a source: that of the fast slot that names it (R372), else as written, else LEVEL (0) for condition sources
and RISE (1) for record sources (R364). -/
def senseOf (s : State) (x : Nat) : Nat :=
  match fastSlotOf s x with
  | some k => (s.fast k).sense
  | none => (s.src x).sense.getD (if isCondSrc x then 0 else 1)

/-- Vectors of a function (R373). -/
def vectorCount : Fn → Nat
  | .pf _ => 2048
  | .vf _ _ => 16
  | .bu => 4

/-- Whether an event hoop is of the fast class (R372). -/
def isFastEvq (e : Nat) : Bool := 3840 ≤ e && e < 4096

/-- The vectors that event hoop e signals: VECTOR + i for each bit i of TMASK, within its function's table (R367). -/
def evqVectors (s : State) (e : Nat) : List Nat :=
  (((List.range 8).filter (fun i => (s.evq e).tmask.getLsbD i)).map (· + (s.evq e).vector)).filter
    (· < vectorCount (s.evq e).fn)

/-- Unconsumed records of an event hoop (R369). -/
def unconsumed (x : EvHoop) : Nat := (x.wr + 2 ^ x.log2 - x.rd) % 2 ^ x.log2

/-- Send the message of vector v, or set its PBA bit while MSI-X Enable is 0, the Function Mask is 1 or the vector is
masked (R368, R371). -/
def sendMsix (f : Fn) (v : Nat) (s : State) : State :=
  let x := s.fnS f
  if x.msixEn && !x.funcMask && !(tabGet {} x.msix v).mask then emit (.msix f v) s
  else modFnS f (fun x => { x with msix := tabSet x.msix v { tabGet {} x.msix v with pba := true } }) s

/-! ### Event hoop interrupts (R367) -/

/-- Enter SIGNALLED: record the next slot, owe the messages, join the claim queues (R367, R368); a
function in D3hot with PME_En set sends a PME message (R453). -/
def signalEvq (e : Nat) (s : State) : State :=
  let vs := evqVectors s e
  let x := s.evq e
  s |> modEvq e (fun x => { x with ist := .signalled, sigSlot := x.wr, msgDue := true })
    |> modFnS x.fn (fun f => { f with
        claimQ := vs.foldl (fun q v => tabSet q v (tabGet [] q v ++ [e])) f.claimQ })
    |> when ((s.fnS x.fn).dstate3 && (s.fnS x.fn).pmeEn) (emit (.pme (pfOf x.fn)))

/-- ARMED with EN and the count at COUNT (0 taken as 1): SIGNALLED (R367). -/
def checkSignal (e : Nat) (s : State) : State :=
  let x := s.evq e
  if x.ist = .armed && x.en && max 1 x.coalCount ≤ x.cnt then signalEvq e s else s

/-- Count one event toward event hoop e (R367). -/
def countEvent (e : Nat) (s : State) : State :=
  let x := s.evq e
  if !x.present then s
  else match x.ist with
    | .idle => s |> modEvq e (fun x => { x with ist := .armed, cnt := 1, timerAt := s.tm.deviceTime }) |> checkSignal e
    | .armed => s |> modEvq e (fun x => { x with cnt := x.cnt + 1 }) |> checkSignal e
    | .signalled => s |> modEvq e (fun x => { x with cnt := x.cnt + 1 })
    | .claimed => s |> modEvq e (fun x => { x with cnt := x.cnt + 1, sinceClaim := x.sinceClaim + 1 })

/-- Take event hoop e off every claim queue of its function. -/
def unclaim (e : Nat) (s : State) : State :=
  modFnS (s.evq e).fn (fun f => { f with claimQ := f.claimQ.map (fun q => (q.1, q.2.filter (· ≠ e))) }) s

/-! ### Writing a record (R43, R45) -/

/-- The 32 bytes of a record (R43). -/
def recBytes (r : EvRec) (time : Nat) (phase loss : Bool) : List Byte :=
  natLe 8 r.cookie.toNat ++ natLe 8 time ++
    natLe 4 (b2n phase * 2 ^ 31 + b2n loss * 2 ^ 30 + r.kind % 256 * 2 ^ 16 + r.status % 65536) ++
    natLe 4 r.source ++ natLe 4 (r.fn.toNat * 65536 + r.vat % 65536) ++ natLe 4 r.detail

/-- Address of the slot of an event hoop's next record. -/
def recSlot (x : EvHoop) : Nat := x.ringBase + 32 * x.wr

/-- Location of the next record: through the hoop's vat, or as the admin ring is reached (R36, R119). -/
def recPlace (s : State) (x : EvHoop) : Look :=
  match x.vat with
  | none => .ok (hostLoc (pfOf x.fn) (recSlot x))
  | some v => lookup s v (recSlot x) .write

/-- A record is dropped: DROPPED counts it, saturating at 4,095, and the next record carries LOSS (R45, R46). -/
def dropRec (e : Nat) (s : State) : State :=
  modEvq e (fun x => { x with dropped := min 4095 (x.dropped + 1), loss := true }) s

/-- Write a record at its place and advance slot and PHASE (R43); a target that answers with an error drops it (R46). -/
def putRec (e : Nat) (r : EvRec) (pa : Nat) (s : State) : State :=
  let x := s.evq e
  s |> ctrlWrite (.record e) (vatWheel s (x.vat.getD 0)) 2 pa (recBytes r s.tm.deviceTime x.phase x.loss) 0
    |> modEvq e (fun x => { x with
        wr := (x.wr + 1) % 2 ^ x.log2
        phase := if x.wr + 1 = 2 ^ x.log2 then !x.phase else x.phase
        loss := false
        writers := x.writers ++ [r.isrc.getD 20607] })

/-- Deliver the event of a record source: count it toward the event hoop of its last record (R365). -/
def deliverSrc (x : Nat) (s : State) : State :=
  s |> modSrc x (fun q => { q with pending := false })
    |> (fun t => match (t.src x).evq with
        | some e => countEvent e t
        | none => t)

/-- An event of a record source: PENDING sets, and it is delivered unless masked (R365). -/
def recordEvent (x : Nat) (s : State) : State :=
  if (s.src x).mask then modSrc x (fun q => { q with pending := true }) s else deliverSrc x s

/-- One pulse on a record source's input, its record going to event hoop e (R363, R364). -/
def pulse (x e : Nat) (s : State) : State :=
  let s := modSrc x (fun q => { q with evq := some e }) s
  if senseOf s x = 0 then
    if (s.src x).armed then s |> modSrc x (fun q => { q with armed := false }) |> recordEvent x else s
  else recordEvent x s

/-- The pulse of a record's source, where it has one. Rennet summaries count at delivery (R365). -/
def pulseOf (r : EvRec) (e : Nat) (s : State) : State :=
  match r.isrc with
  | some x => if isCondSrc x then s else pulse x e s
  | none => s

/-! ### Fault bits of a vat (R34, R206) -/

/-- The bit of VAT_FAULT's DETAIL that each fault bit has (R44). -/
inductive VatBit where
  | xlate
  | rind
  | pageReq
  | partial_
deriving DecidableEq, Repr

/-- Whether the bit is set. -/
def vatBitSet (v : Vat) : VatBit → Bool
  | .xlate => v.xlateSeen
  | .rind => v.rindSeen
  | .pageReq => v.pageReqSeen
  | .partial_ => v.partialSeen

/-- The record of a bit that changed from 0 to 1 (R34, R44). R43 leaves SOURCE to the chapter that owns the record, and none
states it for VAT_FAULT: 0 (DESIGN CHOICE, log entry 119). -/
def vatFaultRec (s : State) (v : Nat) (b : VatBit) : EvRec :=
  { cookie := 0, kind := 0x03, status := 0, source := 0, fn := BitVec.ofNat 16 (funcId (s.vat v).fn), vat := v
    detail := (match b with | .xlate => 8 | .rind => 4 | .pageReq => 2 | .partial_ => 1)
    isrc := some (20496 + pfOf (s.vat v).fn) }

/-- Set a sticky bit of a vat, with the cause and address of a translation failure (R34, R206). -/
def setVatBit (v : Nat) (b : VatBit) (cause va : Nat) (s : State) : State :=
  modVat v (fun x =>
    if vatBitSet x b then x
    else match b with
      | .xlate => { x with xlateSeen := true, cause := cause, faultVa := BitVec.ofNat 64 va }
      | .rind => { x with rindSeen := true, cause := cause, faultVa := BitVec.ofNat 64 va }
      | .pageReq => { x with pageReqSeen := true }
      | .partial_ => { x with partialSeen := true }) s

/-- The bit that a cause of R205 sets (R34). -/
def causeBit (cause : Nat) : VatBit := if cause = 0x10 then .rind else .xlate

/-! ### Posting (R43 to R46) -/

/-- Post record r to event hoop e (R43 to R46). n bounds how many fault bits of vats can be set by failures of the
records that report them: each failure sets one bit that was 0. -/
def postN : Nat → Nat → EvRec → State → State
  | 0, _, _, s => s
  | n + 1, e, r, s =>
    let x := s.evq e
    if !x.present then s
    else if unconsumed x + 1 ≥ 2 ^ x.log2 then s |> dropRec e |> pulseOf r e
    else match recPlace s x with
      | .miss =>
        { s with ev.heldRecs := s.ev.heldRecs ++ [(e, r)] }
        |> startXlate centralTlb (x.vat.getD 0) (recSlot x) .write
      | .ok pa =>
        if x.vat.isSome && !(homeUp s (homeOf pa)) && pa < 2 ^ 64 then s |> dropRec e |> pulseOf r e
        else match x.vat.elim (true, s) (fun v => ownedGate (.record e) v (recSlot x) pa 32 s) with
          | (true, t) => t |> putRec e r pa |> pulseOf r e
          | (false, t) => { t with ev.heldRecs := t.ev.heldRecs ++ [(e, r)] }
      | .fault c =>
        let v := x.vat.getD 0
        let fresh := !(vatBitSet (s.vat v) (causeBit c))
        let s := s |> dropRec e |> pulseOf r e |> setVatBit v (causeBit c) c (recSlot x)
        if fresh && (s.vat v).faultEvqValid then postN n (s.vat v).faultEvq (vatFaultRec s v (causeBit c)) s else s

/-- Enough for every chain of records about failing records: two bits for each vat. -/
def postFuel (s : State) : Nat := 2 * s.wk.vats.length + 3

/-- Post record r to event hoop e, behind records of e that still wait for their translation. -/
def postRec (e : Nat) (r : EvRec) (s : State) : State :=
  if s.ev.heldRecs.any (fun h => h.1 = e) then { s with ev.heldRecs := s.ev.heldRecs ++ [(e, r)] }
  else postN (postFuel s) e r s

/-- Write the records that waited for a translation, in order (R46). -/
def flushRecs (s : State) : State :=
  forAll s.ev.heldRecs (fun h t => postRec h.1 h.2 t) { s with ev.heldRecs := [] }

/-- A vat meets a fault bit's event: the bit sets, and a change from 0 posts VAT_FAULT (R34). -/
def vatFault (v : Nat) (b : VatBit) (cause va : Nat) (s : State) : State :=
  let fresh := !(vatBitSet (s.vat v) b)
  let s := setVatBit v b cause va s
  if fresh && (s.vat v).faultEvqValid then postRec (s.vat v).faultEvq (vatFaultRec s v b) s else s

/-! ### Yields (R425, R426) -/

/-- Post GUARANTEE_YIELDED to an event hoop for wheel w, on the first such yield and after 1 ms without one (R426). -/
def postYield (e w yields prevails reason object arg : Nat) (s : State) : State :=
  let key := reason * 65536 + object
  let fresh := match (s.wheel w).yields.find? (fun y => y.1 = key) with
    | some y => decide (y.2 + 1000000 ≤ s.tm.deviceTime)
    | none => true
  let r : EvRec :=
    { cookie := 0, kind := 0x05, status := 0
      source := yields * 2 ^ 28 + prevails * 2 ^ 24 + w * 2 ^ 16 + object % 65536
      fn := BitVec.ofNat 16 (funcId (.pf (pfOf (s.evq e).fn))), vat := 0xFFFF
      detail := reason * 2 ^ 24 + arg % 2 ^ 24, isrc := some (20528 + w) }
  s |> modWheel w (fun x => { x with yields := tabSet x.yields key s.tm.deviceTime })
    |> when fresh (postRec e r)

/-- A yield of wheel w for a reason other than THERMAL, through WHEEL_YIELD (R425). -/
def yieldWheel (w prevails reason object arg yields : Nat) (s : State) : State :=
  if (s.wheel w).yieldValid then postYield (s.wheel w).yieldEvq w yields prevails reason object arg s else s

/-! ### Rennet summaries (R363, R385) -/

/-- Whether summary r's input is high: STATUS of source 2r or 2r + 1 (R385). -/
def summaryHigh (s : State) (r : Nat) : Bool := (s.rsrc (2 * r)).status || (s.rsrc (2 * r + 1)).status

/-- Threshold N of a source: the value written, or the default of R380 (0 taken as 1). -/
def defaultThresh (x : Nat) : Nat :=
  if x < 0x0F0 then (if x % 4 = 0 then 1 else 4)
  else if x = 0x0F7 then 255
  else if x = 0x0F9 then 16
  else if x = 0x0FA then 4
  else if x < 0x100 then 1
  else if x < 0x900 then 16
  else if x < 0x924 then 16
  else if x < 0x928 then 1
  else if x < 0x93C then 8
  else if x < 0x940 then 1
  else if x < 0x960 then 16
  else if x < 0xA00 then 1
  else if x < 0xB00 then (if x % 8 = 0 then 1 else 255)
  else if x < 0xB40 then (if x % 16 = 0 then 1 else 64)
  else if x < 0xC00 then 1
  else if x < 0xF60 then 8
  else 1

/-- Window of a source in us by default (R380). -/
def defaultWindow (x : Nat) : Nat :=
  if x < 0x0F0 then 1000000
  else if x ≤ 0x0F2 then 1
  else if x = 0x0F7 then 16000000
  else if x = 0x0F8 then 1
  else if x < 0x900 then 1000000
  else if x < 0x940 then 100000
  else if x < 0xA00 then 1000000
  else if x < 0xB00 then (if x % 8 = 0 then 1000000 else 16000000)
  else if x < 0xC00 then 1000000
  else if x < 0xF60 then 10000
  else 1

/-- THRESH in force (R404: 0 is taken as 1). -/
def threshOf (s : State) (x : Nat) : Nat := max 1 ((s.rsrc x).thresh.getD (defaultThresh x))

/-- WINDOW in force (R404). -/
def windowOf (s : State) (x : Nat) : Nat := min 16000000 (max 1 ((s.rsrc x).window.getD (defaultWindow x)))

/-- The RENNET_SUMMARY record of summary r (R385). -/
def summaryRec (s : State) (r : Nat) : EvRec :=
  let x := if (s.rsrc (2 * r)).status then 2 * r else 2 * r + 1
  let q := s.rsrc x
  { cookie := 0, kind := 0x07, status := 0, source := x
    fn := BitVec.ofNat 16 (funcId (.pf (pfOf (s.evq s.rn.rennetEvq).fn))), vat := 0xFFFF
    detail := b2n q.severe * 2 ^ 31 + b2n q.uncorr * 2 ^ 30 + q.reaction * 2 ^ 16 + q.count * 2 ^ 8 + threshOf s x
    isrc := some (18432 + r) }

/-- Deliver an event of a summary: its record is written and one event counts (R365). -/
def deliverSummary (r : Nat) (s : State) : State :=
  let s := modSrc (18432 + r) (fun q => { q with pending := false, evq := some s.rn.rennetEvq }) s
  if s.rn.rennetEvqValid then s |> postRec s.rn.rennetEvq (summaryRec s r) |> countEvent s.rn.rennetEvq else s

/-- An event of a summary: PENDING sets, and it is delivered unless masked (R365). -/
def summaryEvent (r : Nat) (s : State) : State :=
  if (s.src (18432 + r)).mask then modSrc (18432 + r) (fun q => { q with pending := true }) s
  else deliverSummary r s

/-- The input of summary r may have changed: events by SENSE (R364). -/
def summaryInput (r : Nat) (s : State) : State :=
  let x := 18432 + r
  let was := (s.src x).level
  let now := summaryHigh s r
  let s := modSrc x (fun q => { q with level := now }) s
  match senseOf s x with
  | 0 => if now && (s.src x).armed then s |> modSrc x (fun q => { q with armed := false }) |> summaryEvent r else s
  | 1 => if now && !was then summaryEvent r s else s
  | 2 => if was && !now then summaryEvent r s else s
  | _ => if now ≠ was then summaryEvent r s else s

/-- An event of any source, as PEND_SET or an unmasked PENDING delivers it (R365). -/
def srcEvent (x : Nat) (s : State) : State :=
  if isCondSrc x then summaryEvent (x - 18432) s else recordEvent x s

/-- Deliver a pending, unmasked event of a source (R365). -/
def deliverPending (x : Nat) (s : State) : State :=
  if (s.src x).pending && !(s.src x).mask then
    if isCondSrc x then deliverSummary (x - 18432) s else deliverSrc x s
  else s

/-! ### Completing a claim (R370) -/

/-- Whether a READ slot lies from the old READ to the next record's slot (R370). -/
def readInRange (x : EvHoop) (r : Nat) : Bool :=
  r < 2 ^ x.log2 && (r + 2 ^ x.log2 - x.rd) % 2 ^ x.log2 ≤ unconsumed x

/-- The sources whose records, or whose summaries, count toward event hoop e (R362, R370 step 3). -/
def levelSrcs (s : State) (e : Nat) : List Nat :=
  (s.ev.srcs.map (·.1)).filter (fun x => senseOf s x = 0 && (s.src x).evq = some e)

/-- Re-sample a LEVEL source at a completion (R364, R370 step 3). -/
def resample (e x : Nat) (s : State) : State :=
  let s := modSrc x (fun q => { q with armed := true }) s
  if isCondSrc x then
    if summaryHigh s (x - 18432) then
      s |> modSrc x (fun q => { q with armed := false }) |> summaryEvent (x - 18432)
    else s
  else if (s.evq e).writers.contains x then
    s |> modSrc x (fun q => { q with armed := false }) |> recordEvent x
  else s

/-- A write of INT_DONE, FAST_DONE or VF_INT_DONE that names a CLAIMED event hoop of the writer and a READ slot in
range: the three effects of R370, in order. -/
def completeClaim (e r : Nat) (s : State) : State :=
  let x := s.evq e
  let used := (r + 2 ^ x.log2 - x.rd) % 2 ^ x.log2
  let s := modEvq e (fun x => { x with rd := r, dropped := 0, writers := x.writers.drop used }) s
  let s :=
    if unconsumed (s.evq e) = 0 then modEvq e (fun x => { x with ist := .idle, cnt := 0, sinceClaim := 0 }) s
    else modEvq e (fun x => { x with
      ist := .armed, cnt := max 1 x.sinceClaim, sinceClaim := 0, timerAt := s.tm.deviceTime }) s
  let s := forAll (levelSrcs s e) (resample e) s
  checkSignal e s

end Sys2Proof.Machine
end

