-- ==== Sys2Proof/Machine/Recipe.lean ====
section
/-! DEFINITION. The recipe image: its fields (R143 to R147) and the ten checks of LOAD_RECIPE (R148, R149). -/

namespace Sys2Proof.Machine

open Sys2Proof

/-! ### Fields of an image -/

/-- n bytes of an image at an offset, as a number. -/
def imgNat (img : List Byte) (off n : Nat) : Nat := leNat ((img.drop off).take n)

/-- NODE_COUNT (R144). -/
def rNodes (img : List Byte) : Nat := field (imgNat img 0x0C 4) 31 16
/-- OPCODE served (R144). -/
def rOpcode (img : List Byte) : Nat := field (imgNat img 0x0C 4) 7 0
/-- IN_BLOCK (R144). -/
def rInBlock (img : List Byte) : Nat := imgNat img 0x10 4
/-- OUT_NUM, 18 bits (R144). -/
def rOutNum (img : List Byte) : Nat := field (imgNat img 0x0C 4) 9 8 * 65536 + field (imgNat img 0x14 4) 15 0
/-- OUT_DEN (R144). -/
def rOutDen (img : List Byte) : Nat := field (imgNat img 0x14 4) 31 16
/-- AUX_QW (R144). -/
def rAuxQw (img : List Byte) : Nat := field (imgNat img 0x18 4) 23 16
/-- ACC_KIND (R144). -/
def rAccKind (img : List Byte) : Nat := field (imgNat img 0x18 4) 11 10
/-- PARAM_KIND (R144). -/
def rParamKind (img : List Byte) : Nat := field (imgNat img 0x18 4) 9 8
/-- OUTPUT_COUNT (R144). -/
def rOutputs (img : List Byte) : Nat := field (imgNat img 0x18 4) 7 0
/-- AUX_BYTES (R144). -/
def rAuxBytes (img : List Byte) : Nat := imgNat img 0x1C 4
/-- BYTES_PER_BLOCK of output stream t (R145). -/
def rOutBytes (img : List Byte) (t : Nat) : Nat := field (imgNat img (64 + 8 * t) 8) 15 0

/-- A node record (R146). -/
structure RNode where
  op : Nat
  fmtA : Nat
  fmtOut : Nat
  rmode : Nat
  in0 : Nat
  in1 : Nat
  in2 : Nat
  count : Nat
  arg : Nat
  imm : Nat
  psel : Nat
  out0 : Nat
  out1 : Nat
  extent : Nat
  rsvOk : Bool
deriving DecidableEq, Repr, Inhabited

/-- Node record k of an image, as it stands there (R146). -/
def rRecord (img : List Byte) (k : Nat) : RNode :=
  let o := 64 + 8 * rOutputs img + 32 * k
  let w0 := imgNat img o 4
  let w1 := imgNat img (o + 4) 4
  let w2 := imgNat img (o + 8) 4
  let w3 := imgNat img (o + 12) 4
  let w6 := imgNat img (o + 24) 4
  { op := field w0 7 0, fmtA := field w0 15 8, fmtOut := field w0 23 16, rmode := field w0 27 24
    in0 := field w1 15 0, in1 := field w1 31 16, in2 := field w2 15 0
    count := field w3 15 0, arg := field w3 31 16, imm := imgNat img (o + 16) 8
    psel := field w6 7 0, out0 := field w6 15 8, out1 := field w6 23 16, extent := field w6 28 24
    rsvOk := field w0 31 28 = 0 && field w2 31 16 = 0 && field w6 31 29 = 0 && imgNat img (o + 28) 4 = 0 }

/-- KIND, PORT and INDEX of a binding (R147). -/
def bKind (b : Nat) : Nat := field b 15 14
/-- PORT of a binding. -/
def bPort (b : Nat) : Nat := field b 13 13
/-- INDEX of a binding. -/
def bIndex (b : Nat) : Nat := field b 7 0

/-- Number of inputs that an operation has, optional ones included (R141). -/
def opInputs (op : Nat) : Option Nat :=
  match op with
  | 0x01 => some 1 | 0x02 => some 1 | 0x03 => some 2 | 0x04 => some 1 | 0x05 => some 1
  | 0x08 => some 1 | 0x09 => some 2 | 0x0A => some 1 | 0x0B => some 2
  | 0x10 => some 2 | 0x11 => some 2 | 0x12 => some 2 | 0x13 => some 2 | 0x14 => some 2
  | 0x15 => some 1 | 0x16 => some 1 | 0x17 => some 2 | 0x18 => some 2
  | 0x20 => some 2 | 0x21 => some 2 | 0x22 => some 3 | 0x23 => some 2 | 0x24 => some 2 | 0x25 => some 1
  | 0x28 => some 2 | 0x29 => some 1 | 0x2A => some 1 | 0x2B => some 3 | 0x2C => some 2 | 0x2D => some 1
  | 0x30 => some 1 | 0x31 => some 1 | 0x38 => some 2 | 0x39 => some 1
  | _ => none

/-- Inputs of an operation that may be unused: the random input of CVT and CVT_MX, the indices of ACC_ADD (R141), and
IN0 of LDS under ARG[0] (R142). -/
def inputOptional (n : RNode) (k : Nat) : Bool :=
  (n.op = 0x28 && k = 1) || (n.op = 0x2B && k = 2) || (n.op = 0x38 && k = 1)

/-- Binding of input k of a node. -/
def inBind (n : RNode) : Nat → Nat
  | 0 => n.in0
  | 1 => n.in1
  | _ => n.in2

/-- Operations with a second output port (R141: SPLIT alone). -/
def opPorts (op : Nat) : Nat := if op = 0x02 then 2 else if [0x09, 0x38].contains op then 0 else 1

/-- Bits of a flit. -/
def flitBits : Nat := 256

/-- Lanes of a flit in a format (R127). -/
def lanesOf (f : Nat) : Nat := flitBits / widthOf f

/-- Number of 1 bits in the low 32 bits of a number. -/
def popCount32 (x : Nat) : Nat := (bitsSet 32 x).length

/-- Flits per block that a node takes on input k (R141); RED_ACC counts one of its K operand groups. -/
def inRate (n : RNode) (k : Nat) : Nat :=
  match n.op, k with
  | 0x02, _ => n.count + n.arg
  | 0x03, 0 => n.count
  | 0x03, _ => n.arg
  | 0x0A, _ => 1
  | 0x0B, 0 => 2
  | 0x0B, _ => 1
  | 0x2A, _ => 1
  | 0x2B, 1 => 1
  | 0x2C, 1 => 1
  | 0x38, 1 => (n.count * lanesOf n.fmtA + 7) / 8
  | _, _ => n.count

/-- a / b where it is whole; 0, which no check passes, where R141's formula gives no whole number of flits. -/
def wholeFlits (a b : Nat) : Nat := if a % b = 0 then a / b else 0

/-- Flits per block that a node emits on a port (R141). -/
def outRate (n : RNode) (port : Nat) : Nat :=
  match n.op, port with
  | 0x02, 0 => n.count
  | 0x02, _ => n.arg
  | 0x03, _ => n.count + n.arg
  | 0x04, _ => ceilDiv (n.count * popCount32 n.imm) 32
  | 0x09, _ => 0
  | 0x0A, _ => 2
  | 0x0B, _ => 1
  | 0x28, _ => wholeFlits (n.count * widthOf n.fmtOut) (widthOf n.fmtA)
  | 0x29, _ => 1
  | 0x2A, _ => 1
  | 0x2B, _ => ceilDiv (flitBits * n.count / widthOf n.fmtA * widthOf n.fmtOut) flitBits
  | 0x2C, _ => widthOf n.fmtOut / 8
  | 0x30, _ => 1
  | 0x31, _ => 1
  | 0x38, _ => 0
  | 0x39, _ => wholeFlits (n.count * widthOf n.fmtOut) (widthOf n.fmtA)
  | _, _ => n.count

/-- Operations that R141 gives as n → n or n → 0: they take on every input what arrives there. -/
def paced (op : Nat) : Bool :=
  [0x01, 0x05, 0x08, 0x09, 0x10, 0x11, 0x12, 0x13, 0x14, 0x15, 0x16, 0x17, 0x18, 0x20, 0x21, 0x22, 0x23, 0x24, 0x25, 0x2D, 0x38].contains op

/-- The inputs of a node that a node output or a stream feeds. -/
def flowIns (n : RNode) : List Nat := ((List.range 3).map (inBind n)).filter (fun b => bKind b = 1 || bKind b = 2)

/-- Flits per block of the producer of a binding: the main and auxiliary streams as R147 gives them, a node as R141 does. -/
def flitsOf (img : List Byte) : Nat → Nat → Nat
  | 0, _ => 0
  | fuel + 1, b =>
    if bKind b = 1 then
      let n := rRecord img (bIndex b)
      match paced n.op, flowIns n with
      | true, c :: _ => flitsOf img fuel c
      | _, _ => outRate n (bPort b)
    else if bIndex b = 0 then rInBlock img / 32 else ceilDiv (rAuxBytes img) 32

/-- Node k of an image. The n of an n → n operation is what its first fed input carries; COUNT where none is fed (R141, R146). -/
def rNode (img : List Byte) (k : Nat) : RNode :=
  let n := rRecord img k
  match paced n.op, flowIns n with
  | true, c :: _ => { n with count := flitsOf img (rNodes img + 1) c }
  | _, _ => n

/-- The nodes of an image. -/
def rNodeList (img : List Byte) : List RNode := (List.range (rNodes img)).map (rNode img)

/-- Latency of an operation in clocks (R141); LDS and LDR count their non-local latency (log entry 22). -/
def opLatency (op : Nat) : Nat :=
  match op with
  | 0x04 => 2 | 0x08 => 16 | 0x0A => 16 | 0x0B => 10
  | 0x20 => 4 | 0x21 => 4 | 0x22 => 6 | 0x23 => 4 | 0x24 => 4
  | 0x28 => 4 | 0x29 => 2 | 0x2A => 3 | 0x2B => 4 | 0x2C => 4 | 0x2D => 4
  | 0x30 => 2 | 0x31 => 2 | 0x39 => 6
  | _ => 1

/-! ### The checks (R148) -/

/-- Check 1, BAD_IMAGE. -/
def chkImage (img : List Byte) : Bool :=
  imgNat img 0 4 = 0x43554C54 && field (imgNat img 4 4) 31 16 = 0x40 && field (imgNat img 4 4) 15 0 = 1

/-- Check 2, SIZE. -/
def chkSize (img : List Byte) (named : Nat) : Bool :=
  imgNat img 8 4 = 64 + 8 * rOutputs img + 32 * rNodes img && imgNat img 8 4 = named

/-- Check 3, HEADER (R144, R145). -/
def chkHeader (img : List Byte) : Bool :=
  let op := rOpcode img
  let w3 := imgNat img 0x0C 4
  let w6 := imgNat img 0x18 4
  let outs := (List.range (rOutputs img)).map (rOutBytes img)
  field w3 15 10 = 0 && field w6 31 24 = 0 && field w6 15 12 = 0 && leNat ((img.drop 0x20).take 32) = 0 &&
  1 ≤ rNodes img && rNodes img ≤ 256 && [0x05, 0x06, 0x07].contains op &&
  rInBlock img % 32 = 0 && 32 ≤ rInBlock img && rInBlock img ≤ 32768 && rOutDen img = rInBlock img &&
  rOutNum img = outs.sum && rAuxQw img ≤ 7 && rAuxBytes img ≤ 32768 &&
  (if op = 0x07 then rAccKind img = 1 || rAccKind img = 2 else rAccKind img = 0) &&
  rOutputs img ≤ 4 && (1 ≤ rOutputs img || op = 0x07) && (op ≠ 0x07 || rOutNum img = 0) &&
  (List.range (rOutputs img)).all (fun t =>
    imgNat img (64 + 8 * t) 8 / 65536 = 0 && 1 ≤ rOutBytes img t && rOutBytes img t ≤ 32768)

/-- Whether a binding is well formed and names an existing node, port or stream (R147, check 4). -/
def bindOk (img : List Byte) (b : Nat) : Bool :=
  field b 12 8 = 0 &&
  match bKind b with
  | 0 => b = 0
  | 1 => bIndex b < rNodes img && bPort b < opPorts (rNode img (bIndex b)).op
  | 2 => bPort b = 0 && (bIndex b = 0 || (bIndex b = 1 && rAuxBytes img ≠ 0))
  | _ => bPort b = 0 && bIndex b = 0

/-- Check 4, NODE, of one node. -/
def chkNode (img : List Byte) (n : RNode) : Bool :=
  match opInputs n.op with
  | none => false
  | some k =>
    n.rsvOk && bindOk img n.in0 && bindOk img n.in1 && bindOk img n.in2 &&
    (List.range 3).all (fun j => if j < k then bKind (inBind n j) ≠ 0 || inputOptional n j || (n.op = 0x08 && n.arg % 2 = 1)
      else inBind n j = 0) &&
    (n.psel ≤ 7 || n.psel = 0xFF) && (n.out0 < rOutputs img || n.out0 = 0xFF) &&
    (n.out1 < rOutputs img || n.out1 = 0xFF) && (opPorts n.op = 2 || n.out1 = 0xFF) && (opPorts n.op ≠ 0 || n.out0 = 0xFF) &&
    (if [0x08, 0x09, 0x0A, 0x0B].contains n.op then 6 ≤ n.extent && n.extent ≤ 27 && n.psel ≠ 0xFF else n.extent = 0) &&
    (n.op ≠ 0x0B || (n.arg < rNodes img && (rNode img n.arg).op = 0x0A)) &&
    (n.op ≠ 0x2D || n.psel ≤ 6) &&
    (n.op ≠ 0x38 || bKind n.in1 = 0 || n.psel ≠ 0xFF)

/-- Floating-point formats of the arithmetic operations (R166). -/
def wideFloat (f : Nat) : Bool := [0x01, 0x02, 0x03, 0x04].contains f
/-- Element formats of Microscaling (R166). -/
def mxElem (f : Nat) : Bool := [0x08, 0x09, 0x0A, 0x0B, 0x0C, 0x0D].contains f
/-- Formats of CVT (R166). -/
def cvtFmt (f : Nat) : Bool := wideFloat f || f = 0x08 || f = 0x09 || isIntFmt f

/-- Formats of ACC_ADD and RED_ACC (R166). -/
def accFmt (ganged : Bool) (f : Nat) : Bool :=
  [0x02, 0x03, 0x04, 0x08, 0x09].contains f || isIntFmt f || (ganged && f = 0x01)

/-- The formats that an operation accepts (R166). -/
def fmtOk (img : List Byte) (n : RNode) : Bool :=
  let o := n.op
  let same := n.fmtOut = n.fmtA
  (fmtWidth n.fmtA).isSome && (fmtWidth n.fmtOut).isSome &&
  (if o ≤ 0x0B then same
   else if o ≤ 0x18 then isIntFmt n.fmtA && same
   else if o ≤ 0x25 || o = 0x29 then wideFloat n.fmtA && same
   else if o = 0x28 then cvtFmt n.fmtA && cvtFmt n.fmtOut
   else if o = 0x2A then wideFloat n.fmtA && mxElem n.fmtOut
   else if o = 0x2B then wideFloat n.fmtA && mxElem n.fmtOut && n.count * lanesOf n.fmtA = 32
   else if o = 0x2C then mxElem n.fmtA && wideFloat n.fmtOut && n.count = ceilDiv (32 * widthOf n.fmtA) flitBits
   else if o = 0x2D then wideFloat n.fmtA && same
   else if o = 0x38 then accFmt (rAccKind img = 2) n.fmtA && same
   else if o = 0x39 then accFmt true n.fmtA && resolveFmt (n.fmtA = 0x01) n.fmtOut
   else same)

/-- Rounding modes that an operation accepts; none: RMODE is ignored (R168). -/
def modesOf (op : Nat) : Option (List Nat) :=
  if op = 0x20 || op = 0x21 || op = 0x22 then some [0, 1, 2, 3, 4]
  else if op = 0x28 || op = 0x2B then some [0, 1, 2, 3, 4, 5, 6, 7, 15]
  else if op = 0x2C || op = 0x39 then some [0, 1, 2, 3, 4, 6, 15]
  else none

/-- The random input of a rounding node: IN1 of CVT, IN2 of CVT_MX (R180). -/
def randBind (n : RNode) : Nat := if n.op = 0x28 then n.in1 else n.in2

/-- A random input is bound to OUT0 of an SRNG node that follows the same flits (R180). -/
def randOk (img : List Byte) (n : RNode) : Bool :=
  let b := randBind n
  bKind b = 1 && bPort b = 0 && (rNode img (bIndex b)).op = 0x2D && (rNode img (bIndex b)).in0 = n.in0

/-- Check 5, FORMAT, of one node (R142, R166, R168, R180). -/
def chkFormat (img : List Byte) (n : RNode) : Bool :=
  fmtOk img n &&
  match modesOf n.op with
  | none => true
  | some l => l.contains n.rmode && (n.rmode ≠ 15 || n.psel ≠ 0xFF) &&
      (!(n.rmode = 5 || n.rmode = 7) || randOk img n)

/-- Nodes that produce for a node. -/
def preds (n : RNode) : List Nat :=
  ((List.range 3).map (inBind n)).filterMap (fun b => if bKind b = 1 then some (bIndex b) else none)

/-- Nodes left after taking away, k times, every node whose producers are all taken (R148 check 6). -/
def peel (ns : List RNode) : Nat → List Nat → List Nat
  | 0, l => l
  | k + 1, l => peel ns k (l.filter (fun i => (preds (ns.getD i default)).any (fun p => l.contains p)))

/-- The nodes of a list and those that produce for them through at most k transfers. -/
def producersOf (ns : List RNode) : Nat → List Nat → List Nat
  | 0, l => l
  | k + 1, l => producersOf ns k (l ++ (l.flatMap (fun i => preds (ns.getD i default))).dedup.filter (fun p => !l.contains p))

/-- Check 6, CYCLE: the lowest node on a cycle, where some node is left that never has all its producers taken. -/
def chkCycle (img : List Byte) : Option Nat :=
  let ns := rNodeList img
  (peel ns (rNodes img) (List.range (rNodes img))).find? (fun i =>
    (producersOf ns (rNodes img) (preds (ns.getD i default))).contains i)

/-- Topological order of an acyclic graph, ties by node index (R151). -/
def topo (ns : List RNode) : Nat → List Nat → List Nat
  | 0, done => done
  | k + 1, done =>
    match (List.range ns.length).find? (fun i =>
        !done.contains i && (preds (ns.getD i default)).all (fun p => done.contains p)) with
    | some i => topo ns k (done ++ [i])
    | none => done

/-- Consumers of a binding among the inputs of all nodes. -/
def consumers (ns : List RNode) (b : Nat) : Nat :=
  (ns.map (fun n => ((List.range 3).filter (fun j => inBind n j = b)).length)).sum

/-- Check 7, FANOUT. -/
def chkFanout (img : List Byte) : Option Nat :=
  let ns := rNodeList img
  let bad := (List.range ns.length).find? (fun i =>
    let n := ns.getD i default
    !(List.range (opPorts n.op)).all (fun p =>
      let c := consumers ns (0x4000 + p * 0x2000 + i) + (if (if p = 0 then n.out0 else n.out1) ≠ 0xFF then 1 else 0)
      1 ≤ c && c ≤ 4))
  let stream (b : Nat) (need : Bool) : Bool := let c := consumers ns b; (!need && c = 0) || (1 ≤ c && c ≤ 4)
  match bad with
  | some i => some i
  | none =>
    if stream 0x8000 true && stream 0x8001 (rAuxBytes img ≠ 0) &&
        (List.range (rOutputs img)).all (fun t =>
          ((ns.map (fun n => (if n.out0 = t then 1 else 0) + (if n.out1 = t then 1 else 0))).sum) = 1)
    then none else some 0

/-- Flits per block of the producer of a binding. -/
def bindRate (img : List Byte) (b : Nat) : Nat := flitsOf img (rNodes img + 1) b

/-- Check 8, RATE, of one node. -/
def chkRate (img : List Byte) (n : RNode) : Bool :=
  ((List.range 3).all (fun j =>
    let b := inBind n j
    if bKind b = 1 || bKind b = 2 then
      let want := if (n.op = 0x28 && j = 1) || (n.op = 0x2B && j = 2) then n.count else inRate n j
      bindRate img b = want && 1 ≤ want
    else true)) &&
  ((List.range (opPorts n.op)).all (fun p =>
    let t := if p = 0 then n.out0 else n.out1
    1 ≤ outRate n p && (t = 0xFF || outRate n p = ceilDiv (rOutBytes img t) 32)))

/-- Blocks that the skew check follows: the two that it judges, and enough beyond for 33 flits on every input (R149). -/
def skewBlocks (img : List Byte) : Nat :=
  2 + ceilDiv 33 (((rNodeList img).flatMap flowIns).foldl (fun a b => min a (bindRate img b)) 33)

/-- The clocks at which a producer's flits leave it, block after block (R149: streams one flit a clock from clock 0);
ts: those of every port of the nodes done so far. -/
def leaveAt (img : List Byte) (ts : List (List (List Nat))) (b : Nat) : List Nat :=
  if bKind b = 1 then (ts.getD (bIndex b) []).getD (bPort b) [] else List.range (skewBlocks img * bindRate img b)

/-- The clocks at which they arrive: 4 later (R149). -/
def arriveAt (img : List Byte) (ts : List (List (List Nat))) (b : Nat) : List Nat := (leaveAt img ts b).map (· + 4)

/-- The part of a list that belongs to block k, with n elements for every block. -/
def blockOf (n k : Nat) (l : List Nat) : List Nat := (l.drop (k * n)).take n

/-- The larger of two lists at every place that either has. -/
def maxLists : List Nat → List Nat → List Nat
  | [], l => l
  | l, [] => l
  | x :: xs, y :: ys => max x y :: maxLists xs ys

/-- Firings at most once a clock, none before clock t and none before its flits are there (R127). -/
def fireTimes : Nat → List Nat → List Nat
  | _, [] => []
  | t, x :: xs => max t x :: fireTimes (max t x + 1) xs

/-- Firings of a block: one takes at most one flit of each input and emits at most one on each output (R127); MERGE takes
IN1 after IN0. -/
def firings (img : List Byte) (n : RNode) : Nat :=
  if n.op = 0x03 then n.count + n.arg
  else ((flowIns n).map (bindRate img)).foldl max (max 1 (max (outRate n 0) (inRate n 0)))

/-- The firing of a block that takes the last flit on which flit m of a port depends (R141). -/
def dependsOn (n : RNode) (port m : Nat) : Nat :=
  let c := inRate n 0
  match n.op with
  | 0x02 => if port = 0 then m else n.count + m
  | 0x03 => m
  | 0x04 => min (c - 1) (ceilDiv (32 * (m + 1)) (max 1 (popCount32 n.imm)) - 1)
  | 0x0B => 1
  | _ => ceilDiv ((m + 1) * c) (max 1 (outRate n port)) - 1

/-- The clocks by which block k's firings of a node have the flits that they take. -/
def needTimes (img : List Byte) (ts : List (List (List Nat))) (n : RNode) (k : Nat) : List Nat :=
  let offset (j : Nat) : Nat := if n.op = 0x03 && j = 1 then n.count else 0
  ((List.range 3).filter (fun j => bKind (inBind n j) = 1 || bKind (inBind n j) = 2)).foldl (fun a j =>
    let b := inBind n j
    maxLists a (List.replicate (offset j) 0 ++ blockOf (bindRate img b) k (arriveAt img ts b)))
    (List.replicate (firings img n) 0)

/-- The clocks at which a node's flits leave each port: the latency of R141 after the firing that they depend on. -/
def nodeTimes (img : List Byte) (ts : List (List (List Nat))) (n : RNode) : List (List Nat) :=
  let ks := List.range (skewBlocks img)
  let fires := fireTimes 0 (ks.flatMap (needTimes img ts n))
  (List.range (opPorts n.op)).map (fun p => ks.flatMap (fun k =>
    let fs := blockOf (firings img n) k fires
    (List.range (outRate n p)).map (fun m => fs.getD (max m (dependsOn n p m)) 0 + opLatency n.op)))

/-- The emission of every node, in topological order (R149). -/
def emitTimes (img : List Byte) : List (List (List Nat)) :=
  let ns := rNodeList img
  (topo ns ns.length []).foldl (fun ts i => ts.set i (nodeTimes img ts (ns.getD i default)))
    (List.replicate ns.length [])

/-- Check 9, SKEW, of one node and one block: between the block's first flit on an input and the clock at which the last
flit that the inputs need for the block arrives, at most 32 flits arrive on that input (R148, R149). -/
def skewOk (img : List Byte) (ts : List (List (List Nat))) (n : RNode) (k : Nat) : Bool :=
  let ins := (flowIns n).map (fun b => (bindRate img b, arriveAt img ts b))
  let t := ins.foldl (fun a x => (blockOf x.1 k x.2).foldl max a) 0
  ins.all (fun x => ((x.2.drop (k * x.1)).filter (fun c => c ≤ t)).length ≤ 32)

/-- Clocks that a binding's producer takes for each block, from those of the nodes done so far: a stream's flits, or the most that
a node itself or any of its producers takes (R127, R149). -/
def paceOf (img : List Byte) (ps : List Nat) (b : Nat) : Nat := if bKind b = 1 then ps.getD (bIndex b) 0 else bindRate img b

/-- Clocks that every node takes for each block. -/
def paces (img : List Byte) : List Nat :=
  let ns := rNodeList img
  (topo ns ns.length []).foldl (fun ps i =>
    let n := ns.getD i default
    ps.set i (((flowIns n).map (paceOf img ps)).foldl max (firings img n))) (List.replicate ns.length 0)

/-- Check 9, SKEW, of one node, for every block: where the inputs take unequal clocks for each block, the skew grows without bound
from block to block; where they take equal ones, the first two blocks show it (R149; DEDUCED, log entry 22). -/
def chkSkew (img : List Byte) (ts : List (List (List Nat))) (n : RNode) : Bool :=
  let p := (flowIns n).map (paceOf img (paces img))
  (flowIns n).length < 2 || (p.all (fun x => x = p.headD 0) && skewOk img ts n 0 && skewOk img ts n 1)

/-- Cells that a node needs: a gang for a RED_ACC over FP64 (R149). -/
def nodeCells (n : RNode) : Nat := if n.op = 0x39 && n.fmtA = 0x01 then 8 else 1

/-- Cells that a recipe needs (R149). -/
def cellsNeeded (img : List Byte) : Nat := ((rNodeList img).map nodeCells).sum

/-- Check 10, SHAPE. -/
def chkShape (img : List Byte) : Bool :=
  let ns := rNodeList img
  let adds := (ns.filter (fun n => n.op = 0x38)).length
  let reds := ns.filter (fun n => n.op = 0x39)
  let acc := rOpcode img = 0x07
  let red := rOpcode img = 0x06
  (if acc then adds = 1 else adds = 0) && (if red then reds.length = 1 else reds.isEmpty) &&
  reds.all (fun n => n.count * lanesOf n.fmtA ≤ 32) && cellsNeeded img ≤ 256

/-- The first node that fails a check. -/
def badNode (img : List Byte) (chk : RNode → Bool) : Option Nat :=
  (List.range (rNodes img)).find? (fun i => !chk (rNode img i))

/-- The first node that fails a check in topological order, which the flits follow. -/
def badFlow (img : List Byte) (chk : RNode → Bool) : Option Nat :=
  let ns := rNodeList img
  (topo ns ns.length []).find? (fun i => !chk (ns.getD i default))

/-- The error of R148 and the node at which its check failed; none: the image passes. -/
def recipeError (img : List Byte) (named : Nat) : Option (Nat × Nat) :=
  if !chkImage img then some (0x01, 0)
  else if !chkSize img named then some (0x02, 0)
  else if !chkHeader img then some (0x03, 0)
  else match badNode img (chkNode img) with
    | some i => some (0x04, i)
    | none =>
    match badNode img (chkFormat img) with
    | some i => some (0x05, i)
    | none =>
    match chkCycle img with
    | some i => some (0x06, i)
    | none =>
    match chkFanout img with
    | some i => some (0x07, i)
    | none =>
    match badFlow img (chkRate img) with
    | some i => some (0x08, i)
    | none =>
    match badFlow img (chkSkew img (emitTimes img)) with
    | some i => some (0x09, i)
    | none => if chkShape img then none else some (0x0A, 0)

/-- STATEFUL: the recipe holds an STC node (R150). -/
def recipeStateful (img : List Byte) : Bool := (rNodeList img).any (fun n => n.op = 0x0B)

end Sys2Proof.Machine
end

