-- ==== Sys2Proof/Machine/Walk.lean ====
section
/-! DEFINITION. The walk of a vat's device-local tables: its checks in the order of R491, the walk cache, and the leaf
that a page's translation comes from (R196 to R200, R205, R222). -/

namespace Sys2Proof.Machine

open Sys2Proof

/-- log2 of the bytes that one entry of a table of a level maps (R196). -/
def levelShift (l : Nat) : Nat := 12 + 9 * l

/-- Index of an address in a table of a level (R196). -/
def levelIndex (l va : Nat) : Nat := va / 2 ^ levelShift l % (if l = 4 then 256 else 512)

/-- VALID of a table entry (R197). -/
def pteValid (x : Nat) : Bool := bitOf x 0
/-- LEAF. -/
def pteLeaf (x : Nat) : Bool := bitOf x 1
/-- CONTIG. -/
def pteContig (x : Nat) : Bool := bitOf x 5
/-- ADDR. -/
def pteAddr (x : Nat) : Nat := field x 51 12 * 4096

/-- Whether the bits of a valid entry of a level break R196 or R197: TABLE_FORMAT. -/
def pteBad (l x : Nat) : Bool :=
  field x 63 52 ≠ 0 || field x 11 6 ≠ 0 || (pteLeaf x && 3 ≤ l) || (!pteLeaf x && l = 0) ||
  (!pteLeaf x && field x 5 2 ≠ 0) || (pteContig x && l ≠ 0) ||
  (pteLeaf x && !pteContig x && pteAddr x % 2 ^ levelShift l ≠ 0)

/-- Whether entry k of the table at t lies in a group of 16 in which some entry says CONTIG: the walker reads all 128 bytes of it
(R198, R199). -/
def contigGroup (s : State) (l t k : Nat) : Bool :=
  l = 0 && (List.range 16).any (fun i => let x := readNat s (t + 8 * (k / 16 * 16 + i)) 8; pteValid x && pteContig x)

/-- Whether the 16 entries of the group of entry k of the table at t form a 64 KiB page (R198). -/
def contigOk (s : State) (t k : Nat) : Bool :=
  let g := k / 16 * 16
  let first := readNat s (t + 8 * g) 8
  pteAddr first % 65536 = 0 && (List.range 16).all (fun i =>
    let x := readNat s (t + 8 * (g + i)) 8
    pteValid x && x = first + i * 4096)

/-- Outcome of a walk: the translation with the address of its first leaf entry and the pointers read, or a cause. -/
inductive WalkRes where
  | leaf (x : Xlat) (at_ : Nat) (ptrs : List WalkPtr)
  | fault (cause : Nat)
deriving DecidableEq, Repr

/-- Why the address in an entry cannot be used (R491 checks 4 to 6). -/
def pteTarget (s : State) (w : Nat) (ptr : Bool) (pa : Nat) : Option Nat :=
  if paInvalid s pa || (ptr && 2 ^ 42 ≤ pa) then some 0x05
  else if !rindOk s w (homeOf pa) then some 0x10
  else if paBeyond s pa then some 0x05 else none

/-- The translation that a leaf of a level gives at an address (R196 to R198). -/
def leafXlat (v l va x : Nat) : Xlat :=
  let n := if pteContig x then 65536 else 2 ^ levelShift l
  { vat := v, page := va / n * n, size := n, pa := pteAddr x / n * n, rd := bitOf x 2, wr := bitOf x 3, at_ := bitOf x 4 }

/-- Walk from the table t of a level down (R491); bad: a read returns poisoned data. -/
def walkFrom (s : State) (v va : Nat) (bad : Bool) : Nat → Nat → List WalkPtr → WalkRes
  | l, t, ptrs =>
    let k := levelIndex l va
    let a := t + 8 * k
    let x := readNat s a 8
    let w := (s.vat v).wheel
    let group := contigGroup s l t k
    if bad || poisonedAt s (if group then t + 8 * (k / 16 * 16) else a) (if group then 128 else 8) || !homeUp s (homeOf a)
      then .fault 0x0A
    else if !pteValid x then .fault 0x01
    else if pteBad l x then .fault 0x03
    else if group && !contigOk s t k then .fault 0x04
    else match pteTarget s w (!pteLeaf x) (pteAddr x) with
      | some c => .fault c
      | none =>
        if pteLeaf x then
          .leaf (leafXlat v l va x) (if pteContig x then t + 8 * (k / 16 * 16) else a) ptrs
        else match l with
          | 0 => .fault 0x03
          | m + 1 => walkFrom s v va bad m (pteAddr x)
              (ptrs ++ [{ vat := v, level := m, span := va / 2 ^ levelShift (m + 1), table := pteAddr x }])

/-- The lowest table that the walk cache holds for an address: its level and address (R222). -/
def walkStart (s : State) (v va : Nat) : Nat × Nat :=
  match (List.range 4).findSome? (fun l =>
      (s.xl.walkCache.find? (fun p => p.vat = v && p.level = l && p.span = va / 2 ^ levelShift (l + 1))).map
        (fun p => (l, p.table))) with
  | some r => r
  | none => (4, (s.vat v).root)

/-- A whole walk: RIND and capacity of the root table, then from the walk cache's lowest table down. -/
def walkVat (s : State) (v va : Nat) (bad : Bool) : WalkRes :=
  if !(s.vat v).rootValid then .fault 0x01
  else
    let (l, t) := walkStart s v va
    match pteTarget s (s.vat v).wheel true t with
    | some c => .fault c
    | none => walkFrom s v va bad l t []

/-- The pointers of a walk enter the walk cache, which keeps the newest 16,384 (R222, R225). -/
def cachePtrs (l : List WalkPtr) (s : State) : State :=
  let c := s.xl.walkCache ++ l.filter (fun p => !s.xl.walkCache.contains p)
  { s with xl.walkCache := c.drop (c.length - 16384) }

/-- Whether a walk-cache pointer serves an address of [a, a + n) (R217). -/
def ptrMeets (p : WalkPtr) (a n : Nat) : Bool :=
  let z := 2 ^ levelShift (p.level + 1)
  n ≠ 0 && p.span * z < a + n && a < (p.span + 1) * z

/-- Remove vat v's device-local translations and walk-cache pointers that meet [a, a + n) (R217). -/
def dropRange (v a n : Nat) (s : State) : State :=
  { s with
    xl.xlats := s.xl.xlats.filter (fun x => !(x.port = none && x.vat = v && a < x.page + x.size && x.page < a + n))
    xl.walkCache := s.xl.walkCache.filter (fun p => !(p.vat = v && ptrMeets p a n)) }

/-- Remove every device-local translation and pointer of vat v (R217). -/
def dropAsid (v : Nat) (s : State) : State :=
  { s with
    xl.xlats := s.xl.xlats.filter (fun x => !(x.port = none && x.vat = v))
    xl.walkCache := s.xl.walkCache.filter (fun p => p.vat ≠ v) }

end Sys2Proof.Machine
end

