-- ==== Sys2Proof/Machine/Ranges.lean ====
section
/-! DEFINITION. What an entry names: its recipe and slices, the checks 4 and 5 of R65, its inputs and range list (R207), its page
list, its launch, and its segments (R113, R114). -/

namespace Sys2Proof.Machine

open Sys2Proof

/-! ### Recipes of an entry -/

/-- The recipe that an entry in flight runs, its unloading accepted or not (R152). -/
def recipeRun (s : State) (f : Fn) (handle : Nat) : Option Recipe :=
  s.wk.recipes.find? (fun r => r.fn = f && r.handle = handle)

/-- The image of an entry's recipe. -/
def entryImage (s : State) (h : Nat) (e : Entry) : List Byte := ((recipeRun s (s.hoop h).fn e.subop).map (·.image)).getD []

/-- Ranges of a recipe's LDS, STS, LDR and STC nodes (R142). -/
def extentRanges (img : List Byte) (e : Entry) : List (Nat × Nat × Access) :=
  (rNodeList img).filterMap (fun n =>
    let base := (e.params.getD n.psel 0).toNat
    if n.op = 0x08 || n.op = 0x0A then some (base, 2 ^ n.extent, .read)
    else if n.op = 0x09 || n.op = 0x0B then some (base, 2 ^ n.extent, .write) else none)

/-- Whether an opcode runs a recipe. -/
def isRecipeOp (op : Nat) : Bool := op = 0x05 || op = 0x06 || op = 0x07

/-- The recipe under a handle of a function, unless its unloading was accepted (R95, R152). -/
def recipeOf (s : State) (f : Fn) (handle : Nat) : Option Recipe :=
  s.wk.recipes.find? (fun r => r.fn = f && r.handle = handle && r.unloadBy.isNone)

/-- Whether a slice holds, or is spanned by, a working replica of a recipe (R153). -/
def hasReplica (r : Recipe) (k : Nat) : Bool := r.replicas.any (fun x => x.alive && x.slices.contains k)

/-- Whether a slice is in its safe state (R391). -/
def sliceSafe (s : State) (k : Nat) : Bool :=
  s.rn.deviceSafe || s.rn.safeSlices.contains k || s.rn.safeQuads.contains (k / 8)

/-- Whether SELFTEST tests, in place, the ladle that serves slice k (R397). -/
def ladleTested (s : State) (k : Nat) : Bool :=
  s.sp.turn.elim false (fun t => t.kind = 2 && !t.swapped && t.quad = k / 8 &&
    t.index = tabGet (k % 8) (s.spareQ (k / 8)).ladleMap k)

/-- The usable slices of an entry, in the order in which the Harp takes them (R114); those whose ladle SELFTEST tests in
place are left out while others serve (R397). -/
def usableSlices (s : State) (h : Nat) (e : Entry) : List Nat :=
  let own := sliceOf h
  if e.opcode = 0x04 && e.flag 1 then [own]
  else
    let l := ((List.range 8).map (fun k => 8 * (own / 8) + (own + k) % 8)).filter (fun k =>
      sliceWheelOf s k = vatWheel s (s.hoop h).vat && !sliceSafe s k &&
      (!isRecipeOp e.opcode || (recipeRun s (s.hoop h).fn e.subop).elim false (fun r => hasReplica r k)))
    if l.all (ladleTested s) then l else l.filter (fun k => !ladleTested s k)

/-- Bytes that a recipe entry writes at DST: LENGTH x OUT_NUM / OUT_DEN (R95). -/
def outBytes (img : List Byte) (e : Entry) : Nat := if rOutDen img = 0 then 0 else e.length * rOutNum img / rOutDen img

/-! ### Check 4 of R65 -/

/-- OPFLAGS that an opcode defines (R88). -/
def flagsOf : Nat → Nat
  | 0x01 => 1 | 0x03 => 1 | 0x04 => 3 | 0x05 => 1 | 0x06 => 1 | 0x07 => 1 | 0x08 => 1 | 0x09 => 3 | 0x0E => 1 | 0x8A => 1
  | _ => 0

/-- Reserved fields are 0 and flags are defined for the opcode (R57, R87, R88). -/
def reservedOk (e : Entry) : Bool :=
  field e.control.toNat 63 48 = 0 && Nat.land e.opflags (63 - flagsOf e.opcode) = 0 &&
  match e.opcode with
  | 0x01 => e.fenceVal = 0 && e.subop = 0 && (e.flag 0 || (e.rowBytes = 0 && e.operand = 0))
  | 0x02 => e.src = 0 && e.fenceVal = 0 && e.subop = 0 && e.rowBytes = 0
  | 0x03 => e.fenceVal = 0 && e.subop = 0
  | 0x04 => e.fenceVal = 0 && e.subop = 0
  | 0x05 => e.fenceVal = 0 && e.rowBytes = 0
  | 0x06 => e.fenceVal = 0
  | 0x07 => e.fenceVal = 0 && e.rowBytes = 0
  | 0x08 => e.fenceVal = 0 && e.operand = 0 && e.rowBytes = 0 && field e.subop 15 13 = 0
  | 0x09 => e.rowBytes = 0 && field e.subop 15 9 = 0
  | 0x0A => e.src = 0 && e.lenStride = 0 && e.operand = 0 && e.subop = 0
  | 0x0B => e.src = 0 && e.lenStride = 0 && e.operand = 0 && e.subop = 0
  | 0x0C => e.dst = 0 && e.rowBytes = 0 && e.fenceVal = 0 && field e.subop 15 4 = 0
  | 0x0D => e.dst = 0 && e.rowBytes = 0 && e.fenceVal = 0 && field e.subop 15 8 = 0
  | 0x0E => e.operand = 0 && field e.lenStride.toNat 23 16 = 0 && field e.subop 15 4 = 0
  | 0x0F => e.src = 0 && e.operand = 0 && e.fenceVal = 0 && e.rowBytes = 0 && field e.subop 15 1 = 0
  | 0x10 => e.src = 0 && e.dst = 0 && e.lenStride = 0 && e.operand = 0 && e.fenceVal = 0 && e.subop = 0
  | 0x89 => e.src = 0 && e.lenStride = 0 && e.operand.toNat < 2 ^ 32 && e.fenceVal = 0 && e.subop = 0
  | 0x8A => e.src = 0 && e.lenStride = 0 && e.operand.toNat < 2 ^ 32 && e.fenceVal = 0 && e.subop = 0
  | _ => true

/-- The recipe checks of R95, in order. -/
def recipeCheck (s : State) (h : Nat) (e : Entry) : Option Status :=
  match recipeOf s (s.hoop h).fn e.subop with
  | none => some .recipeFault
  | some r =>
    let img := r.image
    let ptr := e.flag 0
    let pk := rParamKind img
    if rOpcode img ≠ e.opcode then some .recipeFault
    else if (usableSlices s h e).isEmpty then some .recipeFault
    else if (ptr && pk ≤ 1) || (!ptr && pk = 2) || (e.operand ≠ 0 && pk = 0) || (ptr && e.operand.toNat % 64 ≠ 0)
      then some .malformed
    else if e.length % rInBlock img ≠ 0 then some .malformed
    else if e.length * rOutNum img % rOutDen img ≠ 0 then some .malformed
    else none

/-- Whether [a, a + n) meets one of rows of len bytes at base + k x stride. -/
def hitsRow (a n base stride rows len : Nat) : Bool :=
  if stride = 0 then overlap a n base len
  else
    let q := (a + n - base) / stride
    (List.range ((n + len) / stride + 3)).any (fun d => d ≤ q && q - d < rows && overlap a n (base + (q - d) * stride) len)

/-- Whether source and destination of a COPY share a byte (R91). -/
def copyOverlaps (e : Entry) : Bool :=
  if e.flag 0 then
    (List.range (if e.srcStride = 0 then 1 else e.rows)).any (fun r =>
      hitsRow (e.src.toNat + r * e.srcStride) e.rowBytes e.dst.toNat e.dstStride e.rows e.rowBytes)
  else overlap e.src.toNat e.length e.dst.toNat e.length

/-- Whether a ganged region's first address is aligned as R135 asks. -/
def gangAligned (a : Nat) : Bool := field a 18 16 = 0 && a % 64 = 0

/-- Slots that an ACCUMULATE's region has: N x E, or the count in its parameters (R136, R156). -/
def accSlots (img : List Byte) (e : Entry) : Nat :=
  match (rNodeList img).find? (fun n => n.op = 0x38) with
  | none => 0
  | some n =>
    if bKind n.in1 = 0 then e.length / rInBlock img * (n.count * lanesOf n.fmtA)
    else ((e.params.getD n.psel 0).toNat)

/-- Location in the scratchpad window of limb j of accumulator k of a region: R134 for 320-bit slots (j = 0), R135 for
ganged ones. Both are window offsets. -/
def slotOff (ganged : Bool) (base k j : Nat) : Nat :=
  if ganged then
    let g0 := base / 2 ^ 19
    let o := field base 15 0 / 64
    (g0 + (o + k) / 1024) * 2 ^ 19 + j * 65536 + 64 * ((o + k) % 1024)
  else base + 64 * k

/-- Window offset of an address. -/
def winScratch (va : Nat) : Nat := va - 0x00F0000000000000

/-- Whether a region of n slots lies wholly in the scratchpad window and is aligned (R134 to R136). -/
def regionOk (ganged : Bool) (a n : Nat) : Bool :=
  inScratch a && (if ganged then gangAligned a else a % 64 = 0) &&
  (n = 0 || slotOff ganged (winScratch a) (n - 1) (if ganged then 7 else 0) + 64 ≤ 2 ^ 27)

/-- Slices that a region touches (R136). -/
def regionSlices (ganged : Bool) (a n : Nat) : List Nat :=
  if n = 0 then []
  else
    let last := slotOff ganged (winScratch a) (n - 1) (if ganged then 7 else 0) / 2 ^ 22
    (List.range (last + 1 - winScratch a / 2 ^ 22)).map (· + winScratch a / 2 ^ 22)

/-- Slots of a RESOLVE's region (R187). -/
def resolveSlots (e : Entry) : Nat := e.length * 8 / widthOf (field e.subop 7 0)

/-- Whether an address lies in a host window; one in an unmapped region fails in translation (R21, R89). -/
def inWindow (a : Nat) : Bool := match regionOf a with | .window _ => true | _ => false

/-- Every other field lies in range (R87, R90 to R97, R102, R104, R106, R109, R187). -/
def fieldsOk (s : State) (h : Nat) (e : Entry) : Bool :=
  let src := e.src.toNat
  let dst := e.dst.toNat
  match e.opcode with
  | 0x01 => 1 ≤ e.length && !copyOverlaps e &&
      (!e.flag 0 || (1 ≤ e.rowBytes && e.length % e.rowBytes = 0 && e.rowBytes ≤ e.dstStride &&
        (e.srcStride = 0 || e.rowBytes ≤ e.srcStride)))
  | 0x02 => 1 ≤ e.length
  | 0x03 => 1 ≤ e.length && 1 ≤ e.rowBytes && e.length % e.rowBytes = 0 && e.operand.toNat % e.idxWidth = 0
  | 0x04 => 1 ≤ e.length && 1 ≤ e.rowBytes && e.length % e.rowBytes = 0 && e.operand.toNat % e.idxWidth = 0
  | 0x05 => 1 ≤ e.length && !overlap src e.length dst (outBytes (entryImage s h e) e)
  | 0x06 => 1 ≤ e.length && src % 8 = 0 && 2 ≤ e.rowBytes && e.rowBytes ≤ 1024
  | 0x07 => 1 ≤ e.length
  | 0x08 => 1 ≤ e.length && resolveFmt (bitOf e.subop 12) (field e.subop 7 0) && resolveMode (field e.subop 11 8) &&
      e.length * 8 % widthOf (field e.subop 7 0) = 0 && regionOk (bitOf e.subop 12) src (resolveSlots e)
  | 0x09 =>
      let w := e.width
      atopKnown e.atop && dst % w = 0 &&
      (w = 8 || (e.operand.toNat < 2 ^ 32 && e.fenceVal.toNat < 2 ^ 32)) &&
      (if e.flag 0 then 1 ≤ e.length && e.length % w = 0 && src % w = 0 && !e.flag 1 && e.atop ≠ 0x03 &&
          e.operand = 0 && e.fenceVal = 0
       else e.length = w && (if e.flag 1 then src % w = 0 else e.src = 0))
  | 0x0A => dst % 8 = 0
  | 0x0B => dst % 8 = 0
  | 0x0C => 1 ≤ e.length && field e.subop 3 0 ≤ 3 && (!inWindow src || e.operand = 0)
  | 0x0D => 1 ≤ e.length && (field e.subop 7 0 = 1 || field e.subop 7 0 = 2) && !inWindow src
  | 0x0E => field e.subop 3 0 ≤ 3 && dst % 8 = 0
  | 0x0F => if bitOf e.subop 0 then e.dst = 0 && e.length = 0 else 1 ≤ e.length && !inWindow dst
  | _ => true

/-- Check 4 of R65: reserved fields and flags, the recipe checks, every other field. -/
def check4 (s : State) (h : Nat) (e : Entry) : Option Status :=
  if !reservedOk e then some .malformed
  else match (if isRecipeOp e.opcode then recipeCheck s h e else none) with
    | some st => some st
    | none => if fieldsOk s h e then none else some .malformed

/-- Check 5 of R65: the vat's wheel holds the hoop's slice, the VAT_ID's block and the port that the entry names (R411). -/
def check5 (s : State) (h : Nat) (e : Entry) : Bool :=
  let w := vatWheel s (s.hoop h).vat
  hoopWheel s h = w && vatBlockOf s (s.hoop h).vat = w &&
  (!(e.opcode = 0x0E || (e.opcode = 0x0C && regionOf e.src.toNat = .dlocal)) || acdWheelOf s (field e.subop 3 0) = w) &&
  (e.opcode ≠ 0x08 || (regionSlices (bitOf e.subop 12) e.src.toNat (resolveSlots e)).all (fun k => sliceWheelOf s k = w))

/-- Whether an opcode is accepted on data hoop h (R83). -/
def opcodeOk (s : State) (h op : Nat) : Bool :=
  (1 ≤ op && op ≤ 0x10) || (isVf (s.hoop h).fn && (op = 0x89 || op = 0x8A))

/-- Checks 2 to 5 of R65: the first that fails fixes the status. -/
def checks (s : State) (h : Nat) (e : Entry) : Option Status :=
  if !opcodeOk s h e.opcode then some .badOpcode
  else if e.vatId ≠ (s.hoop h).vat then some .badVat
  else match check4 s h e with
    | some st => some st
    | none => if check5 s h e then none else some .rindViolation

/-! ### Inputs of an entry (R95, R97, R93, R106, R208) -/

/-- A number inserted in rising order, once. -/
def insertNat (x : Nat) : List Nat → List Nat
  | [] => [x]
  | y :: r => if x < y then x :: y :: r else if x = y then y :: r else y :: insertNat x r

/-- The pages that the elements of a GATHER or SCATTER touch, ordered by address (R208). -/
def elemPages (e : Entry) (base : Nat) (need : Access) : List (Nat × Access) :=
  ((List.range e.elems).foldl (fun l k => (pagesOf (base + e.elemOff k) e.rowBytes).foldl (fun l p => insertNat p l) l)
    []).map (·, need)

/-- Rows of one side of a strided COPY. -/
def rowPages (base stride rows len : Nat) (need : Access) : List (Nat × Access) :=
  (List.range rows).flatMap (fun r => needPages (base + r * stride) len need)

/-! ### Page list of PREFETCH and ADVISE (R106) -/

/-- The page of an address as the vat's translations or, where they hold none, its tables give it: virtual base and size. -/
def tablePage (s : State) (v a : Nat) : Option (Nat × Nat) :=
  match s.xl.xlats.find? (xlatOf s v a) with
  | some x => some (x.page, x.size)
  | none => match walkVat s v a false with
    | .leaf x _ _ => some (x.page, x.size)
    | .fault _ => none

/-- The pages of a device-local range as the vat's translations give them: virtual base and size, from address a on. -/
def tablePages (s : State) (v : Nat) : Nat → Nat → Nat → List (Nat × Nat)
  | 0, _, _ => []
  | k + 1, a, hi =>
    if hi ≤ a then []
    else match tablePage s v a with
      | none => []
      | some x => x :: tablePages s v k (x.1 + x.2) hi

/-- The pages that a PREFETCH or ADVISE names. -/
def tierPages (s : State) (h : Nat) (e : Entry) : List (Nat × Nat) :=
  tablePages s (s.hoop h).vat (e.length / 4096 + 2) e.src.toNat (e.src.toNat + e.length)

/-- Bytes of the page list: 8 for each page, once the source pages have their translations (R106). -/
def listBytes (s : State) (h : Nat) (e : Entry) : Nat := 8 * (tierPages s h e).length

/-- Whether a PREFETCH or ADVISE moves pages of its own tables (R106). -/
def isTier (e : Entry) : Bool := (e.opcode = 0x0C && regionOf e.src.toNat = .dlocal) || e.opcode = 0x0D

/-- Pages of the page list itself, which is read and, as pages move, written (R106, R107). -/
def listPages (s : State) (h : Nat) (e : Entry) : List (Nat × Access) :=
  needPages e.operand.toNat (listBytes s h e) .read ++ needPages e.operand.toNat (listBytes s h e) .write

/-- The ranges that are read at queue time. -/
def inputRanges (s : State) (h : Nat) (e : Entry) : List (Nat × Nat) :=
  match e.opcode with
  | 0x03 => [(e.operand.toNat, e.elems * e.idxWidth)]
  | 0x04 => [(e.operand.toNat, e.elems * e.idxWidth)]
  | 0x06 => (if e.flag 0 then [(e.operand.toNat, 64)] else []) ++ [(e.src.toNat, 8 * e.rowBytes)]
  | 0x05 => if e.flag 0 then [(e.operand.toNat, 64)] else []
  | 0x07 => if e.flag 0 then [(e.operand.toNat, 64)] else []
  | 0x0C => if isTier e then [(e.operand.toNat, listBytes s h e)] else []
  | 0x0D => [(e.operand.toNat, listBytes s h e)]
  | _ => []

/-- The pages of an entry's range list in the order of R207, with the access that each needs (R204). While the entry's
inputs are not read, the list ends before the first range that depends on them. -/
def rangePages (s : State) (h : Nat) (e : Entry) : List (Nat × Access) :=
  let src := e.src.toNat
  let dst := e.dst.toNat
  let opd := e.operand.toNat
  let n := e.length
  let known := e.inputs = 2
  let img := entryImage s h e
  let param := if e.flag 0 then needPages opd 64 .read else []
  let aux := needPages (e.params.getD (rAuxQw img) 0).toNat (n / rInBlock img * rAuxBytes img) .read
  let exts := (extentRanges img e).flatMap (fun r => needPages r.1 r.2.1 r.2.2)
  match e.opcode with
  | 0x01 =>
    if e.flag 0 then rowPages src e.srcStride (if e.srcStride = 0 then 1 else e.rows) e.rowBytes .read ++
      rowPages dst e.dstStride e.rows e.rowBytes .write
    else needPages src n .read ++ needPages dst n .write
  | 0x02 => needPages dst n .write
  | 0x03 => needPages opd (e.elems * e.idxWidth) .read ++
      (if known then elemPages e src .read ++ needPages dst n .write else [])
  | 0x04 => needPages src n .read ++ needPages opd (e.elems * e.idxWidth) .read ++
      (if known then elemPages e dst .write else [])
  | 0x05 => param ++ (if known then needPages src n .read ++ aux ++ exts ++
      needPages dst (outBytes img e) .write else [])
  | 0x06 => param ++ needPages src (8 * e.rowBytes) .read ++
      (if known then e.opsRead.flatMap (fun a => needPages a.toNat n .read) ++ aux ++ exts ++
        needPages dst (outBytes img e) .write else [])
  | 0x07 => param ++ (if known then needPages src n .read ++ aux ++ exts ++
      (regionSlices (rAccKind img = 2) dst (accSlots img e)).map
        (fun k => (0x00F0000000000000 + k * 2 ^ 22, Access.write)) else [])
  | 0x08 => (regionSlices (bitOf e.subop 12) src (resolveSlots e)).map
        (fun k => (0x00F0000000000000 + k * 2 ^ 22, Access.write)) ++ needPages dst n .write
  | 0x09 => (if e.flag 0 then needPages src n .read else []) ++ needPages dst n .atomic ++
      (if e.flag 1 then needPages src n .write else [])
  | 0x0A => needPages dst 8 .atomic
  | 0x0B => needPages dst 8 .read
  | 0x0C => needPages src n .read ++ (if isTier e then listPages s h e else [])
  | 0x0D => needPages src n .read ++ listPages s h e
  | 0x0E => needPages src 64 .read ++ (if dst = 0 then [] else needPages dst 8 .atomic)
  | 0x89 => needPages dst (field opd 31 0) .write
  | 0x8A => needPages dst (field opd 31 0) .write
  | _ => []

/-! ### Ranges and regions (R21, R89, R93, R219) -/

/-- The ranges of an entry that must each lie in one region, in the order of R207, as far as its inputs are known; the rows of
a strided COPY are one range, from the first row to the last. The elements of GATHER and SCATTER are checked page by page. -/
def entryRanges (s : State) (h : Nat) (e : Entry) : List (Nat × Nat) :=
  let src := e.src.toNat
  let dst := e.dst.toNat
  let opd := e.operand.toNat
  let n := e.length
  let known := e.inputs = 2
  let img := entryImage s h e
  let side (a stride : Nat) : Nat × Nat := (a, (if stride = 0 then 0 else (e.rows - 1) * stride) + e.rowBytes)
  let param := if e.flag 0 then [(opd, 64)] else []
  let aux := if rAuxBytes img = 0 then [] else [((e.params.getD (rAuxQw img) 0).toNat, n / rInBlock img * rAuxBytes img)]
  let exts := (extentRanges img e).map (fun r => (r.1, r.2.1))
  match e.opcode with
  | 0x01 => if e.flag 0 then [side src e.srcStride, side dst e.dstStride] else [(src, n), (dst, n)]
  | 0x02 => [(dst, n)]
  | 0x03 => [(opd, e.elems * e.idxWidth), (dst, n)]
  | 0x04 => [(src, n), (opd, e.elems * e.idxWidth)]
  | 0x05 => param ++ (if known then (src, n) :: aux ++ exts ++ [(dst, outBytes img e)] else [])
  | 0x06 => param ++ (src, 8 * e.rowBytes) ::
      (if known then e.opsRead.map (fun a => (a.toNat, n)) ++ aux ++ exts ++ [(dst, outBytes img e)] else [])
  | 0x07 => param ++ (if known then (src, n) :: aux ++ exts else [])
  | 0x08 => [(dst, n)]
  | 0x09 => (if e.flag 0 then [(src, n)] else []) ++ (dst, n) :: (if e.flag 1 then [(src, n)] else [])
  | 0x0A => [(dst, 8)]
  | 0x0B => [(dst, 8)]
  | 0x0C => (src, n) :: (if isTier e then [(opd, listBytes s h e)] else [])
  | 0x0D => [(src, n), (opd, listBytes s h e)]
  | 0x0E => (src, 64) :: (if dst = 0 then [] else [(dst, 8)])
  | 0x0F => if bitOf e.subop 0 then [] else [(dst, n)]
  | 0x89 => if field opd 31 0 = 0 then [] else [(dst, field opd 31 0)]
  | 0x8A => if field opd 31 0 = 0 then [] else [(dst, field opd 31 0)]
  | _ => []

/-- The first address of a range that lies outside the region in which the range begins. -/
def leavesAt (a n : Nat) : Nat :=
  match regionOf a with
  | .dlocal => min (2 ^ 56) (a + n)
  | .window h => min ((h + 1) * 2 ^ 58 + 2 ^ 57) (a + n)
  | .unmapped => a

/-- The first range of an entry that leaves its region, as the address at which it does (R89, R219). -/
def rangeLeaves (s : State) (h : Nat) (e : Entry) : Option Nat :=
  ((entryRanges s h e).find? (fun r => !rangeOk r.1 r.2)).map (fun r => leavesAt r.1 r.2)

/-- Where the elements' pages of a GATHER or SCATTER stand in the range list: first place, number, and the base whose region
each of them must share (R93). -/
def elemSpan (e : Entry) : Option (Nat × Nat × Nat) :=
  let idx := (pagesOf e.operand.toNat (e.elems * e.idxWidth)).length
  if e.inputs ≠ 2 then none
  else if e.opcode = 0x03 then some (idx, (elemPages e e.src.toNat .read).length, e.src.toNat)
  else if e.opcode = 0x04 then some ((pagesOf e.src.toNat e.length).length + idx, (elemPages e e.dst.toNat .write).length, e.dst.toNat)
  else none

/-- Whether place k of the range list is an element's page outside its base's region. -/
def offRegion (sp : Option (Nat × Nat × Nat)) (k va : Nat) : Bool :=
  sp.elim false (fun p => p.1 ≤ k && k < p.1 + p.2.1 && regionOf va ≠ regionOf p.2.2)

/-- The check of a range list's pages from place c on, in order, through the micro-TLB of slice k (R204, R208): how far it gets,
and with what outcome; a missing page and the next 255 are translated at once (R23). -/
def checkOn (k v : Nat) (sp : Option (Nat × Nat × Nat)) : List (Nat × Access) → Nat → State → (Nat × Pages) × State
  | [], c, s => ((c, .ok), s)
  | p :: r, c, s =>
    if offRegion sp c p.1 then ((c, .fault p.1 0x06), s)
    else
      let s := askXlate k v p.1 p.2 s
      match lookupIn (some k) s v p.1 p.2 with
      | .ok _ => checkOn k v sp r (c + 1) s
      | .miss => ((c, .wait), startPages k v (r.take 255) s)
      | .fault x => ((c, .fault p.1 x), s)

/-- Whether a physical address lies in the tier that the entry moves pages to (R106). -/
def inTargetTier (e : Entry) (pa : Nat) : Bool :=
  match homeOf pa with
  | .acd q => e.opcode = 0x0C && q = field e.subop 3 0
  | .far _ => e.opcode = 0x0D
  | _ => false

/-- The page list meets R106: each address is aligned to its page's size and lies in the target tier. In a run that
repeats under R74, a page that has moved is not moved again, and its list entry is not looked at (R107). -/
def pageListOk (s : State) (h : Nat) (e : Entry) : Bool :=
  let ps := tierPages s h e
  (List.range ps.length).all (fun k =>
    let a := (e.pages.getD k 0).toNat
    let p := ps.getD k (0, 1)
    (e.again && (match lookup s (s.hoop h).vat p.1 .read with | .ok pa => inTargetTier e pa | _ => false)) ||
    (a % p.2 = 0 && inTargetTier e a && !paBeyond s a))

/-! ### LAUNCH (R110, R111) -/

/-- GROUPS of a LAUNCH. -/
def Entry.groups (e : Entry) : Nat := field e.lenStride.toNat 63 40
/-- THREADS of a LAUNCH. -/
def Entry.threads (e : Entry) : Nat := field e.lenStride.toNat 39 28
/-- SPLIT of a LAUNCH. -/
def Entry.split (e : Entry) : Nat := field e.lenStride.toNat 27 24
/-- LOCAL_UNITS of a LAUNCH. -/
def Entry.localUnits (e : Entry) : Nat := field e.lenStride.toNat 15 0

/-- Whether a fence word lies in the far tier, which has no fences (R104). -/
def fenceInFar (s : State) (v va : Nat) (need : Access) : Bool :=
  (vhomes s v va 8 need).any (fun t => match t with | .far _ => true | _ => false)

/-- The outcome of R111's checks, then of the completion fence as FENCE_SIGNAL checks its own (R112, R104): none passes; a port without parameters ends a LAUNCH that passes check 1 in ABORTED. -/
def launchCheck (s : State) (h : Nat) (e : Entry) : Option Status :=
  let q := field e.subop 3 0
  let p := s.acd q
  let k := e.split
  if (e.flag 0 && k ≠ 0) || k > 8 then some .malformed
  else if !p.paramsValid then some .aborted
  else if 1 ≤ k && !p.splitMask.getLsbD (k - 1) then some .malformed
  else if e.threads % 32 ≠ 0 || e.threads < 32 || p.maxThreads < e.threads || e.groups = 0 then some .malformed
  else if (if k = 0 then p.defSplit else k) * p.onchip / 8 < e.localUnits * 256 then some .malformed
  else if e.src.toNat % 64 ≠ 0 || vhomes s (s.hoop h).vat e.src.toNat 64 .read ≠ [.acd q] then some .malformed
  else if e.dst ≠ 0 && fenceInFar s (s.hoop h).vat e.dst.toNat .atomic then some .malformed
  else none

/-- Whether a target supports an atomic operation (R103). -/
def atomicTarget (op : Nat) : Home → Bool
  | .host _ => op = 0x01 || op = 0x02 || op = 0x03
  | .far _ => false
  | .none => false
  | _ => true

/-- Checks that need the entry's pages: R103, R104, R106, R111, and the region of ACCUMULATE (R136). -/
def lateCheck (s : State) (h : Nat) (e : Entry) : Option Status :=
  let v := (s.hoop h).vat
  match e.opcode with
  | 0x09 => if (vhomes s v e.dst.toNat e.length .atomic).all (atomicTarget e.atop) then none else some .malformed
  | 0x0A => if fenceInFar s v e.dst.toNat .atomic then some .malformed else none
  | 0x0B => if fenceInFar s v e.dst.toNat .read then some .malformed else none
  | 0x0C => if regionOf e.src.toNat = .dlocal && !pageListOk s h e then some .malformed else none
  | 0x0D => if pageListOk s h e then none else some .malformed
  | 0x0E => launchCheck s h e
  | _ => none

/-! ### Segments (R113) -/

/-- Bytes of one unit of the linear side (R113); 0 for unsegmented opcodes. -/
def segUnit (s : State) (h : Nat) (e : Entry) : Nat :=
  match e.opcode with
  | 0x01 => if e.flag 0 then e.rowBytes else 1
  | 0x02 => 1
  | 0x03 => e.rowBytes
  | 0x04 => e.rowBytes
  | 0x05 => rInBlock (entryImage s h e)
  | 0x06 => rInBlock (entryImage s h e)
  | 0x07 => rInBlock (entryImage s h e)
  | 0x08 => widthOf (field e.subop 7 0) / 8
  | 0x09 => if e.flag 0 then e.width else 0
  | 0x0C => 4096
  | 0x0D => 4096
  | _ => 0

/-- N of R113. -/
def segTotal (s : State) (h : Nat) (e : Entry) : Nat := ceilDiv e.length (segUnit s h e)

/-- G of R113. -/
def segSize (s : State) (h : Nat) (e : Entry) : Nat :=
  pow2Above (max (ceilDiv (segTotal s h e) 64) (ceilDiv 65536 (segUnit s h e)))

/-- Number of segments; an unsegmented entry counts as one (R113, R116). -/
def segCount (s : State) (h : Nat) (e : Entry) : Nat :=
  if segUnit s h e = 0 then 1 else max 1 (ceilDiv (segTotal s h e) (segSize s h e))

/-- Units of segment j: first and one past the last (R113), or past the last before the revoked page at which it stops
(R218). -/
def segRange (s : State) (h : Nat) (e : Entry) (j : Nat) : Nat × Nat :=
  let a := j * segSize s h e
  let b := min ((j + 1) * segSize s h e) (segTotal s h e)
  (a, (e.stops.find? (fun x => x.1 = j)).elim b (fun x => min b (a + x.2.1)))

/-- DONE_BYTES of an entry that ends OK (R113). -/
def okBytes (e : Entry) : Nat :=
  match e.opcode with
  | 0x0A => 0 | 0x0B => 0 | 0x0E => 0 | 0x0F => 0 | 0x10 => 0
  | 0x89 => e.report
  | 0x8A => e.report
  | _ => e.length

/-! ### Ranges of a segment (R113, R153) -/

/-- Bytes of segment j's linear side. -/
def segBytes (s : State) (h : Nat) (e : Entry) (j : Nat) : Nat :=
  let u := segUnit s h e
  if u = 0 then okBytes e
  else
    let (a, b) := segRange s h e j
    min (b * u) e.length - min (a * u) e.length

/-- Start of output stream t within the destination of a recipe entry (R153). -/
def streamBase (img : List Byte) (n t : Nat) : Nat := n * ((List.range t).map (rOutBytes img)).sum

/-- Output ranges of blocks a to b − 1, one per stream (R153). -/
def outRanges (img : List Byte) (e : Entry) (a b : Nat) : List (Nat × Nat) :=
  let n := e.length / rInBlock img
  (List.range (rOutputs img)).map (fun t =>
    (e.dst.toNat + streamBase img n t + a * rOutBytes img t, (b - a) * rOutBytes img t))

/-- One byte of each slice that a region of n slots touches. -/
def regionProbe (ganged : Bool) (a n : Nat) : List (Nat × Nat) :=
  (regionSlices ganged a n).map (fun k => (0x00F0000000000000 + k * 2 ^ 22, 1))

/-- The ranges of slots a to b − 1 of an accumulator region, one for each run of slots of each limb (R134, R135). -/
def slotRuns (ganged : Bool) (base a b : Nat) : List (Nat × Nat) :=
  let w := winScratch base
  let o := field w 15 0 / 64
  if b ≤ a then []
  else if !ganged then [(base + 64 * a, 64 * (b - a))]
  else (List.range 8).flatMap (fun j =>
    (List.range ((o + b - 1) / 1024 + 1 - (o + a) / 1024)).map (fun g =>
      let lo := max (o + a) (((o + a) / 1024 + g) * 1024)
      (0x00F0000000000000 + slotOff true w (lo - o) j, 64 * (min (o + b) (((o + a) / 1024 + g + 1) * 1024) - lo))))

/-- Pages of a PREFETCH or ADVISE that belong to segment j: place in the page list, first byte, size (R113). -/
def segPages (s : State) (h : Nat) (e : Entry) (j : Nat) : List (Nat × Nat × Nat) :=
  let (a, b) := segRange s h e j
  let ps := tierPages s h e
  let src := e.src.toNat
  (List.range ps.length).filterMap (fun k =>
    let p := ps.getD k (0, 0)
    let o := max p.1 src - src
    if a * 4096 ≤ o && o < b * 4096 then some (k, p.1, p.2) else none)

/-- Virtual ranges that segment j reads. -/
def segReads (s : State) (h : Nat) (e : Entry) (j : Nat) : List (Nat × Nat) :=
  let (a, b) := segRange s h e j
  let src := e.src.toNat
  let img := entryImage s h e
  let ib := rInBlock img
  let aux := if rAuxBytes img = 0 then [] else
    [((e.params.getD (rAuxQw img) 0).toNat + a * rAuxBytes img, (b - a) * rAuxBytes img)]
  let ext := (extentRanges img e).filterMap (fun r => if r.2.2 = .read then some (r.1, r.2.1) else none)
  match e.opcode with
  | 0x01 => if e.flag 0 then (List.range (b - a)).map (fun k => (src + (a + k) * e.srcStride, e.rowBytes))
      else [(src + a, b - a)]
  | 0x03 => (List.range (b - a)).map (fun k => (src + e.elemOff (a + k), e.rowBytes))
  | 0x04 => [(src + a * e.rowBytes, (b - a) * e.rowBytes)]
  | 0x05 => (src + a * ib, (b - a) * ib) :: aux ++ ext
  | 0x06 => e.opsRead.map (fun p => (p.toNat + a * ib, (b - a) * ib)) ++ aux ++ ext
  | 0x07 => (src + a * ib, (b - a) * ib) :: aux ++ ext
  | 0x09 => if e.flag 0 then [(src + a * e.width, (b - a) * e.width)] else []
  | 0x0C => if regionOf src = .dlocal then [(src + a * 4096, min (b * 4096) e.length - a * 4096)] else []
  | 0x0D => if field e.subop 7 0 = 2 then [] else [(src + a * 4096, min (b * 4096) e.length - a * 4096)]
  | _ => []

/-- Virtual ranges that segment j writes, in the order in which the segment's bytes fall. -/
def segWrites (s : State) (h : Nat) (e : Entry) (j : Nat) : List (Nat × Nat) :=
  let (a, b) := segRange s h e j
  let dst := e.dst.toNat
  match e.opcode with
  | 0x01 => if e.flag 0 then (List.range (b - a)).map (fun k => (dst + (a + k) * e.dstStride, e.rowBytes))
      else [(dst + a, b - a)]
  | 0x02 => [(dst + a, b - a)]
  | 0x03 => [(dst + a * e.rowBytes, (b - a) * e.rowBytes)]
  | 0x04 => (List.range (b - a)).map (fun k => (dst + e.elemOff (a + k), e.rowBytes))
  | 0x05 => outRanges (entryImage s h e) e a b
  | 0x06 => outRanges (entryImage s h e) e a b
  | 0x08 => let w := widthOf (field e.subop 7 0) / 8
      [(dst + a * w, (b - a) * w)]
  | 0x89 => [(dst, if e.report = 0 then field e.operand.toNat 31 0 else e.report)]
  | 0x8A => [(dst, if e.report = 0 then field e.operand.toNat 31 0 else e.report)]
  | _ => []

/-- Further ranges that segment j changes without filling them: stores of STS and STC nodes, accumulator slots, atomic
targets. -/
def segTouches (s : State) (h : Nat) (e : Entry) (j : Nat) : List (Nat × Nat × Access) :=
  let (a, b) := segRange s h e j
  let img := entryImage s h e
  let ext := (extentRanges img e).filterMap (fun r => if r.2.2 = .write then some (r.1, r.2.1, Access.write) else none)
  match e.opcode with
  | 0x05 => ext
  | 0x06 => ext
  | 0x07 => ext ++ (regionProbe (rAccKind img = 2) e.dst.toNat (accSlots img e)).map (fun r => (r.1, r.2, Access.write))
  | 0x08 => (slotRuns (bitOf e.subop 12) e.src.toNat a b).map (fun r => (r.1, r.2, if e.flag 0 then Access.atomic else .read))
  | 0x09 => if e.flag 0 then [(e.dst.toNat + a * e.width, (b - a) * e.width, .atomic)]
      else (e.dst.toNat, e.width, .atomic) :: (if e.flag 1 then [(e.src.toNat, e.width, Access.write)] else [])
  | 0x0A => [(e.dst.toNat, 8, .atomic)]
  | 0x0C => if regionOf e.src.toNat = .dlocal then (segPages s h e j).map (fun p => (e.operand.toNat + 8 * p.1, 8, .write)) else []
  | 0x0D => (segPages s h e j).map (fun p => (e.operand.toNat + 8 * p.1, 8, .write))
  | 0x0E => if e.dst = 0 then [] else [(e.dst.toNat, 8, .atomic)]
  | _ => []

/-- Everything that segment j accesses. -/
def segAccesses (s : State) (h : Nat) (e : Entry) (j : Nat) : List (Nat × Nat × Access) :=
  (segReads s h e j).map (fun r => (r.1, r.2, Access.read)) ++
    (segWrites s h e j).map (fun r => (r.1, r.2, Access.write)) ++ segTouches s h e j

/-! ### Held translations (R23, R207, R209, R210) -/

/-- The pages of group 1 of R207. -/
def groupOne (e : Entry) : List (Nat × Access) :=
  (if e.opcode = 0x0E then needPages e.src.toNat 64 .read else []) ++
  (if isRecipeOp e.opcode && e.flag 0 then needPages e.operand.toNat 64 .read else []) ++
  (if e.opcode = 0x06 then needPages e.src.toNat (8 * e.rowBytes) .read else [])

/-- Whether segment j has still to use its pages. -/
def segOpen (e : Entry) (j : Nat) : Bool := e.segs[j]? ≠ some .done && e.segs[j]? ≠ some .failed

/-- The first n or so pages of one side that the unfinished segments use, in the order of the linear side (R209). -/
def sidePages (s : State) (h : Nat) (e : Entry) (write : Bool) (n : Nat) : List (Nat × Access) :=
  (List.range (segCount s h e)).foldl (fun l j =>
    if n ≤ l.length || !segOpen e j then l
    else dedup (l ++ ((segAccesses s h e j).filter (fun r => (r.2.2 ≠ .read) = write)).flatMap (fun r => needPages r.1 r.2.1 r.2.2)))
    []

/-- The pages that an entry with n held slots holds: group 1, and the rest divided between the two sides (R209). -/
def windowPages (s : State) (h : Nat) (e : Entry) (n : Nat) : List (Nat × Access) :=
  let g := groupOne e
  let src := sidePages s h e false 256
  let dst := sidePages s h e true 256
  let m := n - g.length
  let k := min src.length (max (m / 2) (m - dst.length))
  g ++ src.take k ++ dst.take (m - k)

/-- What must stay in the micro-TLB for an entry whatever its slots: the pages of the inputs that it is reading, and those of its
first unfinished segment, which the model moves in one step (DESIGN CHOICE, log entry 130). -/
def pinnedPages (s : State) (h : Nat) (e : Entry) : List (Nat × Access) :=
  (if e.phase = .checking then (inputRanges s h e).flatMap (fun r => needPages r.1 r.2 .read) else []) ++
  (if e.phase = .started then
    (((List.range e.segs.length).find? (segOpen e)).elim [] (fun j =>
      (segAccesses s h e j).flatMap (fun r => needPages r.1 r.2.1 r.2.2)))
   else [])

/-- Whether an entry holds slots: it is checked or runs. -/
def holdsSlots (e : Entry) : Bool := e.phase = .checking || e.phase = .ready || e.phase = .started

/-- The entries of slice k that hold slots, in the order of their validation (R210). -/
def holders (s : State) (k : Nat) : List (Nat × Entry) :=
  let l := (s.wk.hoops.filter (fun h => h.2.present && sliceOf h.1 = k)).flatMap (fun h =>
    (h.2.entries.filter holdsSlots).map (fun e => (h.1, e)))
  sortBy (fun x => x.2.order) l

/-- Slots of slice k granted in the order of validation out of n: at most 256 to an entry, at least 16 to one that has begun to
move data (R209, R210). -/
def grantSlots (s : State) : Nat → List (Nat × Entry) → List Held
  | _, [] => []
  | n, (h, e) :: r =>
    let want := if e.phase = .checking then [] else windowPages s h e (max (min n 256) (if e.applied then 16 else 0))
    let all := dedup (want ++ pinnedPages s h e)
    all.map (fun p => { slice := sliceOf h, hoop := h, idx := e.idx, vat := (s.hoop h).vat, page := p.1, need := p.2 }) ++
      grantSlots s (n - want.length) r

/-- The held slots of slice k are granted anew, as its ladles advance (R209, R210). -/
def takeHolds (k : Nat) (s : State) : State :=
  { s with xl.held := s.xl.held.filter (fun g => g.slice ≠ k) ++ grantSlots s 512 (holders s k) }

/-- Hold slice k's translations anew and start those of running entries that are missing (R23, R209, R210). -/
def holdPages (k : Nat) (s : State) : State :=
  let s := takeHolds k s
  forAll (s.xl.held.filter (fun g => g.slice = k && (s.hoop g.hoop).entries.any (fun e => e.idx = g.idx && e.phase = .started)))
    (fun g => askXlate k g.vat g.page g.need) s

end Sys2Proof.Machine
end

