-- ==== Sys2Proof/Machine/Complete.lean ====
section
/-! DEFINITION. Completion as shared operations: the head and its publication, the stop of a hoop, idling, freezing, vat
slots, the completion of data and admin entries, and the agreement of collective groups (R31, R70 to R82, R122, R266). -/

namespace Sys2Proof.Machine

open Sys2Proof

/-! ### Entries of a hoop -/

/-- Entry i of hoop h, while it is known to the hoop engine. -/
def entryOf (s : State) (h : Nat) (i : W32) : Option Entry := (s.hoop h).entries.find? (fun e => e.idx = i)

/-- Change entry i of hoop h. -/
def modEntry (h : Nat) (i : W32) (f : Entry → Entry) (s : State) : State :=
  modHoop h (fun x => { x with entries := x.entries.map (fun e => if e.idx = i then f e else e) }) s

/-- Whether an entry is in flight: started and not yet complete (R67). -/
def inFlight (e : Entry) : Bool := e.begun

/-- Number of a hoop's entries in flight (R85 INFLIGHT). -/
def inFlightCount (x : Hoop) : Nat := (x.entries.filter inFlight).length

/-- Hoops that exist and satisfy p. -/
def hoopsWith (s : State) (p : Hoop → Bool) : List Nat :=
  (s.wk.hoops.filter (fun h => h.2.present && p h.2)).map (·.1)

/-- Address of entry i in a hoop's ring (R54). -/
def slotAddr (x : Hoop) (i : W32) : Nat := x.ringBase + 64 * (i.toNat % 2 ^ x.log2)

/-- Whether some data hoop of vat v has an entry in flight. -/
def vatInFlight (s : State) (v : Nat) : Bool := s.wk.hoops.any (fun h => h.2.present && h.2.vat = v && h.2.entries.any inFlight)

/-- Whether hoop h's vat is being torn down: no accepted entry of it completes but by the teardown (R50). -/
def tornDown (s : State) (h : Nat) : Bool := (s.vat (s.hoop h).vat).st = .aborting

/-- Traffic class of a hoop's peer requests: TC3 for a hoop whose collective group is enabled, TC2 otherwise (R256, R265). -/
def tcOf (s : State) (h : Nat) : Nat :=
  if s.pr.colls.any (fun g => g.2.q0.getLsbD 63 && !(g.2.ending && !g.2.ready) && field g.2.q0.toNat 39 26 = h) then 3 else 2

/-- Whether a request serves entry i of hoop h. -/
def reqOfEntry (h : Nat) (i : W32) (r : Req) : Bool :=
  match r.owner with
  | .seg h' i' _ => h' = h && i' = i
  | .input h' i' => h' = h && i' = i
  | .push h' i' => h' = h && i' = i
  | .status h' i' => h' = h && i' = i
  | _ => false

/-! ### The stop of a hoop (R80) and its idling (R77) -/

/-- Set RING_FAULT and disable the hoop as if by DISABLE_HOOP; nothing further is fetched (R80). -/
def stopHoop (h : Nat) (s : State) : State :=
  modHoop h (fun x => { x with ringFault := true, enabled := false, disabling := x.enabled || x.disabling }) s

/-- A translation of a hoop's ring, head or status word fails: fault bits of its vat, and the hoop stops (R80). -/
def stopOnXlate (h cause va : Nat) (s : State) : State :=
  s |> stopHoop h |> vatFault (s.hoop h).vat (causeBit cause) cause va

/-! ### Admin completion (R70 to R72, R82) -/

/-- The admin entry in progress. -/
def adminCur (s : State) (a : Nat) : Option Entry := (s.admin a).entries.find? (fun e => e.phase = .started)

/-- Write an 8-byte word of admin hoop a by an untranslated posted write to its host (R82, R235, R492). -/
def hostWord (a pa x : Nat) (s : State) : State := s |> storeAt pa (natLe 8 x) |> hostPut a pa (natLe 8 x) false

/-- Write the status of admin entry e, move and publish the head, and post its record (R70 to R72, R82). An admin hoop that
has stopped, or is being disabled, reads ENABLE and ENABLED 0 from here on (R77, R492). -/
def adminWrite (a : Nat) (e : Entry) (st : Status) (seg : Bool) (done : Nat) (s : State) : State :=
  let x := s.admin a
  let slot := hostLoc a (x.base + 64 * (e.idx.toNat % 2 ^ x.log2))
  let rec_ : EvRec :=
    { cookie := e.cookie, kind := 0x01, status := st.code, source := 0xFFFFFFFF
      fn := BitVec.ofNat 16 (funcId (adminFn a)), vat := 0xFFFF, detail := e.idx.toNat % 65536
      isrc := some (20480 + a) }
  s |> when seg (hostWord a (slot + 40) 0)
    |> hostWord a (slot + 56) (statusWord st seg 0 done)
    |> modAdmin a (fun x => { x with
        entries := x.entries.filter (fun y => y.idx ≠ e.idx)
        head := e.idx + 1, pub := e.idx + 1, idle := true, cur := none })
    |> hostWord a (hostLoc a x.headAddr) (e.idx + 1).toNat
    |> when (a = 16) (sendMsix .bu 0)
    |> when (x.evqValid && (e.event || st ≠ .ok)) (postRec x.evq rec_)
    |> modAdmin a (fun x => if (!x.enable || x.ringFault) && x.entries.isEmpty && (x.fetchNext = x.tail || x.ringFault)
        then { x with running := false, enable := false } else x)

/-- Complete in turn the admin entries that failed validation and stand at the head (R66, R82). -/
def adminDrain (a : Nat) : Nat → State → State
  | 0, s => s
  | n + 1, s =>
    match (s.admin a).entries.head? with
    | some e => if e.phase = .finishing then adminDrain a n (adminWrite a e e.status e.segmap e.done s) else s
    | none => s

/-- Complete the admin entry in progress with a status (R82), then those behind it that failed validation. -/
def adminFinish (a : Nat) (st : Status) (seg : Bool) (done : Nat) (s : State) : State :=
  match adminCur s a with
  | none => s
  | some e => s |> adminWrite a e st seg done |> dropReqs (fun r => r.owner = .adminInput a)
      |> adminDrain a (s.admin a).entries.length

/-- Complete the admin entry in progress with a status and no output. -/
def adminEnd (a : Nat) (st : Status) (s : State) : State := adminFinish a st false 0 s

/-! ### Collective groups (R265 to R267) -/

/-- ENABLE of a group (R273). -/
def Coll.enable (g : Coll) : Bool := g.q0.getLsbD 63
/-- EVQ. -/
def Coll.evq (g : Coll) : Nat := field g.q0.toNat 59 48
/-- COLL_TAG. -/
def Coll.tag (g : Coll) : Nat := field g.q0.toNat 47 40
/-- HOOP. -/
def Coll.hoop (g : Coll) : Nat := field g.q0.toNat 39 26
/-- PARENT. -/
def Coll.parent (g : Coll) : Nat := field g.q0.toNat 25 13
/-- CHILDREN. -/
def Coll.children (g : Coll) : Nat := field g.q0.toNat 12 9
/-- ROOT. -/
def Coll.root (g : Coll) : Bool := g.q0.getLsbD 8
/-- WHEEL. -/
def Coll.wheel (g : Coll) : Nat := field g.q0.toNat 7 4

/-- A group ends: its fields stay, ENABLE and READY read 0 (R273). -/
def endGroup (g : Nat) (s : State) : State :=
  modColl g (fun x => { q0 := x.q0 &&& 0x7FFFFFFFFFFFFFFF, inst := x.inst }) s

/-- Groups whose ENABLE was written 0 end once their hoop is idle (R273). -/
def endGroups (h : Nat) (s : State) : State :=
  forAll ((s.pr.colls.filter (fun g => g.2.ending && g.2.hoop = h)).map (·.1)) endGroup s

/-! ### Head, publication, idle (R71, R77) -/

/-- Become IDLE: disabled, nothing in flight, the head published (or RING_FAULT, with nothing left to run again); a pending
DISABLE_HOOP completes (R77, R74, R80). -/
def tryIdle (h : Nat) (s : State) : State :=
  let x := s.hoop h
  if x.present && x.disabling && x.entries.isEmpty && !x.migrating && x.recsDue.isEmpty && !waitsFor s (.head h)
      && ((x.ringFault && x.resumeTo.isNone) || (x.fetchNext = x.tail && x.pub = x.head)) then
    let s := s |> modHoop h (fun x => { x with disabling := false, idle := true, disableBy := none }) |> endGroups h
    match x.disableBy with
    | some a => adminEnd a .ok s
    | none => s
  else s

/-- The head word: HEAD and EPOCH (R71). -/
def headWord (x : Hoop) : Nat := x.head.toNat + x.epoch.toNat * 2 ^ 32

/-- Post the records that waited for the head publication before them (R70). -/
def postDue (h : Nat) (s : State) : State :=
  let x := s.hoop h
  s |> modHoop h (fun x => { x with recsDue := [] }) |> forAll x.recsDue (postRec x.evq)

/-- The publication of hoop h's head is over, made or failed: its records follow, and the hoop may become idle. -/
def headOver (h : Nat) (s : State) : State := s |> postDue h |> tryIdle h

/-- A publication of hoop h's head fails: the hoop stops (R80). -/
def headFails (h : Nat) (s : State) : State :=
  s |> modHoop h (fun x => { x with pubDue := false, pubTimer := false }) |> stopHoop h

/-- Publish the head of hoop h where it differs from the last published value (R71); a failed write stops the hoop (R80).
One publication is made at a time. -/
def publishHead (h : Nat) (s : State) : State :=
  let x := s.hoop h
  if waitsFor s (.head h) then modHoop h (fun x => { x with pubDue := true }) s
  else if x.head = x.pub then s |> modHoop h (fun x => { x with pubDue := false }) |> headOver h
  else
    let s := askXlate (sliceOf h) x.vat x.headAddr .write s
    match lookupIn (some (sliceOf h)) s x.vat x.headAddr .write with
    | .miss => modHoop h (fun x => { x with pubDue := true }) s
    | .fault c => s |> modHoop h (fun x => { x with pubDue := false, pubTimer := false }) |> stopOnXlate h c x.headAddr
        |> headOver h
    | .ok pa =>
      if pa < 2 ^ 64 && !homeUp s (homeOf pa) then s |> headFails h |> headOver h
      else match ownedGate (.head h) x.vat x.headAddr pa 8 s with
        | (false, t) => modHoop h (fun x => { x with pubDue := true }) t
        | (true, t) =>
          let t := t |> ctrlWrite (.head h) (vatWheel s x.vat) (tcOf s h) pa (natLe 8 (headWord x)) x.epoch
            |> modHoop h (fun x => { x with pub := x.head, pubDue := false, pubTimer := false })
          if waitsFor t (.head h) then t else headOver h t

/-- Move the hardware head past the entries that are complete (R71): at most n of them. -/
def advanceHead : Nat → Hoop → Hoop
  | 0, x => x
  | n + 1, x =>
    if x.doneAhead.contains x.head then
      advanceHead n { x with head := x.head + 1, doneAhead := x.doneAhead.filter (· ≠ x.head) }
    else x

/-! ### Vat slots (R31, R32) -/

/-- A free hardware slot. -/
def freeSlot (s : State) : Option Nat := firstFree 128 (fun k => s.wk.vats.any (fun v => v.2.slot = some k))

/-- Whether a resident vat may be evicted: not pinned, nothing in flight, no page request outstanding (R31). -/
def evictable (s : State) (v : Nat) : Bool :=
  (s.vat v).st = .resident && (s.vat v).slot.isSome && !vatInFlight s v && (s.vat v).prOut = 0

/-- Evict vat v: it becomes IDLE; no translation is invalidated (R31). -/
def evict (v : Nat) (s : State) : State := modVat v (fun x => { x with st := .idle, slot := none, expired := false }) s

/-- The least recently used evictable vat (R31). -/
def lruVat (s : State) : Option Nat :=
  ((s.wk.vats.map (·.1)).filter (evictable s)).foldl
    (fun b v => match b with
      | none => some v
      | some w => if (s.vat v).lastUse < (s.vat w).lastUse then some v else some w) none

/-- With a vat waiting and no slot free, evict an expired vat without work, or else the least recently used (R31, R32). -/
def tryEvict (s : State) : State :=
  if s.wk.vatWait.isEmpty || (freeSlot s).isSome then s
  else match (s.wk.vats.map (·.1)).find? (fun v => (s.vat v).expired && evictable s v) with
    | some v => evict v s
    | none => match lruVat s with
      | some v => evict v s
      | none => s

/-- Vat v waits for a slot no longer; when no vat waits, the waiting period ends, and with it every stop that slot time has
brought (R32). -/
def leaveWait (v : Nat) (s : State) : State :=
  let l := s.wk.vatWait.filter (· ≠ v)
  { s with
    wk.vatWait := l
    wk.vats := if l.isEmpty then s.wk.vats.map (fun x => (x.1, { x.2 with expired := false })) else s.wk.vats }

/-- Vat v needs a slot: it waits in its turn (R32). -/
def needSlot (v : Nat) (s : State) : State :=
  if (s.vat v).slot.isSome || s.wk.vatWait.contains v || (s.vat v).st = .free then s
  else { s with
      wk.waitStart := if s.wk.vatWait.isEmpty then s.tm.deviceTime else s.wk.waitStart
      wk.vatWait := s.wk.vatWait ++ [v] } |> tryEvict

/-! ### Freezing (R122) -/

/-- Hoops of a function. -/
def hoopsOf (s : State) (f : Fn) : List Nat := hoopsWith s (fun x => x.fn = f)

/-- Whether the vats of f have no page request outstanding. -/
def noPageReqs (s : State) (f : Fn) : Bool := s.wk.vats.all (fun v => v.2.fn ≠ f || v.2.st = .free || v.2.prOut = 0)

/-- Whether every head and event record of f is written: nothing of them waits for a translation, a line or an answer (R122). -/
def allWritten (s : State) (f : Fn) : Bool :=
  (hoopsOf s f).all (fun h => ((s.hoop h).head = (s.hoop h).pub || (s.hoop h).ringFault) && (s.hoop h).recsDue.isEmpty &&
    !waitsFor s (.head h)) &&
  s.ev.heldRecs.all (fun r => (s.evq r.1).fn ≠ f)

/-- A FREEZING function whose work is complete publishes its heads and becomes FROZEN once they and its records are written;
FREEZE completes OK (R122). -/
def tryFrozen (f : Fn) (s : State) : State :=
  if (s.fnS f).vfState = .freezing && noPageReqs s f
      && (hoopsOf s f).all (fun h => !(s.hoop h).entries.any inFlight) then
    let s := forAll (hoopsOf s f) publishHead s
    if allWritten s f then
      let by_ := (s.fnS f).freezeBy
      let s := modFnS f (fun x => { x with vfState := .frozen, freezeBy := none }) s
      match by_ with
      | some a => adminEnd a .ok s
      | none => s
    else s
  else s

/-! ### Page requests that nothing needs any more (R51, R213) -/

/-- One page request of a vat is no longer outstanding (R34). -/
def pageGone (v : Nat) (s : State) : State :=
  if tabHas s.wk.vats v then modVat v (fun x => { x with prOut := x.prOut - 1 }) s else s

/-- Cancel the page requests that satisfy p: their indices stay in use until freed, those waiting for one go (R51, R213). -/
def cancelPages (p : PageReq → Bool) (s : State) : State :=
  let gone := s.xl.pageReqs.filter (fun r => p r && !r.dead)
  forAll gone (fun r => pageGone r.vat) { s with
    xl.pageReqs := s.xl.pageReqs.map (fun r => if p r then { r with dead := true } else r)
    xl.pageWait := s.xl.pageWait.filter (fun r => !p r) }

/-- Whether something of a vat still needs the page of a page request: an entry, a ring, a head word, a fence wait, or
an event hoop's ring. -/
def pageNeeded (s : State) (r : PageReq) : Bool :=
  let page := r.va.toNat / 4096 * 4096
  let hs := hoopsWith s (fun x => x.vat = r.vat)
  hs.any (fun h =>
    let x := s.hoop h
    overlap page 4096 x.ringBase (64 * 2 ^ x.log2) || overlap page 4096 x.headAddr 8 ||
    x.entries.any (fun e => (rangePages s h e).any (fun p => p.1 / 4096 * 4096 = page))) ||
  s.ev.evhoops.any (fun e => e.2.vat = some r.vat && overlap page 4096 e.2.ringBase (32 * 2 ^ e.2.log2))

/-- The device virtual address that uses a cached host page (R193). -/
def xlatVa (x : Xlat) : Nat := (x.port.getD 0 + 1) * 2 ^ 58 + x.page % 2 ^ 57

/-- Page requests whose entries have ended for another cause are cancelled (R213); a page under U = 1 is forgotten once nothing
needs it (R203). -/
def trimPages (s : State) : State :=
  let gone := (s.xl.pageReqs ++ s.xl.pageWait).filter (fun r => !r.dead && !pageNeeded s r)
  let s := if gone.isEmpty then s else cancelPages (fun r => !r.dead && gone.contains r) s
  { s with xl.xlats := s.xl.xlats.filter (fun x =>
      !(x.untrans && !x.stopped && !pageNeeded s { vat := x.vat, va := BitVec.ofNat 64 (xlatVa x) })) }

/-! ### Completion of a data entry (R70) -/

/-- The ENTRY_DONE record of an entry (R72). -/
def entryDoneRec (h : Nat) (x : Hoop) (e : Entry) : EvRec :=
  { cookie := e.cookie, kind := 0x01, status := e.status.code, source := h, fn := BitVec.ofNat 16 (funcId x.fn)
    vat := x.vat, detail := e.epoch.toNat * 65536 + e.idx.toNat % 65536, isrc := some h }

/-- The record that a completed entry posts, if any: the FENCE_SIGNALLED record of a FENCE_WAIT that EVENT armed and that
ends OK (R42, R104; log entry 32), else ENTRY_DONE with EVENT set or a status other than OK (R72), or under RING_FAULT (R80). -/
def entryRec (h : Nat) (x : Hoop) (e : Entry) : Option EvRec :=
  if e.status = .ok && e.sig.isSome then e.sig
  else if x.ringFault || e.status ≠ .ok || (e.event && e.opcode ≠ 0x0B) then some (entryDoneRec h x e)
  else none

/-- Whether an entry in flight of function f runs the recipe under a handle (R152). -/
def recipeBusy (s : State) (f : Fn) (handle : Nat) : Bool :=
  s.wk.hoops.any (fun h => h.2.present && h.2.fn = f && h.2.entries.any (fun e =>
    inFlight e && (e.opcode = 0x05 || e.opcode = 0x06 || e.opcode = 0x07) && e.subop = handle))

/-- A recipe whose unloading was accepted goes once no entry in flight runs it: its cells are free, and UNLOAD_RECIPE
completes OK (R152). -/
def tryUnload (f : Fn) (s : State) : State :=
  match s.wk.recipes.find? (fun r => r.fn = f && r.unloadBy.isSome && !recipeBusy s f r.handle) with
  | none => s
  | some r =>
    let s := { s with wk.recipes := s.wk.recipes.filter (fun x => !(x.fn = f && x.handle = r.handle)) }
    match r.unloadBy with
    | some a => adminEnd a .ok s
    | none => s

/-- An entry that a lost replica waited for has ended; after the last, the replica's cells are free (R161). -/
def freeReplica (u : Nat × W32) (x : Replica) : Replica :=
  if x.alive then x
  else
    let l := x.users.filter (· ≠ u)
    if l.isEmpty then { alive := false } else { x with users := l }

/-- Steps 4 and 5 of R70 and what follows a completion: the head moves and is published under R71, the record is posted,
the journal record and a launch tag are freed (R75, R325), the counters count (R441, R442), and a vat, function or hoop that waited for it goes
on (R31, R77, R122, R152). -/
def retireEntry (h : Nat) (e : Entry) (s : State) : State :=
  let x := s.hoop h
  let s := s
    |> modHoop h (fun x => advanceHead 65 { x with
        entries := x.entries.filter (fun y => y.idx ≠ e.idx), doneAhead := x.doneAhead ++ [e.idx] })
    |> dropReqs (reqOfEntry h e.idx)
  let s := { s with
    wk.journals := s.wk.journals.filter (fun j => j.2.key ≠ .entry h e.idx)
    lk.acd := s.lk.acd.map (fun p => (p.1, { p.2 with
      launches := p.2.launches.filter (fun l => !(l.2.hoop = h && l.2.idx = e.idx)) })) }
  let s := s
    |> modFnS x.fn (fun f => { f with entriesDone := f.entriesDone + 1 })
    |> modWheel (hoopWheel s h) (fun w => { w with entries := w.entries + 1 })
    |> when (e.status = .partialDone) (vatFault x.vat .partial_ 0 0)
  let y := s.hoop h
  let due := decide (y.head ≠ y.pub) && (e.fence || decide (y.pubCount ≤ (y.head - y.pub).toNat))
  let l := (entryRec h y e).toList
  let s := if due || !y.recsDue.isEmpty then s |> modHoop h (fun x => { x with recsDue := x.recsDue ++ l }) |> when due (publishHead h)
    else s |> when (y.head ≠ y.pub) (modHoop h (fun x => { x with pubTimer := true })) |> forAll l (postRec y.evq)
  { s with
    xl.held := s.xl.held.filter (fun g => !(g.hoop = h && g.idx = e.idx))
    wk.recipes := s.wk.recipes.map (fun r => { r with replicas := r.replicas.map (freeReplica (h, e.idx)) }) }
    |> trimPages |> tryEvict |> tryFrozen x.fn |> tryUnload x.fn |> tryIdle h

/-- A hoop's result or status that reaches it under another epoch goes to whey (R73). -/
def toWhey (h : Nat) (s : State) : State :=
  modHoop h (fun x => { x with whey := if x.whey = 0xFFFFFFFF then x.whey else x.whey + 1 }) s

/-- Write the status words of entry e at location pa of its ring slot: the segment map, where there is one, then the status
(R57, R70). -/
def writeStatus (h : Nat) (e : Entry) (pa : Nat) (s : State) : State :=
  let x := s.hoop h
  let put (off v : Nat) (s : State) : State :=
    ctrlWrite (.status h e.idx) (vatWheel s x.vat) (tcOf s h) (pa + off) (natLe 8 v) x.epoch s
  s |> when e.segmap (put 40 (segMap e)) |> put 56 (statusWord e.status e.segmap (e.segs.length - 1) e.done)

/-- Steps 2 and 3 of R70 for an entry that is to complete, then the rest. A status word waits for its translation, for its
line and for its target's answer; one that cannot be written is dropped, and the hoop stops (R80); one that comes under a
superseded epoch goes to whey (R73); one of a vat that is being torn down is left to the teardown (R50). -/
def tryFinish (h : Nat) (i : W32) (s : State) : State :=
  match entryOf s h i with
  | none => s
  | some e =>
    let x := s.hoop h
    if e.phase ≠ .finishing || tornDown s h || waitsFor s (.push h i) then s
    else if x.migrating || e.epoch ≠ x.epoch then s |> modEntry h i (fun e => { e with phase := .diverted }) |> toWhey h
    else
      let s := askXlate (sliceOf h) x.vat (slotAddr x i) .write s
      match lookupIn (some (sliceOf h)) s x.vat (slotAddr x i) .write with
      | .miss => s
      | .fault c => s |> stopOnXlate h c (slotAddr x i) |> retireEntry h e
      | .ok pa =>
        if pa < 2 ^ 64 && !homeUp s (homeOf pa) then s |> stopHoop h |> retireEntry h e
        else match ownedGate (.status h i) x.vat (slotAddr x i + 40) (pa + 40) 24 s with
          | (false, t) => t
          | (true, t) =>
            let t := writeStatus h e pa t
            if waitsFor t (.status h i) then modEntry h i (fun e => { e with phase := .written }) t else retireEntry h e t

/-- The target has answered a status word of entry i: with all of them answered, the entry is complete (R70). -/
def statusAnswered (h : Nat) (i : W32) (s : State) : State :=
  match entryOf s h i with
  | none => s
  | some e => if e.phase = .written && !waitsFor s (.status h i) then retireEntry h e s else s

/-- The target of entry i's status word answers with an error: the hoop stops, and the entry is complete (R80). -/
def statusFails (h : Nat) (i : W32) (s : State) : State :=
  s |> stopHoop h |> dropOwner (.status h i) |> statusAnswered h i

/-- The target has answered the head word of hoop h: a head that has moved since is published in its turn (R70, R71). -/
def headAnswered (h : Nat) (s : State) : State :=
  if waitsFor s (.head h) then s
  else s |> (if (s.hoop h).pubDue then publishHead h else headOver h) |> tryFrozen (s.hoop h).fn

/-- Device virtual addresses that an entry writes data at: its destination, an ATOMIC's old value, the ranges of STS and STC
nodes, and the page list of PREFETCH and ADVISE; PCIe AtomicOps are answered and need no push (R88, R102, R106, R142). -/
def writesAt (s : State) (h : Nat) (e : Entry) : List Nat :=
  if e.opcode = 0x09 then (if e.flag 1 then [e.src.toNat] else [])
  else if e.opcode = 0x0C || e.opcode = 0x0D then (if e.operand = 0 then [] else [e.operand.toNat])
  else if [0x05, 0x06, 0x07].contains e.opcode then
    (if e.opcode = 0x07 then [] else [e.dst.toNat]) ++
      (extentRanges (entryImage s h e) e).filterMap (fun r => if r.2.2 = .write then some r.1 else none)
  else if [0x01, 0x02, 0x03, 0x04, 0x08, 0x89, 0x8A].contains e.opcode then [e.dst.toNat]
  else []

/-- The host ports that an entry has written through, other than the one that carries its status word (R235). -/
def pushPorts (s : State) (h : Nat) (e : Entry) : List Nat :=
  if (e.phase = .started || e.phase = .agreeing) && (128 ≤ e.opcode || e.segs.any (fun g => g = .done || g = .failed)) then
    (writesAt s h e).filterMap (fun a => match regionOf a with
      | .window p => if regionOf (slotAddr (s.hoop h) e.idx) ≠ .window p && homeUp s (.host p) then some p else none
      | _ => none)
  else []

/-- Decide the outcome of an entry and write it, once a zero-length read on every other host port that it wrote through has
been answered (R235). An entry of a vat that is being torn down is left to the teardown (R50). -/
def decideEntry (h : Nat) (i : W32) (st : Status) (seg : Bool) (done : Nat) (s : State) : State :=
  if tornDown s h then s else
  let ps := dedup ((entryOf s h i).elim [] (pushPorts s h))
  s |> modEntry h i (fun e => { e with phase := .finishing, status := st, segmap := seg, done := done })
    |> forAll ps (fun p => addReq (.host p) (.push h i) .read (hostLoc p 0) 0 (s.hoop h).epoch)
    |> tryFinish h i

/-! ### Agreement (R265 to R267) -/

/-- The enabled group of a hoop; one that is ending and has left READY binds no more. -/
def groupOf (s : State) (h : Nat) : Option Nat :=
  (s.pr.colls.find? (fun g => g.2.enable && !(g.2.ending && !g.2.ready) && g.2.hoop = h)).map (·.1)

/-- INSTANCE of a group's current instance: INSTANCE of the register counts its closing entry once that has started
(R266, R273). -/
def curInst (x : Coll) : Nat := if x.cur.isSome then x.inst - 1 else x.inst

/-- The agreed status of a set of reports (R267): THERMAL_TIMEOUT, else PEER_LOST, else OK. -/
def agreeOf (l : List Nat) : Nat := if l.contains 0x41 then 0x41 else if l.contains 0x40 then 0x40 else 0

/-- The status of an agreed code. -/
def agreedStatus (c : Nat) : Status := if c = 0x41 then .thermalTimeout else if c = 0x40 then .peerLost else .ok

/-- A control packet of a group to a node (R253, R254). -/
def collPkt (s : State) (g dst payload : Nat) (n : Nat) : Pkt :=
  { tc := 0, hops := 0, dst := dst, src := s.pr.nodeId, fdom := 0, tag := 0, len := n, wide := false, atop := 0
    reason := 0, offset := (s.coll g).tag * 2 ^ 30 + curInst (s.coll g), payload := natLe n payload }

/-- Send a control packet through the first hop of its group's wheel, where there is one. -/
def sendColl (type g dst payload n : Nat) (s : State) : State :=
  match firstHop s (s.coll g).wheel dst with
  | some p => sendPacket p type (collPkt s g dst payload n) s
  | none => s

/-- Write the closing entry's status: its own where that is not OK, the agreed one otherwise (R266); the next instance
begins. -/
def closeInstance (g c : Nat) (s : State) : State :=
  let x := s.coll g
  let s := modColl g (fun x => { x with reports := [], reported := false, agreed := none, closing := none, cur := none }) s
  match x.closing with
  | none => s
  | some i =>
    match entryOf s x.hoop i with
    | none => s
    | some e =>
      let st := if e.status = .ok then agreedStatus c else e.status
      decideEntry x.hoop i st e.segmap e.done s

/-- Go on with the agreement of group g's current instance: report to the parent, or decide at the root, once all
children have reported or some report is not OK (R266). -/
def collProgress (g : Nat) (s : State) : State :=
  let x := s.coll g
  if !x.enable then s
  else match x.agreed with
    | some c => if x.closing.isSome then closeInstance g c s else s
    | none =>
      if !x.ready || x.reported || !(tabHas x.reports s.pr.nodeId) then s
      else
        let vals := x.reports.map (·.2)
        let kids := x.reports.filter (fun r => r.1 ≠ s.pr.nodeId && r.1 < 2 ^ 13)
        if x.children ≤ kids.length || vals.any (· ≠ 0) then
          let c := agreeOf vals
          if x.root then
            let s := forAll x.joins (fun n => sendColl 0x12 g n c 8) s
            let s := modColl g (fun x => { x with agreed := some c, reported := true }) s
            if x.closing.isSome then closeInstance g c s else s
          else s |> sendColl 0x11 g x.parent c 8 |> modColl g (fun x => { x with reported := true })
        else s

/-- This member's report for the current instance: the worse of what it had and c (R266, R267). -/
def ownReport (g c : Nat) (s : State) : State :=
  modColl g (fun x => { x with
    reports := tabSet x.reports s.pr.nodeId (agreeOf [tabGet 0 x.reports s.pr.nodeId, c]) }) s

/-- An entry whose own work has ended: a closing entry of a collective waits for agreement, to which its own status is no report
(R266), every other entry completes (R70). -/
def finishEntry (h : Nat) (i : W32) (st : Status) (seg : Bool) (done : Nat) (s : State) : State :=
  if tornDown s h then s else
  match groupOf s h, entryOf s h i with
  | some g, some e =>
    let bad := st = .peerLost || st = .thermalTimeout
    if e.fence && inFlight e then
      s |> modEntry h i (fun e => { e with phase := .agreeing, status := st, segmap := seg, done := done })
        |> modColl g (fun x => { x with closing := some i })
        |> ownReport g 0 |> collProgress g
    else s |> when bad (modColl g (fun x => { x with
          reports := tabSet x.reports (2 ^ 13) (agreeOf [tabGet 0 x.reports (2 ^ 13), st.code]) }))
        |> decideEntry h i st seg done
  | _, _ => decideEntry h i st seg done s

end Sys2Proof.Machine
end

