-- ==== Sys2Proof/Machine/Entries.lean ====
section
/-! DEFINITION. Entries before they start: the checks of R65 in order, the reading of the entry's own inputs, pre-translation
of its range list (R207, R208), the conditions of its start (R67) and the choice of its hoop engine (R69). -/

namespace Sys2Proof.Machine

open Sys2Proof

/-! ### From fetched to ready -/

/-- An entry fails before it starts: it completes with the status and DONE_BYTES 0 (R66). A closing entry of a collective
keeps its status until its turn to start (R266). -/
def failEntry (h : Nat) (i : W32) (st : Status) (seg : Bool) (s : State) : State :=
  match entryOf s h i with
  | none => s
  | some e =>
    if e.fence && (groupOf s h).isSome then
      modEntry h i (fun e => { e with phase := .ready, status := st, segmap := seg }) s
    else decideEntry h i st seg 0 s

/-- Status of a translation failure (R205). -/
def causeStatus (cause : Nat) : Status := if cause = 0x10 then .rindViolation else .xlateFault

/-- A target of an entry's own inputs fails before any byte moves: PARTIAL, SEGMAP 1 and a map of 0, or PEER_LOST where a
node is lost and nothing was sent to it (R115, R208, R264). -/
def failInput (h : Nat) (i : W32) (c : FailCause) (s : State) : State :=
  let (st, seg) := failStatus c false
  s |> when seg (modEntry h i (fun e => { e with segs := List.replicate (segCount s h e) .todo }))
    |> failEntry h i st seg

/-- The last checks once every page of the range list has been found good, R250's among them; the entry is then ready and
needs a slot (R31, R208). That checks 1 to 4 of R111 come after pre-translation is DEDUCED (log entry 120): they are among
the checks whose operands its pages hold. -/
def checkFinal (h : Nat) (i : W32) (s : State) : State :=
  match entryOf s h i with
  | none => s
  | some e =>
    let v := (s.hoop h).vat
    match lateCheck s h e with
    | some st => failEntry h i st false s
    | none =>
      if !s.pr.nodeValid && (rangePages s h e).any (fun r => match lookup s v r.1 r.2 with
          | .ok pa => isPeerPart { va := r.1, pa := pa, len := 1, need := r.2 }
          | _ => false)
      then failEntry h i .peerLost false s
      else s |> modEntry h i (fun e => { e with phase := .ready }) |> takeHolds (sliceOf h) |> needSlot v

/-- Checks on inputs once they are read: bases of LDS, STS, LDR and STC are aligned to their extent (R142), a REDUCE's
destination overlaps no operand (R97), an ACCUMULATE's region is aligned and in the window (R136). -/
def inputCheck (s : State) (h : Nat) (e : Entry) : Option Status :=
  let img := entryImage s h e
  if isRecipeOp e.opcode && !(extentRanges img e).all (fun r => r.1 % r.2.1 = 0) then some .malformed
  else if e.opcode = 0x06 &&
      e.opsRead.any (fun a => overlap e.dst.toNat (outBytes img e) a.toNat e.length) then some .malformed
  else if e.opcode = 0x07 && !regionOk (rAccKind img = 2) e.dst.toNat (accSlots img e) then some .malformed
  else none

/-- Why an input of the entry cannot be read: a lost node, or another target that is out of reach or poisoned (R208, R264). -/
def inputFailure (s : State) (h : Nat) (e : Entry) : Option FailCause :=
  let v := (s.hoop h).vat
  let rs := inputRanges s h e
  match rs.findSome? (fun r => (vhomes s v r.1 r.2 .read).findSome? (failHome s)) with
  | some c => some c
  | none => if rs.any (fun r => vpoisoned s v r.1 r.2) then some .target else none

/-- Read the entry's inputs, which are then known (R93, R95, R97, R106). -/
def withInputs (s : State) (h : Nat) (e : Entry) : Entry :=
  let v := (s.hoop h).vat
  let ptr := isRecipeOp e.opcode && e.flag 0
  { e with
    inputs := 2
    params := if ptr then qwords 8 (vread s v e.operand.toNat 64)
      else if isRecipeOp e.opcode then [e.operand] else []
    opsRead := if e.opcode = 0x06 then qwords e.rowBytes (vread s v e.src.toNat (8 * e.rowBytes)) else []
    idxRead := if e.opcode = 0x03 || e.opcode = 0x04 then
      (List.range e.elems).map (fun k => vreadNat s v (e.operand.toNat + k * e.idxWidth) e.idxWidth) else []
    pages := if isTier e then qwords (tierPages s h e).length (vread s v e.operand.toNat (listBytes s h e)) else [] }

/-- The check of an entry's range list as far as its inputs are known (R207, R208): a range that leaves its region fails at
once (R89, R219); then the pages in order, at most 256 missing ones being translated at a time (R23); go on with f once all
of them are good. -/
def checkPages (h : Nat) (i : W32) (f : State → State) (s : State) : State :=
  match entryOf s h i with
  | none => s
  | some e =>
    let v := (s.hoop h).vat
    match rangeLeaves s h e with
    | some va => s |> vatFault v .xlate 0x06 va |> failEntry h i .xlateFault false
    | none =>
      let s := takeHolds (sliceOf h) s
      let l := rangePages s h e
      let ((n, o), s) := checkOn (sliceOf h) v (elemSpan e) (l.drop e.checked) e.checked s
      let s := modEntry h i (fun e => { e with checked := n }) s
      match o with
      | .wait => s
      | .fault va c => s |> vatFault v (causeBit c) c va |> failEntry h i (causeStatus c) false
      | .ok => f s

/-- The entry's inputs have arrived, or need no request: they are read, checked, and the rest of its range list follows. -/
def readInputs (h : Nat) (i : W32) (s : State) : State :=
  match entryOf s h i with
  | none => s
  | some e =>
    match inputFailure s h e with
    | some c => failInput h i c s
    | none =>
      let e' := withInputs s h e
      let s := modEntry h i (fun _ => e') s
      match inputCheck s h e' with
      | some st => failEntry h i st false s
      | none => checkPages h i (checkFinal h i) s

/-- Ask for the parts of the entry's inputs that lie behind ports and nodes (R208, R265): the peer's in the class of its
hoop. -/
def askInputs (h : Nat) (i : W32) (e : Entry) (s : State) : State :=
  let x := s.hoop h
  let ps := (inputRanges s h e).flatMap (fun r => (pagesOf r.1 r.2).filterMap (fun a =>
    let (lo, k) := pagePart r.1 r.2 a
    match lookup s x.vat lo .read with
    | .ok pa => some (pa, k)
    | _ => none))
  forAll ps (fun p t => match homeOf p.1 with
    | .peer _ => sendPeer (vatWheel t x.vat) (tcOf t h) (.input h i) .read p.1 p.2 0 false false [] x.epoch t
    | g => match tgtOf g with
      | some u => addReq u (.input h i) .read p.1 p.2 x.epoch t
      | none => t) s

/-- An INVALIDATE entry stands before entry i in hoop h: its pre-translation waits (R217). -/
def invalidateAhead (s : State) (h : Nat) (i : W32) : Bool :=
  ((s.hoop h).entries.takeWhile (fun e => e.idx ≠ i)).any (fun e => e.opcode = 0x0F)

/-- The check process of an entry (R207, R208), as far as it can go now; none while its hoop moves (R73), its vat is torn
down (R50) or its function is not RUNNING (R121, R122). -/
def checkEntry (h : Nat) (i : W32) (s : State) : State :=
  match entryOf s h i with
  | none => s
  | some e =>
    if e.phase ≠ .checking || (s.hoop h).migrating || tornDown s h || invalidateAhead s h i ||
        (s.fnS (s.hoop h).fn).vfState ≠ .running then s
    else if e.inputs = 2 then checkPages h i (checkFinal h i) s
    else if waitsFor s (.input h i) then s
    else checkPages h i (fun s =>
      if e.inputs = 1 || (inputFailure s h e).isSome then readInputs h i s
      else
        let s := s |> modEntry h i (fun e => { e with inputs := 1 }) |> askInputs h i e
        if waitsFor s (.input h i) then s else readInputs h i s) s

/-- Validation of an entry that has arrived with OWN = 1 (R65): checks 2 to 5, then the check process. -/
def validate (h : Nat) (i : W32) (s : State) : State :=
  match entryOf s h i with
  | none => s
  | some e =>
    match checks s h e with
    | some st => failEntry h i st false s
    | none => { s with wk.orderStamp := s.wk.orderStamp + 1 }
        |> modEntry h i (fun e => { e with phase := .checking, order := s.wk.orderStamp }) |> checkEntry h i

/-! ### Start (R67) -/

/-- Whether an entry takes a journal record (R75, R100, R112). -/
def needsJournal (e : Entry) : Bool :=
  e.opcode = 0x09 || e.opcode = 0x07 || e.opcode = 0x0E || (e.opcode = 0x08 && e.flag 0)

/-- Quadrant of a hoop. -/
def quadOf (h : Nat) : Nat := h / 4096

/-- Whether an entry holds a journal record already, as one that runs again does (R74, R75). -/
def holdsJournal (s : State) (h : Nat) (i : W32) : Bool := s.wk.journals.any (fun j => j.2.key = .entry h i)

/-- Whether entry i of hoop h is startable (R31, R32, R67, R75, R121, R265). At most 32 entries are in flight, counted as
started and not complete (DEDUCED, log entry 121); a record is taken from the hoop's own quadrant (DEDUCED, log entry 122);
an entry fetched before RING_FAULT set still starts, and IDLE waits for it (DEDUCED from R80, log entry 123). -/
def startable (s : State) (h : Nat) (i : W32) : Bool :=
  let x := s.hoop h
  let v := s.vat x.vat
  let before := x.entries.takeWhile (fun e => e.idx ≠ i)
  match entryOf s h i with
  | none => false
  | some e =>
    x.present && e.phase = .ready && !x.migrating && !sliceSafe s (sliceOf h) &&
    before.all (fun b => (inFlight b || b.phase = .finishing || b.phase = .written) && !b.fence && b.opcode ≠ 0x0B) &&
    ((!e.fence && e.opcode ≠ 0x0A) || (before.isEmpty && x.head = i)) &&
    inFlightCount x < 32 && v.slot.isSome && !v.expired && v.st ≠ .aborting &&
    (!isVf x.fn || (s.fnS x.fn).vfState = .running) &&
    ((groupOf s h).elim true (fun g => (s.coll g).ready || e.status ≠ .ok)) &&
    (!needsJournal e || holdsJournal s h i || (s.wk.journals.filter (fun j => j.1 = quadOf h)).length < 4096)

/-! ### The choice of a hoop engine (R69, R424) -/

/-- The logical hoop engine of a hoop: one serves two slices (R11). -/
def engineOf (h : Nat) : Nat := sliceOf h / 2

/-- What engine k keeps. -/
def State.engine (s : State) (k : Nat) : Engine := tabGet {} s.wk.engines k

/-- The hoops of engine k that have a startable entry. -/
def contenders (s : State) (k : Nat) : List Nat :=
  hoopsWith s (fun x => x.entries.any (fun e => e.phase = .ready)) |>.filter (fun h => engineOf h = k &&
    (s.hoop h).entries.any (fun e => startable s h e.idx))

/-- Starts of others that hoop h can still let pass: with its own it makes 1,024 (R69). -/
def slack (s : State) (h : Nat) : Nat := 1023 - (s.hoop h).passed

/-- Whether the bound of 1,024 starts leaves no room: within some number of starts, as many contenders must have started. -/
def pressed (s : State) (l : List Nat) : Bool :=
  l.any (fun g => slack s g < (l.filter (fun q => slack s q ≤ slack s g)).length)

/-- WEIGHT of a wheel, from 1 to 255 (R424). -/
def weightOf (s : State) (w : Nat) : Nat := max 1 (s.wheel w).weight

/-- Starts left to a wheel in the current round of engine k; a round in which no contending wheel has a start left gives way
to the next (R424). -/
def startsLeft (s : State) (k : Nat) (l : List Nat) (w : Nat) : Nat :=
  let left (w : Nat) : Nat := tabGet (weightOf s w) (s.engine k).left w
  if l.all (fun g => left (hoopWheel s g) = 0) then weightOf s w else left w

/-- How recently an engine started an entry of hoop h: 0 for never. -/
def servedAt (x : Engine) (h : Nat) : Nat := if x.served.contains h then x.served.idxOf h + 1 else 0

/-- Whether it is hoop h's turn on its engine (R69, R424): where the bound of 1,024 starts presses, the hoop with the least
slack; else a wheel with a start left in this round, and of its hoops the one not started for longest (the order within a
round, and that the earliest deadline goes first, are a DESIGN CHOICE: log entry 124). -/
def inTurn (s : State) (h : Nat) : Bool :=
  let k := engineOf h
  let l := contenders s k
  if pressed s l then l.all (fun g => slack s h ≤ slack s g)
  else decide (0 < startsLeft s k l (hoopWheel s h)) &&
    (l.filter (fun g => hoopWheel s g = hoopWheel s h)).all (fun g => servedAt (s.engine k) h ≤ servedAt (s.engine k) g)

/-- Hoop h has had its turn: its wheel's start is spent, it goes to the end of the round-robin, and every other contender
has let one more start pass (R69, R424). -/
def takeTurn (h : Nat) (s : State) : State :=
  let k := engineOf h
  let l := contenders s k
  let ws := dedup (l.map (hoopWheel s))
  let left := ws.map (fun w => (w, startsLeft s k l w - (if w = hoopWheel s h then 1 else 0)))
  let others := (hoopsWith s (fun _ => true)).filter (fun g => engineOf g = k && g ≠ h)
  let eng : Engine := { left := left, served := (s.engine k).served.filter (· ≠ h) ++ [h] }
  let s := { s with wk.engines := tabSet s.wk.engines k eng }
  s |> forAll others (fun g => modHoop g (fun x => { x with passed := if l.contains g then x.passed + 1 else 0 }))
    |> modHoop h (fun x => { x with passed := 0 })

/-- Whether entry i of hoop h may start now: it is startable, and it is its hoop's turn (R67, R69). -/
def canStart (s : State) (h : Nat) (i : W32) : Bool := startable s h i && inTurn s h

/-- Whether a hold that has lasted 500 ms stands at a port of a group's wheel (R271). -/
def holdExpired (s : State) (g : Nat) : Bool :=
  (List.range 4).any (fun q => (s.acd q).holdTimedOut && acdWheelOf s q = (s.coll g).wheel)

/-- An instance that starts while such a hold lasts is reported THERMAL_TIMEOUT at once (R271). -/
def reportHold (g : Nat) (s : State) : State :=
  if holdExpired s g && !tabHas (s.coll g).reports s.pr.nodeId then s |> ownReport g 0x41 |> collProgress g else s

/-- Entry i of hoop h starts: the Harp cuts it into segments and takes its slices (R67, R113, R114). When a closing entry of a
collective starts, the entries before it are complete, and the member reports (R67, R266). -/
def startEntry (h : Nat) (i : W32) (s : State) : State :=
  let x := s.hoop h
  match entryOf s h i with
  | none => s
  | some e =>
    let n := segCount s h e
    let s := takeTurn h s
    let s := { s with
      wk.useStamp := s.wk.useStamp + 1
      wk.journals := if needsJournal e && !holdsJournal s h i
        then s.wk.journals ++ [(quadOf h, { key := .entry h i })] else s.wk.journals }
      |> modVat x.vat (fun v => { v with lastUse := s.wk.useStamp + 1 })
      |> modEntry h i (fun e => { e with
          phase := .started, begun := true, segs := List.replicate n .todo, segDone := List.replicate n 0
          slices := usableSlices s h e, epoch := x.epoch })
    let s := match groupOf s h with
      | some g => s |> when (e.fence && (s.coll g).cur ≠ some i)
          (modColl g (fun c => { c with inst := (c.inst + 1) % 2 ^ 30, cur := some i })) |> reportHold g
          |> when e.fence (fun s => s |> ownReport g 0 |> collProgress g)
      | none => s
    if e.status ≠ .ok then finishEntry h i e.status e.segmap 0 s else holdPages (sliceOf h) s

end Sys2Proof.Machine
end

