-- ==== Sys2Proof/Machine/Rings.lean ====
section
/-! DEFINITION. Rings as shared operations: requests, doorbells, fetch, own re-reads, the start of entries, the move of a
hoop and its resumption, and the admin hoop's checks (R54 to R84, R492). -/

namespace Sys2Proof.Machine

open Sys2Proof

/-! ### Doorbells (R61) -/

/-- Whether V is accepted as the new tail: 0 < V − T and V − H ≤ 2^LOG2_SIZE, V not behind T (R61; DEDUCED: V − T is at
most 2^LOG2_SIZE too, else V lies behind T). -/
def tailOk (log2 : Nat) (head tail v : W32) : Bool :=
  v ≠ tail && (v - tail).toNat ≤ 2 ^ log2 && (v - head).toNat ≤ 2 ^ log2

/-- Whether doorbells of a hoop are discarded with DB_WHILE_DISABLED (R61, R121, R391). -/
def dbDead (s : State) (h : Nat) : Bool :=
  let x := s.hoop h
  !x.enabled || sliceSafe s (sliceOf h) ||
    (isVf x.fn && ((s.fnS x.fn).vfState = .saving || (s.fnS x.fn).vfState = .restored))

/-- Whether doorbells of a hoop are discarded without trace: its vat is ABORTING (R50), its wheel is resetting (R423). -/
def dbGone (s : State) (h : Nat) : Bool := (s.vat (s.hoop h).vat).st = .aborting || (s.wheel (vatWheel s (s.hoop h).vat)).resetting

/-- Whether a doorbell with value V advances hoop h's tail (R61). -/
def dbTaken (s : State) (h : Nat) (v : W32) : Bool :=
  !dbDead s h && !dbGone s h && tailOk (s.hoop h).log2 (s.hoop h).head (s.hoop h).tail v

/-- The pushed copy of entry i (R63). -/
def pushedAt (x : Hoop) (i : W32) : Option (List W64) := (x.pushed.find? (fun p => p.1 = i)).map (·.2)

/-- Where fetching ends: at the accepted tail, or after RING_FAULT at the mark up to which a moved hoop still runs its
entries in flight again (R64, R74, R80). -/
def fetchEnd (x : Hoop) : W32 := if x.ringFault then x.resumeTo.getD x.fetchNext else x.tail

/-- Whether nothing more of hoop h is fetched now: at most 64 entries stand fetched beyond the head (R64). -/
def fetchDone (x : Hoop) : Bool :=
  !x.present || x.migrating || x.fetchNext = fetchEnd x || 64 ≤ (x.fetchNext - x.head).toNat

/-- The hoop's ring can be read no more: it stops, and what it would have run again is not fetched (R74, R80). -/
def ringStops (h : Nat) (s : State) : State := s |> stopHoop h |> modHoop h (fun x => { x with resumeTo := none })

/-- A translation of hoop h's ring fails (R80). -/
def ringXlateFails (h c va : Nat) (s : State) : State :=
  s |> modHoop h (fun x => { x with resumeTo := none }) |> stopOnXlate h c va |> tryIdle h

/-- Issue the fetch request for the next entries that were not pushed (R64). -/
def askRing (h : Nat) (s : State) : State :=
  let x := s.hoop h
  if fetchDone x || (pushedAt x x.fetchNext).isSome || waitsFor s (.ring (.data h)) then s
  else
    let s := askXlate (sliceOf h) x.vat (slotAddr x x.fetchNext) .read s
    match lookupIn (some (sliceOf h)) s x.vat (slotAddr x x.fetchNext) .read with
    | .miss => s
    | .fault c => ringXlateFails h c (slotAddr x x.fetchNext) s
    | .ok pa => match homeOf pa with
      | .peer _ => sendPeer (vatWheel s x.vat) (tcOf s h) (.ring (.data h)) .read pa
          (64 * min 16 (fetchEnd x - x.fetchNext).toNat) 0 false false [] x.epoch s
      | g => match tgtOf g with
        | some t => addReq t (.ring (.data h)) .read pa (64 * min 16 (fetchEnd x - x.fetchNext).toNat) x.epoch s
        | none => s

/-- A doorbell with value V on hoop h (R61). -/
def ringTail (h : Nat) (v : W32) (s : State) : State :=
  let x := s.hoop h
  if dbDead s h then modHoop h (fun x => { x with dbDisabled := true }) s
  else if dbGone s h || v = x.tail then s
  else if tailOk x.log2 x.head x.tail v then s |> modHoop h (fun x => { x with tail := v, idle := false }) |> askRing h
  else modHoop h (fun x => { x with tailRange := true }) s

/-- A whole 64-byte write of a push slot (R62, R63, R76). -/
def pushEntry (h slot : Nat) (w : List W64) (s : State) : State :=
  let x := s.hoop h
  if slot ≠ x.tail.toNat % 4 then modHoop h (fun x => { x with pushMismatch := true }) s
  else
    let taken := dbTaken s h (x.tail + 1)
    let s := when (taken && x.pushed.length < 4 && !x.migrating)
      (modHoop h (fun x => { x with pushed := x.pushed ++ [(x.tail, w)] })) s
    ringTail h (x.tail + 1) s

/-! ### Fetch (R64) -/

/-- The next entry to fetch follows entry i; the mark of a resumption is dropped once it is reached (R64, R74). -/
def fetched (i : W32) (x : Hoop) : Hoop :=
  { x with fetchNext := i + 1, resumeTo := if x.resumeTo = some (i + 1) then none else x.resumeTo }

/-- The entry at index i that eight words spell, of an epoch and, where the hoop resumes, run again (R64, R74). -/
def readEntry (i : W32) (ep : BitVec 8) (again : Bool) (w : List W64) : Entry := { entryOfWords i ep w with again := again }

/-- Take one entry's words as entry fetchNext: one up to the last entry started before a move whose status word shows OWN = 0
is complete (R74); one with OWN = 1 is validated (R65); one with OWN = 0 is re-read later (R64). A pushed copy whose own OWN
is 0 is dropped so, and its ring slot read in its place (DESIGN CHOICE, log entry 125: R63 does not say). -/
def takeWords (h : Nat) (w : List W64) (s : State) : State :=
  let x := s.hoop h
  let e := readEntry x.fetchNext x.epoch x.resumeTo.isSome w
  if !e.own && e.again then
    s |> modHoop h (fun x => advanceHead 65 { fetched e.idx x with doneAhead := x.doneAhead ++ [e.idx] })
      |> modHoop h (fun x => { x with pubTimer := x.pubTimer || x.head ≠ x.pub })
  else
    s |> modHoop h (fun x => { fetched e.idx x with
          entries := x.entries ++ [e], pushed := x.pushed.filter (fun p => p.1 ≠ e.idx) })
      |> when e.own (validate h e.idx)

/-- Up to n entries arrive, pushed copies among them; a failing read stops the hoop (R63, R64, R80). -/
def fetchEntries (h : Nat) : Nat → State → State
  | 0, s => s
  | n + 1, s =>
    let x := s.hoop h
    if fetchDone x then s
    else if x.doneAhead.contains x.fetchNext then fetchEntries h n (modHoop h (fetched x.fetchNext) s)
    else match pushedAt x x.fetchNext with
      | some w => fetchEntries h n (takeWords h w s)
      | none =>
        let s := askXlate (sliceOf h) x.vat (slotAddr x x.fetchNext) .read s
        match lookupIn (some (sliceOf h)) s x.vat (slotAddr x x.fetchNext) .read with
        | .miss => s
        | .fault c => ringXlateFails h c (slotAddr x x.fetchNext) s
        | .ok pa =>
          if !homeUp s (homeOf pa) || poisonedAt s pa 64 then s |> ringStops h |> tryIdle h
          else fetchEntries h n (takeWords h (qwords 8 (readBytes s pa 64)) s)

/-- Take the pushed copies that stand next in order (R63). -/
def takePushed (h : Nat) : Nat → State → State
  | 0, s => s
  | n + 1, s =>
    let x := s.hoop h
    if fetchDone x then s
    else match pushedAt x x.fetchNext with
      | some w => takePushed h n (takeWords h w s)
      | none => s

/-- The ring read of hoop h failed at its target (R80). -/
def ringFailed (h : Nat) (s : State) : State := s |> dropOwner (.ring (.data h)) |> ringStops h |> tryIdle h

/-- Re-read one entry fetched with OWN = 0: eight tries, then MALFORMED with OWN_TIMEOUT (R64). -/
def rereadEntry (h : Nat) (e : Entry) (s : State) : State :=
  let x := s.hoop h
  let s := askXlate (sliceOf h) x.vat (slotAddr x e.idx) .read s
  match lookupIn (some (sliceOf h)) s x.vat (slotAddr x e.idx) .read with
  | .miss => s
  | .fault c => ringXlateFails h c (slotAddr x e.idx) s
  | .ok pa =>
    if !homeUp s (homeOf pa) || poisonedAt s pa 64 then s |> ringStops h |> tryIdle h
    else
      let e' := readEntry e.idx e.epoch e.again (qwords 8 (readBytes s pa 64))
      if e'.own then s |> modEntry h e.idx (fun _ => e') |> validate h e.idx
      else if 8 ≤ e.ownTries + 1 then
        s |> modHoop h (fun x => { x with ownTimeout := true }) |> failEntry h e.idx .malformed false
      else modEntry h e.idx (fun e => { e with ownTries := e.ownTries + 1 }) s

/-! ### Moving a hoop (R73 to R76) -/

/-- Disarm the waits of a hoop (R39, R74, R122). -/
def disarmHoop (h : Nat) (s : State) : State :=
  { s with
    wk.watchers := (s.wk.watchers.map (fun w => (w.1, { w.2 with waits := w.2.waits.filter (fun x => x.hoop ≠ h) }))).filter
      (fun w => !w.2.waits.isEmpty)
    wk.polls := s.wk.polls.filter (fun w => w.2.waits.any (fun x => x.hoop ≠ h)) }

/-- The hoop's work moves from unit u: the epoch increments, the hoop reads MIGRATING and pushed copies are dropped
(R63, R73, R76). -/
def moveHoop (u : Unit_) (h : Nat) (s : State) : State :=
  modHoop h (fun x => { x with epoch := x.epoch + 1, migrating := true, oldUnit := some u, pushed := [] }) s

/-- One past the last entry started or complete, as an index: an earlier mark that is not yet reached stands (R74). -/
def startedTo (x : Hoop) : W32 :=
  let l := x.doneAhead ++ (x.entries.filter inFlight).map (·.idx)
  let n := l.foldl (fun m i => max m ((i - x.head).toNat + 1)) 0
  x.head + BitVec.ofNat 32 (max n (x.resumeTo.elim 0 (fun r => (r - x.head).toNat)))

/-- The new placement starts from the hardware head: entries up to mark r whose status word shows OWN = 0 are complete,
every other runs again from its beginning, then the rest (R74, R125). -/
def resumeHoop (r : W32) (h : Nat) (s : State) : State :=
  let x := s.hoop h
  let s := x.entries.foldl (fun t e => dropReqs (reqOfEntry h e.idx) t) s
  let s := s |> disarmHoop h |> dropOwner (.ring (.data h))
    |> modHoop h (fun x => { x with
        migrating := false, oldUnit := none, entries := [], pushed := [], doneAhead := [], fetchNext := x.head
        resumeTo := if r = x.head then none else some r })
  let s := match groupOf s h with
    | some g => modColl g (fun c => { c with closing := none }) s
    | none => s
  askRing h s

/-- Whether the old unit of a moving hoop has drained, or its gate has completed closure (R74). -/
def oldUnitDone (s : State) (x : Hoop) : Bool :=
  x.oldUnit.elim true (fun u => !s.rn.gates.contains u || s.rn.gatesClosed.contains u)

/-- A thawed function's hoops go on from their heads (R122, R125). A hoop that is still moving waits for its old unit and is
resumed by HOOP_RESUME (R74). The image of R123 holds no index of the last entry started, so a RESTORED hoop's mark is its
accepted tail (DESIGN CHOICE, log entry 126). -/
def thawFn (f : Fn) (s : State) : State :=
  let restored := decide ((s.fnS f).vfState = .restored)
  let s := modFnS f (fun x => { x with vfState := .running, freezeBy := none }) s
  forAll (hoopsOf s f) (fun h t =>
    let x := t.hoop h
    if x.migrating then t else resumeHoop (if restored then x.tail else startedTo x) h t) s

/-! ### Which hoop a page belongs to (R59, R462, R464) -/

/-- The data hoop whose doorbell page a function reaches under number n: hoop n for a physical function, slot n for a
virtual function; none where the page is not the function's to write, or the TLP is discarded (R291). -/
def pageHoop (s : State) (f : Fn) (n : Nat) : Option Nat :=
  if (s.fnS f).dstate3 || tlpDropped s (pfOf f) none then none
  else match f with
    | .pf _ => if (s.hoop n).present && (s.hoop n).fn = f && fnWheel s f = some (hoopWheel s n) then some n else none
    | .vf _ _ => (hoopsOf s f).find? (fun h => (s.hoop h).vfSlot = n && fnWheel s f = some (hoopWheel s h))
    | .bu => none

/-- A BAR access completes as Unsupported Request: without effect on the block, and with a record in the port's AER (R287,
R471). -/
def bar2Reject (f : Fn) (s : State) : State := s |> emit (.barUr f) |> when (pfOf f < 16) (emit (.aer (pfOf f) 4))

/-- Whether an access to doorbell page n completes as Unsupported Request: the function is in D3hot, or the page's slice is
outside its wheel (R413, R471). -/
def pageUr (s : State) (f : Fn) (n : Nat) : Bool :=
  !tlpDropped s (pfOf f) none && ((s.fnS f).dstate3 ||
  match f with
  | .pf _ => fnWheel s f ≠ some (hoopWheel s n)
  | .vf _ _ => (hoopsOf s f).any (fun h => (s.hoop h).vfSlot = n && fnWheel s f ≠ some (hoopWheel s h))
  | .bu => false)

/-- A write that a function makes to its own BAR0 block: an Unsupported Request in D3hot (R471). -/
def inD0 (f : Fn) (g : State → State) (s : State) : State :=
  fromHost f (fun s => if (s.fnS f).dstate3 then bar2Reject f s else g s) s

/-! ### The admin hoop (R82 to R84, R492) -/

/-- The admin hoop of a function: 0 to 15 of a physical function, 16 of the bring-up function. -/
def adminOf : Fn → Option Nat
  | .pf p => some p
  | .bu => some 16
  | .vf _ _ => none

/-- Admin opcodes that the bring-up function's admin hoop accepts (R308). -/
def buOpcode (op : Nat) : Bool := op = 0x89 || op = 0x8A || op = 0x8F || op = 0x90 || op = 0x92 || op = 0x93

/-- Whether admin hoop a accepts an opcode (R83, R308); in recovery the bring-up function's accepts no CALIBRATE and no
SELFTEST (R447). -/
def adminOpcodeOk (s : State) (a op : Nat) : Bool :=
  0x80 ≤ op && op ≤ 0x93 && (a ≠ 16 || buOpcode op) && !(s.tm.recovery && (op = 0x8F || op = 0x90))

/-- Admin opcodes without a parameter block (R118). -/
def noBlock (op : Nat) : Bool :=
  op = 0x81 || op = 0x82 || op = 0x84 || op = 0x86 || op = 0x89 || op = 0x8A || op = 0x8B || op = 0x8C || op = 0x8E || op = 0x93

/-- Length that the command fixes for its parameter block, where it fixes one (R119, R220, R357, R396, R414, R415). -/
def blockLen : Nat → Option Nat
  | 0x80 => some 32
  | 0x83 => some 144
  | 0x87 => some 16
  | 0x88 => some 32
  | 0x90 => some 16
  | _ => none

/-- Check 4 of R65 on an admin entry: reserved bits of the control word, flags, and the bits that R118 calls 0. -/
def adminReservedOk (e : Entry) : Bool :=
  let op := e.opcode
  let len := e.lenStride.toNat
  let opd := e.operand.toNat
  field e.control.toNat 63 48 = 0 && e.fenceVal = 0 &&
  (e.opflags = 0 || (e.opflags = 1 && (op = 0x83 || op = 0x8A))) &&
  (match op with
    | 0x80 => e.subop ≤ 1 && opd < 2 ^ 32
    | 0x81 => e.subop ≤ 1 && len < 2 ^ 14 && opd = 0
    | 0x82 => e.subop = 0 && len < 2 ^ 14 && opd = 0
    | 0x83 => e.dst = 0 && opd = 0 && e.subop = 0
    | 0x84 => len = 0 && opd = 0 && e.subop = 0
    | 0x85 => 1 ≤ e.subop && opd < 2 ^ 32
    | 0x86 => len = 0 && opd = 0
    | 0x87 => e.dst = 0 && opd = 0 && e.subop = 0
    | 0x88 => e.dst = 0 && opd = 0 && e.subop = 0
    | 0x89 => len = 0 && opd < 2 ^ 32 && e.subop = 0
    | 0x8A => len = 0 && opd < 2 ^ 32 && e.subop = 0
    | 0x8B => len = 0 && e.dst = 0 && field opd 15 0 = 0 && opd < 2 ^ 32 && e.subop = 0
    | 0x8C => field opd 15 0 = 0 && len < 2 ^ 40 && e.subop = 0
    | 0x8D => field opd 15 0 = 0 && len < 2 ^ 40 && e.subop = 0
    | 0x8E => len = 0 && field opd 15 0 = 0 && opd < 2 ^ 32 && e.subop = 0
    | 0x93 => len = 0 && opd = 0 && e.subop = 0
    | _ => opd < 2 ^ 32 && e.subop = 0) &&
  (!noBlock op || e.src = 0) &&
  (noBlock op || op = 0x8D || op = 0x85 || len < 2 ^ 16) &&
  (blockLen op).elim true (fun n => len = n)

/-- Checks 2 and 4 of R65 on an admin entry; check 3 does not apply (R82). -/
def adminCheck (s : State) (a : Nat) (e : Entry) : Option Status :=
  if !adminOpcodeOk s a e.opcode then some .badOpcode else if !adminReservedOk e then some .malformed else none

/-- An admin entry has arrived with OWN = 1: it is ready, or completes in its turn with its failure (R65, R66, R82). -/
def adminValidate (a : Nat) (e : Entry) (s : State) : State :=
  let e' : Entry := match adminCheck s a e with
    | some st => { e with phase := .finishing, status := st }
    | none => { e with phase := .ready }
  s |> modAdmin a (fun x => { x with entries := x.entries.map (fun y => if y.idx = e.idx then e' else y) })
    |> (fun s => adminDrain a (s.admin a).entries.length s)

/-- Location of entry i of admin hoop a. -/
def adminSlot (s : State) (a : Nat) (i : W32) : Nat :=
  hostLoc a ((s.admin a).base + 64 * (i.toNat % 2 ^ (s.admin a).log2))

/-- The admin hoop stops: nothing further is fetched; ENABLE and ENABLED read 0 once the entry in progress has completed
(R492). -/
def adminStop (a : Nat) (s : State) : State :=
  s |> dropOwner (.ring (.admin a))
    |> modAdmin a (fun x =>
        let run := x.entries.any (fun e => e.phase = .started)
        { x with
          ringFault := true, enable := x.enable && run, running := x.running && run
          entries := x.entries.filter (fun e => e.phase = .started) })

/-- Issue the fetch request of an admin hoop. -/
def askAdmin (a : Nat) (s : State) : State :=
  let x := s.admin a
  if !x.running || x.ringFault || x.fetchNext = x.tail || waitsFor s (.ring (.admin a)) then s
  else addReq (.host a) (.ring (.admin a)) .read (adminSlot s a x.fetchNext)
    (64 * min 16 (x.tail - x.fetchNext).toNat) 0 s

/-- A doorbell on admin hoop a (R61, R84). -/
def adminTail (a : Nat) (v : W32) (s : State) : State :=
  let x := s.admin a
  if !x.enable || x.ringFault then modAdmin a (fun x => { x with dbDisabled := true }) s
  else if v = x.tail then s
  else if tailOk x.log2 x.head x.tail v then s |> modAdmin a (fun x => { x with tail := v }) |> askAdmin a
  else modAdmin a (fun x => { x with tailRange := true }) s

/-- Up to n admin entries arrive (R64, R492). -/
def fetchAdmin (a : Nat) : Nat → State → State
  | 0, s => s
  | n + 1, s =>
    let x := s.admin a
    if !x.running || x.ringFault || x.fetchNext = x.tail || 64 ≤ (x.fetchNext - x.head).toNat then s
    else
      let pa := adminSlot s a x.fetchNext
      if !homeUp s (.host a) || poisonedAt s pa 64 then adminStop a s
      else
        let e := entryOfWords x.fetchNext 0 (qwords 8 (readBytes s pa 64))
        let s := modAdmin a (fun x => { x with fetchNext := e.idx + 1, entries := x.entries ++ [e] }) s
        fetchAdmin a n (when e.own (adminValidate a e) s)

/-- Re-read an admin entry fetched with OWN = 0 (R64). -/
def rereadAdmin (a : Nat) (e : Entry) (s : State) : State :=
  let pa := adminSlot s a e.idx
  if !homeUp s (.host a) || poisonedAt s pa 64 then adminStop a s
  else
    let put (e' : Entry) (s : State) : State :=
      modAdmin a (fun x => { x with entries := x.entries.map (fun y => if y.idx = e.idx then e' else y) }) s
    let e' := entryOfWords e.idx 0 (qwords 8 (readBytes s pa 64))
    if e'.own then s |> put e' |> adminValidate a e'
    else if 8 ≤ e.ownTries + 1 then
      s |> modAdmin a (fun x => { x with ownTimeout := true })
        |> put { e with phase := .finishing, status := .malformed }
        |> (fun s => adminDrain a (s.admin a).entries.length s)
    else put { e with ownTries := e.ownTries + 1 } s

/-- Whether admin entry i may start: admin entries run one at a time, in order (R82). -/
def adminCanStart (s : State) (a : Nat) (i : W32) : Bool :=
  match (s.admin a).entries.head? with
  | some e => e.idx = i && e.phase = .ready && (s.admin a).head = i
  | none => false

/-- Admin entry i starts; its inputs are read by untranslated requests (R82, R493). -/
def startAdmin (a : Nat) (i : W32) (s : State) : State :=
  let s := modAdmin a (fun x => { x with
      idle := false, entries := x.entries.map (fun e => if e.idx = i then { e with phase := .started } else e) }) s
  match adminCur s a with
  | some e => if noBlock e.opcode then s
      else addReq (.host a) (.adminInput a) .read (hostLoc a e.src.toNat) e.length 0 s
  | none => s

end Sys2Proof.Machine
end

