-- ==== Sys2Proof/Machine/Segs.lean ====
section
/-! DEFINITION. Segments as shared operations: the ranges that a segment reads and writes, the gate that its accesses pass
(targets, thermal rates, coherence), stores, failure and settlement (R90 to R116, R163, R218, R264, R296, R301, R327, R412). -/

namespace Sys2Proof.Machine

open Sys2Proof

/-! ### Stores -/

/-- Store bytes at a virtual range of a vat, page by page. -/
def vstore (v : Nat) (need : Access) (va : Nat) (bs : List Byte) (s : State) : State :=
  forAll (pagesOf va bs.length) (fun a t =>
    let (lo, k) := pagePart va bs.length a
    match lookup t v lo need with
    | .ok pa => storeAt pa ((bs.drop (lo - va)).take k) t
    | _ => t) s

/-- Store bytes over several virtual ranges in order. -/
def vstoreAll (v : Nat) (need : Access) : List (Nat × Nat) → List Byte → State → State
  | [], _, s => s
  | (va, n) :: r, bs, s => vstoreAll v need r (bs.drop n) (vstore v need va (bs.take n) s)

/-- Bytes of several virtual ranges in order. -/
def vreadAll (s : State) (v : Nat) (l : List (Nat × Nat)) : List Byte := l.flatMap (fun r => vread s v r.1 r.2)

/-! ### The gate of a segment's accesses -/

/-- The parts of accesses whose translations are present. -/
def partsOf (s : State) (v : Nat) (l : List (Nat × Nat × Access)) : List Part :=
  l.flatMap (fun r => (pagesOf r.1 r.2.1).filterMap (fun a =>
    let (lo, k) := pagePart r.1 r.2.1 a
    match lookup s v lo r.2.2 with
    | .ok pa => some { va := lo, pa := pa, len := k, need := r.2.2 }
    | _ => none))

/-- Code of a resource in the second copy of the bindings. -/
def gateKey : Home → Option Nat
  | .slice k => some k
  | .host p => if p < 16 then some (32 + p) else none
  | .far p => some (32 + p)
  | .acd q => some (64 + q)
  | _ => none

/-- Whether the gate's own copy of the bindings lets wheel w reach a location (R412). -/
def gateOk (s : State) (w : Nat) (x : Home) : Bool :=
  match gateKey x with
  | some k => tabGet w s.wh.gateBind k = w
  | none => true

/-- Whether held bytes, of one write or of several, cover a range: a read of them is served from the hold space (R270). -/
def heldCovers (s : State) (a n : Nat) : Bool :=
  (List.range n).all (fun k =>
    (s.acd (a / 2 ^ 40)).heldWr.any (fun w => w.1 ≤ a % 2 ^ 40 + k && a % 2 ^ 40 + k < w.1 + w.2.length))

/-- Bytes of the hold space of port q's wheel in quadrant q (R133, R410). -/
def holdRoom (s : State) (q : Nat) : Nat :=
  let w := acdWheelOf s q
  (s.wheel w).holdCells * ((List.range 8).filter (fun k => sliceWheelOf s (8 * q + k) = w)).length * 65536

/-- Bytes that the hold space of port q holds. -/
def heldBytes (s : State) (q : Nat) : Nat := ((s.acd q).heldWr.map (·.2.length)).sum

/-- A write into a hot stack is placed in the hold space; every reader finds it there (R270). -/
def addHeld (a : Nat) (bs : List Byte) (s : State) : State :=
  modAcd (a / 2 ^ 40) (fun p => { p with heldWr := p.heldWr ++ [(a % 2 ^ 40, bs)] }) s

/-- The units of segment j before the first that meets a failing page, between lo, which meets none, and hi, which does. -/
def unitsBefore (s : State) (h : Nat) (e : Entry) (j : Nat) : Nat → Nat → Nat → Nat
  | 0, lo, _ => lo
  | n + 1, lo, hi =>
    let m := (lo + hi) / 2
    let l := segAccesses s h { e with stops := [(j, (m, .target))] } j
    match pagesOutcome s none (s.hoop h).vat (l.flatMap (fun r => needPages r.1 r.2.1 r.2.2)) with
    | .fault _ _ => unitsBefore s h e j n lo m
    | _ => unitsBefore s h e j n m hi

/-- Answer of the gate: go, wait, a failure, or a refusal by the gate's own copy of the bindings (R412). -/
inductive Gate where
  | go (ps : List Part)
  | wait
  | fail (c : FailCause)
  | refused
deriving DecidableEq, Repr

/-- Whether some access lies in the window of a lost host (R284). -/
def hostGone (s : State) (l : List (Nat × Nat × Access)) : Bool :=
  l.any (fun r => match regionOf r.1 with | .window h => (s.hc h).lost | _ => false)

/-- Whether the work is a REDUCE or ACCUMULATE of a collective group's hoop, which keeps running in a hold (R270). -/
def collReduces (s : State) : Owner → Bool
  | .seg h i _ => (groupOf s h).isSome && (entryOf s h i).elim false (fun e => e.opcode = 0x06 || e.opcode = 0x07)
  | _ => false

/-- Whether accesses may go on although some lie in a hot stack: reads of held bytes, and results of a collective's
REDUCE or ACCUMULATE for which the hold space has room (R270, R327). -/
def hotOk (s : State) (o : Owner) (ps : List Part) : Bool :=
  let hot := ps.filter (fun p => isHot s p.pa)
  hot.all (fun p => (p.need = .read && heldCovers s p.pa p.len) || (p.need = .write && collReduces s o)) &&
    (List.range 4).all (fun q =>
      let n := ((hot.filter (fun p => p.need = .write && p.pa / 2 ^ 40 = q)).map (·.len)).sum
      n = 0 || heldBytes s q + n ≤ holdRoom s q)

/-- Accesses of wheel w wait on back-invalidation: its latency bound yields (R301, R426 COHERENCE). -/
def yieldCoherence (w : Nat) (hits : List (Filt × Bool)) (s : State) : State :=
  forAll (dedup (hits.map (fun x => x.1.port))) (fun p => yieldWheel w 3 0x05 p 0 4) s

/-- The micro-TLB that a segment's accesses use: that of its hoop's slice (R209). -/
def seatOf : Owner → Nat
  | .seg h _ _ => sliceOf h
  | _ => centralTlb

/-- Whether the translation of a page may be fetched now: a segment's pages as its entry's held slots reach them (R23, R209). -/
def mayHold (s : State) (k v : Nat) (o : Owner) (p : Nat × Access) : Bool :=
  match o with
  | .seg h i _ => s.xl.held.any (fun g => g.slice = k && g.hoop = h && g.idx = i && g.vat = v && g.page = p.1)
  | _ => true

/-- Whether the last byte of a part does not lie with its first: a part served through this node's own export table that leaves
its slot (R250, R251). -/
def endElsewhere (s : State) (v : Nat) (p : Part) : Bool :=
  p.len ≠ 0 && lookup s v (p.va + p.len - 1) p.need ≠ .ok (p.pa + p.len - 1)

/-- Pass accesses of wheel w's vat v through translation, reachability, the write gate, poison, thermal rates and
coherence; o is the work that waits. -/
def gateSeg (o : Owner) (v : Nat) (l : List (Nat × Nat × Access)) (s : State) : Gate × State :=
  if hostGone s l then (.fail .target, s)
  else
  let k := seatOf o
  let pages := l.flatMap (fun r => needPages r.1 r.2.1 r.2.2)
  let s := takeHolds k s
  let s := startPages k v (pages.filter (mayHold s k v o)) s
  match pagesOutcome s (some k) v pages with
  | .wait => (.wait, s)
  | .fault va c => (.fail (.revoked (c = 0x10)), vatFault v (causeBit c) c va s)
  | .ok =>
    let ps := partsOf s v l
    match ps.findSome? (fun p => failHome s (homeOf p.pa)) with
    | some c => (.fail c, s)
    | none =>
      if ps.any (fun p => !gateOk s (vatWheel s v) (homeOf p.pa)) then (.refused, s)
      else if ps.any (fun p => (p.need ≠ .write && poisonedAt s p.pa p.len) || endElsewhere s v p) then (.fail .target, s)
      else if !hotOk s o ps then (.wait, s)
      else
        let hits := ps.flatMap (fun p => (filterHits s p).map (fun f => (f, decide (p.need ≠ .read))))
        let miss := ps.flatMap (cohMissing s v)
        if !hits.isEmpty then (.wait, s |> askHosts o hits |> yieldCoherence (vatWheel s v) hits)
        else if !miss.isEmpty then (.wait, askLines miss s)
        else (.go ps, s)

/-! ### Failure and settlement (R115, R116) -/

/-- A segment may be worked on: its entry runs, under the hoop's epoch, and its vat is not being torn down. -/
def segLive (s : State) (h : Nat) (i : W32) (j : Nat) : Option (Entry × SegState) :=
  match entryOf s h i with
  | none => none
  | some e =>
    match e.segs[j]? with
    | none => none
    | some g => if (s.hoop h).present && e.phase = .started && e.epoch = (s.hoop h).epoch && !(s.hoop h).migrating &&
        (s.vat (s.hoop h).vat).st ≠ .aborting then some (e, g) else none

/-- Bytes of a range become free values (R116). -/
def clobber (v va n : Nat) (s : State) : State :=
  let bs := freeBytes n s
  s |> takeFree n |> vstore v .write va bs

/-- Skip the first k bytes of a list of ranges. -/
def skipRanges : Nat → List (Nat × Nat) → List (Nat × Nat)
  | _, [] => []
  | k, (a, n) :: r => if n ≤ k then skipRanges (k - n) r else (a + k, n - k) :: r

/-- The undefined bytes of an entry that ends with a segment map: those of every incomplete segment beyond DONE_BYTES
(R116). -/
def clobberEntry (h : Nat) (e : Entry) (s : State) : State :=
  let lead := leadDone e
  forAll ((List.range e.segs.length).filter (fun j => e.segs[j]? ≠ some .done)) (fun j t =>
    forAll (skipRanges (if j = lead then e.segDone.getD j 0 else 0) (segWrites s h e j))
      (fun r u => clobber (s.hoop h).vat r.1 r.2 u) t) s

/-- Outcome of an entry whose segments have all ended: status, SEGMAP and DONE_BYTES (R115 to R117, R187). -/
def entryOutcome (e : Entry) : Status × Bool × Nat :=
  match e.cause with
  | some c =>
    let (st, seg) := failStatus c e.applied
    (st, seg, if seg then doneBytes e else 0)
  | none => (if e.flagged then .accumOverflow else .ok, false, okBytes e)

/-- An entry whose segments have all ended completes (R113, R115). -/
def settle (h : Nat) (i : W32) (s : State) : State :=
  match entryOf s h i with
  | none => s
  | some e =>
    if e.phase = .started && !e.segs.isEmpty && e.segs.all (fun g => g = .done || g = .failed) then
      let (st, seg, done) := entryOutcome e
      s |> when seg (clobberEntry h e) |> finishEntry h i st seg done
    else s

/-- Segment j fails with a cause, n of its bytes being known written (R115, R116). -/
def failSeg (h : Nat) (i : W32) (j : Nat) (c : FailCause) (n : Nat) (s : State) : State :=
  s |> modEntry h i (fun e => { e with
        segs := e.segs.set j .failed, segDone := e.segDone.set j n, cause := mergeCause e.cause c
        applied := e.applied || 0 < n })
    |> dropOwner (.seg h i j) |> settle h i |> holdPages (sliceOf h)

/-- Segment j's work is finished: all of it (R113), or what stands before a revoked page, with which it fails (R218). -/
def doneSeg (h : Nat) (i : W32) (j : Nat) (s : State) : State :=
  match (entryOf s h i).bind (fun e => (e.stops.find? (fun x => x.1 = j)).map (fun x => (e, x.2.2))) with
  | some (e, c) => s |> modEntry h i (fun e => { e with stops := e.stops.filter (fun x => x.1 ≠ j) })
      |> failSeg h i j c (segBytes s h e j)
  | none => s |> modEntry h i (fun e => { e with segs := e.segs.set j .done, segDone := e.segDone.set j (segBytes s h e j) })
    |> dropOwner (.seg h i j) |> settle h i |> holdPages (sliceOf h)

/-- Count the bytes that an entry reads and writes (R441, R442). -/
def countBytes (h : Nat) (ps : List Part) (s : State) : State :=
  let rd := ((ps.filter (fun p => p.need ≠ .write)).map (·.len)).sum
  let wr := ((ps.filter (fun p => p.need ≠ .read)).map (·.len)).sum
  s |> modFnS (s.hoop h).fn (fun f => { f with
        bytesRd := f.bytesRd + BitVec.ofNat 64 rd, bytesWr := f.bytesWr + BitVec.ofNat 64 wr })
    |> modWheel (vatWheel s (s.hoop h).vat) (fun w => { w with bytes := w.bytes + BitVec.ofNat 64 wr })

/-! ### Peer reads (R254) -/

/-- The reads of peer operands that a segment sends before it can move (R254). -/
def askPeers (h : Nat) (i : W32) (j : Nat) (ps : List Part) (s : State) : State :=
  s |> modEntry h i (fun e => { e with segs := e.segs.set j .asked })
    |> forAll (ps.filter (fun p => isPeerPart p && p.need = .read)) (fun p t =>
        sendPeer (vatWheel s (s.hoop h).vat) (tcOf s h) (.seg h i j) .read p.pa p.len 0 false false []
          (s.hoop h).epoch t)

/-! ### What a segment sends (R227, R254) -/

/-- The requests of a segment toward ports and nodes, one for each unit of each part outside the Hivik (R227); posted writes
to a host need no answer (R46, R80), a coherent window's lines are written in the cache or leave as ItoMWr (R296), and peer
reads were sent before the segment moved. -/
def issueParts (o : Owner) (v tc : Nat) (ps : List Part) (ep : BitVec 8) (s : State) : State :=
  forAll ps (fun p t =>
    match tgtOf (homeOf p.pa), p.need with
    | some (.host q), .write =>
      if (cohPort t v p.va).isSome then t else hostPut q p.pa (readBytes t p.pa p.len) (t.hc q).relaxed t
    | some (.peer _), .write => sendPeer (vatWheel t v) tc o .write p.pa p.len 0 false false (readBytes t p.pa p.len) ep t
    | some (.peer _), _ => t
    | some g, .read => if (cohPort t v p.va).isSome then t else addReq g o .read p.pa p.len ep t
    | some g, .write => if isHot t p.pa then addHeld p.pa (readBytes t p.pa p.len) t else addReq g o .write p.pa p.len ep t
    | some g, .atomic => if (cohPort t v p.va).isSome then t else addReq g o .atomic p.pa p.len ep t
    | none, _ => t) s

/-- Segment j has moved its data: its requests are outstanding, its bytes counted. -/
def busySeg (h : Nat) (i : W32) (j : Nat) (ps : List Part) (s : State) : State :=
  s |> modEntry h i (fun e => { e with segs := e.segs.set j .busy, applied := true })
    |> issueParts (.seg h i j) (s.hoop h).vat (tcOf s h) ps (s.hoop h).epoch |> countBytes h ps

end Sys2Proof.Machine
end

