-- ==== Sys2Proof/Machine/PeerServe.lean ====
section
/-! DEFINITION. Requests of other nodes at their target as shared operations: answers, the checks they meet, their effect, and
those that wait (R251, R254, R255, R259, R260, R270, R301). -/

namespace Sys2Proof.Machine

open Sys2Proof

/-! ### Answers (R254, R255) -/

/-- Answer a packet with TYPE, REASON and payload, in TC1, through the lowest port up toward its issuer (R254, R257). -/
def answerPkt (type reason : Nat) (bs : List Byte) (k : Pkt) (s : State) : State :=
  match (upPorts s k.src).head? with
  | none => s
  | some p => sendPacket p type
      { tc := 1, hops := 0, dst := k.src, src := s.pr.nodeId, fdom := k.fdom, tag := k.tag, len := bs.length, wide := k.wide
        atop := 0, reason := reason, offset := 0, payload := bs } s

/-- NAK a packet (R255). -/
def nakPkt (reason : Nat) (k : Pkt) (s : State) : State := answerPkt 0x07 reason [] k s

/-! ### Atomic operations (R101, R260) -/

/-- Apply one operand at a location: the value there becomes the result (R101); the old value. -/
def applyAtomic (atop w pa x cmp : Nat) (s : State) : Nat × State :=
  let old := readNat s pa w
  (old, storeAt pa (natLe w (atomicResult atop w old x cmp)) s)

/-- Key of an AT_REQ's journal word. -/
def atKey (k : Pkt) : JKey :=
  let w := leNat (k.payload.take 8)
  .peer k.src (field w 31 18) (BitVec.ofNat 32 (field w 63 32)) (field w 17 12)

/-- Quadrant whose memory-side unit applies operands at a location. -/
def homeQuad : Home → Nat
  | .acd q => q
  | .slice k => k / 8
  | _ => 0

/-- Width of an AT_REQ's operands, bytes of each with its compare value, and their number. -/
def atShape (k : Pkt) : Nat × Nat × Nat :=
  let w := if k.wide then 8 else 4
  let per := if k.atop = 0x03 then 2 * w else w
  (w, per, (k.payload.length - 16) / per)

/-- Set the mark of a peer's segment: one more than the number of the last operand applied. -/
def setPeerMark (key : JKey) (n : Nat) (s : State) : State :=
  { s with wk.peerJournals := s.wk.peerJournals.map (fun j => if j.2.key = key then (j.1, { j.2 with marks := [(0, n)] }) else j) }

/-- Apply the operands of an AT_REQ in turn: one numbered below the journal's mark is discarded, having been applied (R75); the
old values, those of the discarded being unknown. -/
def atApply (k : Pkt) (pa mark : Nat) (s : State) : List Byte × State :=
  let (w, per, n) := atShape k
  let first := leNat ((k.payload.drop 8).take 8)
  (List.range n).foldl (fun (r : List Byte × State) t =>
    if first + t < mark then (r.1 ++ freeBytes w r.2, takeFree w r.2)
    else
      let op := (k.payload.drop (16 + t * per)).take per
      let (old, u) := applyAtomic k.atop w (pa + t * w) (leNat (op.take w)) (leNat (op.drop w)) r.2
      (r.1 ++ natLe w old, setPeerMark (atKey k) (first + t + 1) u)) ([], s)

/-! ### The effect of a request that has passed its checks; false: it must wait (R270) -/

/-- RD_REQ: read at the home; a read of a hot stack waits, but held bytes are served. -/
def serveRead (k : Pkt) (pa : Nat) (s : State) : Bool × State :=
  if isHot s pa && !heldCovers s pa k.len then (false, s) else (true, answerPkt 0x02 0 (readBytes s pa k.len) k s)

/-- WR: applied at the home and acknowledged; into a hot stack, a TC3 write goes to the hold space or is NAKed with HOLD_FULL,
and a TC2 write waits. -/
def serveWrite (k : Pkt) (pa : Nat) (s : State) : Bool × State :=
  let q := pa / 2 ^ 40
  if !isHot s pa then (true, s |> storeAt pa k.payload |> answerPkt 0x04 0 [] k)
  else if k.tc ≠ 3 then (false, s)
  else if heldBytes s q + k.payload.length ≤ holdRoom s q then
    (true, s |> storeAt pa k.payload |> addHeld pa k.payload |> answerPkt 0x04 0 [] k)
  else (true, nakPkt 0x06 k s)

/-- AT_REQ: JOURNAL_BUSY without a journal record free; the old values are answered where RETURN is set (R254, R260). The header
of R253 has no place for RETURN, and the model carries it beside the header (DESIGN CHOICE, log entry 137). -/
def serveAtomic (k : Pkt) (pa : Nat) (s : State) : Bool × State :=
  let (w, per, n) := atShape k
  let q := homeQuad (homeOf pa)
  let key := atKey k
  let old := s.wk.peerJournals.find? (fun j => j.2.key = key)
  if k.payload.length ≠ 16 + n * per || n = 0 || pa % w ≠ 0 || !atopKnown k.atop then (true, nakPkt 0x08 k s)
  else if isHot s pa then (false, s)
  else if old.isNone && 1024 ≤ (s.wk.peerJournals.filter (fun j => j.1 = q)).length then (true, nakPkt 0x09 k s)
  else
    let s := if old.isNone then { s with wk.peerJournals := s.wk.peerJournals ++ [(q, { key := key })] } else s
    let (vals, t) := atApply k pa (old.elim 0 (fun j => tabGet 0 j.2.marks 0)) s
    (true, answerPkt 0x06 0 (if k.ret then vals else []) k t)

/-! ### Checks and order (R251, R255, R259, R301) -/

/-- The access that a request of a TYPE makes, and the bytes that it makes it to. -/
def pktAccess (type : Nat) (k : Pkt) : Access × Nat :=
  if type = 0x01 then (.read, k.len)
  else if type = 0x03 then (.write, k.payload.length)
  else (.atomic, (atShape k).2.2 * (atShape k).1)

/-- LEN of a request: the bytes that a RD_REQ asks for, the payload of the others (R253, R254). -/
def pktLen (type : Nat) (k : Pkt) : Nat := if type = 0x01 then k.len else k.payload.length

/-- The checks that a request meets at its target: the export slot (R251), poison (R255), and host copies of an HDM window's
lines, which are asked back first (R301); then its effect. False: it must wait. -/
def tryServe (type : Nat) (k : Pkt) (s : State) : Bool × State :=
  let (need, n) := pktAccess type k
  match exportCheck s k.fdom k.offset (pktLen type k) need with
  | .error r => (true, nakPkt r k s)
  | .ok pa =>
    let hits := filterHits s { va := 0, pa := pa, len := n, need := need }
    if need ≠ .write && poisonedAt s pa n then (true, nakPkt 0x07 k s)
    else if !hits.isEmpty then (false, askHosts (.peerReq k.src k.tag) (hits.map (fun f => (f, decide (need ≠ .read)))) s)
    else if type = 0x01 then serveRead k pa s
    else if type = 0x03 then serveWrite k pa s
    else serveAtomic k pa s

/-- Whether an earlier request of a packet's class and issuing node waits: it holds back this one (R259). -/
def heldBack (s : State) (k : Pkt) : Bool := s.pr.waiting.any (fun w => w.2.src = k.src && w.2.tc = k.tc)

/-- Serve a request in the order of its class and pair, or let it wait (R259). -/
def peerServe (type : Nat) (k : Pkt) (s : State) : State :=
  if heldBack s k then { s with pr.waiting := s.pr.waiting ++ [(type, k)] }
  else match tryServe type k s with
    | (true, t) => t
    | (false, t) => { t with pr.waiting := t.pr.waiting ++ [(type, k)] }

/-- The requests that wait are tried again in their order. -/
def serveAgain (s : State) : State := forAll s.pr.waiting (fun w => peerServe w.1 w.2) { s with pr.waiting := [] }

/-- A request that waits for a host's copy fails: it is NAKed with TARGET_ERROR (R255, R302). -/
def failServed (src tag : Nat) (s : State) : State :=
  let mine (w : Nat × Pkt) : Bool := w.2.src = src && w.2.tag = tag
  forAll (s.pr.waiting.filter mine) (fun w => nakPkt 0x08 w.2) { s with pr.waiting := s.pr.waiting.filter (fun w => !mine w) }
  |> serveAgain

end Sys2Proof.Machine
end

