-- ==== Sys2Proof/Machine/Waits.lean ====
section
/-! DEFINITION. Fence waits as shared operations: arming, reading a fence, ending waits (R37 to R42, R104). -/

namespace Sys2Proof.Machine

open Sys2Proof

/-- Take one wait off every watcher and poll; a watcher without waits is free (R39). -/
def disarmWait (h : Nat) (i : W32) (s : State) : State :=
  let keep (w : Nat × Watcher) : Nat × Watcher :=
    (w.1, { w.2 with waits := w.2.waits.filter (fun x => !(x.hoop = h && x.idx = i)) })
  { s with
    wk.watchers := (s.wk.watchers.map keep).filter (fun w => !w.2.waits.isEmpty)
    wk.polls := (s.wk.polls.map keep).filter (fun w => !w.2.waits.isEmpty) }

/-- A wait ends with a status other than OK (R41, R116); one of a vat that is being torn down is left to the teardown (R50). -/
def endWait (st : Status) (seg : Bool) (w : Wait) (s : State) : State :=
  if tornDown s w.hoop then s else s |> disarmWait w.hoop w.idx |> finishEntry w.hoop w.idx st seg 0

/-- The FENCE_SIGNALLED record of a wait that EVENT armed; x is the watcher, none for a polled wait (R42, R104). -/
def signalledRec (s : State) (w : Wait) (e : Entry) (x : Option Nat) (val : W64) : EvRec :=
  let y := s.hoop w.hoop
  { cookie := e.cookie, kind := 0x02, status := 0, source := x.getD 0xFFFFFFFF, fn := BitVec.ofNat 16 (funcId y.fn)
    vat := y.vat, detail := val.toNat % 2 ^ 32, isrc := some (x.elim w.hoop (16384 + ·)) }

/-- A wait observes VALUE ≥ W: it completes with OK, and posts FENCE_SIGNALLED in the place of ENTRY_DONE where EVENT armed it
(R37, R42). -/
def signalWait (x : Option Nat) (val : W64) (w : Wait) (s : State) : State :=
  if tornDown s w.hoop then s
  else match entryOf s w.hoop w.idx with
    | none => disarmWait w.hoop w.idx s
    | some e =>
      let r := signalledRec s w e x val
      s |> disarmWait w.hoop w.idx
        |> modEntry w.hoop w.idx (fun e => { e with segs := [.done], sig := if e.event then some r else none })
        |> finishEntry w.hoop w.idx .ok false 0

/-- A read of a fence gives VALUE: every satisfied wait completes (R37, R42). -/
def fenceSeen (x : Option Nat) (ws : List Wait) (val : W64) (s : State) : State :=
  forAll (ws.filter (fun w => w.want ≤ val)) (signalWait x val) s

/-- Status of waits on a fence whose location cannot be read: PEER_LOST behind a lost peer, else PARTIAL (R41). -/
def waitFailStatus (s : State) (pa : Nat) : Status × Bool :=
  match failHome s (homeOf pa) with
  | some (.peerLost _) => (.peerLost, false)
  | _ => (.partialDone, true)

/-- Class of a fence's read at a peer: that of a collective group's hoop where one of the waits is such a hoop's (R265). -/
def waitTc (s : State) (y : Watcher) : Nat := if y.waits.any (fun w => tcOf s w.hoop = 3) then 3 else 2

/-- What a read of a fence finds: the lines of a coherent window or the answer of a port that it still needs, or VALUE (R39
to R41, R295). -/
def askFence (o : Owner) (y : Watcher) (pa : Nat) (s : State) : State :=
  match homeOf pa with
  | .peer _ => sendPeer (vatWheel s y.vat) (waitTc s y) o .read pa 8 0 false false [] 0 s
  | g => match tgtOf g with
    | some t => addReq t o .read pa 8 0 s
    | none => s

/-- The micro-TLB through which a fence is read: that of the first waiting hoop's slice. -/
def watchSeat (y : Watcher) : Nat := (y.waits.head?.map (fun w => sliceOf w.hoop)).getD centralTlb

/-- Read the fence of a watcher (x = some index) or of a polled wait (x = none), and act on what is read: a fence in the
scratchpad, or in a line that the coherent window cache holds, at once; every other when its request is answered (R39 to R41).
back: that answer has come. -/
def readFence (o : Owner) (x : Option Nat) (y : Watcher) (back : Bool) (put : W64 → State → State) (s : State) : State :=
  let k := watchSeat y
  let s := askXlate k y.vat y.va.toNat .read s
  match lookupIn (some k) s y.vat y.va.toNat .read with
  | .miss => s
  | .fault c => forAll y.waits (endWait (causeStatus c) false) (vatFault y.vat (causeBit c) c y.va.toNat s)
  | .ok pa =>
    let p : Part := { va := y.va.toNat, pa := pa, len := 8, need := .read }
    let miss := cohMissing s y.vat p
    let coh := (cohPort s y.vat p.va).isSome
    if !homeUp s (homeOf pa) || (poisonedAt s pa 8 && (back || (tgtOf (homeOf pa)).isNone)) then
      forAll y.waits (endWait (waitFailStatus s pa).1 (waitFailStatus s pa).2) (dropOwner o s)
    else if !(filterHits s p).isEmpty then askHosts o ((filterHits s p).map (·, false)) s
    else if coh && !miss.isEmpty then askLines miss s
    else if !coh && !back && (tgtOf (homeOf pa)).isSome then (if waitsFor s o then s else askFence o y pa s)
    else
      let val : W64 := BitVec.ofNat 64 (readNat s pa 8)
      s |> put val |> fenceSeen x y.waits val

/-- Watcher w reads its fence word (R40), or takes the answer of the read that it sent. -/
def watcherReads (back : Bool) (w : Nat) (s : State) : State :=
  if tabHas s.wk.watchers w then
    readFence (.watcher w) (some w) (s.watcher w) back (fun v => modWatcher w (fun x => { x with lastVal := v })) s
  else s

/-- Watcher w reads its fence word (R40). -/
def readWatcher (w : Nat) (s : State) : State := watcherReads false w s

/-- The hoop engine reads the fence of polled wait k (R39), or takes the answer of the read that it sent. -/
def pollReads (back : Bool) (k : Nat) (s : State) : State :=
  if tabHas s.wk.polls k then
    readFence (.poll k) none (s.pollWait k) back (fun v => modPollWait k (fun x => { x with lastVal := v })) s
  else s

/-- The hoop engine reads the fence of polled wait k (R39). -/
def readPoll (k : Nat) (s : State) : State := pollReads false k s

/-- The watcher armed for an address in a vat, if there is one (R39). -/
def watcherFor (s : State) (v : Nat) (va : W64) : Option Nat :=
  (s.wk.watchers.find? (fun w => w.2.vat = v && w.2.va = va)).map (·.1)

/-- Arm a wait: on the watcher of its address, else on a free watcher, else polled by the hoop engine (R39); the fence
is read once. -/
def armWait (h : Nat) (i : W32) (e : Entry) (s : State) : State :=
  let v := (s.hoop h).vat
  let w : Wait := { hoop := h, idx := i, want := e.fenceVal }
  match watcherFor s v e.dst with
  | some k => s |> modWatcher k (fun x => { x with waits := x.waits ++ [w] }) |> readWatcher k
  | none =>
    match firstFree 2048 (tabHas s.wk.watchers) with
    | some k => s |> modWatcher k (fun _ => { vat := v, va := e.dst, waits := [w] }) |> readWatcher k
    | none =>
      let k := s.wk.polls.foldl (fun m p => max m (p.1 + 1)) 0
      s |> modPollWait k (fun _ => { vat := v, va := e.dst, waits := [w] }) |> readPoll k

/-- Whether a wait is armed. -/
def waitArmed (s : State) (h : Nat) (i : W32) : Bool :=
  (s.wk.watchers ++ s.wk.polls).any (fun w => w.2.waits.any (fun x => x.hoop = h && x.idx = i))

/-- The waits of a watcher or poll whose read failed at its target end (R41). -/
def failWaits (y : Watcher) (c : FailCause) (s : State) : State :=
  match c with
  | .peerLost _ => forAll y.waits (endWait .peerLost false) s
  | _ => forAll y.waits (endWait .partialDone true) s

/-- Watchers whose fence word a write of n bytes at location a touches (R40). -/
def watchersAt (s : State) (a n : Nat) : List Nat :=
  (s.wk.watchers.filter (fun w => match lookup s w.2.vat w.2.va.toNat .read with
    | .ok pa => overlap a n pa 8
    | _ => false)).map (·.1)

/-- Waits whose translation has failed end with its status (R41). -/
def revokeWaits (s : State) : State :=
  let bad (w : Watcher) : Bool := match lookup s w.vat w.va.toNat .read with | .fault _ => true | _ => false
  s |> forAll ((s.wk.watchers.filter (fun w => bad w.2)).map (·.1)) readWatcher
    |> forAll ((s.wk.polls.filter (fun w => bad w.2)).map (·.1)) readPoll

end Sys2Proof.Machine
end

