-- ==== Sys2Proof/Machine/Links.lean ====
section
/-! DEFINITION. Failing requests, launches, claims, and the loss of ports, hosts, peers and slices as shared operations
(R115, R262 to R264, R283, R301, R306, R325, R326, R391, R392, R493). -/

namespace Sys2Proof.Machine

open Sys2Proof

/-! ### Claims and snoop filter waiters (R301, R302, R324) -/

/-- Answer CLAIM_GO to a claim (R324). -/
def claimGo (q ctag : Nat) (fail : Bool) (s : State) : State :=
  if tabHas (s.acd q).claims ctag then
    s |> sendAcd q 0x13 ctag (tabGet {} (s.acd q).claims ctag).line (BitVec.ofNat 64 (b2n fail))
      |> modAcd q (fun p => { p with
          claims := tabDel p.claims ctag, err := if fail then p.err ||| 0x10 else p.err })
  else s

/-- Host copies that conflict with a claim (R301, R324). -/
def claimHits (s : State) (q ctag : Nat) : List Filt :=
  let c := tabGet {} (s.acd q).claims ctag
  filterHits s { va := 0, pa := q * 2 ^ 40 + c.line, len := 64, need := if c.write then .write else .read }

/-- Go on with a claim: the hosts that hold conflicting copies are asked for the line, and without one CLAIM_GO follows (R324). -/
def tryClaim (q ctag : Nat) (s : State) : State :=
  let hits := claimHits s q ctag
  if hits.isEmpty then claimGo q ctag false s
  else askHosts (.claim q ctag) (hits.map (·, (tabGet {} (s.acd q).claims ctag).write)) s

/-- Work that waited on a filter line goes on: a claim, a fence read, a request of another node; a segment is issued again, and
what is written for a hoop follows in rescan. -/
def releaseWaiter (o : Owner) (s : State) : State :=
  match o with
  | .claim q ctag => if tabHas (s.acd q).claims ctag then tryClaim q ctag s else s
  | .watcher w => readWatcher w s
  | .poll k => readPoll k s
  | .peerReq _ _ => serveAgain s
  | _ => s

/-- Remove filter entries that satisfy p and let their waiters go on. -/
def dropFilter (p : Filt → Bool) (s : State) : State :=
  let ws := (s.cx.filter.filter p).flatMap (·.waiters)
  forAll ws releaseWaiter { s with cx.filter := s.cx.filter.filter (fun f => !p f) }

/-! ### Requests that fail (R115, R80, R208, R41, R46, R493) -/

/-- Bytes of segment j that stand applied although it fails: operands of ATOMIC and ACCUMULATE (R116). -/
def knownBytes (e : Entry) (j : Nat) : Nat := if countsOperands e.opcode then e.segDone.getD j 0 else 0

/-- Segment j of entry i fails, unless it has ended; a failure under a superseded epoch goes to whey (R73, R115). -/
def failLive (h : Nat) (i : W32) (j : Nat) (c : FailCause) (s : State) : State :=
  match entryOf s h i with
  | none => s
  | some e =>
    if e.phase ≠ .started then s
    else if e.epoch ≠ (s.hoop h).epoch then toWhey h s
    else match e.segs[j]? with
      | some .done => s
      | some .failed => s
      | some _ => failSeg h i j c (knownBytes e j) s
      | none => s

/-- The inactive firmware slot. -/
def fwOther (s : State) : Nat := 1 - s.st.fwActive

/-- A pending update is abandoned: UPDATE_PENDING clears (R450). -/
def fwAbandon (s : State) : State := modFwSlot (fwOther s) (fun x => { x with valid := false }) { s with st.fwPending := false }

/-- A read of an admin command's input fails: with XLATE_FAULT where the host refuses it, with PARTIAL otherwise; an FW_UPDATE
abandons a pending update (R450, R493). -/
def adminReadFails (a : Nat) (refused : Bool) (s : State) : State :=
  s |> when ((adminCur s a).elim false (fun e => e.opcode = 0x92)) fwAbandon
    |> (if refused then adminEnd a .xlateFault else adminFinish a .partialDone true 0)

/-- The publication of hoop h's head is answered with an error: the hoop stops (R80). -/
def headErr (h : Nat) (s : State) : State :=
  s |> dropOwner (.head h) |> headFails h |> headOver h |> tryFrozen (s.hoop h).fn

/-- The work that waited on a failed request: o with cause c. -/
def ownerFails (o : Owner) (c : FailCause) (s : State) : State :=
  match o with
  | .seg h i j => failLive h i j c s
  | .ring (.data h) => ringFailed h s
  | .ring (.admin a) => adminStop a s
  | .status h i => statusFails h i s
  | .head h => headErr h s
  | .input h i => s |> dropOwner (.input h i) |> failInput h i c
  | .push h i => tryFinish h i s
  | .adminInput a => adminReadFails a false s
  | .watcher w => failWaits (s.watcher w) c s
  | .poll k => failWaits (s.pollWait k) c s
  | .claim q ctag => claimGo q ctag true s
  | .record e => dropRec e s
  | .peerReq src tag => failServed src tag s
  | .hdm p off => emit (.hdm p off [] true) s
  | .table _ _ => s
  | .core => s
  | .none => s

/-- A request is answered: the checks of an entry whose input it was go on (R65, R208), the status word that waited for it is
written (R235), what was written is in place (R70, R80), a fence's value is taken (R40). -/
def ownerAnswered (o : Owner) (s : State) : State :=
  match o with
  | .input h i => checkEntry h i s
  | .push h i => tryFinish h i s
  | .status h i => statusAnswered h i s
  | .head h => headAnswered h s
  | .watcher w => watcherReads true w s
  | .poll k => pollReads true k s
  | _ => s

/-- Fail every outstanding request that satisfies p. -/
def failReqs (p : Req → Bool) (c : Req → FailCause) (s : State) : State :=
  forAll (s.lk.reqs.filter p) (fun r t => ownerFails r.owner (c r) t) (dropReqs p s)

/-! ### Launches (R112, R325) -/

/-- A launch ends with a status, unless it has ended before: its LAUNCH entry completes; while the entry is being
resumed, the tag keeps the end (R74, R112). -/
def endLaunch (q tag : Nat) (st : Status) (s : State) : State :=
  match (s.acd q).launches.find? (fun x => x.1 = tag) with
  | none => s
  | some (_, l) =>
    let st := l.ended.getD st
    let s := modAcd q (fun p => { p with launches := tabSet p.launches tag { l with ended := some st } }) s
    match entryOf s l.hoop l.idx with
    | some e =>
      if e.phase = .started then
        s |> when (st = .ok) (modEntry l.hoop l.idx (fun e => { e with segs := [.done] }))
          |> finishEntry l.hoop l.idx st (st ≠ .ok) 0
      else s
    | none => s

/-! ### Acdoic port (R326, R329) -/

/-- A conditional store whose request is gone without COND_ACK has failed (R245, R326). -/
def endCond (s : State) : State :=
  if s.lk.reqs.any (fun r => r.kind = .cond) then s else { s with af.affOk := s.af.affOk && s.af.affCond.isNone, af.affCond := none }

/-- Everything that the port's going down ends: requests, launches, reservations, claims, watches (R326, R329); what its hold space
holds is not dropped (R270). -/
def acdDrop (q : Nat) (s : State) : State :=
  let tags := ((s.acd q).launches.filter (fun x => x.2.ended.isNone)).map (·.1)
  s |> modAcd q (fun p => { p with
        up := false, paramsValid := false, training := false, retrain := false, modules := 0, err := p.err ||| 1
        claims := [], watches := [], replay := [], holdSince := none, holdTimedOut := false })
    |> failReqs (fun r => r.tgt = .acd q) (fun _ => .target) |> endCond
    |> forAll tags (fun t => endLaunch q t .aborted)
    |> loseResv (fun r => decide (homeOf r.2.granule = .acd q))

/-- Port q holds no copy of the vat store any more (R449). -/
def dropStore (q : Nat) (s : State) : State := { s with st.vatStore := s.st.vatStore.filter (· ≠ q) }

/-- The port enters its safe state (R326); a copy of the vat store behind it is out of reach (R449). -/
def acdSafe (q : Nat) (s : State) : State :=
  if (s.acd q).safe then s else s |> acdDrop q |> dropStore q |> modAcd q (fun p => { p with safe := true })

/-! ### Peer ports and lost nodes (R262 to R264) -/

/-- Node n is lost: outstanding requests to it fail (R263, R264). -/
def loseNode (n : Nat) (s : State) : State :=
  s |> modRoute n (fun r => { r with lost := true })
    |> failReqs (fun r => r.tgt = .peer n) (fun r => .peerLost (r.sent && !r.held))

/-- Nodes whose routes have lost their last port that is up (R263). -/
def stranded (s : State) : List Nat :=
  (s.pr.routes.filter (fun r => !r.2.lost && (portsUp s r.1).isEmpty)).map (·.1)

/-- A peer port goes down: routes fall back, nodes without a port are lost (R262, R263). -/
def peerDown (p : Nat) (s : State) : State :=
  let s := s
    |> modPeerP p (fun x => { x with up := false, keyHeld := false, replay := [], txSeq := 0, rxSeq := 0, ackd := 0, credits := [], txq := [] })
    |> modRsh (16 + p) (fun x => { x with trained := false })
  forAll (stranded s) loseNode s

/-! ### Vats and hoops that cease to exist (R50, R52) -/

/-- Hoop h ceases to exist. -/
def killHoop (h : Nat) (s : State) : State :=
  let s := s |> disarmHoop h |> endGroups h |> dropReqs (fun r => match r.owner with
    | .seg h' _ _ => h' = h
    | .ring (.data h') => h' = h
    | .input h' _ => h' = h
    | .push h' _ => h' = h
    | .status h' _ => h' = h
    | .head h' => h' = h
    | _ => false)
  { s with
    wk.hoops := tabDel s.wk.hoops h
    lk.acd := s.lk.acd.map (fun p => (p.1, { p.2 with launches := p.2.launches.filter (fun l => l.2.hoop ≠ h) }))
    wk.journals := s.wk.journals.filter (fun j => match j.2.key with | .entry h' _ => h' ≠ h | _ => true) }

/-- Event hoop e ceases to exist: it leaves every claim queue, its count and events go, its route reads 0 (R81). -/
def killEvq (e : Nat) (s : State) : State :=
  let s := unclaim e s
  { s with ev.evhoops := tabDel s.ev.evhoops e, ev.heldRecs := s.ev.heldRecs.filter (fun r => r.1 ≠ e) }

/-- PASIDs, with their ports, of a vat's cancelled page requests (R213). -/
def stopMarks (s : State) (v : Nat) : List (Nat × Nat) :=
  (s.xl.pageReqs.filter (fun r => r.vat = v && !r.dead)).foldl
    (fun l r => match r.pasid with | some x => if l.contains (r.port, x) then l else l ++ [(r.port, x)] | none => l) []

/-- Remove every translation of vat v's ASID and PASIDs (R50). -/
def purgeVat (v : Nat) (s : State) : State :=
  let ws := (s.vat v).windows
  { s with
    xl.xlats := s.xl.xlats.filter (fun x => match x.port with
      | none => x.vat ≠ v
      | some h => !(ws.any (fun w => w.1 = h && w.2.reqFn = x.reqFn && winPasid w.2 = x.pasid)))
    xl.walkCache := s.xl.walkCache.filter (fun w => w.vat ≠ v)
    xl.walks := s.xl.walks.filter (fun w => w.vat ≠ v)
    xl.xfaults := s.xl.xfaults.filter (fun x => x.vat ≠ v)
    xl.atsWait := s.xl.atsWait.filter (fun r => r.vat ≠ v)
    xl.held := s.xl.held.filter (fun g => g.vat ≠ v)
    xl.atsReqs := s.xl.atsReqs.map (fun r => if r.vat = v then { r with stale := true } else r) }

/-- Vat v becomes FREE: page requests cancelled with a Stop Marker for each PASID, watchers released, translations
removed, its hoops gone (R50, R213). -/
def killVat (v : Nat) (s : State) : State :=
  let marks := stopMarks s v
  let s := forAll (hoopsWith s (fun x => x.vat = v)) killHoop s
  let s := s |> cancelPages (fun r => r.vat = v) |> forAll marks (fun m => emit (.stopMarker m.1 m.2)) |> purgeVat v
  leaveWait v { s with wk.vats := tabDel s.wk.vats v }

/-- Vat v enters ABORTING: no entry of it starts, its walks stop (R50). -/
def startTear (v : Nat) (silent : Bool) (by_ : Option Nat) (s : State) : State :=
  if (s.vat v).st = .free then s
  else
    let s := modVat v (fun x => { x with st := .aborting, destroyBy := by_.or x.destroyBy, tearSilent := x.tearSilent || silent }) s
    leaveWait v { s with xl.walks := s.xl.walks.filter (fun w => w.vat ≠ v) }

/-- The pages that the ABORTED status words and the head of hoop h need. -/
def tearPages (s : State) (h : Nat) : List (Nat × Access) :=
  let x := s.hoop h
  (if x.head = x.tail then [] else needPages x.ringBase (64 * 2 ^ x.log2) .write) ++
    (if x.pub = x.tail then [] else needPages x.headAddr 8 .write)

/-- Write one 8-byte word of a vat, where its translation and its target allow. -/
def putWord (v va x : Nat) (s : State) : State :=
  match lookup s v va .write with
  | .ok pa => if homeUp s (homeOf pa) then writeNat pa 8 x s else s
  | _ => s

/-- ABORTED for entry k of hoop h, known to the engine or not yet fetched (R50, R52). -/
def abortEntry (h : Nat) (k : W32) (s : State) : State :=
  let x := s.hoop h
  let slot := slotAddr x k
  match entryOf s h k with
  | none => putWord x.vat (slot + 56) (statusWord .aborted false 0 0) s
  | some e =>
    let run := inFlight e && !e.segs.isEmpty
    s |> when run (clobberEntry h e)
      |> when run (putWord x.vat (slot + 40) (segMap e))
      |> putWord x.vat (slot + 56) (statusWord .aborted run (e.segs.length - 1) (if run then doneBytes e else 0))

/-- Indices of hoop h's accepted entries that are not complete. -/
def openIdx (s : State) (h : Nat) : List W32 :=
  let x := s.hoop h
  ((List.range (x.tail - x.head).toNat).map (fun k => x.head + BitVec.ofNat 32 k)).filter (fun i => !x.doneAhead.contains i)

/-- Every entry of hoop h from the head to the last accepted tail ends ABORTED, and the head is published (R50). -/
def abortHoop (h : Nat) (s : State) : State :=
  let l := openIdx s h
  let x := s.hoop h
  s |> forAll l (abortEntry h)
    |> when (!isVf x.fn || tabHas s.ev.fns x.fn)
      (modFnS x.fn (fun f => { f with entriesDone := f.entriesDone + BitVec.ofNat 64 l.length }))
    |> modWheel (hoopWheel s h) (fun w => { w with entries := w.entries + BitVec.ofNat 64 l.length })
    |> modHoop h (fun x => { x with head := x.tail, pub := x.tail, entries := [] })
    |> putWord x.vat x.headAddr (headWord { x with head := x.tail })

/-- The VAT_ABORTED record of a vat with n entries aborted (R44, R52). R43 leaves SOURCE to the chapter that owns the record,
and none states it: 0 (DESIGN CHOICE, log entry 119). -/
def vatAbortedRec (s : State) (v n : Nat) : EvRec :=
  { cookie := 0, kind := 0x04, status := 0, source := 0, fn := BitVec.ofNat 16 (funcId (s.vat v).fn), vat := v
    detail := n, isrc := some (20512 + pfOf (s.vat v).fn) }

/-- Entries of hoop h whose status word was written before the teardown are complete, though its answer is still to come
(R50, R70). -/
def landWritten (h : Nat) (s : State) : State :=
  forAll ((s.hoop h).entries.filter (fun e => e.phase = .written)) (fun e t =>
    t |> dropOwner (.status h e.idx) |> retireEntry h e) s

/-- Finish the teardown of an ABORTING vat, once the words that it writes have their translations (R50, R52). -/
def finishTear (v : Nat) (s : State) : State :=
  let x := s.vat v
  if x.st ≠ .aborting then s
  else
    let hs := hoopsWith s (fun y => y.vat = v)
    let s := forAll hs landWritten s
    let pages := hs.flatMap (tearPages s)
    if pages.any (fun p => lookup s v p.1 p.2 = .miss) then startPages centralTlb v (pages.filter (fun p => lookup s v p.1 p.2 = .miss)) s
    else
      let n := ((hs.map (fun h => (openIdx s h).length))).sum
      let r := vatAbortedRec s v n
      let waiting := hs.filterMap (fun h => (s.hoop h).disableBy)
      s |> forAll hs abortHoop
        |> when (x.faultEvqValid && !x.tearSilent) (postRec x.faultEvq r)
        |> killVat v |> tryEvict
        |> forAll waiting (fun a => adminEnd a .aborted)
        |> (fun s => match x.destroyBy with | some a => adminEnd a .ok s | none => s)

/-- Vats of a function. -/
def vatsOf (s : State) (f : Fn) : List Nat := (s.wk.vats.filter (fun v => v.2.fn = f && v.2.st ≠ .free)).map (·.1)

/-- Event hoops of a function. -/
def evqsOf (s : State) (f : Fn) : List Nat := (s.ev.evhoops.filter (fun e => e.2.present && e.2.fn = f)).map (·.1)

/-- Clear a function's MSI-X state (R282, R283). -/
def clearMsix (f : Fn) (s : State) : State :=
  modFnS f (fun x => { x with msixEn := false, funcMask := false, msix := [], claimQ := [] }) s

/-- Functions of host-class port p: its physical function and its virtual functions (R283). -/
def fnsOfPort (s : State) (p : Nat) : List Fn :=
  .pf p :: (s.ev.fns.map (·.1)).filter (fun f => isVf f && pfOf f = p)

/-! ### What a change of translations lets go on (R207, R210, R218) -/

/-- The first failing page of segment j's accesses: address and cause. -/
def segFault (s : State) (h : Nat) (e : Entry) (j : Nat) : Option (Nat × Nat) :=
  match pagesOutcome s none (s.hoop h).vat ((segAccesses s h e j).flatMap (fun r => needPages r.1 r.2.1 r.2.2)) with
  | .fault va c => some (va, c)
  | _ => none

/-- Segment j of entry i, not yet moved, meets a page that fails: its ladle will stop at that page, with the units before it
applied; with none before it the segment fails now (R24, R218, R219). -/
def stopSeg (h : Nat) (i : W32) (j : Nat) (s : State) : State :=
  match segLive s h i j with
  | none => s
  | some (e, _) =>
    match segFault s h e j with
    | none => s
    | some (va, c) =>
      let (a, b) := segRange s h e j
      let m := if segUnit s h e = 0 then 0 else unitsBefore s h e j 64 0 (b - a)
      let s := vatFault (s.hoop h).vat (causeBit c) c va s
      if m = 0 then failSeg h i j (.revoked (c = 0x10)) (knownBytes e j) s
      else modEntry h i (fun e => { e with stops := (e.stops.filter (fun x => x.1 ≠ j)) ++ [(j, (m, .revoked (c = 0x10)))] }) s

/-- Segments of running entries that have not moved, whether or not their peer reads are sent, and whose translations now
fail, are stopped (R218). -/
def revokeSegs (s : State) : State :=
  let l := (s.wk.hoops.filter (fun h => h.2.present)).flatMap (fun h =>
    (h.2.entries.filter (fun e => e.phase = .started)).flatMap (fun e =>
      ((List.range e.segs.length).filter (fun j => (e.segs[j]? = some .todo || e.segs[j]? = some .asked) &&
        (segFault s h.1 e j).isSome)).map (fun j => (h.1, e.idx, j))))
  forAll l (fun g => stopSeg g.1 g.2.1 g.2.2) s

/-- Vats named by a CREATE_HOOP that waits for translations (R36). -/
def hoopVats (s : State) : List Nat :=
  (s.wk.admins.filterMap (fun a => a.2.entries.find? (fun e => e.phase = .started && e.opcode = 0x80))).map Entry.vatId

/-- After translations have come or gone: waiting checks, completions, heads, records and fetches go on; what needed a
failed page fails; failed translations are then forgotten, so that a later access asks again, but for those that a teardown or a
CREATE_HOOP still waits to see. -/
def rescan (s : State) : State :=
  let hs := hoopsWith s (fun _ => true)
  let s := s
    |> forAll hs (fun h t => forAll ((t.hoop h).entries.map (·.idx)) (fun i u => u |> checkEntry h i |> tryFinish h i) t)
    |> forAll hs (fun h t => t |> when (t.hoop h).pubDue (publishHead h) |> askRing h)
    |> revokeSegs |> revokeWaits |> flushRecs |> trimPages
    |> (fun t => forAll ((t.ev.fns.filter (fun f => f.2.vfState = .freezing)).map (·.1)) tryFrozen t)
  { s with xl.xfaults := s.xl.xfaults.filter (fun x => (s.vat x.vat).st = .aborting || (hoopVats s).contains x.vat) }
  |> forAll (dedup (hs.map sliceOf)) holdPages |> serveAgain

/-! ### Loss of a host (R283, R284) -/

/-- The references that objects hold to an admin hoop that is disabled at once. -/
def dropAdminRefs (a : Nat) (s : State) : State :=
  { s with
    wk.hoops := s.wk.hoops.map (fun h => (h.1, { h.2 with disableBy := if h.2.disableBy = some a then none else h.2.disableBy }))
    wk.vats := s.wk.vats.map (fun v => (v.1, { v.2 with destroyBy := if v.2.destroyBy = some a then none else v.2.destroyBy }))
    wk.recipes := s.wk.recipes.filter (fun r => r.unloadBy ≠ some a)
    ev.fns := s.ev.fns.map (fun f => (f.1, { f.2 with freezeBy := if f.2.freezeBy = some a then none else f.2.freezeBy })) }

/-- The admin hoop of a lost or reset function is disabled: nothing of it is in progress any more (R283). -/
def killAdmin (a : Nat) (s : State) : State :=
  s |> modAdmin a (fun x => { x with enable := false, running := false, idle := true, entries := [], cur := none })
    |> dropReqs (fun r => r.owner = .adminInput a || r.owner = .ring (.admin a)) |> dropAdminRefs a

/-- Every virtual function of port p returns to the pool (R282, R283). -/
def returnVfs (p : Nat) (s : State) : State :=
  { s with
    ev.fns := s.ev.fns.filter (fun f => !(isVf f.1 && pfOf f.1 = p))
    lk.vfFree := s.lk.vfFree + (s.hc p).numVfs }
  |> modHc p (fun x => { x with vfEnable := false, numVfs := 0, vfFlrReq := [] })

/-- Segments that are moving data through the window of host p: hoop, index, segment; those that write there fail with its
loss, though a posted write has no answer (R284). -/
def segsToward (s : State) (p : Nat) : List (Nat × W32 × Nat) :=
  (s.wk.hoops.filter (fun h => h.2.present)).flatMap (fun h =>
    (h.2.entries.filter (fun e => e.phase = .started)).flatMap (fun e =>
      ((List.range e.segs.length).filter (fun j => (e.segs[j]? = some .busy || e.segs[j]? = some .asked) &&
        (segAccesses s h.1 e j).any (fun r => regionOf r.1 = .window p))).map (fun j => (h.1, e.idx, j))))

/-- Port p's host is lost: the effects of R283. The vats end under finishTear. -/
def hostLoss (p : Nat) (s : State) : State :=
  let fs := fnsOfPort s p
  let vs := fs.flatMap (vatsOf s)
  let es := fs.flatMap (evqsOf s)
  let s := s
    |> modHc p (fun x => { x with
        lost := true, tearing := true, busMaster := false, ide := [], invals := 0, pendWidth := none, err := x.err ||| 1 })
    |> killAdmin p
    |> forAll vs (fun v => startTear v true none)
    |> forAll es killEvq
  let s := { s with
      wk.recipes := s.wk.recipes.filter (fun r => !(fs.contains r.fn))
      se.spdm := s.se.spdm.filter (fun x => x.1 ≠ .doe p)
      xl.xlats := s.xl.xlats.filter (fun x => x.port ≠ some p)
      xl.atsReqs := s.xl.atsReqs.filter (fun r => r.port ≠ p)
      xl.atsWait := s.xl.atsWait.filter (fun r => r.port ≠ p)
      xl.invals := s.xl.invals.filter (fun r => r.port ≠ p)
      xl.priStopped := s.xl.priStopped.filter (· ≠ p)
      cx.cohLines := s.cx.cohLines.filter (fun l => l.port ≠ p)
      cx.evict := s.cx.evict.filter (fun l => l.port ≠ p) }
  s |> forAll fs clearMsix |> cancelPages (fun r => r.port = p)
    |> dropFilter (fun f => f.port = p)
    |> failReqs (fun r => r.tgt = .host p) (fun _ => .target)
    |> (fun t => forAll (segsToward t p) (fun g => failLive g.1 g.2.1 g.2.2 .target) t)
    |> returnVfs p |> rescan

/-- The port's lost state ends once the link is up, the teardown complete and Bus Master Enable set again (R284). -/
def tryFound (p : Nat) (s : State) : State :=
  modHc p (fun x => if x.linkUp && !x.tearing && x.busMaster then { x with lost := false } else x) s

/-- Cached device-local translations to the far tier behind port p go, so that its pages fault when they are walked (R306). -/
def dropFarXlats (p : Nat) (s : State) : State :=
  { s with xl.xlats := s.xl.xlats.filter (fun x => !(x.port = none && homeOf x.pa = .far p)) }

/-- A far-memory port's link goes down: key, capacity and contents go, its pages fault, running segments fail (R306). -/
def farLoss (p : Nat) (s : State) : State :=
  s |> modHc p (fun x => { x with ready := false, farOk := false, encKey := false, capacity := 0, err := x.err ||| 1 })
    |> failReqs (fun r => r.tgt = .far p) (fun _ => .target)
    |> zeroRange (2 ^ 48 + p * 2 ^ 42) (2 ^ 42) |> dropFarXlats p |> rescan

/-- LINK_UP of a host-class port falls: R283 in HOST mode, R306 in FAR mode. -/
def hcDown (p : Nat) (s : State) : State :=
  let t := modHc p (fun x => { x with linkUp := false, cxl := false, rate := 0, width := 0 }) s
    |> modRsh p (fun x => { x with trained := false })
  if (s.hc p).modeAct then farLoss p t else hostLoss p t

/-! ### Slices (R391, R392) -/

/-- The entries of hoop h that its engine has not fetched, as the ring shows them where it can be read. -/
def unfetched (s : State) (h : Nat) : List Entry :=
  let x := s.hoop h
  ((openIdx s h).filter (fun i => !(x.entries.any (fun e => e.idx = i)))).map (fun i =>
    match lookup s x.vat (slotAddr x i) .read with
    | .ok pa => entryOfWords i x.epoch (qwords 8 (readBytes s pa 64))
    | _ => { idx := i, epoch := x.epoch })

/-- Entry i of hoop h completes with PARTIAL and its segment map (R392). -/
def partEntry (h : Nat) (i : W32) (s : State) : State :=
  match entryOf s h i with
  | none => s
  | some e =>
    let e' := if e.segs.isEmpty then { e with segs := List.replicate (segCount s h e) .todo, segDone := [] } else e
    s |> modEntry h i (fun _ => e') |> clobberEntry h e' |> decideEntry h i .partialDone true (doneBytes e')

/-- Every entry of hoop h that is not complete completes with PARTIAL (R392). -/
def partHoop (h : Nat) (s : State) : State :=
  let more := unfetched s h
  let l := openIdx s h
  s |> disarmHoop h |> dropOwner (.ring (.data h))
    |> modHoop h (fun x => { x with
        entries := x.entries ++ more, fetchNext := x.tail, pushed := [], disabling := x.enabled || x.disabling, enabled := false
        migrating := false })
    |> forAll l (partEntry h) |> publishHead h |> tryIdle h

/-- Segments of running entries that lie on slice k: hoop, index, segment. -/
def segsOn (s : State) (k : Nat) : List (Nat × W32 × Nat) :=
  (s.wk.hoops.filter (fun h => h.2.present)).flatMap (fun h =>
    (h.2.entries.filter (fun e => e.phase = .started && !e.slices.isEmpty)).flatMap (fun e =>
      ((List.range e.segs.length).filter (fun j => e.slices.getD (j % e.slices.length) 0 = k)).map (fun j => (h.1, e.idx, j))))

/-- Entries in flight that run a recipe. -/
def recipeUsers (s : State) (r : Recipe) : List (Nat × W32) :=
  (s.wk.hoops.filter (fun h => h.2.present && h.2.fn = r.fn)).flatMap (fun h =>
    (h.2.entries.filter (fun e => inFlight e && isRecipeOp e.opcode && e.subop = r.handle)).map (fun e => (h.1, e.idx)))

/-- The replicas that satisfy p are lost: they serve no entry, and their cells are freed once the entries that need them have
ended (R161). -/
def loseReplicas (p : Replica → Bool) (s : State) : State :=
  { s with wk.recipes := s.wk.recipes.map (fun r => { r with replicas := r.replicas.map (fun x =>
      if x.alive && p x then (let u := recipeUsers s r; if u.isEmpty then { alive := false } else { x with alive := false, users := u })
      else x) }) }

/-- Slice k enters its safe state: its segments fail, its hoops end and are disabled, its replicas go (R391, R392). -/
def sliceDown (k : Nat) (s : State) : State :=
  if s.rn.safeSlices.contains k then s
  else
    { s with rn.safeSlices := s.rn.safeSlices ++ [k] } |> loseReplicas (fun x => x.slices.contains k)
      |> loseResv (fun r => decide (homeOf r.2.granule = .slice k))
      |> forAll (segsOn s k) (fun g => failLive g.1 g.2.1 g.2.2 .target)
      |> forAll (hoopsWith s (fun _ => true) |>.filter (fun h => sliceOf h = k)) partHoop

end Sys2Proof.Machine
end

