-- ==== Sys2Proof/Machine/Vats.lean ====
section
/-! DEFINITION. Vats: the end of a teardown, loading into a hardware slot, and the slot time (R30 to R33, R50). -/

namespace Sys2Proof.Machine

open Sys2Proof

/-- VAT_TEARDOWN_COMPLETE, R50: an ABORTING vat's ABORTED statuses and heads are written, VAT_ABORTED is posted, the vat
becomes FREE and DESTROY_VAT completes. -/
def execVatTeardownComplete (v : Nat) (s : State) : Host.Outcome State Fault Refusal := .next (finishTear v s)

/-- Load vat v into slot k (R31, R33); a waiting period that ends with it lifts the slot times (DEDUCED: they count within
a waiting period). -/
def loadVat (v k : Nat) (s : State) : State :=
  { s with wk.useStamp := s.wk.useStamp + 1 }
  |> modVat v (fun x => { x with
    st := if x.st = .pinned then .pinned else .resident
    slot := some k, loadedAt := s.tm.deviceTime, lastUse := s.wk.useStamp + 1, expired := false })
  |> leaveWait v |> tryEvict

/-- VAT_LOAD, R31: the vat that began to wait first takes a free slot (R32). -/
def execVatLoad (v : Nat) (s : State) : Host.Outcome State Fault Refusal :=
  .next (match s.wk.vatWait.head?, freeSlot s with
    | some w, some k => if w = v then loadVat v k s else s
    | _, _ => s)

/-- VAT_SLOT_EXPIRY, R32: a RESIDENT vat that has held its slot for 100 µs of a waiting period starts no new entry and
is evicted once its entries in flight have finished. -/
def execVatSlotExpiry (v : Nat) (s : State) : Host.Outcome State Fault Refusal :=
  .next (if (s.vat v).st = .resident && (s.vat v).slot.isSome && !s.wk.vatWait.isEmpty then
      s |> modVat v (fun x => { x with expired := true }) |> tryEvict
    else s)

end Sys2Proof.Machine
end

