-- ==== Sys2Proof/Machine/AdminObj.lean ====
section
/-! DEFINITION. The frame of admin commands, and the commands that create and destroy hoops, event hoops and vats (R29,
R33, R35, R36, R50, R53, R77, R79, R81, R82, R118 to R120, R220, R221, R421, R449, R493). -/

namespace Sys2Proof.Machine

open Sys2Proof

/-! ### The frame of an admin command (R82, R118, R493) -/

/-- The entry in progress on admin hoop a, where its opcode is op and it is not yet under way as a long-running command. -/
def adminEntry (s : State) (a op : Nat) : Option Entry :=
  match adminCur s a with
  | some e => if e.opcode = op && (s.admin a).cur.isNone then some e else none
  | none => none

/-- The parameter block of an admin entry, as qwords (R118). -/
def adminBlock (s : State) (a : Nat) (e : Entry) : List W64 :=
  qwords ((e.length + 7) / 8) (readBytes s (hostLoc a e.src.toNat) e.length)

/-- Whether n bytes of an input at address p can be read for admin hoop a (R493). -/
def inputOk (s : State) (a p n : Nat) : Bool := homeUp s (.host a) && !poisonedAt s (hostLoc a p) n

/-- A failed read of an input ends the command with PARTIAL and a map of 0 (R493). -/
def adminUnread (a : Nat) (s : State) : State := adminFinish a .partialDone true 0 s

/-- Run an admin command: the entry in progress on admin hoop a has opcode op and is the one that sel describes; act gets
the entry and its parameter block, whose read may fail first (R493). -/
def adminRun (a op : Nat) (sel : Entry → List W64 → Bool) (act : Entry → List W64 → State → State) (s : State) : State :=
  match adminEntry s a op with
  | none => s
  | some e =>
    if !noBlock op && !inputOk s a e.src.toNat e.length then adminUnread a s
    else if sel e (adminBlock s a e) then act e (adminBlock s a e) (dropOwner (.adminInput a) s)
    else s

/-- Qword k of a parameter block. -/
def qw (q : List W64) (k : Nat) : Nat := (q.getD k 0).toNat

/-- Length of an output buffer, OPERAND[31:0] (R118). -/
def outLen (e : Entry) : Nat := field e.operand.toNat 31 0

/-- The command goes on; ADMIN_COMMAND_COMPLETE or a later event ends it (R82). -/
def adminHold (a : Nat) (k : AdminKind) (st : Status) (done : Nat) (s : State) : State :=
  match adminCur s a with
  | some e => modAdmin a (fun x => { x with cur := some { idx := e.idx, kind := k, status := st, doneBytes := done, ports := [], dst := 0 } }) s
  | none => s

/-- Write bytes at a command's output buffer, a posted write (R118, R493). -/
def adminOut (a p : Nat) (bs : List Byte) (s : State) : State :=
  if homeUp s (.host a) then s |> writeBytes (hostLoc a p) bs |> hostPut a (hostLoc a p) bs false else s

/-! ### Functions that a command names (R43, R411) -/

/-- Whether a function exists (R280, R281). -/
def fnExists (s : State) (f : Fn) : Bool :=
  match f with
  | .pf p => p < 16 && hostMode s p
  | .vf _ _ => (s.fnS f).granted
  | .bu => true

/-- Whether a FUNC_ID names the issuing physical function or one of its virtual functions. -/
def namesOwn (s : State) (a x : Nat) : Bool := funcId (fnOfId x) = x && ownsFn a (fnOfId x) && fnExists s (fnOfId x)

/-- Whether a FUNC_ID names a virtual function of the issuer. -/
def namesVf (s : State) (a x : Nat) : Bool := namesOwn s a x && isVf (fnOfId x)

/-! ### CREATE_HOOP (R29, R35, R36, R119, R421) -/

/-- LOG2_SIZE of a CREATE_HOOP block. -/
def chLog2 (q : List W64) : Nat := field (qw q 2) 4 0
/-- NUMBER. -/
def chNumber (q : List W64) : Nat := field (qw q 3) 13 0
/-- VF_SLOT. -/
def chSlot (q : List W64) : Nat := field (qw q 3) 20 16
/-- FUNC_ID. -/
def chFn (q : List W64) : Nat := field (qw q 2) 63 48
/-- EVQ. -/
def chEvq (q : List W64) : Nat := field (qw q 2) 47 36
/-- PUB_COUNT. -/
def chPub (q : List W64) : Nat := field (qw q 2) 31 16

/-- Fields that every CREATE_HOOP block has in range (R119). -/
def chFieldsOk (q : List W64) : Bool :=
  field (qw q 0) 11 0 = 0 && field (qw q 1) 2 0 = 0 && field (qw q 2) 35 32 = 0 && field (qw q 2) 15 9 = 0 &&
    field (qw q 2) 7 5 = 0 && field (qw q 3) 63 21 = 0 && field (qw q 3) 15 14 = 0 && 4 ≤ chLog2 q && chLog2 q ≤ 16

/-- Entries of ring capacity bound to a vat (R29). -/
def vatEntries (s : State) (v : Nat) : Nat := ((s.wk.hoops.filter (fun h => h.2.present && h.2.vat = v)).map (fun h => 2 ^ h.2.log2)).sum

/-- The first check of a data CREATE_HOOP that fails, before translation (R29, R35, R119, R411, R421). -/
def createHoopCheck (s : State) (a : Nat) (e : Entry) (q : List W64) : Option Status :=
  let w := hcWheelOf s a
  let v := e.vatId
  let f := fnOfId (chFn q)
  let n := chNumber q
  if !chFieldsOk q || chPub q = 0 || (chSlot q ≠ 0 && !isVf f) then some .malformed
  else if !namesOwn s a (chFn q) || hoopWheel s n ≠ w || vatBlockOf s v ≠ w || evqBlockOf s (chEvq q) ≠ w then some .rindViolation
  else if (s.vat v).st = .free || (s.vat v).st = .aborting then some .badVat
  else if (s.vat v).fn ≠ f || (s.vat v).wheel ≠ w then some .rindViolation
  else if (s.hoop n).present || 2 ^ 20 < vatEntries s v + 2 ^ chLog2 q then some .busy
  else if isVf f && ((hoopsOf s f).any (fun h => (s.hoop h).vfSlot = chSlot q) ||
      min 32 (s.fnS f).grHoops ≤ (hoopsOf s f).length) then some .busy
  else none

/-- The pages of a ring and head word that CREATE_HOOP translates (R36). -/
def createHoopPages (q : List W64) : List (Nat × Access) :=
  needPages (qw q 0) (64 * 2 ^ chLog2 q) .read ++ needPages (qw q 0) (64 * 2 ^ chLog2 q) .write ++ needPages (qw q 1) 8 .write

/-- Forget the failed translations of a vat that a CREATE_HOOP waited to see. -/
def forgetFaults (v : Nat) (s : State) : State := { s with xl.xfaults := s.xl.xfaults.filter (fun x => x.vat ≠ v) }

/-- Translate the pages that a CREATE_HOOP needs: wait, end with XLATE_FAULT, or go on (R36). -/
def adminPages (a v : Nat) (ps : List (Nat × Access)) (go : State → State) (s : State) : State :=
  match pagesOutcome s none v ps with
  | .wait => startPages centralTlb v (ps.filter (fun p => lookup s v p.1 p.2 = .miss)) s
  | .fault _ _ => s |> adminEnd a .xlateFault |> forgetFaults v
  | .ok => s |> go |> adminEnd a .ok |> forgetFaults v

/-- The data hoop that a CREATE_HOOP block describes (R78, R119). -/
def newHoop (s : State) (v : Nat) (q : List W64) : Hoop :=
  { present := true, fn := (s.vat v).fn, vat := v, evq := chEvq q, ringBase := qw q 0, headAddr := qw q 1, pubCount := chPub q
    log2 := chLog2 q, vfSlot := chSlot q, enabled := bitOf (qw q 2) 8, idle := !bitOf (qw q 2) 8 }

/-- CREATE_HOOP of a data hoop, R119. -/
def execCreateHoop (a : Nat) (s : State) : Host.Outcome State Fault Refusal :=
  .next (adminRun a 0x80 (fun e _ => e.subop = 0) (fun e q s =>
    match createHoopCheck s a e q with
    | some st => adminEnd a st s
    | none => adminPages a e.vatId (createHoopPages q) (fun s => modHoop (chNumber q) (fun _ => newHoop s e.vatId q) s) s) s)

/-- The first check of an event CREATE_HOOP that fails, before translation (R36, R119, R372, R411, R421). -/
def createEvqCheck (s : State) (a : Nat) (e : Entry) (q : List W64) : Option Status :=
  let w := hcWheelOf s a
  let v := e.vatId
  let f := fnOfId (chFn q)
  let n := chNumber q
  if !chFieldsOk q || qw q 1 ≠ 0 || chEvq q ≠ 0 || chPub q ≠ 0 || chSlot q ≠ 0 || 4096 ≤ n then some .malformed
  else if !namesOwn s a (chFn q) || evqBlockOf s n ≠ w || (isVf f && isFastEvq n) || (v ≠ 0xFFFF && vatBlockOf s v ≠ w)
    then some .rindViolation
  else if v ≠ 0xFFFF && ((s.vat v).st = .free || (s.vat v).st = .aborting) then some .badVat
  else if v ≠ 0xFFFF && ((s.vat v).fn ≠ f || (s.vat v).wheel ≠ w) then some .rindViolation
  else if (s.evq n).present || (isVf f && (s.fnS f).grEvqs ≤ (evqsOf s f).length) then some .busy
  else none

/-- The event hoop that a CREATE_HOOP block describes (R36, R119). -/
def newEvq (v : Nat) (q : List W64) : EvHoop :=
  { present := true, fn := fnOfId (chFn q), ringBase := qw q 0, vat := if v = 0xFFFF then none else some v, log2 := chLog2 q }

/-- CREATE_HOOP of an event hoop, R119. -/
def execCreateEventHoop (a : Nat) (s : State) : Host.Outcome State Fault Refusal :=
  .next (adminRun a 0x80 (fun e _ => e.subop = 1) (fun e q s =>
    match createEvqCheck s a e q with
    | some st => adminEnd a st s
    | none =>
      let put (s : State) : State := modEvq (chNumber q) (fun _ => newEvq e.vatId q) s
      if e.vatId = 0xFFFF then s |> put |> adminEnd a .ok
      else adminPages a e.vatId (needPages (qw q 0) (32 * 2 ^ chLog2 q) .write) put s) s)

/-! ### DESTROY_HOOP and DISABLE_HOOP (R77, R79, R81) -/

/-- Number that a DESTROY_HOOP or DISABLE_HOOP names. -/
def hoopNumber (e : Entry) : Nat := field e.lenStride.toNat 13 0

/-- The rows of R79 that DISABLE_HOOP and DESTROY_HOOP share. -/
def hoopNamed (s : State) (a h : Nat) : Option Status :=
  if hoopWheel s h ≠ hcWheelOf s a then some .rindViolation
  else if !(s.hoop h).present then some .malformed
  else if !ownsFn a (s.hoop h).fn then some .rindViolation
  else if (s.vat (s.hoop h).vat).st = .aborting then some .aborted
  else none

/-- DESTROY_HOOP of a data hoop, R79. -/
def execDestroyHoop (a : Nat) (s : State) : Host.Outcome State Fault Refusal :=
  .next (adminRun a 0x81 (fun e _ => e.subop = 0) (fun e _ s =>
    let h := hoopNumber e
    match hoopNamed s a h with
    | some st => adminEnd a st s
    | none =>
      if (s.hoop h).migrating || (s.hoop h).enabled || !(s.hoop h).idle then adminEnd a .busy s
      else s |> killHoop h |> adminEnd a .ok) s)

/-- Whether a data hoop, vat, group, wheel, Rennet or admin hoop names event hoop e (R81). -/
def evqNamed (s : State) (e : Nat) : Bool :=
  s.wk.hoops.any (fun h => h.2.present && h.2.evq = e) ||
    s.wk.vats.any (fun v => v.2.st ≠ .free && v.2.faultEvqValid && v.2.faultEvq = e) ||
    s.pr.colls.any (fun g => g.2.enable && g.2.evq = e) ||
    s.wh.wheels.any (fun w => w.2.present && w.2.yieldValid && w.2.yieldEvq = e) ||
    (s.rn.rennetEvqValid && s.rn.rennetEvq = e) || s.wk.admins.any (fun x => x.2.evqValid && x.2.evq = e)

/-- DESTROY_HOOP of an event hoop, R81: the event hoop goes, and the status follows within 10 µs. -/
def execDestroyEventHoop (a : Nat) (s : State) : Host.Outcome State Fault Refusal :=
  .next (adminRun a 0x81 (fun e _ => e.subop = 1) (fun e _ s =>
    let n := hoopNumber e
    if 4096 ≤ n || evqBlockOf s n ≠ hcWheelOf s a || ((s.evq n).present && !ownsFn a (s.evq n).fn) then adminEnd a .rindViolation s
    else if !(s.evq n).present then adminEnd a .malformed s
    else if evqNamed s n then adminEnd a .busy s
    else s |> killEvq n |> adminHold a (.destroyEvq n) .ok 0) s)

/-- DISABLE_HOOP, R77 and R79: it completes when the hoop is idle. -/
def execDisableHoop (a : Nat) (s : State) : Host.Outcome State Fault Refusal :=
  .next (adminRun a 0x82 (fun _ _ => true) (fun e _ s =>
    let h := hoopNumber e
    match hoopNamed s a h with
    | some st => adminEnd a st s
    | none =>
      if (s.hoop h).idle && !(s.hoop h).enabled && !(s.hoop h).migrating then adminEnd a .ok s
      else s |> adminHold a (.disable h) .ok 0
        |> modHoop h (fun x => { x with enabled := false, disabling := true, disableBy := some a }) |> publishHead h |> tryIdle h) s)

/-! ### CREATE_VAT and DESTROY_VAT (R33, R50, R53, R220, R221, R449) -/

/-- FUNC_ID of a CREATE_VAT block. -/
def cvFn (q : List W64) : Nat := field (qw q 1) 63 48
/-- Window qword h. -/
def cvWin (q : List W64) (h : Nat) : Nat := qw q (2 + h)
/-- ROOT. -/
def cvRoot (q : List W64) : Nat := field (qw q 0) 51 12 * 4096

/-- The window entry that a qword describes (R220). -/
def winEntry (x : Nat) : Win :=
  { reqFn := fnOfId (field x 63 48), sx := bitOf x 22, priEn := bitOf x 21, pasidEn := bitOf x 20, pasid := field x 19 0 }

/-- Reserved fields, ROOT and FAULT_EVQ of a CREATE_VAT block (R221, first row). -/
def cvFieldsOk (s : State) (q : List W64) : Bool :=
  field (qw q 0) 11 1 = 0 && field (qw q 1) 34 16 = 0 &&
    (List.range 16).all (fun h => field (cvWin q h) 47 23 = 0 && (bitOf (qw q 1) h || cvWin q h = 0)) &&
    (!bitOf (qw q 0) 0 || field (qw q 0) 63 12 * 4096 < 2 ^ 42) &&
    (!bitOf (qw q 1) 35 || ((s.evq (field (qw q 1) 47 36)).present && (s.evq (field (qw q 1) 47 36)).fn = fnOfId (cvFn q)))

/-- Whether window h may be enabled with its REQ_FUNC (R221, rows 3 and 4). -/
def cvWindowOk (s : State) (w : Nat) (f : Fn) (q : List W64) (h : Nat) : Bool :=
  let x := field (cvWin q h) 63 48
  let r := fnOfId x
  hcWheelOf s h = w && hostMode s h && funcId r = x && pfOf r = h && fnExists s r && (!isVf f || (h = pfOf f && r = f))

/-- Vats that hold the pin (R33). -/
def pinnedVats (s : State) (p : Vat → Bool) : Nat := (s.wk.vats.filter (fun v => v.2.pin && v.2.st ≠ .free && p v.2)).length

/-- The first row of R221 that matches; none: the vat is created. -/
def createVatCheck (s : State) (a : Nat) (e : Entry) (q : List W64) : Option Status :=
  let w := hcWheelOf s a
  let f := fnOfId (cvFn q)
  let hs := (List.range 16).filter (fun h => bitOf (qw q 1) h)
  if !cvFieldsOk s q then some .malformed
  else if !namesOwn s a (cvFn q) || vatBlockOf s e.vatId ≠ w || (bitOf (qw q 0) 0 && acdWheelOf s (cvRoot q / 2 ^ 40) ≠ w) then
    some .rindViolation
  else if !hs.all (cvWindowOk s w f q) then some .rindViolation
  else if (s.vat e.vatId).st ≠ .free then some .badVat
  else if e.flag 0 && (32 ≤ pinnedVats s (fun _ => true) || (s.wheel w).pinQuota ≤ pinnedVats s (fun v => v.wheel = w)) then some .busy
  else if isVf f && (s.fnS f).grVats ≤ (vatsOf s f).length then some .busy
  else if !(List.range 4).any (fun k => (s.acd k).up) then some .busy
  else none

/-- The vat that a CREATE_VAT block describes (R220, R221). -/
def newVat (w : Nat) (e : Entry) (q : List W64) : Vat :=
  { st := if e.flag 0 then .pinned else .idle, fn := fnOfId (cvFn q), wheel := w, root := cvRoot q, rootValid := bitOf (qw q 0) 0
    faultEvq := field (qw q 1) 47 36, faultEvqValid := bitOf (qw q 1) 35, windowMask := BitVec.ofNat 16 (field (qw q 1) 15 0)
    windows := ((List.range 16).filter (fun h => bitOf (qw q 1) h)).map (fun h => (h, winEntry (cvWin q h))), pin := e.flag 0 }

/-- A pinned vat takes a free slot at once, where one exists and no vat waits before it; else it waits in its turn (R33). -/
def pinSlot (v : Nat) (s : State) : State :=
  match freeSlot s with
  | some k => if s.wk.vatWait.isEmpty then loadVat v k s else needSlot v s
  | none => needSlot v s

/-- CREATE_VAT, R221. -/
def execCreateVat (a : Nat) (s : State) : Host.Outcome State Fault Refusal :=
  .next (adminRun a 0x83 (fun _ _ => true) (fun e q s =>
    match createVatCheck s a e q with
    | some st => adminEnd a st s
    | none => s |> modVat e.vatId (fun _ => newVat (hcWheelOf s a) e q) |> when (e.flag 0) (pinSlot e.vatId) |> adminEnd a .ok) s)

/-- The first row of R53 that matches. -/
def destroyVatCheck (s : State) (a v : Nat) : Option Status :=
  let x := s.vat v
  if x.st = .free || x.st = .aborting then some .badVat
  else if !ownsFn a x.fn || x.wheel ≠ hcWheelOf s a then some .rindViolation
  else if isVf x.fn && (s.fnS x.fn).vfState ≠ .running then some .busy
  else if s.ev.evhoops.any (fun e => e.2.present && e.2.vat = some v) then some .busy
  else none

/-- DESTROY_VAT, R50 and R53: the teardown begins, and the command completes when the vat is FREE. -/
def execDestroyVat (a : Nat) (s : State) : Host.Outcome State Fault Refusal :=
  .next (adminRun a 0x84 (fun _ _ => true) (fun e _ s =>
    match destroyVatCheck s a e.vatId with
    | some st => adminEnd a st s
    | none => s |> adminHold a (.destroyVat e.vatId) .ok 0 |> startTear e.vatId false (some a)) s)

end Sys2Proof.Machine
end

