-- ==== Sys2Proof/Machine/AdminRecipe.lean ====
section
/-! DEFINITION. Loading and unloading recipes: the order of the checks, placement on free cells, the result (R143 to R152,
R161). -/

namespace Sys2Proof.Machine

open Sys2Proof

/-! ### Placement (R128, R151) -/

/-- Whether a logical cell is free: in service, and not taken by a replica or by this command. -/
def cellFree (s : State) (taken : List Nat) (c : Nat) : Bool :=
  !taken.contains c && !(s.spareQ (c / 512)).cellsOut.contains c &&
    !s.wk.recipes.any (fun r => r.replicas.any (fun x => x.cells.contains c))

/-- Logical cells of a placement unit, lowest first. -/
def unitCells (u : List Nat) : List Nat := u.flatMap (fun k => (List.range 64).map (64 * k + ·))

/-- The lowest free gang of a unit: 8 cells aligned on 8 (R151). -/
def freeGang (s : State) (taken : List Nat) (u : List Nat) : Option Nat :=
  ((unitCells u).filter (fun c => c % 8 = 0)).find? (fun c => (List.range 8).all (fun i => cellFree s taken (c + i)))

/-- The lowest free cell in the tile of the node's first producer, else the lowest free cell of the unit (R151). -/
def freeCell (s : State) (taken : List Nat) (u : List Nat) (near : Option Nat) : Option Nat :=
  let first := match near with
    | some c => ((List.range 16).map (c / 16 * 16 + ·)).find? (cellFree s taken)
    | none => none
  first.or ((unitCells u).find? (cellFree s taken))

/-- Cells that a replica has so far: by node the cell (the first of a gang), and all cells taken. -/
abbrev Placed : Type := List (Nat × Nat) × List Nat

/-- Place one node (R151). -/
def placeNode (s : State) (img : List Byte) (u : List Nat) (k : Nat) (p : Placed) : Option Placed :=
  let n := rNode img k
  if nodeCells n = 8 then
    (freeGang s p.2 u).map (fun c => (tabSet p.1 k c, p.2 ++ (List.range 8).map (c + ·)))
  else
    let near := (preds n).head?.bind (fun i => (p.1.find? (fun x => x.1 = i)).map (·.2))
    (freeCell s p.2 u near).map (fun c => (tabSet p.1 k c, p.2 ++ [c]))

/-- Place the nodes of a list in order. -/
def placeNodes (s : State) (img : List Byte) (u : List Nat) : List Nat → Placed → Option Placed
  | [], p => some p
  | k :: r, p => (placeNode s img u k p).bind (placeNodes s img u r)

/-- A replica's cells: those of its nodes in index order, then the other cells of its gangs. -/
def replicaCells (img : List Byte) (m : List (Nat × Nat)) : List Nat :=
  let ks := List.range (rNodes img)
  ks.map (tabGet 0 m) ++
    (ks.filter (fun k => nodeCells (rNode img k) = 8)).flatMap (fun k => (List.range 7).map (fun i => tabGet 0 m k + i + 1))

/-- Place count replicas on a unit, beyond the cells taken by this command so far. -/
def placeUnit (s : State) (img : List Byte) (u : List Nat) : Nat → List Replica → Option (List Replica)
  | 0, l => some l
  | n + 1, l =>
    (placeNodes s img u (topo (rNodeList img) (rNodes img) []) ([], l.flatMap (·.cells))).bind (fun p =>
      placeUnit s img u n (l ++ [{ slices := u, cells := replicaCells img p.1 }]))

/-- Placement units: each named slice for up to 64 cells, else the named slices of each island that are enough (R151). -/
def placeUnits (img : List Byte) (slices : List Nat) : List (List Nat) :=
  let n := cellsNeeded img
  if n ≤ 64 then slices.map (fun k => [k])
  else ((List.range 8).map (fun i => slices.filter (fun k => k / 4 = i))).filter (fun u => n ≤ 64 * u.length)

/-- All replicas of a LOAD_RECIPE, or none where some unit lacks cells or no unit exists (R151). -/
def placeAll (s : State) (img : List Byte) (slices : List Nat) (count : Nat) : Option (List Replica) :=
  let us := placeUnits img slices
  if us.isEmpty then none
  else us.foldl (fun l u => l.bind (placeUnit s img u count)) (some [])

/-! ### LOAD_RECIPE (R150) -/

/-- FUNC_ID of a LOAD_RECIPE block. -/
def lrFn (q : List W64) : Nat := field (qw q 1) 63 48
/-- IMAGE_BYTES. -/
def lrBytes (q : List W64) : Nat := field (qw q 1) 31 0
/-- REPLICAS, 0 taken as 1. -/
def lrReplicas (q : List W64) : Nat := max 1 (field (qw q 2) 39 32)
/-- Slices that SLICE_MASK names; 0 names every slice of the wheel. -/
def lrSlices (s : State) (w : Nat) (q : List W64) : List Nat :=
  if field (qw q 2) 31 0 = 0 then (List.range 32).filter (fun k => sliceWheelOf s k = w) else bitsSet 32 (qw q 2)

/-- Step 1 of R150. -/
def lrBlockOk (e : Entry) (q : List W64) : Bool :=
  e.lenStride = 32 && field (qw q 1) 47 32 = 0 && field (qw q 2) 63 40 = 0 && qw q 3 = 0 && e.subop ≠ 0 && qw q 0 % 8 = 0 &&
    (outLen e = 0 || 64 ≤ outLen e)

/-- The image bytes of a LOAD_RECIPE. -/
def lrImage (s : State) (a : Nat) (q : List W64) : List Byte := readBytes s (hostLoc a (qw q 0)) (lrBytes q)

/-- The 64-byte result of LOAD_RECIPE (R150). STATEFUL is given where the image has been accepted, with ERROR 0 or 0x0C; the
rule does not say what the bit is with another ERROR, and the model writes 0 (DESIGN CHOICE, log entry 133). -/
def recipeResult (err node : Nat) (reps : List Replica) (img : List Byte) : List Byte :=
  natLe 4 (node * 65536 + err) ++ natLe 4 reps.length ++ natLe 4 ((reps.map (·.cells.length)).sum) ++
    natLe 4 (b2n ((err = 0 || err = 0x0C) && recipeStateful img)) ++ natLe 48 (sha384 img)

/-- Errors before the image is read, in order (R150 steps 3 to 5). -/
def lrEarly (s : State) (w : Nat) (e : Entry) (q : List W64) : Option (Nat × Status) :=
  let f := fnOfId (lrFn q)
  if (bitsSet 32 (qw q 2)).any (fun k => sliceWheelOf s k ≠ w) then some (0x0D, .rindViolation)
  else if isVf f && (s.fnS f).vfState ≠ .running then some (0x0E, .busy)
  else if (recipeRun s f e.subop).isSome then some (0x0B, .busy)
  else none

/-- End a LOAD_RECIPE with an error and its result. -/
def lrFail (a : Nat) (e : Entry) (err node : Nat) (st : Status) (img : List Byte) (s : State) : State :=
  s |> when (outLen e ≠ 0) (adminOut a e.dst.toNat (recipeResult err node [] img)) |> adminEnd a st

/-- LOAD_RECIPE, R150: the checks in order, then the replicas take their cells; the status follows. -/
def execLoadRecipe (a : Nat) (s : State) : Host.Outcome State Fault Refusal :=
  .next (adminRun a 0x85 (fun _ _ => true) (fun e q s =>
    let w := hcWheelOf s a
    let img := lrImage s a q
    if !lrBlockOk e q then adminEnd a .malformed s
    else if !namesOwn s a (lrFn q) then adminEnd a .rindViolation s
    else match lrEarly s w e q with
      | some (err, st) => lrFail a e err 0 st img s
      | none =>
        if !inputOk s a (qw q 0) (lrBytes q) then adminUnread a s
        else match recipeError img (lrBytes q) with
          | some (err, node) => lrFail a e err node .recipeFault img s
          | none => match placeAll s img (lrSlices s w q) (lrReplicas q) with
            | none => lrFail a e 0x0C 0 .busy img s
            | some reps => { s with wk.recipes := s.wk.recipes ++
                [{ fn := fnOfId (lrFn q), handle := e.subop, image := img, replicas := reps }] }
              |> when (outLen e ≠ 0) (adminOut a e.dst.toNat (recipeResult 0 0 reps img))
              |> adminHold a .loadRecipe .ok 0) s)

/-! ### UNLOAD_RECIPE (R152) -/

/-- UNLOAD_RECIPE, R152: it completes once no entry in flight runs the recipe. -/
def execUnloadRecipe (a : Nat) (s : State) : Host.Outcome State Fault Refusal :=
  .next (adminRun a 0x86 (fun _ _ => true) (fun e _ s =>
    let f := adminFn a
    match recipeOf s f e.subop with
    | none => adminEnd a .recipeFault s
    | some _ => { s with wk.recipes := s.wk.recipes.map (fun r =>
          if r.fn = f && r.handle = e.subop then { r with unloadBy := some a } else r) }
        |> adminHold a (.unload f e.subop) .ok 0 |> tryUnload f) s)

end Sys2Proof.Machine
end

