-- ==== Sys2Proof/Machine/Rennet.lean ====
section
/-! DEFINITION. Rennet as shared operations: sources, counting, reactions, substitution, safe states and yields
(R17, R26, R159 to R161, R351, R380 to R393, R425, R426). -/

namespace Sys2Proof.Machine

open Sys2Proof

/-! ### Units with outputs: host-class port p is p, peer port p is 16 + p, Acdoic port q is 32 + q, slice k is 64 + k -/

/-- Ports of a quadrant: 4 host-class, 4 peer, 1 Acdoic (R12). -/
def quadPorts (q : Nat) : List Nat :=
  (List.range 4).map (4 * q + ·) ++ (List.range 4).map (16 + 4 * q + ·) ++ [32 + q]

/-- Slices of a quadrant. -/
def quadSlices (q : Nat) : List Nat := (List.range 8).map (64 + 8 * q + ·)

/-- Ports and slices bound to wheel w. -/
def wheelUnits (s : State) (w : Nat) : List Nat :=
  ((List.range 16).filter (fun p => hcWheelOf s p = w)) ++ ((List.range 16).filter (fun p => peerWheelOf s p = w)).map (16 + ·) ++
    ((List.range 4).filter (fun q => acdWheelOf s q = w)).map (32 + ·) ++
    ((List.range 32).filter (fun k => sliceWheelOf s k = w)).map (64 + ·)

/-- Every port and slice. -/
def allUnits : List Nat := List.range 36 ++ (List.range 32).map (64 + ·)

/-- Wheel of a unit. -/
def unitWheel (s : State) (u : Nat) : Nat :=
  if u < 16 then hcWheelOf s u else if u < 32 then peerWheelOf s (u - 16) else if u < 64 then acdWheelOf s (u - 32)
  else sliceWheelOf s (u - 64)

/-- Ports of laser group g (R350). -/
def laserPorts (g : Nat) : List Nat :=
  (List.range 8).map (fun i => let t := 8 * g + i; if t < 16 then t else 16 + (t - 16) / 2)

/-- Rosham port and fibre index of a fibre number (R332, R333). -/
def fibreOf (fb : Nat) : Nat × Nat := if fb < 32 then (fb / 2, fb % 2) else (16 + (fb - 32) / 4, (fb - 32) % 4)

/-- Physical ladle that serves slice k (R380). -/
def ladleOf (s : State) (k : Nat) : Nat := tabGet (k % 8) (s.spareQ (k / 8)).ladleMap k
/-- Physical hoop engine that serves slice k (R380). -/
def heOf (s : State) (k : Nat) : Nat := tabGet (k % 8 / 2) (s.spareQ (k / 8)).heMap (k / 2)

/-- Slices of quadrant q served by physical ladle k. -/
def ladleSlices (s : State) (q k : Nat) : List Nat := ((List.range 8).map (8 * q + ·)).filter (fun x => ladleOf s x = k)
/-- Slices of quadrant q served by physical hoop engine k. -/
def engineSlices (s : State) (q k : Nat) : List Nat := ((List.range 8).map (8 * q + ·)).filter (fun x => heOf s x = k)

/-! ### Scopes (R380, R404 SCOPE) -/

/-- SCOPE of a source, as SRC shows it: 0 none, 1 port, 2 slice, 3 quadrant, 4 wheel, 5 device (R404). -/
def srcScope (x : Nat) : Nat :=
  if x < 0x0F0 then
    let i := x / 4
    if i < 36 then 1 else if i < 44 then 2 else if i < 52 then 3 else if i < 56 then 1 else if i < 59 then 5 else 0
  else if x = 0x0F0 then 5 else if x = 0x0F1 then 1
  else if x = 0x0F5 || x = 0x0F6 || x = 0x0F8 || x = 0x0F9 || x = 0x0FA then 5
  else if x < 0x900 then 0
  else if x < 0x960 then 2
  else if x < 0x964 then 3
  else if x < 0x970 then 0
  else if x < 0x980 then 4
  else if x < 0xA00 then 0
  else if x < 0xB00 then (if x % 8 = 0 then 1 else 0)
  else if x < 0xB40 then (if x % 16 = 0 then 1 else 0)
  else if x < 0xC00 then 0
  else if x < 0xC00 + 9 * 32 then 1
  else if x < 0xF60 then 0
  else if x < 0xF68 then 1 else 0

/-- The units that a source forces into the safe state without a spare (R380, R17, R344, R351). -/
def scopeUnits (s : State) (x : Nat) : List Nat :=
  if x < 0x0F0 then
    let i := x / 4
    if i < 36 then [i]
    else if i < 44 then (List.range 4).map (64 + 4 * (i - 36) + ·)
    else if i < 48 then quadPorts (i - 44) ++ quadSlices (i - 44)
    else if i < 52 then quadPorts (i - 48) ++ quadSlices (i - 48)
    else if i < 56 then (List.range 4).map (4 * (i - 52) + ·) ++ (List.range 4).map (16 + 4 * (i - 52) + ·)
    else if i < 59 then allUnits else []
  else if x = 0x0F1 then List.range 32
  else if srcScope x = 5 then allUnits
  else if x < 0x900 then []
  else if x < 0x924 then (ladleSlices s ((x - 0x900) / 9) ((x - 0x900) % 9)).map (64 + ·)
  else if x < 0x928 then []
  else if x < 0x93C then (engineSlices s ((x - 0x928) / 5) ((x - 0x928) % 5)).map (64 + ·)
  else if x < 0x940 then []
  else if x < 0x960 then [64 + (x - 0x940)]
  else if x < 0x964 then quadPorts (x - 0x960) ++ quadSlices (x - 0x960)
  else if x < 0x970 then []
  else if x < 0x980 then wheelUnits s (x - 0x970)
  else if x < 0xA00 then []
  else if x < 0xA80 then (if x % 8 = 0 then [(x - 0xA00) / 8] else [])
  else if x < 0xB00 then (if x % 8 = 0 then [16 + (x - 0xA80) / 8] else [])
  else if x < 0xB40 then (if x % 16 = 0 then [32 + (x - 0xB00) / 16] else [])
  else if x < 0xC00 then []
  else if x < 0xF60 then (if (x - 0xC00) / 9 < 32 then [(fibreOf ((x - 0xC00) / 9)).1] else [])
  else if x < 0xF68 then
    ((List.range 6).filter (fun g => tabGet g s.lk.laserMap g = x - 0xF60)).flatMap laserPorts
  else []

/-- The units whose work a source concerns, for SPARE yields. -/
def servedUnits (s : State) (x : Nat) : List Nat :=
  if 0x100 ≤ x && x < 0x900 then [64 + (x - 0x100) / 64]
  else if 0xC00 ≤ x && x < 0xF60 then [(fibreOf ((x - 0xC00) / 9)).1]
  else if srcScope x = 5 then [] else scopeUnits s x

/-! ### Entering a safe state (R390, R391) -/

/-- Close the write gate of a unit (R390). -/
def closeGate (u : Unit_) (s : State) : State :=
  if s.rn.gates.contains u then s else { s with rn.gates := s.rn.gates ++ [u] }

/-- One port or slice enters its safe state (R391). -/
def unitSafe (u : Nat) (s : State) : State :=
  if u < 16 then
    if (s.hc u).safe then s
    else s |> when (s.hc u).linkUp (hcDown u) |> modHc u (fun x => { x with safe := true }) |> closeGate (.hcPort u)
  else if u < 32 then
    if (s.peerP (u - 16)).safe then s
    else s |> peerDown (u - 16) |> modPeerP (u - 16) (fun x => { x with safe := true }) |> closeGate (.peerPort (u - 16))
  else if u < 36 then s |> acdSafe (u - 32) |> closeGate (.acdPort (u - 32))
  else if 64 ≤ u then
    let k := u - 64
    s |> sliceDown k |> closeGate (.ladle (k / 8) (ladleOf s k))
      |> forAll ((List.range 64).map (64 * k + ·)) (fun c => closeGate (.cell c))
  else s

/-- The bandwidth shares of the wheels that hold units entering a safe state yield: the object is the scope's index, a port's being
its island number (R25, R426; DESIGN CHOICE for ports, log entry 131); t: the state before. -/
def yieldSafe (t : State) (us : List Nat) (sc index : Nat) (s : State) : State :=
  let l := us.map (fun u => (unitWheel t u, if sc = 1 then u else if sc = 2 then u - 64 else index))
  forAll (dedup l) (fun x => yieldWheel x.1 1 0x02 x.2 sc 5) s

/-- With no copy of the vat store left, the device enters its safe state (R449); had: there was one before. -/
def storeGone (had : Bool) (s : State) : State :=
  if had && s.st.vatStore.isEmpty then
    s |> when (!s.rn.deviceSafe) (sendMsix .bu 2) |> (fun s => { s with rn.deviceSafe := true, pin.safen := true })
      |> forAll allUnits unitSafe |> yieldSafe s allUnits 5 0
  else s

/-- Laser groups of Rosham port n. -/
def portGroups (n : Nat) : List Nat := (List.range 6).filter (fun g => (laserPorts g).contains n)
/-- Set bits of RSH_ERR of Rosham port n. -/
def rshErr (n : Nat) (bits : BitVec 7) (s : State) : State := modRsh n (fun x => { x with err := x.err ||| bits }) s
/-- RSH_ERR.LASER of every port of the groups that input k feeds (R351). -/
def laserErr (k : Nat) (s : State) : State :=
  forAll (((List.range 6).filter (fun g => tabGet g s.lk.laserMap g = k)).flatMap laserPorts) (fun n => rshErr n 0x4) s

/-- A source drives its scope into the safe state (R391). -/
def driveSafe (x : Nat) (s : State) : State :=
  let us := scopeUnits s x
  let sc := srcScope x
  let t := s
  let s := s |> when (decide (sc = 5) && !s.rn.deviceSafe) (sendMsix .bu 2)
    |> (fun s => { s with rn.deviceSafe := s.rn.deviceSafe || decide (sc = 5), pin.safen := s.pin.safen || decide (sc = 5) })
    |> when (decide (0xF60 ≤ x && x < 0xF68)) (laserErr (x - 0xF60))
    |> when (decide (0xC00 ≤ x && x < 0xF60)) (forAll us (fun u => rshErr u 0x10))
    |> forAll us unitSafe |> storeGone (!s.st.vatStore.isEmpty) |> modRsrc x (fun q => { q with drives := true })
  let s := { s with
    rn.safeQuads := if sc = 3 then (if s.rn.safeQuads.contains (us.headD 0 / 4) then s.rn.safeQuads
      else s.rn.safeQuads ++ [us.headD 0 / 4]) else s.rn.safeQuads }
  s |> when (sc = 4) (modWheel (x - 0x970) (fun w => { w with safe := true }))
    |> yieldSafe t us sc (if sc = 3 then us.headD 0 / 4 else if sc = 4 then x - 0x970 else 0)

/-! ### Substitution (R73, R74, R159, R160, R342, R351, R388) -/

/-- Whether turning's test runs on a unit of a kind in a quadrant (R395). -/
def turningOn (s : State) (kind q : Nat) : Option Nat :=
  match s.sp.turn with
  | some t => if t.kind = kind && t.quad = q && t.swapped then some t.index else none
  | none => none

/-- Whether turning's test holds the spare of a tile. -/
def tileTurning (s : State) (tile : Nat) : Bool :=
  s.sp.turn.elim false (fun t => t.kind = 1 && t.swapped && t.index / 16 = tile)

/-- Hoops with a segment issued to slice k's ladle and not yet complete (R73). -/
def hoopsOnLadle (s : State) (k : Nat) : List Nat :=
  dedup (((segsOn s k).filter (fun g => match entryOf s g.1 g.2.1 with
    | some e => e.segs[g.2.2]? ≠ some .done && e.segs[g.2.2]? ≠ some .failed
    | none => false)).map (·.1))

/-- Ladle new takes the slices of ladle k in quadrant q; hoops with work on it change epoch (R73, R388). -/
def swapLadle (q k new : Nat) (s : State) : State :=
  let ks := ladleSlices s q k
  let hs := dedup (ks.flatMap (hoopsOnLadle s))
  s |> modSpareQ q (fun x => { x with ladleMap := ks.foldl (fun m y => tabSet m y new) x.ladleMap })
    |> forAll hs (moveHoop (.ladle q k))

/-- Hoop engine new takes the slices of engine k in quadrant q; every hoop of them changes epoch (R73, R388). -/
def swapEngine (q k new : Nat) (s : State) : State :=
  let ks := engineSlices s q k
  let hs := (hoopsWith s (fun _ => true)).filter (fun h => ks.contains (sliceOf h))
  s |> modSpareQ q (fun x => { x with heMap := ks.foldl (fun m y => tabSet m (y / 2) new) x.heMap })
    |> forAll hs (moveHoop (.engine q k))

/-- Home of a reservation: the cell of a scratchpad granule (R139). -/
def cellOf (a : Nat) : Nat := (a - 2 ^ 52) / 65536

/-- Reservations held at a cell that is substituted are lost, and those of an LDR node in it (R140, R159). -/
def dropCellResv (c : Nat) (s : State) : State :=
  let nodes := s.wk.recipes.flatMap (fun r => (List.range r.replicas.length).flatMap (fun i =>
    match r.replicas[i]? with
    | some x => ((List.range x.cells.length).filter (fun n => x.cells.getD n 0 = c)).map
        (fun n => ResvOwner.node r.fn r.handle i n)
    | none => []))
  loseResv (fun r => decide (homeOf r.2.granule = .slice (c / 64)) && cellOf r.2.granule = c || nodes.contains r.2.owner) s

/-- A slice's scratchpad is zeroed; that of a logical cell out of service still reads as poisoned (R132, R161). -/
def zeroSlice (k : Nat) (s : State) : State :=
  s |> zeroRange (scratchLoc (k * 2 ^ 22)) (2 ^ 22)
    |> forAll (((s.spareQ (k / 8)).cellsOut).filter (fun c => c / 64 = k)) (fun c => poisonRange (scratchLoc (c * 65536)) 65536)

/-- A logical cell leaves service without a spare: its replicas are lost, entries that need them end, its scratchpad reads as
poisoned (R161). -/
def cellDead (c : Nat) (s : State) : State :=
  let segs := s.wk.recipes.flatMap (fun r => (r.replicas.filter (fun x => x.alive && x.cells.contains c)).flatMap (fun x =>
    x.slices.flatMap (fun k => (segsOn s k).filter (fun g => match entryOf s g.1 g.2.1 with
      | some e => isRecipeOp e.opcode && (s.hoop g.1).fn = r.fn && e.subop = r.handle
      | none => false))))
  s |> modSpareQ (c / 512) (fun x => { x with cellsOut := x.cellsOut ++ [c] })
    |> dropCellResv c
    |> loseReplicas (fun x => x.cells.contains c)
    |> forAll segs (fun g => failLive g.1 g.2.1 g.2.2 .cellLost)
    |> poisonRange (scratchLoc (c * 65536)) 65536

/-- The channel of lane l on a fibre (R339). -/
def laneCh (m : FibreMap) (l : Nat) : Nat := tabGet l m.lanes l
/-- The lane that a channel carries. -/
def chLane (m : FibreMap) (c : Nat) : Option Nat := (List.range 8).find? (fun l => laneCh m l = c)
/-- The map of a fibre. -/
def fibreMap (s : State) (fb : Nat) : FibreMap := tabGet {} (s.rsh (fibreOf fb).1).maps (fibreOf fb).2
/-- Change the map of a fibre. -/
def modFibre (fb : Nat) (f : FibreMap → FibreMap) (s : State) : State :=
  modRsh (fibreOf fb).1 (fun x => { x with maps := tabSet x.maps (fibreOf fb).2 (f (tabGet {} x.maps (fibreOf fb).2)) }) s

/-- A lane of a peer port leaves the stripe; with fewer than 8 lanes in a direction the link is down (R344). -/
def dropLane (n f l : Nat) (s : State) : State :=
  let s := modRsh n (fun x => { x with lanesDown := if x.lanesDown.contains (8 * f + l) then x.lanesDown else x.lanesDown ++ [8 * f + l] }) s
  let s := rshErr n 0x10 s
  let dir := f / 2
  let up := 16 - ((s.rsh n).lanesDown.filter (fun y => y / 16 = dir)).length
  if up < 8 then peerDown (n - 16) s else s

/-- The laser input that feeds group g. -/
def laserOf (s : State) (g : Nat) : Nat := tabGet g s.lk.laserMap g
/-- Whether an input feeds no group: it is a spare. -/
def laserIdle (s : State) (k : Nat) : Bool := (List.range 6).all (fun g => laserOf s g ≠ k)
/-- A spare input in limits (R351). -/
def laserSpare (s : State) : Option Nat := ([6, 7] ++ List.range 6).find? (fun k => laserIdle s k && s.lk.laserIn.getLsbD k)
/-- LSR_EN: high only while every active input is in limits (R352), from the end of step 6 of a start and outside Deep Rest
(R483), and low while the temperature trip holds the device in its safe state (R488). -/
def setLsrEn (s : State) : State :=
  { s with pin.lsrEn := (decide (s.tm.boot = .running) || decide (s.tm.boot = .rest)) && !s.pin.thermTrip && !(s.rsrc 0x0F8).drives &&
      (List.range 6).all (fun g => s.lk.laserIn.getLsbD (laserOf s g)) }

/-! ### Reactions (R386, R387, R395) -/

/-- What a severe source's unit can fall back on: it is itself a spare, a spare number is free, none, or the kind has none. -/
inductive Fall where
  | isSpare
  | spare (k : Nat)
  | none
  | noKind
deriving DecidableEq, Repr

/-- The first rows of R386 for a source; left: a lane of an Acdoic module still has a redundant one (R314). -/
def fallOf (s : State) (x : Nat) (left : Bool) : Fall :=
  if x < 0x0F0 then
    let i := s.island (x / 4)
    if x % 4 = 0 then (if i.standbyOk && !i.onStandby then .spare 0xFFFF else .none)
    else if x % 4 = 1 then (if i.onStandby then .none else .isSpare)
    else .noKind
  else if x = 0x0F3 then (if 0 < s.sp.mramSpare then .spare 0xFFFF else .none)
  else if x = 0x0F5 then (if s.sp.affStandby then .spare 0xFFFF else .none)
  else if x = 0x0F6 then (if s.sp.secStandby then .spare 0xFFFF else .none)
  else if x = 0x0FA then (if 0 < s.sp.walkerSpares then .spare (72 - s.sp.walkerSpares)
      else (turningOn s 0x04 0).elim .none .spare)
  else if 0x100 ≤ x && x < 0x900 then
    let c := x - 0x100
    let q := s.spareQ (c / 512)
    if tileTurning s (c / 16) then .spare c
    else if q.tilesUsed.contains (c / 16) || q.cellSpareBad.contains (c / 16) then .none else .spare c
  else if 0x900 ≤ x && x < 0x924 then
    let q := (x - 0x900) / 9
    let k := (x - 0x900) % 9
    match (s.spareQ q).ladleSpare with
    | some y => if y = k then .isSpare else .spare y
    | none => match turningOn s 0x02 q with | some y => if y = k then .none else .spare y | none => .none
  else if 0x928 ≤ x && x < 0x93C then
    let q := (x - 0x928) / 5
    let k := (x - 0x928) % 5
    match (s.spareQ q).heSpare with
    | some y => if y = k then .isSpare else .spare y
    | none => match turningOn s 0x03 q with | some y => if y = k then .none else .spare y | none => .none
  else if 0xB00 ≤ x && x < 0xB40 && x % 16 = 1 then (if left then .spare 0xFFFF else .none)
  else if 0xC00 ≤ x && x < 0xF60 then
    let m := fibreMap s ((x - 0xC00) / 9)
    if (x - 0xC00) % 9 = m.spare then .isSpare
    else if m.spareOk && m.switching.isNone then .spare m.spare else .none
  else if 0xF60 ≤ x && x < 0xF68 then
    if laserIdle s (x - 0xF60) then .isSpare else (laserSpare s).elim .none .spare
  else .noKind

/-- Take a severe spare, or a unit of scope none without a spare, out of service (R386 rows 1 and 5, R161, R344). -/
def outOfService (x : Nat) (s : State) : State :=
  if x < 0x0F0 then modIsland (x / 4) (fun i => { i with standbyOk := false }) s
  else if x = 0x0FA then { s with sp.walkerSpares := s.sp.walkerSpares - 1 }
  else if 0x100 ≤ x && x < 0x900 then cellDead (x - 0x100) s
  else if 0x900 ≤ x && x < 0x924 then
    modSpareQ ((x - 0x900) / 9) (fun q => { q with ladleSpare := none, ladleFailed := q.ladleFailed ++ [(x - 0x900) % 9] }) s
  else if 0x928 ≤ x && x < 0x93C then
    modSpareQ ((x - 0x928) / 5) (fun q => { q with heSpare := none, heFailed := q.heFailed ++ [(x - 0x928) % 5] }) s
  else if 0xC00 ≤ x && x < 0xF60 then
    let fb := (x - 0xC00) / 9
    let m := fibreMap s fb
    if (x - 0xC00) % 9 = m.spare then modFibre fb (fun m => { m with spareOk := false }) s
    else if fb < 32 then s
    else match chLane m ((x - 0xC00) % 9) with
      | some l => dropLane (fibreOf fb).1 (fibreOf fb).2 l s
      | none => s
  else if 0xF60 ≤ x && x < 0xF68 then { s with sp.laserSpares := s.sp.laserSpares - 1 }
  else s

/-- Whether a reservation is an Affineur core's. -/
def isCoreResv (x : Nat × Resv) : Bool :=
  match x.2.owner with
  | .core _ => true
  | .node .. => false

/-- A store of the Affineur reaches its home (R240); one to a home that is not reachable, or to peer memory, is discarded.
On the scratchpad the core's own store leaves its reservation (R140, R244). -/
def affWrite (a : Nat) (bs : List Byte) (s : State) : State :=
  match homeOf a with
  | .peer _ => s
  | .slice k => when (homeUp s (.slice k) && !cellOut s a) (fun s => s |> writeBytes a bs
      |> loseResv (fun r => overlap a bs.length r.2.granule (granuleLen r.2.granule) && !isCoreResv r)) s
  | h => when (homeUp s h) (storeAt a bs) s

/-- The standby Affineur core takes over: no store is lost, the other core's cache is not taken along (R240), and its
reservations are lost (R244). -/
def switchCore (s : State) : State :=
  let s := forAll s.af.affBuf (fun b => affWrite b.1 [b.2]) s
  let s := forAll s.af.ntLines (fun l => forAll l.bytes (fun b => affWrite (l.addr + b.1) [b.2])) s
  { s with af.affBuf := [], af.ntLines := [], af.affCache := [], af.barSt := false, af.barFull := false } |> loseResv isCoreResv

/-- Spare y takes the place of the severe unit; a dead unit's gate closes (R388, R390). lost: granules of a failed cell that ECC
cannot correct, written to the spare as poisoned (R160). -/
def substitute (x y : Nat) (alive : Bool) (lost : List Nat) (s : State) : State :=
  if x < 0x0F0 then modIsland (x / 4) (fun i => { i with onStandby := true, standbyOk := false }) s
  else if x = 0x0F3 then { s with sp.mramSpare := s.sp.mramSpare - 1 }
  else if x = 0x0F5 then { s with sp.affStandby := false } |> switchCore |> when (!alive) (closeGate .affineur)
  else if x = 0x0F6 then { s with sp.secStandby := false } |> when (!alive) (closeGate .security)
  else if x = 0x0FA then { s with sp.walkerSpares := s.sp.walkerSpares - 1 }
  else if 0x100 ≤ x && x < 0x900 then
    let c := x - 0x100
    s |> modSpareQ (c / 512) (fun q => { q with
        tilesUsed := if q.tilesUsed.contains (c / 16) then q.tilesUsed else q.tilesUsed ++ [c / 16] }) |> dropCellResv c
      |> when (!alive) (fun s => s |> closeGate (.cell c)
        |> forAll lost (fun g => poisonRange (scratchLoc (c * 65536 + g % 1024 * 64)) 64))
  else if 0x900 ≤ x && x < 0x924 then
    let q := (x - 0x900) / 9
    let k := (x - 0x900) % 9
    s |> when (!alive) (closeGate (.ladle q k)) |> swapLadle q k y
      |> modSpareQ q (fun z => { z with ladleSpare := none, ladleFailed := z.ladleFailed ++ [k] })
  else if 0x928 ≤ x && x < 0x93C then
    let q := (x - 0x928) / 5
    let k := (x - 0x928) % 5
    s |> when (!alive) (closeGate (.engine q k)) |> swapEngine q k y
      |> modSpareQ q (fun z => { z with heSpare := none, heFailed := z.heFailed ++ [k] })
  else if 0xC00 ≤ x && x < 0xF60 then
    let fb := (x - 0xC00) / 9
    match chLane (fibreMap s fb) ((x - 0xC00) % 9) with
    | some l => s |> modFibre fb (fun m => { m with switching := some l, started := false }) |> emit (.lane fb "SWAP" l y)
    | none => s
  else if 0xF60 ≤ x && x < 0xF68 then
    let gs := (List.range 6).filter (fun g => laserOf s g = x - 0xF60)
    let s := laserErr (x - 0xF60) s
    { s with
      lk.laserMap := gs.foldl (fun m g => tabSet m g y) s.lk.laserMap
      sp.laserSpares := s.sp.laserSpares - 1 } |> setLsrEn
  else s

/-! ### Tests of spared units (R394 to R397) -/

/-- The first number below n, from start on and round, that satisfies ok (R394: round-robin order). -/
def pickFrom (n start : Nat) (ok : Nat → Bool) : Option Nat := ((List.range n).map (fun i => (start + i) % n)).find? ok

/-- Next unit of a kind to be tested in quadrant q, where the kind has a spare free, or a unit to test in place. Kinds
above 7 are the model's own: 8 spare wavelengths by fibre, 9 spare laser inputs, 10 standby oscillators, 11 spare rows. -/
def turnUnit (s : State) (kind q : Nat) : Option Nat :=
  let x := s.spareQ q
  let n := tabGet 0 x.nextTurn kind
  match kind with
  | 1 => (pickFrom 512 n (fun i =>
      let c := 512 * q + i
      !x.cellsOut.contains c && !x.tilesUsed.contains (c / 16) && !x.cellSpareBad.contains (c / 16))).map (512 * q + ·)
  | 2 => x.ladleSpare.bind (fun y => pickFrom 9 n (fun k => k ≠ y && !x.ladleFailed.contains k))
  | 3 => x.heSpare.bind (fun y => pickFrom 5 n (fun k => k ≠ y && !x.heFailed.contains k))
  | 4 => if 0 < s.sp.walkerSpares then pickFrom 64 n (fun _ => true) else none
  | 6 => if s.sp.secStandby then some 0 else none
  | 7 => if s.sp.affStandby then some 0 else none
  | 8 => pickFrom 96 n (fun fb => (fibreMap s fb).switching.isNone)
  | 9 => pickFrom 8 n (fun k => laserIdle s k)
  | 10 => pickFrom 60 n (fun i => (s.island i).standbyOk && !(s.island i).onStandby)
  | 11 => some 0
  | _ => none

/-- Start the test of unit k of a kind: the unit is swapped for the spare, or tested in place (R394, R397). -/
def startTest (kind q k : Nat) (swap : Bool) (by_ : Option Nat) (s : State) : State :=
  let t : Turn := { kind := kind, index := k, quad := q, selftest := by_, swapped := swap }
  let x := s.spareQ q
  if !swap then { s with sp.turn := some t }
  else match kind with
    | 1 => { s with sp.turn := some { t with spare := k } } |> dropCellResv k
        |> modSpareQ q (fun x => { x with tilesUsed := x.tilesUsed ++ [k / 16] })
    | 2 => { s with sp.turn := some { t with spare := x.ladleSpare.getD 8 } } |> swapLadle q k (x.ladleSpare.getD 8)
        |> modSpareQ q (fun x => { x with ladleSpare := none })
    | 3 => { s with sp.turn := some { t with spare := x.heSpare.getD 4 } } |> swapEngine q k (x.heSpare.getD 4)
        |> modSpareQ q (fun x => { x with heSpare := none })
    | 4 => { s with
        sp.turn := some { t with spare := 72 - s.sp.walkerSpares }
        sp.walkerSpares := s.sp.walkerSpares - 1 }
    | _ => { s with sp.turn := some { t with swapped := false } }

/-- Units per kind and quadrant, for the round-robin order. -/
def kindCount (kind : Nat) : Nat :=
  match kind with
  | 1 => 512 | 2 => 9 | 3 => 5 | 4 => 64 | 8 => 96 | 9 => 8 | 10 => 60 | _ => 1

/-- A turn of a kind and quadrant runs (R394). -/
def runTurn (kind q k : Nat) (s : State) : State :=
  s |> modSpareQ q (fun x => { x with nextTurn := tabSet x.nextTurn kind ((k + 1) % kindCount kind) })
    |> startTest kind q k (decide (kind ≤ 4)) none

/-- With no test running, the first deferred turn that can run does so (R394, R395). -/
def runDeferred (s : State) : State :=
  if s.sp.turn.isSome then s
  else match s.sp.deferred.find? (fun d => (turnUnit s d.1 d.2).isSome) with
    | none => s
    | some d =>
      match turnUnit s d.1 d.2 with
      | none => s
      | some k => { s with sp.deferred := s.sp.deferred.erase d } |> runTurn d.1 d.2 k

/-- Test time in µs of a kind; where R394 gives none, a value that the manual leaves open (R396). -/
def testTime (s : State) (kind : Nat) : Nat :=
  match kind with
  | 1 => 200 | 2 => 2000 | 3 => 2000 | 4 => 100 | _ => Config.freeNat s.m.free

/-- The SELFTEST that a test served ends: its result is written (R396). -/
def endSelftest (t : Turn) (result : Nat) (s : State) : State :=
  match t.selftest with
  | none => s
  | some a =>
    match adminCur s a with
    | none => s
    | some e => s
        |> when (homeUp s (.host a)) (writeBytes (hostLoc a e.dst.toNat) (natLe 8 (result % 256) ++ natLe 8 (testTime s t.kind)))
        |> takeFree 1 |> adminEnd a .ok

/-- A substitution that turning must make room for ends its test: the unit under test becomes the substitute (R395). A
SELFTEST whose test ends so completes, its RESULT being left open. -/
def endTurnFor (x : Nat) (s : State) : State :=
  let c := x - 0x100
  let held (kind q : Nat) (none_ : Bool) : Bool := none_ && (turningOn s kind q).isSome
  let gone := if 0x900 ≤ x && x < 0x924 then held 2 ((x - 0x900) / 9) (s.spareQ ((x - 0x900) / 9)).ladleSpare.isNone
    else if 0x928 ≤ x && x < 0x93C then held 3 ((x - 0x928) / 5) (s.spareQ ((x - 0x928) / 5)).heSpare.isNone
    else if 0x100 ≤ x && x < 0x900 then tileTurning s (c / 16)
    else if x = 0x0FA then held 4 0 (s.sp.walkerSpares = 0) else false
  match gone, s.sp.turn with
  | true, some t => { s with sp.turn := none, sp.turns := if t.selftest.isNone then s.sp.turns + 1 else s.sp.turns } |> endSelftest t (Config.freeNat s.m.free % 2)
  | _, _ => s

/-- Whether every unit of a source's scope is already in its safe state (R387). -/
def alreadySafe (s : State) (x : Nat) : Bool :=
  !(scopeUnits s x).isEmpty && (scopeUnits s x).all (fun u =>
    if u < 16 then (s.hc u).safe else if u < 32 then (s.peerP (u - 16)).safe else if u < 64 then (s.acd (u - 32)).safe
    else s.rn.safeSlices.contains (u - 64))

/-- REACTION code of a scope (R386). -/
def scopeCode (sc : Nat) : Nat := if sc = 0 then 0 else sc + 2

/-- The log record of a severe source (R402). -/
def logSevere (x reaction spare : Nat) (s : State) : State :=
  let q := s.rsrc x
  { s with st.logPending := s.st.logPending ++
      [{ seq := 0, boot := s.tm.bootCount, time := s.tm.deviceTime, source := x, reaction := reaction, uncorr := q.uncorr
         forced := q.forced, count := q.count, thresh := threshOf s x, spare := spare }] }

/-- A ladle or hoop engine that no spare replaced is out of service, and its source keeps CAUSE (R393, R404). -/
def unitDead (x : Nat) (s : State) : State :=
  if 0x900 ≤ x && x < 0x924 then
    s |> modSpareQ ((x - 0x900) / 9) (fun q => { q with ladleFailed := q.ladleFailed ++ [(x - 0x900) % 9] })
      |> modRsrc x (fun q => { q with cause := true })
  else if 0x928 ≤ x && x < 0x93C then
    s |> modSpareQ ((x - 0x928) / 5) (fun q => { q with heFailed := q.heFailed ++ [(x - 0x928) % 5] })
      |> modRsrc x (fun q => { q with cause := true })
  else s

/-- The source of the unit under test (R380). -/
def testSource (s : State) (t : Turn) : Nat :=
  match t.kind with
  | 1 => 0x100 + t.index
  | 2 => 0x900 + 9 * t.quad + t.index
  | 3 => 0x928 + 5 * t.quad + t.index
  | 4 => 0x0FA
  | 5 => 0x960 + t.index
  | 6 => 0x0F6
  | 7 => 0x0F5
  | 8 => 0xC00 + 9 * t.index + (fibreMap s t.index).spare
  | 9 => 0xF60 + t.index
  | 10 => 4 * t.index + 1
  | _ => 0x0F9

/-- The unit under test has passed: a unit that was swapped becomes the spare, a spare tested in place is ready (R342, R394). -/
def unitPassed (t : Turn) (s : State) : State :=
  match t.kind, t.swapped with
  | 1, true => modSpareQ t.quad (fun x => { x with tilesUsed := x.tilesUsed.filter (· ≠ t.index / 16) }) s
  | 2, true => modSpareQ t.quad (fun x => { x with ladleSpare := some t.index }) s
  | 3, true => modSpareQ t.quad (fun x => { x with heSpare := some t.index }) s
  | 4, true => { s with sp.walkerSpares := s.sp.walkerSpares + 1 }
  | 8, _ => modFibre t.index (fun m => { m with spareOk := true }) s
  | _, _ => s

/-- The unit under test has failed: it stays out of service; a unit in service that no spare replaces takes its scope into
the safe state, a cell leaves service (R161, R394, R397). -/
def unitFailed (t : Turn) (s : State) : State :=
  match t.kind, t.swapped with
  | 1, false => cellDead t.index s
  | 2, true => modSpareQ t.quad (fun x => { x with ladleFailed := x.ladleFailed ++ [t.index] }) s
  | 3, true => modSpareQ t.quad (fun x => { x with heFailed := x.heFailed ++ [t.index] }) s
  | 2, false => s |> driveSafe (testSource s t) |> unitDead (testSource s t)
  | 5, _ => driveSafe (testSource s t) s
  | 6, _ => { s with sp.secStandby := false }
  | 7, _ => { s with sp.affStandby := false }
  | 8, _ => modFibre t.index (fun m => { m with spareOk := false }) s
  | 9, _ => { s with sp.laserSpares := s.sp.laserSpares - 1 }
  | 10, _ => modIsland t.index (fun i => { i with standbyOk := false }) s
  | _, _ => s

/-- A test ends: its result stands, SELFTEST's is written, and deferred turns run (R394 to R396). -/
def endTest (t : Turn) (pass : Bool) (s : State) : State :=
  { s with sp.turn := none, sp.turns := if t.selftest.isNone then s.sp.turns + 1 else s.sp.turns }
  |> (if pass then unitPassed t else unitFailed t) |> endSelftest t (if pass then 0 else 1) |> runDeferred

/-- Whether source x is that of the ladle or hoop engine under test, which therefore fails it (R394). -/
def underTest (s : State) (x : Nat) : Option Turn :=
  s.sp.turn.bind (fun t => if t.swapped && (t.kind = 2 || t.kind = 3) && testSource s t = x then some t else none)

/-- The reaction to a source that has become severe (R386): its code and the unit that took over are logged. A spare that fails
leaves service even in a scope that is safe already (R17, R387); one that is severe by an uncorrectable event is replaced as failed
(R159, R386). -/
def react (x : Nat) (alive left : Bool) (lost : List Nat) (s : State) : State :=
  let sc := srcScope x
  let fin (code spare : Nat) (s : State) : State :=
    s |> modRsrc x (fun q => { q with reaction := code }) |> logSevere x code spare
  if (underTest s x).isSome then (underTest s x).elim s (fun t => s |> fin 0x08 0xFFFF |> endTest t false)
  else if alreadySafe s x && fallOf s x left ≠ .isSpare then fin (scopeCode sc) 0xFFFF s
  else match fallOf s x left with
    | .isSpare => s |> outOfService x |> fin 0x02 0xFFFF
    | .spare y =>
      let ws := dedup ((servedUnits s x).map (unitWheel s))
      s |> endTurnFor x |> substitute x y (alive && !(s.rsrc x).uncorr) lost |> fin 0x01 y
        |> forAll ws (fun w => yieldWheel w 1 0x03 0 x 5) |> runDeferred
    | .none =>
      if sc = 0 then s |> outOfService x |> fin 0x02 0xFFFF
      else s |> driveSafe x |> unitDead x |> fin (scopeCode sc) 0xFFFF
    | .noKind =>
      if sc = 0 then fin 0x00 0xFFFF s
      else s |> driveSafe x |> fin (scopeCode sc) 0xFFFF

/-- An event of source x (R381, R382): unc, uncorrectable; alive, the unit still works; forced, injected by FORCE; lost, a failed
cell's granules that ECC cannot correct. -/
def rennetEvent (x : Nat) (unc alive left forced : Bool) (lost : List Nat) (s : State) : State :=
  let q := s.rsrc x
  let n := if q.severe then q.count else min 255 (q.count + 1)
  let sev := !q.severe && (unc || threshOf s x ≤ n)
  let s := modRsrc x (fun q => { q with
      status := true, count := n, severe := q.severe || sev, uncorr := q.uncorr || unc
      forced := if sev then forced else q.forced }) s
  let s := when sev (fun s => s |> react x alive left lost |> sendMsix .bu 1) s
  summaryInput (x / 2) s

/-- A correctable event of a unit that still works. -/
def countFault (x : Nat) (s : State) : State := rennetEvent x false true true false [] s

/-- An uncorrectable event of a unit that still works. -/
def severeFault (x : Nat) (s : State) : State := rennetEvent x true true true false [] s

/-! ### Leaving a safe state (R384, R393) -/

/-- Whether some source that drove a unit into its safe state still has STATUS (R393). -/
def stillDriven (s : State) (u : Nat) : Bool :=
  s.rn.rsrcs.any (fun r => r.2.drives && r.2.status && (scopeUnits s r.1).contains u)

/-- Reopen the gate of a unit that returns to service (R390). -/
def openGate (u : Unit_) (s : State) : State :=
  { s with rn.gates := s.rn.gates.filter (· ≠ u), rn.gatesClosed := s.rn.gatesClosed.filter (· ≠ u) }

/-- A unit leaves its safe state: a slice with its scratchpad zeroed and its hoops disabled and idle, a port to train
again (R393). -/
def unitBack (u : Nat) (s : State) : State :=
  if u < 16 then s |> modHc u (fun x => { x with safe := false }) |> openGate (.hcPort u)
  else if u < 32 then s |> modPeerP (u - 16) (fun x => { x with safe := false }) |> openGate (.peerPort (u - 16))
  else if u < 64 then
    s |> modAcd (u - 32) (fun x => { x with safe := false, training := x.linkEn }) |> openGate (.acdPort (u - 32))
  else
    let k := u - 64
    let s := { s with rn.safeSlices := s.rn.safeSlices.filter (· ≠ k) }
    s |> zeroSlice k |> openGate (.ladle (k / 8) (ladleOf s k))
      |> forAll ((List.range 64).map (64 * k + ·)) (fun c => openGate (.cell c))

/-- Whether a unit is in its safe state. -/
def unitIsSafe (s : State) (u : Nat) : Bool :=
  if u < 16 then (s.hc u).safe else if u < 32 then (s.peerP (u - 16)).safe else if u < 64 then (s.acd (u - 32)).safe
  else s.rn.safeSlices.contains (u - 64)

/-- Units, quadrants, wheels and the device leave the safe state once every source that drove them has STATUS = 0 (R393). -/
def leaveSafe (x : Nat) (s : State) : State :=
  let us := scopeUnits s x
  let driven (sc : Nat) : List Nat := (s.rn.rsrcs.filter (fun r => r.2.drives && r.2.status && srcScope r.1 = sc)).map (·.1)
  let dev := !(driven 5).isEmpty
  let s := { s with
    rn.deviceSafe := s.rn.deviceSafe && dev
    pin.safen := s.pin.safen && (!s.rn.deviceSafe || dev)
    rn.safeQuads := s.rn.safeQuads.filter (fun q => (driven 3).any (fun y => (scopeUnits s y).contains (32 + q))) }
  s |> when (0x970 ≤ x && x < 0x980) (modWheel (x - 0x970) (fun w => { w with safe := false }))
    |> forAll (us.filter (fun u => unitIsSafe s u && !stillDriven s u)) unitBack

/-- A write of 1 to SRC.STATUS: the source clears; a CAUSE that is still 1 sets it again as a new event (R384, R393). -/
def clearSrc (x : Nat) (s : State) : State :=
  let s := modRsrc x (fun q => { q with status := false, severe := false, uncorr := false, count := 0, reaction := 0, forced := false }) s
  if (s.rsrc x).cause then
    let drove := (s.rsrc x).drives
    s |> rennetEvent x false true true false [] |> modRsrc x (fun q => { q with drives := drove || q.drives })
  else
    let drove := (s.rsrc x).drives
    s |> modRsrc x (fun q => { q with drives := false }) |> summaryInput (x / 2) |> when drove (leaveSafe x)

end Sys2Proof.Machine
end

