-- ==== Sys2Proof/Machine/AdminWheel.lean ====
section
/-! DEFINITION. Wheels: CREATE_WHEEL, BIND with its checks, FUNC_RESET and WHEEL_RESET, and the effects that
ADMIN_COMMAND_COMPLETE brings about (R406 to R423). -/

namespace Sys2Proof.Machine

open Sys2Proof

/-! ### CREATE_WHEEL (R414) -/

/-- Whether a wheel holds any resource of R406. -/
def wheelHolds (s : State) (w : Nat) : Bool :=
  !(wheelUnits s w).isEmpty || (List.range 256).any (fun b => tabGet 0 s.wh.vatBlock b = w) ||
    (List.range 256).any (fun b => tabGet 0 s.wh.evqBlock b = w)

/-- Wheel that an export slot names. -/
def Export.namesWheel (x : Export) (w : Nat) : Bool := x.wheel = w

/-- Clear the EXPORT and COLL_GROUP entries that name a wheel (R414, R423). -/
def clearWheelEntries (w : Nat) (s : State) : State :=
  { s with
    pr.exports := s.pr.exports.filter (fun x => !x.2.namesWheel w)
    pr.colls := s.pr.colls.filter (fun g => g.2.wheel ≠ w) }

/-- Create a wheel that holds nothing (R414). -/
def makeWheel (w manager : Nat) (s : State) : State := modWheel w (fun _ => { present := true, manager := manager }) s

/-- Delete a wheel (R414). -/
def dropWheel (w : Nat) (s : State) : State := clearWheelEntries w { s with wh.wheels := tabDel s.wh.wheels w }

/-- The first row of R414 that matches: rights and fields. -/
def wheelCheck (s : State) (a : Nat) (q : List W64) : Option Status :=
  let del := bitOf (qw q 0) 16
  let w := field (qw q 0) 3 0
  if !isDevmgr s (adminFn a) then some .rindViolation
  else if field (qw q 0) 63 17 ≠ 0 || field (qw q 0) 15 12 ≠ 0 || field (qw q 0) 7 4 ≠ 0 || qw q 1 ≠ 0 || w = 0 ||
      (del && !(s.wheel w).present) then some .malformed
  else if !del && (s.wheel w).present then some .busy
  else if del && wheelHolds s w then some .busy
  else none

/-- CREATE_WHEEL with DELETE = 0, R414. -/
def execCreateWheel (a : Nat) (s : State) : Host.Outcome State Fault Refusal :=
  .next (adminRun a 0x87 (fun _ q => !bitOf (qw q 0) 16) (fun _ q s =>
    match wheelCheck s a q with
    | some st => adminEnd a st s
    | none => s |> makeWheel (field (qw q 0) 3 0) (field (qw q 0) 11 8) |> adminEnd a .ok) s)

/-- CREATE_WHEEL with DELETE = 1, R414. -/
def execDeleteWheel (a : Nat) (s : State) : Host.Outcome State Fault Refusal :=
  .next (adminRun a 0x87 (fun _ q => bitOf (qw q 0) 16) (fun _ q s =>
    match wheelCheck s a q with
    | some st => adminEnd a st s
    | none => s |> dropWheel (field (qw q 0) 3 0) |> adminEnd a .ok) s)

/-! ### The block of BIND (R415, R416) -/

/-- OP. -/
def bOp (q : List W64) : Nat := field (qw q 0) 7 0
/-- FROM. -/
def bFrom (q : List W64) : Nat := field (qw q 0) 11 8
/-- TO. -/
def bTo (q : List W64) : Nat := field (qw q 0) 15 12
/-- VF. -/
def bVf (q : List W64) : Nat := field (qw q 0) 24 16
/-- SLICES. -/
def bSlices (q : List W64) : List Nat := bitsSet 32 (qw q 1)
/-- HC_PORTS. -/
def bHc (q : List W64) : List Nat := bitsSet 16 (field (qw q 1) 47 32)
/-- PEER_PORTS. -/
def bPeer (q : List W64) : List Nat := bitsSet 16 (field (qw q 1) 63 48)
/-- ACDOIC. -/
def bAcd (q : List W64) : List Nat := bitsSet 4 (qw q 2)
/-- COUNT of VATS and EVQS. -/
def bCount (q : List W64) : Nat := field (qw q 2) 24 16
/-- BASE. -/
def bBase (q : List W64) : Nat := field (qw q 2) 7 0
/-- Blocks BASE to BASE + COUNT − 1. -/
def bBlocks (q : List W64) : List Nat := (List.range (bCount q)).map (bBase q + ·)
/-- PIN_QUOTA of SHARE. -/
def bPins (q : List W64) : Nat := field (qw q 2) 21 16
/-- HOLD_CELLS. -/
def bHold (q : List W64) : Nat := field (qw q 2) 12 8
/-- WEIGHT, 0 taken as 1. -/
def bWeight (q : List W64) : Nat := max 1 (field (qw q 2) 7 0)
/-- EVQS of VF_GRANT. -/
def bEvqs (q : List W64) : Nat := field (qw q 2) 44 32
/-- HOOPS. -/
def bHoops (q : List W64) : Nat := field (qw q 2) 21 16
/-- VATS. -/
def bVats (q : List W64) : Nat := field (qw q 2) 15 0

/-- Whether an OP uses FROM (R415). -/
def usesFrom (op : Nat) : Bool := op = 1 || op = 2 || op = 3
/-- Whether an OP acts on VF. -/
def usesVf (op : Nat) : Bool := op = 5 || op = 6

/-- Bits of ARGS that an OP uses (R416). -/
def argsMask (op : Nat) : Nat :=
  if op = 1 then 0xF else if op = 2 || op = 3 then 0x1FF00FF else if op = 4 then 0x3F1FFF
  else if op = 5 then 0x1FFF003FFFFF else 0

/-! ### Checks of BIND (R409, R417, R419 to R421) -/

/-- Whether the issuer has the right to an OP (R409). -/
def bindRight (s : State) (a : Nat) (q : List W64) : Bool :=
  match bOp q with
  | 5 => a ≠ 16
  | 6 => a ≠ 16
  | 7 => isDevmgr s (adminFn a) || isManager s (adminFn a) (bTo q)
  | _ => isDevmgr s (adminFn a)

/-- Whether FROM holds every resource or block that the OP names. -/
def bindHeld (s : State) (q : List W64) : Bool :=
  let w := bFrom q
  match bOp q with
  | 1 => (bSlices q).all (fun k => sliceWheelOf s k = w) && (bHc q).all (fun p => hcWheelOf s p = w) &&
      (bPeer q).all (fun p => peerWheelOf s p = w) && (bAcd q).all (fun p => acdWheelOf s p = w)
  | 2 => (bBlocks q).all (fun b => tabGet 0 s.wh.vatBlock b = w)
  | 3 => (bBlocks q).all (fun b => tabGet 0 s.wh.evqBlock b = w)
  | _ => true

/-- Whether arguments are in range (R416). -/
def bindArgsOk (q : List W64) : Bool :=
  match bOp q with
  | 2 => 1 ≤ bCount q && bCount q ≤ 256 && bBase q + bCount q ≤ 256
  | 3 => 1 ≤ bCount q && bCount q ≤ 256 && bBase q + bCount q ≤ 256
  | 4 => bPins q ≤ 32 && bHold q ≤ 16
  | 5 => bEvqs q ≤ 4096 && bHoops q ≤ 32
  | _ => true

/-- The second row of R419 does not match. -/
def bindFieldsOk (s : State) (a : Nat) (q : List W64) : Bool :=
  let op := bOp q
  1 ≤ op && op ≤ 7 && field (qw q 0) 63 25 = 0 && qw q 3 = 0 && Nat.land (qw q 2) (argsMask op) = qw q 2 &&
    (op = 1 || qw q 1 = 0) && (usesVf op || bVf q = 0) && (!usesVf op || bTo q = 0) && (usesFrom op || bFrom q = 0) &&
    (usesVf op || (s.wheel (bTo q)).present) &&
    (!usesFrom op || ((s.wheel (bFrom q)).present && bFrom q ≠ bTo q)) &&
    bindArgsOk q && bindHeld s q && (!usesVf op || (s.fnS (.vf a (bVf q))).granted)

/-- Whether a wheel that the OP uses is resetting or in its safe state, or another BIND is in progress. -/
def bindBlocked (s : State) (a : Nat) (q : List W64) : Bool :=
  let bad (w : Nat) : Bool := (s.wheel w).resetting || (s.wheel w).safe
  s.wh.bindBusy || (if usesVf (bOp q) then bad (hcWheelOf s a) else bad (bTo q)) || (usesFrom (bOp q) && bad (bFrom q))

/-- The fourth row of R419 (BUSY for a quota, a grant or the device manager's port). -/
def bindOver (s : State) (a : Nat) (q : List W64) : Bool :=
  let f : Fn := .vf a (bVf q)
  match bOp q with
  | 1 => s.wh.devmgr.elim false (fun d => (bHc q).contains d)
  | 4 => 32 < bPins q + ((s.wh.wheels.filter (fun w => w.2.present && w.1 ≠ bTo q)).map (fun w => w.2.pinQuota)).sum ||
      bPins q < pinnedVats s (fun v => v.wheel = bTo q)
  | 5 => bVats q < (vatsOf s f).length || bHoops q < (hoopsOf s f).length || bEvqs q < (evqsOf s f).length
  | _ => false

/-- Whether a virtual function is quiesced (R420). -/
def quiesced (s : State) (f : Fn) : Bool :=
  match (s.fnS f).vfState with
  | .frozen => true
  | .saving => true
  | .restored => true
  | .freezing => false
  | .running => (vatsOf s f).isEmpty && (hoopsOf s f).isEmpty && (evqsOf s f).isEmpty

/-- Whether an export slot of a kind maps a range of locations. -/
def exportMaps (s : State) (scratch : Bool) (lo n : Nat) : Bool :=
  s.pr.exports.any (fun x => x.2.valid && x.2.scratch = scratch && overlap x.2.base (2 ^ x.2.sizeLog2) lo n)

/-- Whether a thermal hold of a wheel's collective writes is in progress on a port of it (R269). -/
def wheelHolding (s : State) (w : Nat) : Bool :=
  (List.range 4).any (fun q => acdWheelOf s q = w && (s.acd q).holdSince.isSome)

/-- A HDM window of port p: VALID and Acdoic port of its base (R300). -/
def hdmWin (s : State) (p k : Nat) : W64 := if k = 0 then (s.hc p).hdm0 else (s.hc p).hdm1

/-- Acdoic port that a HDM window maps (R300, R309). -/
def hdmAcd (x : W64) : Nat := field x.toNat 51 40

/-- Whether the slice is unused (R417). -/
def sliceFree (s : State) (w k : Nat) : Bool :=
  (hoopsWith s (fun _ => true)).all (fun h => sliceOf h ≠ k) &&
    s.wk.recipes.all (fun r => r.replicas.all (fun x => !x.slices.contains k)) &&
    !exportMaps s true (k * 2 ^ 22) (2 ^ 22) && !wheelHolding s w

/-- Whether the host-class port is unused (R417). -/
def hcFree (s : State) (w p : Nat) : Bool :=
  s.wk.vats.all (fun v => v.2.st = .free || (pfOf v.2.fn ≠ p && !(v.2.wheel = w && v.2.windowMask.getLsbD p))) &&
    s.wk.hoops.all (fun h => !h.2.present || pfOf h.2.fn ≠ p) &&
    s.ev.evhoops.all (fun e => !e.2.present || pfOf e.2.fn ≠ p) && s.wk.recipes.all (fun r => pfOf r.fn ≠ p) &&
    !(s.hc p).cohWin.getLsbD 0 && !(s.hc p).hdm0.getLsbD 63 && !(s.hc p).hdm1.getLsbD 63

/-- Whether the Acdoic port is unused (R417). -/
def acdFree (s : State) (w q : Nat) : Bool :=
  s.wk.vats.all (fun v => v.2.st = .free || v.2.wheel ≠ w || !v.2.rootValid || v.2.root / 2 ^ 40 ≠ q) &&
    !exportMaps s false (q * 2 ^ 40) (2 ^ 40) && (s.acd q).launches.isEmpty &&
    (List.range 16).all (fun p => [0, 1].all (fun k => !(hdmWin s p k).getLsbD 63 || hdmAcd (hdmWin s p k) ≠ q))

/-- R417, R420 and R152 are met. -/
def bindQuiet (s : State) (a : Nat) (q : List W64) : Bool :=
  let w := bFrom q
  match bOp q with
  | 1 => (bSlices q).all (sliceFree s w) && (bHc q).all (hcFree s w) && (bAcd q).all (acdFree s w) &&
      ((bPeer q).isEmpty || s.pr.colls.all (fun g => !g.2.enable || g.2.wheel ≠ w))
  | 2 => s.wk.vats.all (fun v => v.2.st = .free || !(bBlocks q).contains (v.1 / 256))
  | 3 => s.ev.evhoops.all (fun e => !e.2.present || !(bBlocks q).contains (e.1 / 16))
  | 6 => quiesced s (.vf a (bVf q))
  | _ => true

/-- The first row of R419 that matches. -/
def bindCheck (s : State) (a : Nat) (q : List W64) : Option Status :=
  if !bindRight s a q then some .rindViolation
  else if !bindFieldsOk s a q then some .malformed
  else if bindBlocked s a q || bindOver s a q then some .busy
  else if !bindQuiet s a q then some .notQuiesced
  else none

/-! ### Effects (R418, R421 to R423) -/

/-- Count a change of a function's capability table (R48). -/
def bumpCaps (f : Fn) (s : State) : State := modFnS f (fun x => { x with capsGen := x.capsGen + 1 }) s

/-- Set each key of a list to wheel w. -/
def setAll (t : List (Nat × Nat)) (ks : List Nat) (w : Nat) : List (Nat × Nat) := ks.foldl (fun t k => tabSet t k w) t

/-- Remove the device-local translations of every vat of a wheel, as INVALIDATE with SCOPE 1 does (R217, R418). -/
def purgeWheel (w : Nat) (s : State) : State :=
  let vs := (s.wk.vats.filter (fun v => v.2.wheel = w)).map (·.1)
  { s with
    xl.xlats := s.xl.xlats.filter (fun x => x.port.isSome || !vs.contains x.vat)
    xl.walkCache := s.xl.walkCache.filter (fun x => !vs.contains x.vat) }

/-- The resources of a MOVE change wheel in both copies of the bindings (R412, R418); moved slices are zeroed, ATC
entries of moved ports go. -/
def bindMoveEffect (q : List W64) (s : State) : State :=
  let w := bTo q
  let hs := bHc q
  { s with
    wh.sliceWheel := setAll s.wh.sliceWheel (bSlices q) w
    wh.hcWheel := setAll s.wh.hcWheel hs w
    wh.peerWheel := setAll s.wh.peerWheel (bPeer q) w
    wh.acdWheel := setAll s.wh.acdWheel (bAcd q) w
    wh.gateBind := s.wh.gateBind.filter (fun g => !((bSlices q) ++ hs.map (32 + ·) ++ (bAcd q).map (64 + ·)).contains g.1)
    xl.xlats := s.xl.xlats.filter (fun x => x.port.elim true (fun p => !hs.contains p)) }
  |> purgeWheel (bFrom q)
  |> forAll (bSlices q) (fun k s => s |> loseResv (fun r => decide (homeOf r.2.granule = .slice k))
      |> zeroSlice k)
  |> forAll (hs.flatMap (fnsOfPort s)) bumpCaps
  |> yieldWheel (bFrom q) 2 0x04 w (bOp q) 5

/-- VAT blocks change wheel (R418). -/
def bindVatsEffect (q : List W64) (s : State) : State :=
  { s with wh.vatBlock := setAll s.wh.vatBlock (bBlocks q) (bTo q) } |> purgeWheel (bFrom q)

/-- Event hoop blocks change wheel (R418). -/
def bindEvqsEffect (q : List W64) (s : State) : State :=
  { s with wh.evqBlock := setAll s.wh.evqBlock (bBlocks q) (bTo q) } |> purgeWheel (bFrom q)

/-- SHARE sets a wheel's settings (R416). -/
def bindShareEffect (q : List W64) (s : State) : State :=
  modWheel (bTo q) (fun w => { w with pinQuota := bPins q, holdCells := bHold q, weight := bWeight q }) s

/-- VF_GRANT sets a virtual function's grant (R421). -/
def vfGrantEffect (a : Nat) (q : List W64) (s : State) : State :=
  let f : Fn := .vf a (bVf q)
  let x := s.fnS f
  s |> modFnS f (fun x => { x with grVats := bVats q, grHoops := bHoops q, grEvqs := bEvqs q })
    |> when (x.grVats ≠ bVats q || x.grHoops ≠ bHoops q || x.grEvqs ≠ bEvqs q) (bumpCaps f)

/-- Every vat of a list is torn down, no record being posted (R50, R52). -/
def tearVats (vs : List Nat) (s : State) : State := s |> forAll vs (fun v => startTear v true none) |> forAll vs finishTear

/-- A virtual function without vats and hoops loses its event hoops, MSI-X and interrupt state (R282, R422). -/
def clearVf (f : Fn) (s : State) : State :=
  s |> forAll (evqsOf s f) killEvq |> clearMsix f
    |> modFnS f (fun x => { x with
        vfState := .running, freezeBy := none, doneBad := false, readBad := false, fDoneBad := false, fReadBad := false
        slotBad := false })

/-- Clear a virtual function's bit of VF_FLR_REQ (R422). -/
def clearFlr (f : Fn) (s : State) : State :=
  match f with
  | .vf p i => modHc p (fun x => { x with vfFlrReq := x.vfFlrReq.filter (· ≠ i) }) s
  | _ => s

/-- Functions of a wheel's host-class ports. -/
def wheelFns (s : State) (w : Nat) : List Fn :=
  ((List.range 16).filter (fun p => hcWheelOf s p = w)).flatMap (fnsOfPort s)

/-- Vats that a WHEEL_RESET tears down. -/
def wheelVats (s : State) (w : Nat) : List Nat := (s.wk.vats.filter (fun v => v.2.st ≠ .free && v.2.wheel = w)).map (·.1)

/-- Unload every recipe of a list of functions; commands that waited for it end (R423). -/
def dropRecipes (fs : List Fn) (s : State) : State :=
  let waiting := (s.wk.recipes.filter (fun r => fs.contains r.fn)).filterMap (·.unloadBy)
  forAll waiting (fun a => adminEnd a .ok) { s with wk.recipes := s.wk.recipes.filter (fun r => !fs.contains r.fn) }

/-- A virtual function that a reset returns to RUNNING ends the FREEZE that waits on it (R122, R423). -/
def endFreeze (f : Fn) (s : State) : State :=
  match (s.fnS f).freezeBy with
  | some a => s |> modFnS f (fun x => { x with freezeBy := none }) |> adminEnd a .busy
  | none => s

/-- What a WHEEL_RESET does once its vats are gone (R423). -/
def wheelResetEffect (w : Nat) (s : State) : State :=
  let fs := wheelFns s w
  s |> forAll (fs.flatMap (evqsOf s)) killEvq
    |> forAll (fs.filter isVf) (fun f s => s |> endFreeze f |> clearVf f)
    |> (fun s => { s with wk.admins := s.wk.admins.map (fun x =>
        if x.1 < 16 && hcWheelOf s x.1 = w then (x.1, { x.2 with evqValid := false }) else x) })
    |> dropRecipes fs |> clearWheelEntries w
    |> forAll ((List.range 32).filter (fun k => sliceWheelOf s k = w)) (fun k s =>
        s |> loseResv (fun r => decide (homeOf r.2.granule = .slice k)) |> zeroSlice k)
    |> modWheel w (fun x => { x with resetting := false })

/-- Whether some request through a peer port being moved is outstanding (R418). -/
def peerBusy (s : State) (q : List W64) : Bool :=
  s.lk.reqs.any (fun r => match r.tgt with
    | .peer _ => r.sent && r.hop.elim false (fun p => (bPeer q).contains p)
    | _ => false)

/-- The BIND in progress ends: its command completes with a status. -/
def bindEnd (a : Nat) (st : Status) (s : State) : State :=
  { s with wh.bindBusy := false, wh.bindWheels := [] } |> adminEnd a st

/-- The end of a BIND with its effect, brought about at once in both copies of the bindings (R48, R412, R418); a MOVE
waits for its peer requests, and one that no longer meets R417 ends with NOT_QUIESCED (DEDUCED). -/
def finishBind (a : Nat) (q : List W64) (s : State) : State :=
  if bOp q = 1 && peerBusy s q then s
  else if !bindQuiet s a q then bindEnd a .notQuiesced s
  else
    let t := match bOp q with
      | 1 => bindMoveEffect q s
      | 2 => bindVatsEffect q s
      | 3 => bindEvqsEffect q s
      | 4 => bindShareEffect q s
      | _ => vfGrantEffect a q s
    t |> bindEnd a .ok |> rescan

/-- The end of a FUNC_RESET, once its vats are gone (R422). -/
def finishFuncReset (a : Nat) (f : Fn) (s : State) : State :=
  let s := forAll (vatsOf s f) finishTear s
  if (vatsOf s f).isEmpty then s |> clearVf f |> clearFlr f |> bindEnd a .ok else s

/-- The end of a WHEEL_RESET, once its vats are gone (R423). -/
def finishWheelReset (a w : Nat) (s : State) : State :=
  let s := forAll (wheelVats s w) finishTear s
  if (wheelVats s w).isEmpty then s |> wheelResetEffect w |> bindEnd a .ok else s

/-! ### The commands -/

/-- Accept a BIND: it is in progress until ADMIN_COMMAND_COMPLETE (R82, R418). -/
def bindAccept (a : Nat) (q : List W64) (k : AdminKind) (s : State) : State :=
  { s with wh.bindBusy := true, wh.bindWheels := if usesVf (bOp q) then [] else if usesFrom (bOp q) then [bFrom q, bTo q] else [bTo q] }
  |> adminHold a k .ok 0

/-- A BIND whose block names an OP: its first failing row, or acceptance. -/
def bindRun (a : Nat) (sel : Nat → Bool) (go : List W64 → State → State) (s : State) : State :=
  adminRun a 0x88 (fun _ q => sel (bOp q)) (fun _ q s =>
    match bindCheck s a q with
    | some st => adminEnd a st s
    | none => go q s) s

/-- BIND MOVE, R417; an unknown OP ends here with MALFORMED (R419). -/
def execBindMove (a : Nat) (s : State) : Host.Outcome State Fault Refusal :=
  .next (bindRun a (fun op => op = 1 || op = 0 || 7 < op) (fun q => bindAccept a q (.bind q)) s)

/-- BIND VATS, R417. -/
def execBindVats (a : Nat) (s : State) : Host.Outcome State Fault Refusal :=
  .next (bindRun a (· = 2) (fun q => bindAccept a q (.bind q)) s)

/-- BIND EVQS, R417. -/
def execBindEvqs (a : Nat) (s : State) : Host.Outcome State Fault Refusal :=
  .next (bindRun a (· = 3) (fun q => bindAccept a q (.bind q)) s)

/-- BIND SHARE, R416. -/
def execBindShare (a : Nat) (s : State) : Host.Outcome State Fault Refusal :=
  .next (bindRun a (· = 4) (fun q => bindAccept a q (.bind q)) s)

/-- BIND VF_GRANT, R421. -/
def execVfGrant (a : Nat) (s : State) : Host.Outcome State Fault Refusal :=
  .next (bindRun a (· = 5) (fun q => bindAccept a q (.bind q)) s)

/-- BIND FUNC_RESET, R422: the teardown of the function's vats begins. -/
def execFuncReset (a : Nat) (s : State) : Host.Outcome State Fault Refusal :=
  .next (bindRun a (· = 6) (fun q s =>
    s |> bindAccept a q (.funcReset (.vf a (bVf q))) |> tearVats (vatsOf s (.vf a (bVf q)))) s)

/-- BIND WHEEL_RESET, R423: RESETTING reads 1 and the teardown of the wheel's vats begins. -/
def execWheelReset (a : Nat) (s : State) : Host.Outcome State Fault Refusal :=
  .next (bindRun a (· = 7) (fun q s =>
    s |> bindAccept a q (.wheelReset (bTo q)) |> modWheel (bTo q) (fun w => { w with resetting := true })
      |> tearVats (wheelVats s (bTo q))) s)

end Sys2Proof.Machine
end

