-- ==== Sys2Proof/Machine/Image.lean ====
section
/-! DEFINITION. The image of a virtual function that SAVE_STATE writes and RESTORE_STATE reads, and the opaque encryption of
it (R123, R124, R434). -/

namespace Sys2Proof

open Sys2Proof.Machine

/-- What an image holds (R123): the function's number, vats, data hoops, event hoops, interrupt settings (those of the
function, and MASK, PENDING and SENSE of each hoop's source), and the handles and digests of its recipes. -/
structure FnImage where
  pf : Nat
  vats : List (Nat × Vat)
  hoops : List (Nat × Hoop)
  evqs : List (Nat × EvHoop)
  fnst : FnState
  srcs : List (Nat × Src)
  recipes : List (Nat × Nat)
deriving DecidableEq, Repr

/-- Encryption and authentication of an image under a session (number, images saved, image): AES-256-GCM in a layout that
the manual does not give (R123, R434). -/
opaque Config.seal : Nat → Nat → FnImage → List Byte
/-- Opening of a sealed image under a session: none when authentication fails (R124). -/
opaque Config.unseal : Nat → List Byte → Option FnImage
/-- The physical function number that an image's bytes carry, as far as they show one before authentication (R124). -/
opaque Config.imagePf : List Byte → Nat

end Sys2Proof
end

