-- ==== Sys2Proof/Machine/Migrate.lean ====
section
/-! DEFINITION. Moving a virtual function: FREEZE, SAVE_STATE, RESTORE_STATE, THAW, and KEY_SESSION (R121 to R125, R434,
R435). -/

namespace Sys2Proof.Machine

open Sys2Proof

/-- FUNC_ID that FREEZE, SAVE_STATE, RESTORE_STATE and THAW name, OPERAND[31:16] (R118). -/
def movedId (e : Entry) : Nat := field e.operand.toNat 31 16
/-- Migration session that SAVE_STATE and RESTORE_STATE name, OPERAND[63:32] (R118). -/
def movedSession (e : Entry) : Nat := field e.operand.toNat 63 32

/-! ### FREEZE and THAW (R122, R125) -/

/-- Disarmed waits are left incomplete: they stand ready to run again (R122). -/
def unstartWaits (h : Nat) (s : State) : State :=
  modHoop h (fun x => { x with entries := x.entries.map (fun e =>
    if e.opcode = 0x0B && e.phase = .started then { e with phase := .ready, segs := [] } else e) }) s

/-- Whether a page request serves an entry in flight of its vat: its data, its status word or its hoop's head. -/
def pageInFlight (s : State) (r : PageReq) : Bool :=
  let page := r.va.toNat / 4096 * 4096
  (hoopsWith s (fun x => x.vat = r.vat && x.entries.any inFlight)).any (fun h =>
    let x := s.hoop h
    overlap page 4096 x.ringBase (64 * 2 ^ x.log2) || overlap page 4096 x.headAddr 8 ||
    (x.entries.filter inFlight).any (fun e => (rangePages s h e).any (fun p => p.1 / 4096 * 4096 = page)))

/-- FREEZE, R122: no entry of the function starts any more, and the page requests that no entry in flight needs are cancelled
(R213); those that one needs are answered, since it runs to completion. The command ends when its work has. -/
def execFreeze (a : Nat) (s : State) : Host.Outcome State Fault Refusal :=
  .next (adminRun a 0x8B (fun _ _ => true) (fun e _ s =>
    let f := fnOfId (movedId e)
    if !namesVf s a (movedId e) then adminEnd a .rindViolation s
    else if (s.fnS f).vfState ≠ .running then adminEnd a .notQuiesced s
    else s |> adminHold a (.freeze f) .ok 0
      |> modFnS f (fun x => { x with vfState := .freezing, freezeBy := some a })
      |> forAll (hoopsOf s f) (fun h s => s |> disarmHoop h |> unstartWaits h)
      |> (fun s => cancelPages (fun r => (s.vat r.vat).fn = f && !pageInFlight s r) s)
      |> tryFrozen f) s)

/-- THAW, R125: the function runs again and its hoops go on from their heads; the status follows. -/
def execThaw (a : Nat) (s : State) : Host.Outcome State Fault Refusal :=
  .next (adminRun a 0x8E (fun _ _ => true) (fun e _ s =>
    let f := fnOfId (movedId e)
    if !namesVf s a (movedId e) then adminEnd a .rindViolation s
    else if (s.fnS f).vfState = .running || (s.fnS f).vfState = .freezing then adminEnd a .notQuiesced s
    else s |> adminHold a (.thaw f) .ok 0 |> thawFn f) s)

/-! ### SAVE_STATE (R123) -/

/-- The session of a number, where it is established, not spent and bound to function f (R434). -/
def goodSession (s : State) (n : Nat) (f : Fn) : Option MigSession :=
  s.se.migs.find? (fun m => m.num = n && m.fn = f && m.established && !m.spent)

/-- Change a migration session. -/
def modMig (n : Nat) (g : MigSession → MigSession) (s : State) : State :=
  { s with se.migs := s.se.migs.map (fun m => if m.num = n then g m else m) }

/-- The image of a function (R123). -/
def imageOf (s : State) (f : Fn) : FnImage :=
  { pf := pfOf f
    vats := (vatsOf s f).map (fun v => (v, s.vat v))
    hoops := (hoopsOf s f).map (fun h => (h, s.hoop h))
    evqs := (evqsOf s f).map (fun e => (e, s.evq e))
    fnst := s.fnS f
    srcs := (hoopsOf s f).map (fun h => (h, s.src h))
    recipes := (s.wk.recipes.filter (fun r => r.fn = f)).map (fun r => (r.handle, sha384 r.image)) }

/-- The most bytes that an image takes (R123). -/
def imageBound (i : FnImage) : Nat := 4096 + 256 * i.vats.length + 128 * (i.hoops.length + i.evqs.length) + 64 * i.recipes.length

/-- The bytes that SAVE_STATE writes (R123, R434). -/
def imageBytes (s : State) (f : Fn) (m : MigSession) : List Byte :=
  (Config.seal m.num m.images (imageOf s f)).take (imageBound (imageOf s f))

/-- SAVE_STATE, R123: a FROZEN function becomes SAVING and its image is written; a LENGTH of 0 asks for the size (R120). The
rule orders neither of its two failures: a session that is not good is refused before the function's state is looked at
(DESIGN CHOICE, log entry 134). -/
def execSaveState (a : Nat) (s : State) : Host.Outcome State Fault Refusal :=
  .next (adminRun a 0x8C (fun _ _ => true) (fun e _ s =>
    let f := fnOfId (movedId e)
    if !namesVf s a (movedId e) then adminEnd a .rindViolation s
    else match goodSession s (movedSession e) f with
      | none => adminEnd a .cryptoReject s
      | some m =>
        if (s.fnS f).vfState ≠ .frozen && (s.fnS f).vfState ≠ .saving then adminEnd a .busy s
        else
          let bs := imageBytes s f m
          let go (s : State) : State :=
            s |> modFnS f (fun x => { x with vfState := .saving }) |> adminHold a (.saveState f) .ok bs.length
          if e.length = 0 then go s
          else if e.length < bs.length then adminEnd a .malformed s
          else s |> adminOut a e.dst.toNat bs |> modMig m.num (fun x => { x with images := x.images + 1 }) |> go) s)

/-! ### RESTORE_STATE (R124) -/

/-- A restored vat (R124): its function and wheel are the target's, windows that carried the source's requester carry the
target's. -/
def restoredVat (s : State) (f src : Fn) (v : Vat) : Vat :=
  { v with
    st := if v.pin then .pinned else .idle, fn := f, wheel := (fnWheel s f).getD 0, slot := none, expired := false, prOut := 0
    destroyBy := none, tearSilent := false
    windows := v.windows.map (fun w => (w.1, { w.2 with reqFn := if w.2.reqFn = src then f else w.2.reqFn })) }

/-- A restored data hoop: its VF_SLOT, tail, head and enable state as saved, its epoch one higher (R124). -/
def restoredHoop (f : Fn) (x : Hoop) : Hoop :=
  { present := true, fn := f, vat := x.vat, evq := x.evq, ringBase := x.ringBase, headAddr := x.headAddr, pubCount := x.pubCount
    log2 := x.log2, vfSlot := x.vfSlot, enabled := x.enabled, disabling := x.disabling, idle := !x.enabled && !x.disabling
    epoch := x.epoch + 1, head := x.head, tail := x.tail, pub := x.head, fetchNext := x.head }

/-- Hoop numbers free in the slices of wheel w, lowest first, at most n (R124). -/
def freeHoops (s : State) (w n : Nat) : List Nat :=
  ((List.range 16384).filter (fun h => hoopWheel s h = w && !(s.hoop h).present)).take n

/-- Whether every recipe of the image is loaded for f with the same digest. -/
def imageRecipesOk (s : State) (f : Fn) (i : FnImage) : Bool :=
  i.recipes.all (fun r => s.wk.recipes.any (fun x => x.fn = f && x.handle = r.1 && decide (sha384 x.image = r.2)))

/-- Whether the target's wheel and grants hold what the image needs (R124, R421). R124 gives new numbers to hoops alone: vats
and event hoops keep the image's numbers, and one that is taken or lies outside the wheel's blocks gives BUSY (DESIGN CHOICE,
log entry 135). -/
def imageFits (s : State) (f : Fn) (i : FnImage) : Bool :=
  let w := (fnWheel s f).getD 0
  let pins := (i.vats.filter (fun v => v.2.pin)).length
  let g := s.fnS f
  (freeHoops s w i.hoops.length).length = i.hoops.length &&
    i.vats.all (fun v => v.1 < 65536 && vatBlockOf s v.1 = w && (s.vat v.1).st = .free) &&
    i.evqs.all (fun e => e.1 < 4096 && evqBlockOf s e.1 = w && !(s.evq e.1).present) &&
    pinnedVats s (fun _ => true) + pins ≤ 32 && pinnedVats s (fun v => v.wheel = w) + pins ≤ (s.wheel w).pinQuota &&
    i.vats.length ≤ g.grVats && i.hoops.length ≤ g.grHoops && (evqsOf s f).length + i.evqs.length ≤ g.grEvqs

/-- The first row of R124 that matches; otherwise the image to restore. -/
def restoreCheck (s : State) (e : Entry) (f : Fn) (bs : List Byte) : Except Status FnImage :=
  if !(hoopsOf s f).isEmpty || !(vatsOf s f).isEmpty || s.wk.recipes.any (fun r => r.fn = f) || (s.fnS f).vfState = .running then
    .error .notQuiesced
  else if Config.imagePf bs ≠ pfOf f then .error .malformed
  else match (goodSession s (movedSession e) f).bind (fun m => Config.unseal m.num bs) with
    | none => .error .cryptoReject
    | some i =>
      if !imageRecipesOk s f i then .error .recipeFault
      else if !imageFits s f i then .error .busy
      else .ok i

/-- Rebuild a function's objects from an image (R124). -/
def restoreFn (f : Fn) (i : FnImage) (s : State) : State :=
  let src := (i.vats.head?.map (·.2.fn)).getD f
  let hs := freeHoops s ((fnWheel s f).getD 0) i.hoops.length
  s |> forAll i.vats (fun v => modVat v.1 (fun _ => restoredVat s f src v.2))
    |> forAll (i.vats.filter (fun v => v.2.pin)) (fun v => pinSlot v.1)
    |> forAll (hs.zip i.hoops) (fun h => modHoop h.1 (fun _ => restoredHoop f h.2.2))
    |> forAll (hs.zip i.srcs) (fun x => modSrc x.1 (fun _ =>
        { mask := x.2.2.mask, pending := x.2.2.pending, sense := x.2.2.sense, armed := x.2.2.armed, evq := x.2.2.evq }))
    |> forAll i.evqs (fun e => modEvq e.1 (fun _ => { e.2 with fn := f }))
    |> modFnS f (fun x => { x with
        vfState := .restored, msixEn := i.fnst.msixEn, funcMask := i.fnst.funcMask, msix := i.fnst.msix, claimQ := i.fnst.claimQ })

/-- RESTORE_STATE, R124: on OK the session is spent (R434) and the target becomes RESTORED. -/
def execRestoreState (a : Nat) (s : State) : Host.Outcome State Fault Refusal :=
  .next (adminRun a 0x8D (fun _ _ => true) (fun e _ s =>
    let f := fnOfId (movedId e)
    if !namesVf s a (movedId e) then adminEnd a .rindViolation s
    else match restoreCheck s e f (readBytes s (hostLoc a e.src.toNat) e.length) with
      | .error st => adminEnd a st s
      | .ok i => s |> restoreFn f i |> modMig (movedSession e) (fun m => { m with spent := true })
          |> adminHold a (.restoreState f) .ok 0) s)

/-! ### KEY_SESSION (R434, R435) -/

/-- OP of a KEY_SESSION block. -/
def ksOp (q : List W64) : Nat := field (qw q 0) 7 0
/-- ROLE. -/
def ksRole (q : List W64) : Bool := bitOf (qw q 0) 8
/-- FUNC_ID. -/
def ksFn (q : List W64) : Nat := field (qw q 0) 31 16
/-- SESSION. -/
def ksSession (q : List W64) : Nat := field (qw q 0) 63 32
/-- MSG_BYTES. -/
def ksMsg (q : List W64) : Nat := field (qw q 1) 15 0

/-- Reserved fields and lengths of a KEY_SESSION (R435, second row). -/
def ksFieldsOk (e : Entry) (q : List W64) : Bool :=
  field (qw q 0) 15 9 = 0 && field (qw q 1) 63 16 = 0 && 16 ≤ e.length && e.length ≤ 4096 && e.length = 16 + ksMsg q &&
    4096 ≤ outLen e && 1 ≤ ksOp q && ksOp q ≤ 3 && (ksOp q = 1 || (!ksRole q && ksFn q = 0)) && (ksOp q ≠ 1 || ksSession q = 0) &&
    (ksOp q = 2 || (ksOp q = 1 && ksRole q) || ksMsg q = 0)

/-- The session of a number that function a or its virtual functions opened. -/
def ownMig (s : State) (a n : Nat) : Option MigSession := s.se.migs.find? (fun m => m.num = n && pfOf m.fn = a)

/-- Take one key or nonce from the generator (R430, R431). -/
def drawKey (s : State) : State := { s with se.drbg := s.se.drbg + 1, se.keyGen := s.se.keyGen + 1 }

/-- Write the 16-byte header and the reply of a KEY_SESSION (R435). -/
def ksOut (a : Nat) (e : Entry) (num err st : Nat) (reply : List Byte) (s : State) : State :=
  adminOut a e.dst.toNat (natLe 8 (num * 2 ^ 32 + err * 2 ^ 16 + st) ++ natLe 8 (reply.take 4080).length ++ reply.take 4080) s

/-- Close a migration session (R434, R435). -/
def closeMig (n : Nat) (s : State) : State := { s with se.migs := s.se.migs.filter (fun m => m.num ≠ n) }

/-- The SPDM message of a KEY_SESSION (R435). -/
def ksMessage (s : State) (a : Nat) (e : Entry) (q : List W64) : List Byte := readBytes s (hostLoc a (e.src.toNat + 16)) (ksMsg q)

/-- A session takes a message: it goes on, becomes established, or closes with the code of its failure (R435, R439). -/
def ksTake (a : Nat) (e : Entry) (m : MigSession) (msg : List Byte) (s : State) : State :=
  match Config.spdmStep m.num m.steps msg with
  | .error c => s |> closeMig m.num |> ksOut a e m.num c 2 [] |> adminEnd a .cryptoReject
  | .ok (est, reply) => s
      |> modMig m.num (fun x => { x with steps := x.steps + 1, established := x.established || est })
      |> ksOut a e m.num 0 (b2n (m.established || est)) reply |> adminFinish a .ok false (16 + (reply.take 4080).length)

/-- KEY_SESSION OPEN, R435; an OP that the table does not give ends here with MALFORMED. -/
def execKeySessionOpen (a : Nat) (s : State) : Host.Outcome State Fault Refusal :=
  .next (adminRun a 0x91 (fun _ q => ksOp q ≠ 2 && ksOp q ≠ 3) (fun e q s =>
    if !namesVf s a (ksFn q) then adminEnd a .rindViolation s
    else if !ksFieldsOk e q then adminEnd a .malformed s
    else if 64 ≤ (s.se.migs.filter (fun m => !m.spent)).length then adminEnd a .busy s
    else
      let m : MigSession := { num := s.se.nextMig, fn := fnOfId (ksFn q), responder := ksRole q }
      let t := { s with se.migs := s.se.migs ++ [m], se.nextMig := (s.se.nextMig + 1) % 2 ^ 32 } |> drawKey
      if ksRole q then ksTake a e m (ksMessage s a e q) t
      else t |> modMig m.num (fun x => { x with steps := 1 }) |> ksOut a e m.num 0 0 (Config.spdmFirst m.num)
        |> adminFinish a .ok false (16 + ((Config.spdmFirst m.num).take 4080).length)) s)

/-- KEY_SESSION STEP, R435. -/
def execKeySessionStep (a : Nat) (s : State) : Host.Outcome State Fault Refusal :=
  .next (adminRun a 0x91 (fun _ q => ksOp q = 2) (fun e q s =>
    match ownMig s a (ksSession q) with
    | none => adminEnd a .malformed s
    | some m => if !ksFieldsOk e q then adminEnd a .malformed s else ksTake a e m (ksMessage s a e q) s) s)

/-- KEY_SESSION CLOSE, R434 and R435: the session is spent and closes. -/
def execKeySessionClose (a : Nat) (s : State) : Host.Outcome State Fault Refusal :=
  .next (adminRun a 0x91 (fun _ q => ksOp q = 3) (fun e q s =>
    match ownMig s a (ksSession q) with
    | none => adminEnd a .malformed s
    | some m =>
      if !ksFieldsOk e q then adminEnd a .malformed s
      else s |> closeMig m.num |> ksOut a e m.num 0 2 [] |> adminFinish a .ok false 16) s)

end Sys2Proof.Machine
end

