-- ==== Sys2Proof/Machine/Mram.lean ====
section
/-! DEFINITION. MRAM writes: calibration records, the port configuration record, log records, and their wait on a supply
block (R356, R357, R398, R400 to R402, R446). -/

namespace Sys2Proof.Machine

open Sys2Proof

/-! ### Calibration (R357, R358, R401) -/

/-- Admin hoop whose CALIBRATE still has port n to do (ports 16 to 31: peer ports), with all its ports and its buffer. -/
def calWork (s : State) (n : Nat) : Option (Nat × List Nat × Nat) :=
  s.wk.admins.findSome? (fun a => match a.2.cur with
    | some w => match w.kind with
      | .calibrate all => if w.ports.contains n then some (a.1, all, w.dst) else none
      | _ => none
    | none => none)

/-- The 8-byte result record of port n (R357). -/
def calRecord (n result ms : Nat) : Nat :=
  (if n < 16 then n * 2 ^ 48 else 2 ^ 58 + (n - 16) * 2 ^ 48) + result % 256 * 2 ^ 40 + ms % 2 ^ 32

/-- Port n of a CALIBRATE is done: its result is written, a crossing found sets FIBRE_CROSS, and the last port ends the command with OK
(R334, R357, R359). -/
def calDone (n result ms : Nat) (s : State) : State :=
  match calWork s n with
  | none => s
  | some (a, all, dst) =>
    let i := (all.takeWhile (· ≠ n)).length
    let s := s |> adminOut a (dst + 8 * i) (natLe 8 (calRecord n result ms))
      |> modRsh n (fun x => { x with calibrating := false }) |> when (result = 3) (rshErr n 0x1)
      |> modAdmin a (fun x => { x with cur := x.cur.map (fun w => { w with ports := w.ports.filter (· ≠ n) }) })
    match (s.admin a).cur with
    | some w => if w.ports.isEmpty then adminEnd a .ok s else s
    | none => s

/-- The new record of port n replaces the old one (R358, R401). -/
def calCommit (n ms : Nat) (s : State) : State :=
  { s with
    st.calValid := if s.st.calValid.contains n then s.st.calValid else s.st.calValid ++ [n]
    st.calSeq := tabSet s.st.calSeq n (tabGet 0 s.st.calSeq n + 1) }
  |> calDone n 0 ms

/-! ### The port configuration record (R446) -/

/-- The fields that the port configuration record holds, as they stand. -/
def cfgNow (s : State) : PortCfg :=
  { far := BitVec.ofNat 16 (maskOf 16 ((List.range 16).filter (fun p => (s.hc p).far)))
    cxlEn := BitVec.ofNat 16 (maskOf 16 ((List.range 16).filter (fun p => (s.hc p).cxlEn)))
    hcEn := BitVec.ofNat 16 (maskOf 16 ((List.range 16).filter (fun p => (s.hc p).linkEn)))
    peerEn := BitVec.ofNat 16 (maskOf 16 ((List.range 16).filter (fun p => (s.peerP p).en)))
    acdEn := BitVec.ofNat 4 (maskOf 4 ((List.range 4).filter (fun q => (s.acd q).linkEn)))
    devmgr := s.wh.devmgr.getD 0 }

/-- Commit the port configuration record (R446). -/
def cfgCommit (s : State) : State := { s with st.portCfg := some (cfgNow s), st.cfgDirty := false }

/-! ### The persistent log (R402) -/

/-- SEQ of the newest record; 0 for an empty log (R404). -/
def newestSeq (s : State) : Nat := (s.st.log.getLast?.map (·.seq)).getD 0

/-- Write the oldest uncommitted record whole into the slot after the newest (R402). -/
def logCommit (s : State) : State :=
  match s.st.logPending with
  | [] => s
  | r :: rest =>
    let l := s.st.log ++ [{ r with seq := (newestSeq s + 1) % 2 ^ 32 }]
    { s with st.log := l.drop (l.length - 16384), st.logPending := rest }

/-- The oldest uncommitted record is lost (R404 LOST, saturating). -/
def logLose (s : State) : State :=
  match s.st.logPending with
  | [] => s
  | _ :: rest => { s with st.logPending := rest, st.logLost := min 65535 (s.st.logLost + 1) }

/-! ### Writing, and waiting on a supply block (R398) -/

/-- Carry out an MRAM write. -/
def mramDo (j : MramJob) (s : State) : State :=
  match j with
  | .cal n ms => calCommit n ms s
  | .cfg => cfgCommit s
  | .log => logCommit s

/-- An MRAM write: it waits while the supply monitor blocks MRAM writes (R398). -/
def mramWrite (j : MramJob) (s : State) : State :=
  if s.st.mramBlocked then { s with st.mramWaits := s.st.mramWaits ++ [j] } else mramDo j s

/-- A write that has waited for 1 s fails (R398): RESULT 0x06, a lost record, or a port configuration that stays as it was. -/
def mramFail (j : MramJob) (s : State) : State :=
  match j with
  | .cal n ms => calDone n 6 ms s
  | .cfg => s
  | .log => logLose s

/-- MRAM_WRITE_WAIT_TIMEOUT, R398: the write that has waited longest fails. -/
def execMramWriteWaitTimeout (s : State) : Host.Outcome State Fault Refusal :=
  .next (match s.st.mramWaits with
    | [] => s
    | j :: r => mramFail j { s with st.mramWaits := r })

/-- LOG_RECORD_WRITE, R402: the oldest record of a severe event is committed. A sector that fails write verify is
remapped to a spare sector within the same commit; without one the record is lost (R389). -/
def execLogRecordWrite (verifyOk : Bool) (s : State) : Host.Outcome State Fault Refusal :=
  .next (if s.st.logPending.isEmpty || s.st.mramWaits.contains .log then s
    else if s.st.mramBlocked || verifyOk then mramWrite .log s
    else if s.sp.mramSpare = 0 then s |> logLose |> severeFault 0x0F3
    else
      let t := s |> logCommit |> countFault 0x0F3
      if t.sp.mramSpare = s.sp.mramSpare then { t with sp.mramSpare := t.sp.mramSpare - 1 } else t)

/-- PORT_CONFIG_COMMIT, R446: firmware commits the record of the stored fields after a change of one of them. -/
def execPortConfigCommit (s : State) : Host.Outcome State Fault Refusal :=
  .next (if s.st.cfgDirty && !s.st.mramWaits.contains .cfg then mramWrite .cfg s else s)

/-- PORT_CALIBRATION_DONE, R359: a calibrated port's record is committed; any other result leaves the old record (R358). -/
def execPortCalibrationDone (n result ms : Nat) (s : State) : Host.Outcome State Fault Refusal :=
  .next (if (calWork s n).isNone || s.st.mramWaits.any (fun j => match j with | .cal m _ => m = n | _ => false) then s
    else if result = 0 then mramWrite (.cal n ms) s
    else calDone n result ms s)

end Sys2Proof.Machine
end

