-- ==== Sys2Proof/Machine/AdminDev.lean ====
section
/-! DEFINITION. Admin commands of the device manager: CALIBRATE, SELFTEST, FW_UPDATE, FW_ACTIVATE, and the end of every
long-running admin command (R82, R357, R358, R396, R397, R447, R450, R451). -/

namespace Sys2Proof.Machine

open Sys2Proof

/-! ### CALIBRATE (R357, R358) -/

/-- Ports that a CALIBRATE names, host-class first, each group ascending; a peer port p is 16 + p. -/
def calPorts (q : List W64) : List Nat := bitsSet 16 (field (qw q 0) 15 0) ++ (bitsSet 16 (field (qw q 0) 31 16)).map (16 + ·)

/-- Whether Rosham port n has its enable at 1 (R360 EN). -/
def rshEnabled (s : State) (n : Nat) : Bool := if n < 16 then (s.hc n).linkEn else (s.peerP (n - 16)).en

/-- The first row of R358 that matches. -/
def calCheck (s : State) (e : Entry) (q : List W64) : Option Status :=
  if (calPorts q).isEmpty || field (qw q 0) 47 32 ≠ 0 || qw q 1 ≠ 0 || e.length ≠ 16 || outLen e < 8 * (calPorts q).length then
    some .malformed
  else if (calPorts q).any (rshEnabled s) then some .busy
  else none

/-- CALIBRATE, R357: it stays in progress until every named port is done (R359). -/
def execCalibrate (a : Nat) (s : State) : Host.Outcome State Fault Refusal :=
  .next (adminRun a 0x8F (fun _ _ => true) (fun e q s =>
    match calCheck s e q with
    | some st => adminEnd a st s
    | none => s |> adminHold a (.calibrate (calPorts q)) .ok 0
        |> modAdmin a (fun x => { x with cur := x.cur.map (fun w => { w with ports := calPorts q, dst := e.dst.toNat }) })
        |> forAll (calPorts q) (fun n => modRsh n (fun x => { x with calibrating := true }))) s)

/-! ### SELFTEST (R396, R397) -/

/-- KIND of a SELFTEST. -/
def stKind (q : List W64) : Nat := field (qw q 0) 7 0
/-- INDEX. -/
def stIndex (q : List W64) : Nat := field (qw q 0) 31 16
/-- Number of units of a KIND (R396). -/
def stUnits : Nat → Nat
  | 1 => 2048 | 2 => 36 | 3 => 20 | 4 => 1 | 5 => 4 | 6 => 1 | 7 => 1 | _ => 0
/-- Quadrant of a unit. -/
def stQuad (q : List W64) : Nat :=
  match stKind q with
  | 1 => stIndex q / 512 | 2 => stIndex q / 9 | 3 => stIndex q / 5 | 5 => stIndex q | _ => 0
/-- Number of a unit as tests hold it: within the quadrant for ladles and hoop engines. -/
def stUnit (q : List W64) : Nat :=
  match stKind q with
  | 2 => stIndex q % 9 | 3 => stIndex q % 5 | _ => stIndex q

/-- Whether a unit is out of service (R397). -/
def unitOut (s : State) (q : List W64) : Bool :=
  let x := s.spareQ (stQuad q)
  match stKind q with
  | 1 => x.cellsOut.contains (stIndex q)
  | 2 => x.ladleFailed.contains (stUnit q)
  | 3 => x.heFailed.contains (stUnit q)
  | 6 => !s.sp.secStandby
  | 7 => !s.sp.affStandby
  | _ => false

/-- Whether a turning test runs on the unit (R397). -/
def underTurn (s : State) (q : List W64) : Bool :=
  s.sp.turn.elim false (fun t => t.kind = stKind q && t.quad = stQuad q && (t.index = stUnit q || t.kind = 4))

/-- Whether the unit is a standby unit, or the walker pool (R397). -/
def isStandby (s : State) (q : List W64) : Bool :=
  let x := s.spareQ (stQuad q)
  match stKind q with
  | 2 => x.ladleSpare = some (stUnit q)
  | 3 => x.heSpare = some (stUnit q)
  | 4 => true
  | 6 => true
  | 7 => true
  | _ => false

/-- Whether a spare of the unit's kind is free (R397). -/
def spareFree (s : State) (q : List W64) : Bool :=
  let x := s.spareQ (stQuad q)
  match stKind q with
  | 1 => !x.tilesUsed.contains (stIndex q / 16) && !x.cellSpareBad.contains (stIndex q / 16)
  | 2 => x.ladleSpare.isSome
  | 3 => x.heSpare.isSome
  | _ => false

/-- Whether the Harp can place a ladle's segments on other ladles that the same wheels hold, and no entry with ORDERED
runs on it (R397). -/
def canQuiesce (s : State) (q : List W64) : Bool :=
  let ks := ladleSlices s (stQuad q) (stUnit q)
  ks.all (fun k =>
    ((List.range 8).map (8 * stQuad q + ·)).any (fun y => !ks.contains y && sliceWheelOf s y = sliceWheelOf s k && !sliceSafe s y) &&
    (segsOn s k).all (fun g => !((entryOf s g.1 g.2.1).elim false (fun e => e.opcode = 0x04 && e.flag 1))))

/-- Whether a cell holds no node of a replica. -/
def cellIdle (s : State) (c : Nat) : Bool := s.wk.recipes.all (fun r => r.replicas.all (fun x => !x.cells.contains c))

/-- Whether no port of quadrant q is up and none of its hoops is enabled (R397). -/
def quadIdle (s : State) (q : Nat) : Bool :=
  (List.range 4).all (fun i => !(s.hc (4 * q + i)).linkUp && !(s.peerP (4 * q + i)).up) && !(s.acd q).up &&
    (hoopsWith s (fun x => x.enabled)).all (fun h => sliceOf h / 8 ≠ q)

/-- The first row of R397 that matches: a status, or the test with its swap. -/
def selftestCheck (s : State) (e : Entry) (q : List W64) : Except Status Bool :=
  if field (qw q 0) 63 32 ≠ 0 || field (qw q 0) 15 8 ≠ 0 || qw q 1 ≠ 0 || stUnits (stKind q) ≤ stIndex q || e.length ≠ 16 ||
      outLen e < 16 then .error .malformed
  else if s.sp.turn.elim false (fun t => t.selftest.isSome) then .error .busy
  else if unitOut s q || underTurn s q then .error .busy
  else if isStandby s q then .ok false
  else if spareFree s q then .ok true
  else if stKind q = 2 && canQuiesce s q then .ok false
  else if stKind q = 1 && cellIdle s (stIndex q) then .ok false
  else if stKind q = 5 && quadIdle s (stIndex q) then .ok false
  else .error .busy

/-- SELFTEST, R396 and R397: the test begins, and TURN_TEST_DONE ends it. While a turning test of another unit runs, the
command waits and is taken up again (R394: one test runs at a time). Other physical functions' admin hoops do not accept
it: BAD_OPCODE (DEDUCED from R83). -/
def execSelftest (a : Nat) (s : State) : Host.Outcome State Fault Refusal :=
  .next (adminRun a 0x90 (fun _ _ => true) (fun e q s =>
    if !isDevmgr s (adminFn a) then adminEnd a .badOpcode s
    else match selftestCheck s e q with
      | .error st => adminEnd a st s
      | .ok swap =>
        if s.sp.turn.isSome then s
        else s |> adminHold a .selftest .ok 0 |> startTest (stKind q) (stQuad q) (stUnit q) swap (some a)) s)

/-! ### FW_UPDATE and FW_ACTIVATE (R447, R450, R451) -/

/-- Address of a FW_UPDATE's image. -/
def fwAddr (q : List W64) : Nat := qw q 0
/-- IMAGE_BYTES. -/
def fwBytes (q : List W64) : Nat := field (qw q 1) 31 0
/-- Whether an FW_ACTIVATE is in progress. -/
def activating (s : State) : Bool := s.wk.admins.any (fun x => match x.2.cur with | some w => w.kind = .fwActivate | none => false)

/-- The first row of R450 that matches before the image is read; reserved bits of the entry are R118's. -/
def fwEarly (s : State) (a : Nat) (e : Entry) (q : List W64) : Option Status :=
  if !isDevmgr s (adminFn a) then some .rindViolation
  else if e.length ≠ 16 || e.dst ≠ 0 || e.operand ≠ 0 || fwAddr q % 8 ≠ 0 || field (qw q 1) 63 32 ≠ 0 || fwBytes q = 0 ||
      4194304 < fwBytes q then some .malformed
  else if activating s then some .busy
  else none

/-- Whether an image passes the checks of R447 against the stored SVN. -/
def fwOk (s : State) (img : List Byte) : Bool := Config.fwSigned img && decide (s.st.fwSvn ≤ Config.fwSvnOf img)

/-- FW_UPDATE, R450: the image is written into the inactive slot and verified there; spiOk: the SPI write succeeded. -/
def execFwUpdate (a : Nat) (spiOk : Bool) (s : State) : Host.Outcome State Fault Refusal :=
  .next (adminRun a 0x92 (fun _ _ => true) (fun e q s =>
    match fwEarly s a e q with
    | some st => adminEnd a st s
    | none =>
      let img := readBytes s (hostLoc a (fwAddr q)) (fwBytes q)
      if !inputOk s a (fwAddr q) (fwBytes q) then s |> fwAbandon |> adminUnread a
      else if !spiOk then s |> fwAbandon |> adminEnd a .busy
      else if !fwOk s img then s |> fwAbandon |> adminEnd a .cryptoReject
      else { s with st.fwPending := true }
        |> modFwSlot (fwOther s) (fun _ => { digest := sha384 img, svn := Config.fwSvnOf img, valid := true })
        |> adminHold a .fwUpdate .ok 0) s)

/-- FW_ACTIVATE, R451: the change-over begins, and ADMIN_COMMAND_COMPLETE ends it. -/
def execFwActivate (a : Nat) (s : State) : Host.Outcome State Fault Refusal :=
  .next (adminRun a 0x93 (fun _ _ => true) (fun _ _ s =>
    if !isDevmgr s (adminFn a) then adminEnd a .rindViolation s
    else if !s.st.fwPending || !s.sp.affStandby || !s.sp.secStandby then adminEnd a .busy s
    else if !(s.fwSlot (fwOther s)).valid || (s.fwSlot (fwOther s)).svn < s.st.fwSvn then s |> fwAbandon |> adminEnd a .cryptoReject
    else adminHold a .fwActivate .ok 0 s) s)

/-- The change-over to the pending image: the cores and the security engines change over, and the firmware slot record is
committed with the new slot and SVN (R451). -/
def fwSwitch (s : State) : State :=
  let k := fwOther s
  { s with st.fwActive := k, st.fwRunning := k, st.fwSvn := (s.fwSlot k).svn, st.fwPending := false } |> switchCore

/-! ### The end of a long-running command (R82) -/

/-- End the long-running command in progress on admin hoop a. -/
def adminComplete (a : Nat) (w : AdminWork) (s : State) : State :=
  match w.kind with
  | .bind q => finishBind a q s
  | .funcReset f => finishFuncReset a f s
  | .wheelReset n => finishWheelReset a n s
  | .fwActivate => if s.st.mramBlocked then s else s |> fwSwitch |> adminEnd a .ok
  | .loadRecipe => adminFinish a w.status false w.doneBytes s
  | .saveState _ => adminFinish a w.status false w.doneBytes s
  | .restoreState _ => adminFinish a w.status false w.doneBytes s
  | .thaw _ => adminFinish a w.status false w.doneBytes s
  | .resync => adminFinish a w.status false w.doneBytes s
  | .destroyEvq _ => adminFinish a w.status false w.doneBytes s
  | .fwUpdate => adminFinish a w.status false w.doneBytes s
  | .unload _ _ => s
  | .selftest => s
  | .calibrate _ => s
  | .freeze _ => s
  | .disable _ => s
  | .destroyVat _ => s

/-- ADMIN_COMMAND_COMPLETE, R82: the time that the command in progress takes has passed. A command that waits for another
event goes on waiting. -/
def execAdminCommandComplete (a : Nat) (s : State) : Host.Outcome State Fault Refusal :=
  .next (match (s.admin a).cur with
    | some w => adminComplete a w s
    | none => s)

end Sys2Proof.Machine
end

