-- ==== Sys2Proof/Machine/Flow.lean ====
section
/-! DEFINITION. What a recipe replica does with one block of an entry: every operation of R141 on the flits of a block,
as lists of 256-bit numbers (R127, R139 to R142, R153 to R156, R165, R168 to R190). -/

namespace Sys2Proof.Machine

open Sys2Proof

/-! ### Flits, lanes and packed elements (R127, R165) -/

/-- One bit string from flits, the first flit lowest. -/
def flitStr : List Nat → Nat
  | [] => 0
  | x :: r => x % 2 ^ 256 + 2 ^ 256 * flitStr r

/-- The first n flits of a bit string. -/
def strFlits : Nat → Nat → List Nat
  | 0, _ => []
  | n + 1, x => x % 2 ^ 256 :: strFlits n (x / 2 ^ 256)

/-- The first n elements of w bits of a bit string. -/
def strElems (w : Nat) : Nat → Nat → List Nat
  | 0, _ => []
  | n + 1, x => x % 2 ^ w :: strElems w n (x / 2 ^ w)

/-- The bit string of elements of w bits. -/
def elemStr (w : Nat) : List Nat → Nat
  | [] => 0
  | x :: r => x % 2 ^ w + 2 ^ w * elemStr w r

/-- The lanes of flits, whole flits at a time. -/
def laneList (w : Nat) (fl : List Nat) : List Nat := fl.flatMap (strElems w (256 / w))

/-- Flits from lanes, whole flits at a time. -/
def laneFlits (w n : Nat) (l : List Nat) : List Nat :=
  (List.range n).map (fun k => elemStr w ((l.drop (k * (256 / w))).take (256 / w)))

/-- Bytes of flits. -/
def flitBytes (fl : List Nat) : List Byte := natLe (32 * fl.length) (flitStr fl)

/-- Flits of bytes, the last one zero-padded. -/
def bytesFlits (bs : List Byte) : List Nat := strFlits (ceilDiv bs.length 32) (leNat bs)

/-- Lane-wise operation on flits of one input. -/
def map1 (w : Nat) (f : Nat → Nat) (a : List Nat) : List Nat := laneFlits w a.length ((laneList w a).map f)

/-- Lane-wise operation on flits of two inputs. -/
def map2 (w : Nat) (f : Nat → Nat → Nat) (a b : List Nat) : List Nat :=
  laneFlits w a.length (List.zipWith f (laneList w a) (laneList w b))

/-! ### One node and one block -/

/-- What a node knows about the block that it works on. -/
structure Blk where
  img : List Byte
  params : List W64
  fn : Fn
  handle : Nat
  replica : Nat
  vat : Nat
  wheel : Nat
  block : Nat
deriving DecidableEq, Repr

/-- Parameter qword k of the entry; qwords that the entry does not give read 0 (R182). -/
def Blk.param (c : Blk) (k : Nat) : W64 := c.params.getD k 0

/-- Whether a node's random input is bound (R180). -/
def randBound (n : RNode) : Bool := bKind (randBind n) = 1

/-- The rounding mode of a node: RMODE, or bits [3:0] of its parameter qword, a mode that the node does not accept
being taken as RNE (R142, R168). -/
def nodeMode (c : Blk) (n : RNode) : Nat :=
  if n.rmode ≠ 15 then n.rmode
  else
    let m := field (c.param n.psel).toNat 3 0
    if ((modesOf n.op).getD []).contains m && m ≠ 15 && ((m ≠ 5 && m ≠ 7) || randBound n) then m else 0

/-- Random bits of element e: lane e of the random flits, aligned with the node's own elements (R179, R180); none where
the random flits have no such lane. -/
def randLane (c : Blk) (n : RNode) (rnd : List Nat) (e : Nat) : Option Nat × Nat :=
  let ws := widthOf (rNode c.img (bIndex (randBind n))).fmtA
  let per := lanesOf n.fmtA
  let bits := min 32 ws
  if 256 / ws ≤ e % per then (none, bits)
  else match rnd[e / per]? with
    | some f => (some (f / 2 ^ (ws * (e % per)) % 2 ^ bits), bits)
    | none => (none, bits)

/-- Elements of a rounding node converted with their random bits; a lane that is missing is a free value. -/
def roundAll (c : Blk) (n : RNode) (rnd l : List Nat) (s : State) (f : Nat → Nat → Nat → Nat) : List Nat :=
  (List.range l.length).map (fun e =>
    let (r, bits) := randLane c n rnd e
    f (r.getD (Config.freeNat (s.m.free + e) % 2 ^ bits)) bits (l.getD e 0))

/-- Device virtual address of an LDS, STS, LDR or STC access of size sz under an index (R141, R142). -/
def extentAddr (c : Blk) (n : RNode) (sz idx : Nat) : Nat := (c.param n.psel).toNat + sz * idx % 2 ^ n.extent

/-- The granule location of an LDR or STC access. -/
def granuleAt (c : Blk) (n : RNode) (idx : Nat) (s : State) (need : Access) : Option Nat :=
  match lookup s c.vat (extentAddr c n 64 idx) need with
  | .ok pa => some pa
  | _ => none

/-- The reservation that LDR node k of this replica holds (R139). -/
def ldrOwner (c : Blk) (k : Nat) : ResvOwner := .node c.fn c.handle c.replica k

/-- Reservations that one home holds: 8 for a home cell, 16 for an Acdoic port (2,048 + q) (R139, R244). -/
def resvRoom (home : Nat) : Nat := if home < 2048 then 8 else 16

/-- Place a reservation at its home: the owner's earlier one goes, and one more than the home holds evicts the oldest
(R139, R140, R244). -/
def placeResv (home : Nat) (r : Resv) (s : State) : State :=
  let s := loseResv (fun x => decide (x.2.owner = r.owner)) s
  let here := s.wk.resvs.filter (fun x => x.1 = home)
  let s := match here with
    | old :: _ => if resvRoom home ≤ here.length then loseResv (fun x => decide (x = old)) s else s
    | [] => s
  { s with wk.resvs := s.wk.resvs ++ [(home, r)] }

/-- LDR: read the granule and reserve it (R139). -/
def runLdr (c : Blk) (k : Nat) (n : RNode) (idx : Nat) (s : State) : List Nat × State :=
  match granuleAt c n idx s .read with
  | some g => (strFlits 2 (readNat s g 64), placeResv (cellOf g) { owner := ldrOwner c k, granule := g } s)
  | none => ([0, 0], s)

/-- STC: write 64 bytes if the reservation of the named LDR node on that granule is intact; either way it is consumed
(R139, R140). -/
def runStc (c : Blk) (n : RNode) (data : List Nat) (idx : Nat) (s : State) : List Nat × State :=
  match granuleAt c n idx s .write with
  | some g =>
    let held := s.wk.resvs.any (fun r => r.2.owner = ldrOwner c n.arg && r.2.granule = g)
    let s := loseResv (fun r => decide (r.2.owner = ldrOwner c n.arg)) s
    if held then ([1], storeAt g (flitBytes (data.take 2)) s) else ([0], s)
  | none => ([0], s)

/-- Lane 0 of a flit read as a 32-bit index (R142). -/
def index32 (x : Nat) : Nat := x % 2 ^ 32

/-- Position within the entry of flit t of a node that takes r flits a block (R142 ARG[0]). -/
def flitPos (c : Blk) (r t : Nat) : Nat := c.block * r + t

/-- Position of element e of a block at w bits (R154). -/
def elemPos (c : Blk) (w e : Nat) : Nat := c.block * (rInBlock c.img * 8 / w) + e

/-- LDS on n flits (R141, R142). -/
def runLds (c : Blk) (n : RNode) (a : List Nat) (s : State) : List Nat :=
  (List.range n.count).map (fun t =>
    let idx := if n.arg % 2 = 1 then flitPos c n.count t else index32 (a.getD t 0)
    vreadNat s c.vat (extentAddr c n 32 idx) 32)

/-- STS on n flits (R141). -/
def runSts (c : Blk) (n : RNode) (a b : List Nat) (s : State) : State :=
  (List.range n.count).foldl (fun t k =>
    vstore c.vat .write (extentAddr c n 32 (index32 (b.getD k 0))) (natLe 32 (a.getD k 0)) t) s

/-- Bytes of each of COUNT flits that PACK keeps, the last flit zero-padded (R141). -/
def runPack (n : RNode) (a : List Nat) : List Nat :=
  let keep (x : Nat) : List Byte := (List.range 32).filterMap (fun i => if bitOf n.imm i then some (BitVec.ofNat 8 (x / 256 ^ i)) else none)
  strFlits (outRate n 0) (leNat ((a.take n.count).flatMap keep))

/-- Shift amount, IMM[5:0]. -/
def shiftBy (n : RNode) : Nat := field n.imm 5 0

/-- Right shift of one lane, arithmetic for signed formats (R141). -/
def shrLane (f k x : Nat) : Nat :=
  if isSignedFmt f then packInt f (signedOf (widthOf f) x / 2 ^ k) else x / 2 ^ k

/-- Lane minimum and maximum, signed or unsigned per format (R141). -/
def intMin (f x y : Nat) : Nat :=
  if isSignedFmt f then (if signedOf (widthOf f) y < signedOf (widthOf f) x then y else x) else min x y
/-- Lane maximum. -/
def intMax (f x y : Nat) : Nat :=
  if isSignedFmt f then (if signedOf (widthOf f) x < signedOf (widthOf f) y then y else x) else max x y

/-- SRNG flits: lane i of the element at position p holds the low bits of srng(K0, K1, p) (R180 to R182). The width at which the
position counts is that of the node's own FMT_A, also where a node and not the main stream feeds it (DEDUCED from R154, log entry
132). -/
def runSrng (c : Blk) (n : RNode) : List Nat :=
  let w := widthOf n.fmtA
  laneFlits w n.count ((List.range (n.count * lanesOf n.fmtA)).map (fun e =>
    (srng (c.param n.psel) (c.param (n.psel + 1)) (BitVec.ofNat 64 (elemPos c w e))).toNat))

/-- Packed results of a conversion in out flits of R141. -/
def packOut (n : RNode) (l : List Nat) : List Nat := strFlits (outRate n 0) (elemStr (widthOf n.fmtOut) l)

/-- One node other than ACC_ADD and RED_ACC on the flits of one block: both outputs, and the state (R141). -/
def runNode (c : Blk) (k : Nat) (n : RNode) (a b d : List Nat) (s : State) : (List Nat × List Nat) × State :=
  let w := widthOf n.fmtA
  let m := nodeMode c n
  match n.op with
  | 0x01 => ((a, []), s)
  | 0x02 => ((a.take n.count, (a.drop n.count).take n.arg), s)
  | 0x03 => ((a.take n.count ++ b.take n.arg, []), s)
  | 0x04 => ((runPack n a, []), s)
  | 0x05 => ((a.map (fun x => elemStr w (List.replicate (256 / w) (x % 2 ^ w))), []), s)
  | 0x08 => ((runLds c n a s, []), s)
  | 0x09 => (([], []), runSts c n a b s)
  | 0x0A => let r := runLdr c k n (index32 (a.getD 0 0)) s
            ((r.1, []), r.2)
  | 0x0B => let r := runStc c n a (index32 (b.getD 0 0)) s
            ((r.1, []), r.2)
  | 0x10 => ((map2 w (fun x y => (x + y) % 2 ^ w) a b, []), s)
  | 0x11 => ((map2 w (fun x y => (x + 2 ^ w - y) % 2 ^ w) a b, []), s)
  | 0x12 => ((map2 w Nat.land a b, []), s)
  | 0x13 => ((map2 w Nat.lor a b, []), s)
  | 0x14 => ((map2 w Nat.xor a b, []), s)
  | 0x15 => ((map1 w (fun x => x * 2 ^ shiftBy n % 2 ^ w) a, []), s)
  | 0x16 => ((map1 w (shrLane n.fmtA (shiftBy n)) a, []), s)
  | 0x17 => ((map2 w (intMin n.fmtA) a b, []), s)
  | 0x18 => ((map2 w (intMax n.fmtA) a b, []), s)
  | 0x20 => ((map2 w (fadd n.fmtA m) a b, []), s)
  | 0x21 => ((map2 w (fmul n.fmtA m) a b, []), s)
  | 0x22 => ((laneFlits w a.length (List.zipWith (fun p z => fma n.fmtA m p.1 p.2 z)
      (List.zip (laneList w a) (laneList w b)) (laneList w d)), []), s)
  | 0x23 => ((map2 w (fmin n.fmtA) a b, []), s)
  | 0x24 => ((map2 w (fmax n.fmtA) a b, []), s)
  | 0x25 => ((map1 w (fabs n.fmtA) a, []), s)
  | 0x28 =>
    let l := laneList w (a.take n.count)
    ((packOut n (roundAll c n b l s (fun r bits x => convert n.fmtA n.fmtOut m r bits x)), []), takeFree l.length s)
  | 0x29 => (([absMax n.fmtA (laneList w (a.take n.count))], []), s)
  | 0x2A => (([scaleMx n.fmtA n.fmtOut (a.getD 0 0 % 2 ^ w)], []), s)
  | 0x2B =>
    let l := (laneList w (a.take n.count)).take 32
    ((packOut n (roundAll c n d l s (fun r bits x => cvtMx n.fmtA n.fmtOut m r bits (b.getD 0 0 % 256) x)), []),
      takeFree l.length s)
  | 0x2C => ((packOut n ((strElems w 32 (flitStr (a.take n.count))).map (deqMx n.fmtA n.fmtOut m (b.getD 0 0 % 256))), []), s)
  | 0x2D => ((runSrng c n, []), s)
  | 0x30 => (([(crc32c (flitBytes (a.take n.count))).toNat], []), s)
  | 0x31 => (([(laneList 64 (a.take n.count)).foldl (fun x y => (x + y) % 2 ^ 64) 0], []), s)
  | _ => (([], []), s)

/-- RED_ACC: the K operand groups of one block position, summed exactly from the all-zero state and rounded once for
each element; the flits, and whether an element was flagged (R155, R187, R188). -/
def runRed (c : Blk) (n : RNode) (groups : List (List Nat)) : List Nat × Bool :=
  let w := widthOf n.fmtA
  let ganged := decide (n.fmtA = 0x01)
  let l := (List.range (n.count * lanesOf n.fmtA)).map (fun e =>
    let acc := groups.foldl (fun a g => accApply a (decodeVal n.fmtA ((laneList w (g.take n.count)).getD e 0)))
      { ganged := ganged, value := 0, state := 0 }
    accResolve acc n.fmtOut (nodeMode c n))
  (packOut n (l.map (·.1)), l.any (·.2))

/-! ### One block through the graph -/

/-- Outputs of the nodes run so far. -/
abbrev Outs : Type := List (Nat × (List Nat × List Nat))

/-- Flits of its IMM that a node may take in a block: as many as R141 has it take. -/
def immFlits (n : RNode) : Nat :=
  if n.op = 0x38 then max n.count (inRate n 1) else if paced n.op then n.count else n.count + n.arg + 2

/-- The flits that binding b of node n delivers (R147): a node's output, the main stream, the auxiliary stream, or the
node's IMM in every lane of FMT_A. -/
def bound (o : Outs) (main aux : List Nat) (n : RNode) (b : Nat) : List Nat :=
  if bKind b = 1 then (if bPort b = 0 then (tabGet ([], []) o (bIndex b)).1 else (tabGet ([], []) o (bIndex b)).2)
  else if bKind b = 2 then (if bIndex b = 0 then main else aux)
  else if bKind b = 3 then
    List.replicate (immFlits n) (elemStr (widthOf n.fmtA) (List.replicate (lanesOf n.fmtA) (n.imm % 2 ^ widthOf n.fmtA)))
  else []

/-- Run the nodes of a list in order, each once. -/
def runNodes (c : Blk) (main aux : List Nat) (l : List Nat) (o : Outs) (s : State) : Outs × State :=
  l.foldl (fun (p : Outs × State) k =>
    let n := rNode c.img k
    if n.op = 0x38 || n.op = 0x39 then p
    else
      let r := runNode c k n (bound p.1 main aux n n.in0) (bound p.1 main aux n n.in1) (bound p.1 main aux n n.in2) p.2
      (tabSet p.1 k r.1, r.2)) (o, s)

/-- Nodes that some RED_ACC feeds, directly or through others. -/
def afterRed (img : List Byte) (order : List Nat) : List Nat :=
  order.foldl (fun l k =>
    let n := rNode img k
    if n.op = 0x39 || (preds n).any l.contains then l ++ [k] else l) []

/-- Nodes of an image in the order in which they run. -/
def runOrder (img : List Byte) : List Nat := topo (rNodeList img) (rNodes img) []

/-- Bytes of output stream t of a block (R153). -/
def streamOut (img : List Byte) (o : Outs) (t : Nat) : List Byte :=
  match (List.range (rNodes img)).find? (fun k => (rNode img k).out0 = t || (rNode img k).out1 = t) with
  | some k =>
    let p := tabGet ([], []) o k
    (flitBytes (if (rNode img k).out0 = t then p.1 else p.2)).take (rOutBytes img t)
  | none => []

/-- One block of TRANSFORM, or of REDUCE with its K operand blocks: the bytes of each output stream, whether an element
was flagged, and the state (R153, R155). -/
def runBlock (c : Blk) (mains : List (List Nat)) (aux : List Nat) (s : State) : List (List Byte) × Bool × State :=
  let order := runOrder c.img
  let post := afterRed c.img order
  let pre := order.filter (fun k => !post.contains k)
  let step (p : List (Outs) × State) (m : List Nat) : List Outs × State :=
    let r := runNodes c m aux pre [] p.2
    (p.1 ++ [r.1], r.2)
  let (all, s) := mains.foldl step ([], s)
  let last := all.getLast?.getD []
  let lastMain := mains.getLast?.getD []
  let (o, flagged) := match order.find? (fun k => (rNode c.img k).op = 0x39) with
    | some k =>
      let n := rNode c.img k
      let r := runRed c n ((List.range all.length).map (fun i => bound (all.getD i []) (mains.getD i []) aux n n.in0))
      (tabSet last k (r.1, []), r.2)
    | none => (last, false)
  let (o, s) := runNodes c lastMain aux post o s
  ((List.range (rOutputs c.img)).map (streamOut c.img o), flagged, s)

/-- One block of ACCUMULATE: its output streams, the operands that ACC_ADD sends as slot and element, in order, and the
state (R156). -/
def runAccBlock (c : Blk) (main aux : List Nat) (s : State) : List (Nat × Nat) × State :=
  let (o, s) := runNodes c main aux (runOrder c.img) [] s
  match (runOrder c.img).find? (fun k => (rNode c.img k).op = 0x38) with
  | none => ([], s)
  | some k =>
    let n := rNode c.img k
    let w := widthOf n.fmtA
    let vals := laneList w ((bound o main aux n n.in0).take n.count)
    let e := n.count * lanesOf n.fmtA
    let idx := laneList 32 (bound o main aux n n.in1)
    ((List.range vals.length).map (fun i =>
      (if bKind n.in1 = 0 then c.block * e + i else idx.getD i 0, vals.getD i 0)), s)

/-! ### Accumulator slots (R134, R135) -/

/-- Location of a window offset. -/
def slotLoc (off : Nat) : Nat := scratchLoc off

/-- Read accumulator k of a region at window offset base. -/
def readAcc (s : State) (ganged : Bool) (base k : Nat) : Acc :=
  if ganged then
    { ganged := true
      value := ((List.range 7).map (fun j => readNat s (slotLoc (slotOff true base k j)) 40 * 2 ^ (320 * j))).sum
      state := readNat s (slotLoc (slotOff true base k 7) + 40) 1 }
  else { ganged := false, value := readNat s (slotLoc (slotOff false base k 0)) 40
         state := readNat s (slotLoc (slotOff false base k 0) + 40) 1 }

/-- Write accumulator k of a region, as one application (R137). -/
def writeAcc (ganged : Bool) (base k : Nat) (a : Acc) (s : State) : State :=
  if ganged then
    s |> forAll (List.range 7) (fun j => storeAt (slotLoc (slotOff true base k j)) (natLe 40 (a.value / 2 ^ (320 * j))))
      |> storeAt (slotLoc (slotOff true base k 7) + 40) (natLe 1 a.state)
  else
    s |> storeAt (slotLoc (slotOff false base k 0)) (natLe 40 a.value ++ natLe 1 a.state)

/-- Apply one operand of format f to accumulator k (R186). -/
def addAcc (ganged : Bool) (base f k x : Nat) (s : State) : State :=
  writeAcc ganged base k (accApply (readAcc s ganged base k) (decodeVal f x)) s

/-- Leave every byte of accumulator k's slot, in each limb's cell, zero (R188). -/
def clearAcc (ganged : Bool) (base k : Nat) (s : State) : State :=
  forAll (List.range (if ganged then 8 else 1)) (fun j => storeAt (slotLoc (slotOff ganged base k j)) (List.replicate 64 0)) s

end Sys2Proof.Machine
end

