-- ==== Sys2Proof/Machine/DataOps.lean ====
section
/-! DEFINITION. The data opcodes: each command moves one segment of a running entry, or the one piece of an unsegmented
one, and SEGMENT_DONE ends it (R37 to R41, R75, R90 to R116, R153 to R157, R187, R217, R325). -/

namespace Sys2Proof.Machine

open Sys2Proof

/-! ### The frame of a segment -/

/-- What moving a segment's data gives: the state, or the cause for which it fails with the bytes known written. -/
inductive Moved where
  | ok (s : State)
  | fail (c : FailCause) (n : Nat) (s : State)

/-- A segment held by a stack's permitted rate shows one request that waits at the port (R327). -/
def holdSeg (o : Owner) (s : State) (l : List Part) : State :=
  match l.find? (fun p => isHot s p.pa) with
  | some p =>
    if waitsFor s o then s
    else match tgtOf (homeOf p.pa) with
      | some t =>
        match freeTag s t with
        | none => s
        | some k => { s with
          lk.reqs := s.lk.reqs ++ [{ tgt := t, tag := k, owner := o, addr := p.pa, len := p.len, sent := false
                                     kind := match p.need with | .read => .read | .write => .write | .atomic => .atomic }]
          lk.nextTag := (k + 1) % 65536 }
      | none => s
  | none => s

/-- A segment that has passed the gate: peer operands are asked for first; then the data moves, and the requests of
the parts that it reads and writes are outstanding. -/
def moveSeg (h : Nat) (i : W32) (j : Nat) (g : SegState) (ps sent : List Part) (move : State → Moved) (s : State) : State :=
  if g = .todo && ps.any (fun p => isPeerPart p && p.need = .read) then askPeers h i j ps s
  else
    let v := (s.hoop h).vat
    match move (dropOwner (.seg h i j) s) with
    | .ok t => t |> itoM v sent |> busySeg h i j sent
    | .fail c n t => failSeg h i j c n t

/-- A command of opcode op on segment j of entry i of hoop h: where the segment may be worked on, its accesses, as far as the
first page that now fails (R218), pass the gate, and its data moves; sent picks the parts that leave as requests. -/
def runSegWith (op h : Nat) (i : W32) (j : Nat) (sent : State → Entry → List Part → List Part)
    (move : Entry → State → Moved) (s : State) : State :=
  let s := stopSeg h i j s
  match segLive s h i j with
  | none => s
  | some (e, g) =>
    if e.opcode ≠ op || !(g = .todo || (g = .asked && !waitsFor s (.seg h i j))) then s
    else
      let v := (s.hoop h).vat
      let acc := segAccesses s h e j
      match gateSeg (.seg h i j) v acc s with
      | (.wait, t) => holdSeg (.seg h i j) t (partsOf t v acc)
      | (.fail c, t) => failSeg h i j c (knownBytes e j) t
      | (.refused, t) => t |> severeFault (0x970 + vatWheel s v) |> failSeg h i j .target (knownBytes e j)
      | (.go ps, t) => moveSeg h i j g ps (sent t e ps) (move e) t

/-- The same for an opcode that sends every part it accesses. -/
def runSeg (op h : Nat) (i : W32) (j : Nat) (move : Entry → State → Moved) (s : State) : State :=
  runSegWith op h i j (fun _ _ ps => ps) move s

/-! ### COPY, FILL, GATHER, SCATTER (R90 to R94) -/

/-- The source ranges of a whole COPY (R90). -/
def copySources (e : Entry) : List (Nat × Nat) :=
  if e.flag 0 then (List.range (if e.srcStride = 0 then 1 else e.rows)).map (fun r => (e.src.toNat + r * e.srcStride, e.rowBytes))
  else [(e.src.toNat, e.length)]

/-- Destination bytes that are physically source bytes of the entry hold free values (R91). -/
def spoilAliases (v : Nat) (srcs dsts : List (Nat × Nat)) (s : State) : State :=
  let ps := partsOf s v (srcs.map (fun r => (r.1, r.2, Access.read)))
  let ds := partsOf s v (dsts.map (fun r => (r.1, r.2, Access.write)))
  forAll ds (fun d t => forAll (ps.filter (fun p => overlap p.pa p.len d.pa d.len)) (fun p u =>
    let lo := max p.pa d.pa
    let n := min (p.pa + p.len) (d.pa + d.len) - lo
    u |> takeFree n |> storeAt lo (freeBytes n u)) t) s

/-- COPY of a segment: its bytes move; aliased destination bytes are free values (R90, R91). -/
def moveCopy (h j : Nat) (e : Entry) (s : State) : Moved :=
  let v := (s.hoop h).vat
  let dsts := segWrites s h e j
  .ok (s |> vstoreAll v .write dsts (vreadAll s v (segReads s h e j)) |> spoilAliases v (copySources e) dsts)

/-- Byte at offset o of a FILL: byte o mod 8 of OPERAND (R92). -/
def fillByte (e : Entry) (o : Nat) : Byte := e.operand.extractLsb' (8 * (o % 8)) 8

/-- FILL of a segment (R92). -/
def moveFill (h j : Nat) (e : Entry) (s : State) : Moved :=
  let (a, b) := segRange s h e j
  .ok (vstore (s.hoop h).vat .write (e.dst.toNat + a) ((List.range (b - a)).map (fun k => fillByte e (a + k))) s)

/-- GATHER of a segment (R93). -/
def moveGather (h j : Nat) (e : Entry) (s : State) : Moved :=
  let v := (s.hoop h).vat
  .ok (vstoreAll v .write (segWrites s h e j) (vreadAll s v (segReads s h e j)) s)

/-- Whether an element that names the index of element x has been written: one of the same segment before x, a being
its first, or one of a segment that has moved (R94). -/
def scatterHit (s : State) (h : Nat) (e : Entry) (a x : Nat) : Bool :=
  (List.range e.elems).any (fun k => k ≠ x && e.idxRead.getD k 0 = e.idxRead.getD x 0 &&
    ((a ≤ k && k < x) || e.segs[k / segSize s h e]? = some .busy || e.segs[k / segSize s h e]? = some .done))

/-- Elements a to b − 1 of a SCATTER. An element that collides with one already written overwrites it with ORDERED;
otherwise which of them remains is a free choice (R94). -/
def moveScatter (h j : Nat) (e : Entry) (s : State) : Moved :=
  let v := (s.hoop h).vat
  let (a, b) := segRange s h e j
  let n := e.rowBytes
  .ok (forAll (List.range (b - a)) (fun k t =>
    let x := a + k
    let put := vstore v .write (e.dst.toNat + e.elemOff x) (vread s v (e.src.toNat + x * n) n)
    if e.flag 1 || !scatterHit s h e a x then put t
    else if Config.freeNat t.m.free % 2 = 1 then takeFree 1 t else t |> takeFree 1 |> put) s)

/-- With ORDERED, segments of a SCATTER move in order on one ladle (R94). -/
def scatterTurn (s : State) (h : Nat) (i : W32) (j : Nat) : Bool :=
  match entryOf s h i with
  | some e => !e.flag 1 || (e.segs.take j).all (fun g => g ≠ .todo && g ≠ .asked)
  | none => false

/-! ### Recipes: TRANSFORM, REDUCE, ACCUMULATE (R95 to R98, R153 to R156) -/

/-- The working replicas that serve segment j, by number: those that lie in or span the slice of its ladle (R153). -/
def segReplicas (s : State) (h : Nat) (e : Entry) (j : Nat) : List Nat :=
  match recipeRun s (s.hoop h).fn e.subop with
  | none => []
  | some r =>
    let k := e.slices.getD (j % e.slices.length) 0
    (List.range r.replicas.length).filter (fun n => let x := r.replicas.getD n {}
      x.alive && x.slices.contains k)

/-- The node context of block b of segment j, dealt round-robin to the replicas (R153). -/
def blkOf (s : State) (h : Nat) (e : Entry) (reps : List Nat) (a b : Nat) : Blk :=
  { img := entryImage s h e, params := e.params, fn := (s.hoop h).fn, handle := e.subop
    replica := reps.getD ((b - a) % reps.length) 0, vat := (s.hoop h).vat, wheel := vatWheel s (s.hoop h).vat, block := b }

/-- Flits of block b of a stream that begins at an address. -/
def blockFlits (s : State) (v base n b : Nat) : List Nat := bytesFlits (vread s v (base + b * n) n)

/-- Flits of block b of the auxiliary stream (R144). -/
def auxFlits (s : State) (v : Nat) (e : Entry) (img : List Byte) (b : Nat) : List Nat :=
  if rAuxBytes img = 0 then [] else blockFlits s v (e.params.getD (rAuxQw img) 0).toNat (rAuxBytes img) b

/-- Write the output streams of block b (R153). -/
def putStreams (v : Nat) (e : Entry) (img : List Byte) (b : Nat) (outs : List (List Byte)) (s : State) : State :=
  forAll (List.range outs.length) (fun t =>
    vstore v .write (e.dst.toNat + streamBase img (e.length / rInBlock img) t + b * rOutBytes img t) (outs.getD t [])) s

/-- TRANSFORM or REDUCE of a segment: every block of it goes through a replica; bases are the streams of the one
source, or of the K operands (R96, R97, R153, R155). -/
def moveRecipe (h : Nat) (i : W32) (j : Nat) (bases : Entry → List Nat) (e : Entry) (s : State) : Moved :=
  let v := (s.hoop h).vat
  let img := entryImage s h e
  let (a, b) := segRange s h e j
  let reps := segReplicas s h e j
  if reps.isEmpty then .fail .cellLost 0 s
  else .ok (forAll (List.range (b - a)) (fun k t =>
    let x := a + k
    let (outs, flagged, u) := runBlock (blkOf s h e reps a x)
      ((bases e).map (fun p => blockFlits t v p (rInBlock img) x)) (auxFlits t v e img x) t
    u |> putStreams v e img x outs |> when flagged (modEntry h i (fun e => { e with flagged := true }))) s)

/-- The journal record of an entry (R75). -/
def journalOf (s : State) (k : JKey) : Journal := ((s.wk.journals.find? (fun j => j.2.key = k)).map (·.2)).getD { key := k }

/-- Change an entry's journal record. -/
def modJournal (k : JKey) (f : Journal → Journal) (s : State) : State :=
  { s with wk.journals := s.wk.journals.map (fun j => if j.2.key = k then (j.1, f j.2) else j) }

/-- Highest operand number applied for a segment (R75). -/
def markOf (s : State) (k : JKey) (j : Nat) : Nat := tabGet 0 (journalOf s k).marks j

/-- Record that operand n of segment j is applied. -/
def setMark (k : JKey) (j n : Nat) (s : State) : State := modJournal k (fun x => { x with marks := tabSet x.marks j n }) s

/-- Progress of an ACCUMULATE's segment: operands seen, operands that stand applied, whether an index was at or beyond
the slot count, and the state. -/
structure AccRun where
  seen : Nat
  done : Nat
  past : Bool
  stop : Bool
  st : State

/-- One operand of an ACCUMULATE: at or below the journal's mark it is discarded as applied; an index beyond the slot
count discards it, and where nothing of the entry stands applied the entry stops there (R75, R156). -/
def accOperand (ganged : Bool) (base f slots : Nat) (key : JKey) (j mark : Nat) (fresh : Bool) (r : AccRun)
    (x : Nat × Nat) : AccRun :=
  let n := r.seen + 1
  if r.stop then r
  else if x.1 ≥ slots then { r with seen := n, past := true, stop := fresh && r.done = 0 }
  else if n ≤ mark then { r with seen := n, done := r.done + 1 }
  else { r with seen := n, done := r.done + 1, st := r.st |> addAcc ganged base f x.1 x.2 |> setMark key j n }

/-- Operands of a block of an ACCUMULATE's recipe (R156). -/
def accPerBlock (img : List Byte) : Nat :=
  match (rNodeList img).find? (fun n => n.op = 0x38) with
  | some n => n.count * lanesOf n.fmtA
  | none => 1

/-- Format of ACC_ADD's elements. -/
def accFmtOf (img : List Byte) : Nat := (((rNodeList img).find? (fun n => n.op = 0x38)).map (·.fmtA)).getD 0x02

/-- Whether nothing of an entry stands applied. -/
def entryFresh (s : State) (h : Nat) (e : Entry) : Bool :=
  e.segDone.all (· = 0) && (journalOf s (.entry h e.idx)).marks.all (fun m => m.2 = 0)

/-- ACCUMULATE of a segment (R98, R156): segDone becomes the source bytes of the operands applied (R116). An index
beyond the slot count fails the segment, or ends the entry with MALFORMED where nothing of it stands applied. -/
def moveAcc (h : Nat) (i : W32) (j : Nat) (e : Entry) (s : State) : Moved :=
  let v := (s.hoop h).vat
  let img := entryImage s h e
  let (a, b) := segRange s h e j
  let reps := segReplicas s h e j
  let ganged := decide (rAccKind img = 2)
  let key : JKey := .entry h i
  let mark := markOf s key j
  let fresh := entryFresh s h e
  if reps.isEmpty then .fail .cellLost (knownBytes e j) s
  else
    let r := (List.range (b - a)).foldl (fun (r : AccRun) k =>
      if r.stop then r
      else
        let x := a + k
        let (ops, t) := runAccBlock (blkOf s h e reps a x) (blockFlits r.st v e.src.toNat (rInBlock img) x)
          (auxFlits r.st v e img x) r.st
        ops.foldl (accOperand ganged (winScratch e.dst.toNat) (accFmtOf img) (accSlots img e) key j mark fresh) { r with st := t })
      { seen := 0, done := 0, past := false, stop := false, st := s }
    let n := r.done * rInBlock img / accPerBlock img
    let t := modEntry h i (fun e => { e with segDone := e.segDone.set j n, applied := e.applied || 0 < r.done }) r.st
    if r.stop then .fail .overIndex 0 (modEntry h i (fun e => { e with segs := e.segs.map (fun _ => .failed) }) t)
    else if r.past then .fail .overIndex n t
    else .ok t

/-! ### RESOLVE (R99, R100, R187) -/

/-- RESOLVE of a segment: each accumulator is rounded once; with CLEAR it is zeroed in the same step and the values are
kept, so that a repeated run writes them again (R99, R100). The last kept byte tells whether an element was flagged. -/
def moveResolve (h : Nat) (i : W32) (j : Nat) (e : Entry) (s : State) : Moved :=
  let v := (s.hoop h).vat
  let ganged := bitOf e.subop 12
  let f := field e.subop 7 0
  let w := widthOf f / 8
  let (a, b) := segRange s h e j
  let base := winScratch e.src.toNat
  let clear := e.flag 0
  let key : JKey := .entry h i
  let put (bs : List Byte) (flagged : Bool) (t : State) : State :=
    t |> vstore v .write (e.dst.toNat + a * w) bs |> when flagged (modEntry h i (fun e => { e with flagged := true }))
  match (journalOf s key).kept.find? (fun k => k.1 = j) with
  | some k => .ok (put k.2.dropLast (k.2.getLast?.getD 0 ≠ 0) s)
  | none =>
    let l := (List.range (b - a)).map (fun k => accResolve (readAcc s ganged base (a + k)) f (field e.subop 11 8))
    let bs := l.flatMap (fun x => natLe w x.1)
    let flagged := l.any (·.2)
    .ok (s |> when clear (forAll (List.range (b - a)) (fun k => clearAcc ganged base (a + k)))
      |> when clear (modJournal key (fun x => { x with kept := x.kept ++ [(j, bs ++ [if flagged then 1 else 0])] }))
      |> put bs flagged)

/-! ### ATOMIC and FENCE_SIGNAL (R38, R75, R101 to R103, R260) -/

/-- The journal word of an AT_REQ, and its operands; CAS adds its compare value (R254, R260). -/
def atomBytes (h : Nat) (i : W32) (j first : Nat) (ops : List Byte) : List Byte :=
  natLe 8 (i.toNat * 2 ^ 32 + h * 2 ^ 18 + j * 2 ^ 12) ++ natLe 8 first ++ ops

/-- Operand of element k of an ATOMIC. -/
def atomOperand (s : State) (v : Nat) (e : Entry) (k : Nat) : Nat :=
  if e.flag 0 then vreadNat s v (e.src.toNat + k * e.width) e.width else e.operand.toNat

/-- Elements of segment j of an ATOMIC: first and one past the last. -/
def atomRange (s : State) (h : Nat) (e : Entry) (j : Nat) : Nat × Nat := if e.flag 0 then segRange s h e j else (0, 1)

/-- Bytes of segment j whose operands are known applied, after one more. -/
def addDone (h : Nat) (i : W32) (j n : Nat) (s : State) : State :=
  modEntry h i (fun e => { e with segDone := e.segDone.set j (e.segDone.getD j 0 + n) }) s

/-- ATOMIC of a segment: operand number n of the segment, one for each element, is applied where the journal's mark is
below n, and counts as applied either way; the scalar form with RETURN writes the old value at SRC. Operands for
another node leave as one AT_REQ for each part and count when its AT_RESP arrives (R75, R102, R116, R260). -/
def moveAtomic (h : Nat) (i : W32) (j : Nat) (e : Entry) (s : State) : Moved :=
  let v := (s.hoop h).vat
  let w := e.width
  let key : JKey := .entry h i
  let (a, b) := atomRange s h e j
  .ok (forAll (List.range (b - a)) (fun k t =>
    match lookup t v (e.dst.toNat + (a + k) * w) .atomic with
    | .ok pa =>
      match homeOf pa with
      | .peer _ =>
        let ops := natLe w (atomOperand s v e (a + k)) ++ (if e.atop = 0x03 then natLe w e.fenceVal.toNat else [])
        let bs := atomBytes h i j (k + 1) ops
        sendPeer (vatWheel t v) (tcOf t h) (.seg h i j) .atomic pa bs.length e.atop (w = 8) (e.flag 1) bs (t.hoop h).epoch t
      | _ =>
        if k + 1 ≤ markOf t key j then addDone h i j w t
        else
          let (old, u) := applyAtomic e.atop w pa (atomOperand s v e (a + k)) e.fenceVal.toNat t
          u |> setMark key j (k + 1) |> addDone h i j w |> when (e.flag 1) (vstore v .write e.src.toNat (natLe w old))
    | _ => t) s)

/-- The maximum of R38 at the fence word of a vat's address; a fence at another node is raised by an AT_REQ UMAX. -/
def raiseFence (o : Owner) (h : Nat) (i : W32) (va val : W64) (s : State) : State :=
  let v := (s.hoop h).vat
  match lookup s v va.toNat .atomic with
  | .ok pa =>
    match homeOf pa with
    | .peer _ => sendPeer (vatWheel s v) (tcOf s h) o .atomic pa 24 0x0A true false
        (atomBytes h i 0 1 (natLe 8 val.toNat)) (s.hoop h).epoch s
    | _ => if readNat s pa 8 < val.toNat then storeAt pa (natLe 8 val.toNat) s else s
  | _ => s

/-- FENCE_SIGNAL (R38). -/
def moveSignal (h : Nat) (i : W32) (e : Entry) (s : State) : Moved := .ok (raiseFence (.seg h i 0) h i e.dst e.fenceVal s)

/-! ### PREFETCH and ADVISE (R106 to R108) -/

/-- Copy the n bytes at a to b, with their poison. -/
def copyCells (a b n : Nat) (s : State) : State :=
  let cells := s.m.mem.filter (fun c => a ≤ c.1 && c.1 < a + n)
  let bad := s.m.poison.filter (fun g => a ≤ 64 * g && 64 * g < a + n)
  let s := breakResv b n (zeroRange b n s)
  { s with
    m.mem := cells.foldl (fun m c => memSet m (c.1 - a + b) c.2) s.m.mem
    m.poison := s.m.poison ++ bad.map (fun g => g + b / 64 - a / 64) }

/-- The leaf rewrite of R107: ADDR is replaced, every other bit stays; 16 entries for a CONTIG group (R199). -/
def rewriteLeaf (at_ pa : Nat) (s : State) : State :=
  let x := readNat s at_ 8
  let keep := x - pteAddr x
  if pteContig x then
    storeAt at_ ((List.range 16).flatMap (fun i => natLe 8 (keep + pa + i * 4096))) s
  else storeAt at_ (natLe 8 (keep + pa)) s

/-- DEMOTE_DISCARD (R106). -/
def isDiscard (e : Entry) : Bool := e.opcode = 0x0D && field e.subop 7 0 = 2

/-- What a PREFETCH or ADVISE reads and writes: each page that moves, and its list word (R107). -/
def tierParts (h j : Nat) (s : State) (e : Entry) (_ : List Part) : List Part :=
  let v := (s.hoop h).vat
  if regionOf e.src.toNat ≠ .dlocal then []
  else (segPages s h e j).flatMap (fun p => match lookup s v p.2.1 .read with
    | .ok pa =>
      if inTargetTier e pa then []
      else (if isDiscard e then [] else [{ va := p.2.1, pa := pa, len := p.2.2, need := .read }]) ++
        [{ va := p.2.1, pa := (e.pages.getD p.1 0).toNat, len := p.2.2, need := .write }] ++
        partsOf s v [(e.operand.toNat + 8 * p.1, 8, .write)]
    | _ => [])

/-- Move one page: copy, leaf rewrite, removal of its translations, the old address into the list entry (R107). -/
def movePage (v : Nat) (e : Entry) (p : Nat × Nat × Nat) (old : Nat) (at_ : Nat) (s : State) : State :=
  let (k, va, n) := p
  let new := (e.pages.getD k 0).toNat
  let s := if isDiscard e then s |> takeFree n |> storeAt new (freeBytes n s) else copyCells old new n s
  s |> rewriteLeaf at_ new |> dropRange v va n |> vstore v .write (e.operand.toNat + 8 * k) (natLe 8 old)

/-- PREFETCH or ADVISE of a segment: every page of it that is not in the target tier moves to its list address; a page
that can no longer be walked to, or whose target is not up, stops the segment (R106, R107, R218). -/
def moveTier (h j : Nat) (e : Entry) (s : State) : Moved :=
  let v := (s.hoop h).vat
  if regionOf e.src.toNat ≠ .dlocal then .ok s
  else (segPages s h e j).foldl (fun r p => match r with
    | .fail c n t => .fail c n t
    | .ok t =>
      match lookup t v p.2.1 .read, walkVat t v p.2.1 false with
      | .ok pa, .leaf _ at_ _ =>
        if inTargetTier e pa then .ok t
        else if !homeUp t (homeOf (e.pages.getD p.1 0).toNat) || (!isDiscard e && poisonedAt t pa p.2.2) then .fail .target 0 t
        else .ok (movePage v e p pa at_ t)
      | _, .fault c => .fail (.revoked (c = 0x10)) 0 (vatFault v (causeBit c) c p.2.1 t)
      | _, _ => .fail (.revoked false) 0 t) (.ok s)

/-! ### LAUNCH (R110 to R112, R325, R328) -/

/-- Qword 1 of the LAUNCH message: LEN_STRIDE with the split in force and RECOVERY (R325). -/
def launchWord (s : State) (q : Nat) (e : Entry) : W64 :=
  let x := e.lenStride.toNat
  let r := e.flag 0
  let split := if r then (s.acd q).defSplit else e.split
  BitVec.ofNat 64 (x - e.split * 2 ^ 24 + split % 16 * 2 ^ 24 + b2n r * 2 ^ 23)

/-- Send the LAUNCH message of a tag, unless some stack has rate 0 (R325, R328). -/
def sendLaunch (q tag : Nat) (e : Entry) (pa : Nat) (s : State) : State :=
  if (s.acd q).rates.any (fun r => r.2 = 0) || !(s.acd q).up then s
  else s |> modAcd q (fun p => { p with launches := tabSet p.launches tag { tabGet {} p.launches tag with sent := true, retry := false } })
    |> sendAcd q 0x06 tag (pa % 2 ^ 40) (launchWord s q e)

/-- The tag of an entry's own launch on port q (R325). -/
def launchTag (s : State) (q h : Nat) (i : W32) : Option Nat :=
  ((s.acd q).launches.find? (fun x => x.2.hoop = h && x.2.idx = i)).map (·.1)

/-- Location of an entry's launch block. -/
def launchBlock (s : State) (h : Nat) (e : Entry) : Nat :=
  match lookup s (s.hoop h).vat e.src.toNat .read with | .ok pa => pa | _ => 0

/-- A launch that the die has completed: the LAUNCH fence is raised as FENCE_SIGNAL raises it, and the entry ends OK. A
fence at another node is answered first; one whose access must wait is raised when the entry runs again (R112). -/
def completeLaunch (q tag h : Nat) (i : W32) (e : Entry) (s : State) : State :=
  let keep (s : State) : State :=
    modAcd q (fun p => { p with launches := tabSet p.launches tag { tabGet {} p.launches tag with ended := some .ok } }) s
  if e.phase ≠ .started then keep s
  else if e.dst = 0 then endLaunch q tag .ok s
  else
    let v := (s.hoop h).vat
    match gateSeg (.seg h i 0) v [(e.dst.toNat, 8, .atomic)] s with
    | (.go _, t) =>
      let t := raiseFence (.seg h i 0) h i e.dst e.fenceVal t
      if waitsFor t (.seg h i 0) then keep t else endLaunch q tag .ok t
    | (.wait, t) => t |> keep |> modEntry h i (fun e => { e with segs := [.todo] })
    | (.fail c, t) => failSeg h i 0 c 0 t
    | (.refused, t) => t |> severeFault (0x970 + vatWheel s v) |> failSeg h i 0 .target 0

/-- LAUNCH: an entry that runs again finds its own tag, whose launch it waits for or whose end it takes; otherwise a
free tag of 256 is taken and the message sent; without a free tag it waits (R112, R325). -/
def runLaunch (h : Nat) (i : W32) (e : Entry) (s : State) : State :=
  let q := field e.subop 3 0
  match launchTag s q h i with
  | some t =>
    let s := modEntry h i (fun e => { e with segs := [.busy] }) s
    match (tabGet {} (s.acd q).launches t).ended with
    | some .ok => completeLaunch q t h i e s
    | some st => endLaunch q t st s
    | none => s
  | none =>
    if !(s.acd q).up || (s.acd q).safe then finishEntry h i .aborted true 0 s
    else match firstFree 256 (tabHas (s.acd q).launches) with
      | none => s
      | some t => s
        |> modAcd q (fun p => { p with launches := tabSet p.launches t { hoop := h, idx := i } })
        |> modEntry h i (fun e => { e with segs := [.busy] })
        |> sendLaunch q t e (launchBlock s h e)

/-! ### The meanings -/

/-- COPY, R90. -/
def execCopy (h : Nat) (i : W32) (j : Nat) (s : State) : Host.Outcome State Fault Refusal :=
  .next (runSeg 0x01 h i j (moveCopy h j) s)

/-- FILL, R92. -/
def execFill (h : Nat) (i : W32) (j : Nat) (s : State) : Host.Outcome State Fault Refusal :=
  .next (runSeg 0x02 h i j (moveFill h j) s)

/-- GATHER, R93. -/
def execGather (h : Nat) (i : W32) (j : Nat) (s : State) : Host.Outcome State Fault Refusal :=
  .next (runSeg 0x03 h i j (moveGather h j) s)

/-- SCATTER, R93 and R94. -/
def execScatter (h : Nat) (i : W32) (j : Nat) (s : State) : Host.Outcome State Fault Refusal :=
  .next (if scatterTurn s h i j then runSeg 0x04 h i j (moveScatter h j) s else s)

/-- TRANSFORM, R96. -/
def execTransform (h : Nat) (i : W32) (j : Nat) (s : State) : Host.Outcome State Fault Refusal :=
  .next (runSeg 0x05 h i j (moveRecipe h i j (fun e => [e.src.toNat])) s)

/-- REDUCE, R97. -/
def execReduce (h : Nat) (i : W32) (j : Nat) (s : State) : Host.Outcome State Fault Refusal :=
  .next (runSeg 0x06 h i j (moveRecipe h i j (fun e => e.opsRead.map (·.toNat))) s)

/-- ACCUMULATE, R98. -/
def execAccumulate (h : Nat) (i : W32) (j : Nat) (s : State) : Host.Outcome State Fault Refusal :=
  .next (runSeg 0x07 h i j (moveAcc h i j) s)

/-- RESOLVE, R99. -/
def execResolve (h : Nat) (i : W32) (j : Nat) (s : State) : Host.Outcome State Fault Refusal :=
  .next (runSeg 0x08 h i j (moveResolve h i j) s)

/-- ATOMIC, R102. A run's count of applied operands starts anew (R116). -/
def execAtomic (h : Nat) (i : W32) (j : Nat) (s : State) : Host.Outcome State Fault Refusal :=
  .next (runSeg 0x09 h i j (moveAtomic h i j) s)

/-- FENCE_SIGNAL, R38. -/
def execFenceSignal (h : Nat) (i : W32) (s : State) : Host.Outcome State Fault Refusal :=
  .next (runSeg 0x0A h i 0 (moveSignal h i) s)

/-- FENCE_WAIT, R39: the wait is armed, and its fence read once. -/
def execFenceWait (h : Nat) (i : W32) (s : State) : Host.Outcome State Fault Refusal :=
  .next (match segLive s h i 0 with
    | some (e, .todo) => if e.opcode = 0x0B && !waitArmed s h i then armWait h i e s else s
    | _ => s)

/-- PREFETCH, R106: device-local pages move; a host-window range needs nothing more than its translation (R108). -/
def execPrefetch (h : Nat) (i : W32) (j : Nat) (s : State) : Host.Outcome State Fault Refusal :=
  .next (runSegWith 0x0C h i j (tierParts h j) (moveTier h j) s)

/-- ADVISE, R106. -/
def execAdvise (h : Nat) (i : W32) (j : Nat) (s : State) : Host.Outcome State Fault Refusal :=
  .next (runSegWith 0x0D h i j (tierParts h j) (moveTier h j) s)

/-- LAUNCH, R111: the entry's one piece takes a launch tag and the message leaves, under R325 and R328. -/
def execLaunch (h : Nat) (i : W32) (s : State) : Host.Outcome State Fault Refusal :=
  .next (match segLive s h i 0 with
    | some (e, .todo) => if e.opcode = 0x0E then runLaunch h i e s else s
    | _ => s)

/-- The vat through whose translations a piece of work accesses memory. -/
def ownerVat (s : State) : Owner → Option Nat
  | .seg h _ _ => some (s.hoop h).vat
  | .ring (.data h) => some (s.hoop h).vat
  | .status h _ => some (s.hoop h).vat
  | .head h => some (s.hoop h).vat
  | .input h _ => some (s.hoop h).vat
  | .push h _ => some (s.hoop h).vat
  | .watcher w => some (s.watcher w).vat
  | .poll k => some (s.pollWait k).vat
  | .table v _ => some v
  | .record e => (s.evq e).vat
  | _ => none

/-- Whether an access through a vat's translations is outstanding (R109). -/
def vatBusy (s : State) (v : Nat) : Bool := s.lk.reqs.any (fun r => ownerVat s r.owner = some v)

/-- INVALIDATE, R109: the removal is done; the entry ends at once, or at SEGMENT_DONE where accesses of its vat are
outstanding. -/
def execInvalidate (h : Nat) (i : W32) (s : State) : Host.Outcome State Fault Refusal :=
  .next (match segLive s h i 0 with
    | some (e, .todo) =>
      if e.opcode ≠ 0x0F then s
      else
        let v := (s.hoop h).vat
        let t := if bitOf e.subop 0 then dropAsid v s else dropRange v e.dst.toNat e.length s
        if vatBusy t v then t |> modEntry h i (fun e => { e with segs := [.busy] }) |> rescan
        else t |> doneSeg h i 0 |> rescan
    | _ => s)

/-- NOP, R105. -/
def execNop (h : Nat) (i : W32) (s : State) : Host.Outcome State Fault Refusal :=
  .next (match segLive s h i 0 with
    | some (e, .todo) => if e.opcode = 0x10 then doneSeg h i 0 s else s
    | _ => s)

/-- Whether SEGMENT_DONE ends a segment: a LAUNCH ends by COMPLETE (R112) and a FENCE_WAIT by its fence (R39); a
segment with requests that are held, or unanswered at a peer, goes on; an INVALIDATE ends once no access of its vat is
outstanding (R109). -/
def segMayEnd (s : State) (h : Nat) (e : Entry) (j : Nat) : Bool :=
  e.opcode ≠ 0x0E && e.opcode ≠ 0x0B && (e.opcode ≠ 0x0F || !vatBusy s (s.hoop h).vat) &&
  !s.lk.reqs.any (fun r => r.owner = .seg h e.idx j && (!r.sent || (match r.tgt with | .peer _ => true | _ => false)))

/-- SEGMENT_DONE, R113: the requests of segment j of entry i have been answered, or it failed at its target with n bytes
known written, or the ladle's result carries a superseded epoch and goes to whey (R73). A segment that has not moved
its data stays as it is. -/
def execSegmentDone (h : Nat) (i : W32) (j : Nat) (res : SegRes) (s : State) : Host.Outcome State Fault Refusal :=
  .next (match entryOf s h i, res with
    | none, .late => if (s.hoop h).present then toWhey h s else s
    | none, _ => s
    | some _, .late => toWhey h s
    | some e, r =>
      if e.phase ≠ .started then s
      else if e.epoch ≠ (s.hoop h).epoch then toWhey h s
      else match e.segs[j]?, r with
        | some .busy, .ok => if segMayEnd s h e j then s |> doneSeg h i j |> when (e.opcode = 0x0F) rescan else s
        | some .busy, .failed n =>
          if e.opcode = 0x0E || e.opcode = 0x0B then s
          else failSeg h i j .target (if countsOperands e.opcode then knownBytes e j else min n (segBytes s h e j)) s
        | _, _ => s)

end Sys2Proof.Machine
end

