-- ==== Sys2Proof/Machine/Translate.lean ====
section
/-! DEFINITION. Commands of translation: ATS completions, walks, page requests, invalidation, the flush (R201 to R223,
R491). -/

namespace Sys2Proof.Machine

open Sys2Proof

/-! ### Page requests (R211 to R213) -/

/-- A page request group index free for physical function pf, within what its host allows (R211). -/
def freePrg (s : State) (pf : Nat) : Option Nat :=
  if (s.hc pf).priAlloc ≤ (s.xl.pageReqs.filter (fun r => r.pf = pf)).length then none
  else firstFree 512 (fun k => s.xl.pageReqs.any (fun r => r.pf = pf && r.index = k))

/-- Send a page request, or let it wait for an index (R211, R34). -/
def sendPage (r : PageReq) (s : State) : State :=
  match freePrg s r.pf with
  | none => { s with xl.pageWait := s.xl.pageWait ++ [r] }
  | some k =>
    { s with
      xl.pageReqs := s.xl.pageReqs ++ [{ r with index := k }]
      xl.pageReqCount := s.xl.pageReqCount + 1 }
    |> modVat r.vat (fun v => { v with prOut := v.prOut + 1 })
    |> vatFault r.vat .pageReq 0 0
    |> emit (.pageRequest r.pf k r.reqFn r.pasid r.page (r.need ≠ .read))

/-- Requests of physical function pf that wait for an index go on, once one is free. -/
def nextPage (pf : Nat) (s : State) : State :=
  match s.xl.pageWait.find? (fun r => r.pf = pf), freePrg s pf with
  | some r, some _ => sendPage r { s with xl.pageWait := s.xl.pageWait.erase r }
  | _, _ => s

/-- Record a failed translation for those who wait on it (R205). -/
def addFault (v : Nat) (va : W64) (need : Access) (cause : Nat) (s : State) : State :=
  { s with xl.xfaults := s.xl.xfaults ++ [{ vat := v, page := va.toNat / 4096 * 4096, need := need, cause := cause }] }

/-- Page requests of physical function pf were stopped by Response Failure: those that wait for an index fault with
NOT_PRESENT (R212). -/
def stopPages (pf : Nat) (s : State) : State :=
  let gone := s.xl.pageWait.filter (fun r => r.pf = pf)
  forAll gone (fun r => addFault r.vat r.va r.need 0x07) { s with
    xl.priStopped := if s.xl.priStopped.contains pf then s.xl.priStopped else s.xl.priStopped ++ [pf]
    xl.pageWait := s.xl.pageWait.filter (fun r => r.pf ≠ pf) }

/-! ### Translation Completions (R203, R212, R216) -/

/-- The largest size that the ATC keeps and that does not exceed the reported one (R202). -/
def atcSize (n : Nat) : Nat := if 2 ^ 30 ≤ n then 2 ^ 30 else if 2 ^ 21 ≤ n then 2 ^ 21 else if 65536 ≤ n then 65536 else 4096

/-- Take what a completion grants: into the ATC and the micro-TLB that asked; a page under U = 1 is not cached, but kept for the
vat that asked as long as an entry of it needs the page, and reached at its untranslated address (R202, R203). -/
def takeGrant (q : AtsReq) (pa size : Nat) (r w u : Bool) (s : State) : State :=
  let n := if u then 4096 else atcSize size
  addXlat q.slice
    { vat := q.vat, port := some q.port, reqFn := q.reqFn, pasid := q.pasid, page := q.page / n * n, size := n
      pa := if u then q.page else pa / n * n, rd := r, wr := w, untrans := u, atc := !u } s

/-- Whether a completion meets the range of an Invalidate Request that arrived after its request was sent: its page, as it would
be kept (R202, R216). -/
def meetsInval (q : AtsReq) (r : AtsResp) : Bool :=
  let n := match r with
    | .grant _ size _ _ false => atcSize size
    | _ => 4096
  q.invals.any (fun v => 2 ^ 64 ≤ v.2 || overlap (q.page / n * n) n v.1 v.2)

/-- Whether what a completion grants suffices for an access (R204). -/
def grantsNeed (need : Access) (r w : Bool) : Bool :=
  match need with | .read => r | .write => w | .atomic => r && w

/-- Whether a vat may raise a page request toward a port now, or the cause that its not-present page has instead. -/
def mayPage (s : State) (q : AtsReq) : Bool :=
  (winOf s q.vat q.port).priEn && !q.afterPri && !s.xl.priStopped.contains (pfOf q.reqFn)

/-- A completion grants too little: a page request, or NOT_PRESENT, or PERMISSION where it grants something (R203, R212). -/
def shortGrant (q : AtsReq) (some_ : Bool) (s : State) : State :=
  if mayPage s q then
    sendPage { pf := pfOf q.reqFn, index := 0, vat := q.vat, reqFn := q.reqFn, port := q.port, pasid := q.pasid, page := q.page
               need := q.need, va := q.va, slice := q.slice } s
  else addFault q.vat q.va q.need (if some_ then 0x02 else 0x07) s

/-- Act on the completion of a Translation Request (R203, R216). -/
def takeCompletion (q : AtsReq) (r : AtsResp) (s : State) : State :=
  let live := (s.vat q.vat).st ≠ .free
  if q.stale || !live then s
  else if meetsInval q r then (if (s.vat q.vat).st = .aborting then s else sendAts q s)
  else match r with
    | .error => addFault q.vat q.va q.need 0x08 s
    | .grant pa size rd wr u =>
      s |> when (rd || wr) (takeGrant q pa size rd wr u)
        |> when (!grantsNeed q.need rd wr) (shortGrant q (rd || wr))

/-- TRANSLATION_COMPLETION, R203; a grant on an IDE stream in the Insecure state is discarded (R291): what comes of its request then
is the error of one that is not answered. -/
def execTranslationCompletion (p tag : Nat) (r : AtsResp) (s : State) : Host.Outcome State Fault Refusal :=
  .next (match s.xl.atsReqs.find? (fun q => q.port = p && q.tag = tag) with
    | none => s
    | some q =>
      if r ≠ .error && tlpDropped s p (some q.page) then s
      else { s with xl.atsReqs := s.xl.atsReqs.filter (fun y => !(y.port = p && y.tag = tag)) }
        |> takeCompletion q r |> nextAts p |> rescan)

/-! ### Walks (R222) -/

/-- WALK_COMPLETE, R222: the walk's last table read has returned and the leaf is checked. -/
def execWalkComplete (v : Nat) (va : W64) (poisoned : Bool) (s : State) : Host.Outcome State Fault Refusal :=
  .next (match s.xl.walks.find? (fun w => w.vat = v && w.va.toNat / 4096 = va.toNat / 4096) with
    | none => s
    | some w =>
      let t := { s with xl.walks := s.xl.walks.erase w }
      match walkVat t v w.va.toNat poisoned with
      | .leaf x _ ptrs => t |> addXlat w.slice x |> cachePtrs ptrs |> rescan
      | .fault c => t |> addFault v w.va w.need c |> rescan)

/-! ### Answers to page requests (R212, R213) -/

/-- The page request with an index, if it is in use. -/
def pageReqOf (s : State) (pf index : Nat) : Option PageReq := s.xl.pageReqs.find? (fun r => r.pf = pf && r.index = index)

/-- Free an index (R213). -/
def freeIndex (pf index : Nat) (s : State) : State :=
  { s with xl.pageReqs := s.xl.pageReqs.filter (fun r => !(r.pf = pf && r.index = index)) } |> nextPage pf

/-- The effect of a response on the access that waits for it (R212). -/
def takePrg (r : PageReq) (code : PrgCode) (s : State) : State :=
  let s := s |> pageGone r.vat
  match code with
  | .success => sendAts { port := r.port, vat := r.vat, reqFn := r.reqFn, pasid := r.pasid, page := r.page, need := r.need
                          afterPri := true, va := r.va, slice := r.slice } s
  | .invalid => addFault r.vat r.va r.need 0x09 s
  | .failure => s |> addFault r.vat r.va r.need 0x09 |> stopPages r.pf

/-- PAGE_REQUEST_RESPONSE, R212: a cancelled request's response, whatever its code, only frees its index (R51, R213); one of
an IDE stream in the Insecure state is discarded (R291). -/
def execPageRequestResponse (pf index : Nat) (code : PrgCode) (s : State) : Host.Outcome State Fault Refusal :=
  .next (match pageReqOf s pf index with
    | none => s
    | some r =>
      if tlpDropped s pf none then s
      else if r.dead then freeIndex pf index s
      else s |> takePrg r code |> freeIndex pf index |> rescan |> tryEvict |> tryFrozen (s.vat r.vat).fn)

/-- PRI_TIMEOUT, R212: PAGE_REQ_FAILED, the index staying in use until it is freed. -/
def execPriTimeout (pf index : Nat) (s : State) : Host.Outcome State Fault Refusal :=
  .next (match pageReqOf s pf index with
    | none => s
    | some r =>
      if r.dead then s
      else { s with xl.pageReqs := s.xl.pageReqs.map (fun y => if y.pf = pf && y.index = index then { y with dead := true } else y) }
        |> pageGone r.vat |> addFault r.vat r.va r.need 0x09 |> rescan |> tryEvict |> tryFrozen (s.vat r.vat).fn)

/-- PRG_INDEX_FREE, R213: an index without a response is freed 32 s after its request. -/
def execPrgIndexFree (pf index : Nat) (s : State) : Host.Outcome State Fault Refusal :=
  .next (match pageReqOf s pf index with
    | some r => if r.dead then freeIndex pf index s else s
    | none => s)

/-! ### Invalidation (R214 to R216, R223) -/

/-- Whether a cached translation matches an Invalidate Request. -/
def invalMatches (v : Inval) (x : Xlat) : Bool :=
  x.port = some v.port && x.reqFn = v.reqFn && x.pasid = v.pasid &&
    (v.len ≥ 2 ^ 64 || overlap x.page x.size v.lo v.len)

/-- INVALIDATE_REQUEST, R214 and R215: accesses through matching translations stop, and requests under way with its tag keep its
range for their completions (R216); at most 32 are processed at once. -/
def execInvalidateRequest (p itag : Nat) (rf : Fn) (pasid : Option Nat) (addr len : Nat) (s : State) :
    Host.Outcome State Fault Refusal :=
  .next (let v : Inval := { port := p, itag := itag, reqFn := rf, pasid := pasid, lo := addr, len := len }
    if tlpDropped s p none || !hostMode s p || (s.hc p).lost || !(s.hc p).linkUp || 32 ≤ (s.xl.invals.filter (fun x => x.port = p)).length ||
        s.xl.invals.any (fun x => x.port = p && x.itag = itag) then s
    else { s with
        xl.invals := s.xl.invals ++ [v]
        xl.xlats := s.xl.xlats.map (fun x => if invalMatches v x then { x with stopped := true } else x)
        xl.atsReqs := s.xl.atsReqs.map (fun r => if r.port = p && r.reqFn = rf && r.pasid = pasid then
          { r with invals := r.invals ++ [(addr, len)] } else r) }
      |> modHc p (fun x => { x with invals := x.invals + 1 }))

/-- Whether an access issued through a translation that a request stops is still outstanding (R214 step 2). -/
def invalBusy (s : State) (v : Inval) : Bool :=
  s.xl.xlats.any (fun x => x.stopped && invalMatches v x &&
    s.lk.reqs.any (fun r => r.sent && r.tgt = .host v.port && overlap r.addr r.len (hostLoc v.port x.pa) x.size))

/-- INVALIDATE_COMPLETION, R214: once the accesses issued through them have ended, the translations are removed and the
completion is sent. -/
def execInvalidateCompletion (p itag : Nat) (s : State) : Host.Outcome State Fault Refusal :=
  .next (match s.xl.invals.find? (fun x => x.port = p && x.itag = itag) with
    | none => s
    | some v =>
      if invalBusy s v then s
      else { s with
          xl.invals := s.xl.invals.filter (fun x => !(x.port = p && x.itag = itag))
          xl.xlats := s.xl.xlats.filter (fun x => !(x.stopped && invalMatches v x)) }
        |> modHc p (fun x => { x with invals := x.invals - 1 })
        |> emit (.invalDone p itag) |> rescan)

/-- Whether a function's register writes reach the blocks of the device manager and the bring-up function (R453, R462). -/
def mayManage (s : State) (f : Fn) : Bool := isDevmgr s f && !(s.fnS f).dstate3

/-- Remove every cached translation of the ATC, the micro-TLBs and the walk cache (R223). -/
def flushAll (s : State) : State :=
  { s with xl.xlats := s.xl.xlats.filter (fun x => x.stopped), xl.walkCache := [] } |> rescan

/-- XLATE_FLUSH, R223: a write of 1 to XLATE_CTRL.FLUSH. -/
def execXlateFlush (f : Fn) (s : State) : Host.Outcome State Fault Refusal :=
  .next (if mayManage s f then flushAll s else s)

end Sys2Proof.Machine
end

