-- ==== Sys2Proof/Machine/HostPorts.lean ====
section
/-! DEFINITION. Host-class ports in host mode: completions, PF BAR2, link training and loss, resets of functions, SR-IOV,
power states, L0p, IDE (R275 to R292, R446, R453). -/

namespace Sys2Proof.Machine

open Sys2Proof

/-! ### AER codes of the model's record: 1 poisoned write, 2 poisoned completion (advisory), 3 completion timeout,
4 Unsupported Request, 5 IDE Check Failed (R287) -/

/-- Set bits of HC_ERR of port p. -/
def hcErr (p : Nat) (bits : BitVec 10) (s : State) : State := modHc p (fun x => { x with err := x.err ||| bits }) s

/-! ### Completions (R285, R287, R493) -/

/-- The outstanding request of a tag on host port p; 16 is the bring-up port. -/
def hostReq (s : State) (p tag : Nat) : Option Req := s.lk.reqs.find? (fun r => r.tagged && r.tgt = .host p && r.tag = tag)

/-- The request of a tag no longer waits for an answer. -/
def dropTag (t : Tgt) (tag : Nat) (s : State) : State := dropReqs (fun r => r.tagged && r.tgt = t && r.tag = tag) s

/-- The work of a host request fails; an admin command's input that the host refuses ends with XLATE_FAULT (R493). -/
def hostReqFails (r : Req) (refused : Bool) (s : State) : State :=
  match r.owner with
  | .adminInput a => adminReadFails a refused s
  | o => ownerFails o .target s

/-- The recipe or firmware image that the parameter block of an admin entry names: address and bytes (R150, R450). -/
def imageInput (s : State) (a : Nat) (e : Entry) : Option (Nat × Nat) :=
  let q := adminBlock s a e
  if e.opcode = 0x85 then some (qw q 0, lrBytes q) else if e.opcode = 0x92 then some (fwAddr q, fwBytes q) else none

/-- The reads of an admin command's parameter block are answered: the image that it names is read next (R493). -/
def askImage (a : Nat) (s : State) : State :=
  match adminCur s a with
  | none => s
  | some e =>
    match imageInput s a e with
    | some (p, n) =>
      if e.inputs ≠ 0 || (s.admin a).cur.isSome || waitsFor s (.adminInput a) then s
      else s |> modAdmin a (fun x => { x with
            entries := x.entries.map (fun y => if y.idx = e.idx then { y with inputs := 1 } else y) })
        |> addReq (.host a) (.adminInput a) .read (hostLoc a p) n 0
    | none => s

/-- HOST_COMPLETION, R285; one whose IDE stream is in the Insecure state is discarded, and its request times out (R291). -/
def execHostCompletion (p tag : Nat) (c : Cpl) (s : State) : Host.Outcome State Fault Refusal :=
  .next (match hostReq s p tag with
    | none => s
    | some r =>
      if tlpDropped s p (some (r.addr - hostLoc p 0)) then s
      else
        let s := dropTag (.host p) tag s
        match c with
        | .success => (match r.owner with
          | .adminInput a => askImage a s
          | o => ownerAnswered o s)
        | .poisoned => s |> when (p < 16) (fun s => s |> emit (.aer p 2) |> countFault (0xA00 + 8 * p + 2)) |> hostReqFails r false
        | .unsupported => hostReqFails r true s
        | .abort => hostReqFails r true s)

/-- COMPLETION_TIMEOUT, R285 and R287. -/
def execCompletionTimeout (p tag : Nat) (s : State) : Host.Outcome State Fault Refusal :=
  .next (match hostReq s p tag with
    | none => s
    | some r => s |> dropTag (.host p) tag
        |> when (p < 16) (fun s => s |> hcErr p 0x4 |> emit (.aer p 3) |> countFault (0xA00 + 8 * p + 1))
        |> hostReqFails r false)

/-! ### PF BAR2 (R130, R131, R286, R391, R413, R453) -/

/-- Slices that a range of PF BAR2 touches. -/
def bar2Slices (off n : Nat) : List Nat :=
  if n = 0 then [] else (List.range ((off + n - 1) / 2 ^ 22 + 1 - off / 2 ^ 22)).map (· + off / 2 ^ 22)

/-- Whether function f may make a PF BAR2 access: it is a physical function in D0, and every slice is in its wheel. -/
def bar2Ok (s : State) (f : Fn) (off n : Nat) : Bool :=
  match f with
  | .pf p => hostMode s p && !(s.fnS f).dstate3 && decide (off + n ≤ 2 ^ 27) &&
      (bar2Slices off n).all (fun k => sliceWheelOf s k = hcWheelOf s p)
  | _ => false

/-- Whether a range of the scratchpad reads as poisoned: poisoned granules, or a slice in its safe state. -/
def bar2Poisoned (s : State) (off n : Nat) : Bool := poisonedAt s (scratchLoc off) n || (bar2Slices off n).any (sliceSafe s)

/-- Answer a read of n bytes at an offset. -/
def bar2Answer (f : Fn) (off n : Nat) (s : State) : State :=
  if bar2Poisoned s off n then s |> emit (.barData f (leNat (freeBytes n s)) true) |> takeFree n
  else emit (.barData f (readNat s (scratchLoc off) n) false) s

/-- BAR2_READ, R286: served from the home cells after the rind check. -/
def execBar2Read (f : Fn) (off len : Nat) (s : State) : Host.Outcome State Fault Refusal :=
  .next (fromHost f (fun s => if bar2Ok s f off len then bar2Answer f off len s else bar2Reject f s) s)

/-- The bytes of a write that reach slices outside their safe state (R391). -/
def bar2Store (off : Nat) (data : List Byte) (s : State) : State :=
  forAll (bar2Slices off data.length) (fun k s =>
    let lo := max off (k * 2 ^ 22)
    let hi := min (off + data.length) ((k + 1) * 2 ^ 22)
    if sliceSafe s k then s else storeAt (scratchLoc lo) ((data.drop (lo - off)).take (hi - lo)) s) s

/-- Every granule that a poisoned write touches becomes poisoned, in slices outside their safe state (R160, R286). -/
def bar2Poison (off n : Nat) (s : State) : State :=
  forAll (bar2Slices off n) (fun k s =>
    let lo := max off (k * 2 ^ 22)
    let hi := min (off + n) ((k + 1) * 2 ^ 22)
    if sliceSafe s k then s else poisonRange (scratchLoc lo) (hi - lo) s) s

/-- BAR2_WRITE, R286 and R287: writes of up to Max_Payload_Size. -/
def execBar2Write (f : Fn) (off : Nat) (data : List Byte) (poisoned : Bool) (s : State) : Host.Outcome State Fault Refusal :=
  .next (fromHost f (fun s =>
    let p := pfOf f
    let t := s |> when (poisoned && p < 16) (fun s => s |> hcErr p 0x2 |> emit (.aer p 1) |> countFault (0xA00 + 8 * p + 2))
    if !bar2Ok s f off data.length || (s.hc p).mps < data.length then bar2Reject f t
    else if poisoned then bar2Poison off data.length t
    else bar2Store off data t) s)

/-- The new value of an AtomicOp of a width in bytes (R286). -/
def barAtomicNew (op : BarAtomic) (width old operand compare : Nat) : Nat :=
  match op with
  | .fetchAdd => (old + operand) % 2 ^ (8 * width)
  | .swap => operand % 2 ^ (8 * width)
  | .cas => if old = compare % 2 ^ (8 * width) then operand % 2 ^ (8 * width) else old

/-- Widths that an AtomicOp has, in bytes (R286). -/
def barAtomicWidth (op : BarAtomic) (width : Nat) : Bool := width = 4 || width = 8 || (width = 16 && op = .cas)

/-- BAR2_ATOMICOP, R286 and R242: one atomic step at the home cell; the old value is returned. A location that reads as
poisoned returns poison and keeps it. An AtomicOp to BAR0 is an Unsupported Request. -/
def execBar2AtomicOp (f : Fn) (at_ : BarPlace) (op : BarAtomic) (width operand compare : Nat) (s : State) :
    Host.Outcome State Fault Refusal :=
  .next (fromHost f (fun s =>
    let off := at_.off
    if at_.bar0 || !bar2Ok s f off width || !barAtomicWidth op width then bar2Reject f s
    else if bar2Poisoned s off width then bar2Answer f off width s
    else
      let old := readNat s (scratchLoc off) width
      let new := barAtomicNew op width old operand compare
      s |> bar2Answer f off width |> when (op ≠ .cas || decide (old = compare % 2 ^ (8 * width))) (bar2Store off (natLe width new))) s)

/-! ### Configuration requests and training (R203, R211, R212, R235, R277 to R281, R289, R293, R307, R446, R453) -/

/-- The function that answers configuration requests at routing ID offset n of port p: physical function p at 0, virtual
function n of SR-IOV beyond (R280); the bring-up function on port 16 (R307). -/
def cfgFn (s : State) (p n : Nat) : Option Fn :=
  if p = 16 then (if n = 0 then some .bu else none)
  else if n = 0 then some (.pf p)
  else if (s.fnS (.vf p (n - 1))).granted then some (.vf p (n - 1)) else none

/-- What a 64-bit BAR reads after a write of all ones: its size, and the type bits of a PCI Express BAR (PRESUMED, log entry
136). -/
def barSizing (size : Nat) (prefetch : Bool) : Nat := 2 ^ 64 - size + b2n prefetch * 8 + 4

/-- The BAR pairs of a function: BAR0/1, BAR2/3 and BAR4/5 (R280, R307). -/
def barPair (f : Fn) (k : Nat) : Nat :=
  match f, k with
  | .pf _, 0 => barSizing (2 ^ 28) false
  | .pf _, 1 => barSizing (2 ^ 27) true
  | .bu, 0 => barSizing (2 ^ 20) false
  | _, _ => 0

/-- Half k of a list of 64-bit BARs: the low word of a pair at an even k. -/
def barHalf (pair : Nat → Nat) (k : Nat) : Nat := field (pair (k / 2)) (32 * (k % 2) + 31) (32 * (k % 2))

/-- Whether a function has a capability (R277, R278, R280, R307). -/
def cfgHas (f : Fn) (x : CfgFeature) : Bool :=
  match x with
  | .msi => false
  | .expansionRom => false
  | .l1Substates => false
  | .aspmL1 => f = .bu
  | .msix => true
  | .aer => f ≠ .bu
  | .flitMode => true
  | .doe => !isVf f
  | .ide => f ≠ .bu && !isVf f
  | .sriov => f ≠ .bu && !isVf f
  | .atomicCompleter => f ≠ .bu && !isVf f
  | _ => f ≠ .bu

/-- The value of an item of a function's configuration space; an item that the function lacks reads 0 (R203, R277 to R281, R289,
R307). -/
def cfgValue (s : State) (f : Fn) (x : CfgItem) : Nat :=
  let pf := f ≠ .bu && !isVf f
  match x with
  | .classCode => 0x120000
  | .bar k => barHalf (barPair f) k
  | .vfBar k => if pf then barHalf (fun j => if j = 0 then barSizing (2 ^ 18) false else 0) k else 0
  | .totalVfs => if pf then 512 else 0
  | .firstVfOffset => b2n pf
  | .vfStride => b2n pf
  | .numVfs => if pf then (s.hc (pfOf f)).numVfs else 0
  | .vfEnable => b2n (pf && (s.hc (pfOf f)).vfEnable)
  | .interruptPin => 0
  | .msixVectors => vectorCount f
  | .invalQueueDepth => 0
  | .globalInval => 0
  | .pageAligned => b2n (f ≠ .bu)
  | .noSoftReset => 1
  | .dState => if (s.fnS f).dstate3 then 3 else 0
  | .busMaster => b2n (pf && (s.hc (pfOf f)).busMaster)
  | .maxPayload => (s.hc (pfOf f)).mps
  | .doeProtocol k => if cfgHas f .doe && k < (if f = .bu then 2 else 3) then k * 65536 + 1 else 0
  | .selectiveStreams => if pf then 4 else 0
  | .feature y => b2n (cfgHas f y)

/-- Change the association blocks of a Selective IDE stream of port p (R289). -/
def setIdeBlock (p k : Nat) (g : IdeStream → IdeStream) (s : State) : State :=
  if 1 ≤ k && k ≤ 4 then modHc p (fun x => { x with ide := tabSet x.ide k (g (tabGet {} x.ide k)) }) s else s

/-- A write to the configuration space of function f of port p. A reset of the PRI capability lets page requests be sent again
(R212). All of these are settings of the physical function, which its virtual functions share. -/
def cfgWrite (p : Nat) (f : Fn) (op : CfgOp) (s : State) : State :=
  if f = .bu || isVf f then s
  else match op with
    | .read _ => s
    | .pmeEnable on => modFnS f (fun x => { x with pmeEn := on }) s
    | .priReset => { s with xl.priStopped := s.xl.priStopped.filter (· ≠ p) }
    | .priAllocation n => modHc p (fun x => { x with priAlloc := n }) s
    | .relaxedOrdering on => modHc p (fun x => { x with relaxed := on }) s
    | .maxPayload n => modHc p (fun x => { x with mps := n }) s
    | .ideRid k r => setIdeBlock p k (fun x => { x with rid := r }) s
    | .ideAddr k r => setIdeBlock p k (fun x => { x with addr := r }) s

/-- A configuration request answered in the ordinary way: a read with the item's value, a write with 0; a request to a routing
ID that no function has is an Unsupported Request (R280, R446). -/
def cfgAnswer (p n : Nat) (op : CfgOp) (s : State) : State :=
  match cfgFn s p n, op with
  | none, _ => emit (.cfgUr p n) s
  | some f, .read x => emit (.cfgAnswer p n (cfgValue s f x)) s
  | some f, _ => s |> cfgWrite p f op |> emit (.cfgAnswer p n 0)

/-- CONFIG_REQUEST, R446: Retry Status on a host-class port before the end of step 9 of a cold start; a TLP of an Insecure
stream is discarded (R291). -/
def execConfigRequest (r : CfgRequest) (s : State) : Host.Outcome State Fault Refusal :=
  .next (if r.p < 16 && tlpDropped s r.p none then s
    else if r.p = 16 then when s.lk.buLinkUp (cfgAnswer r.p r.n r.op) s
    else match s.tm.boot with
      | .running => cfgAnswer r.p r.n r.op s
      | .rest => cfgAnswer r.p r.n r.op s
      | .held => emit (.cfgRetry r.p) s
      | .deepWake => emit (.cfgRetry r.p) s
      | .deepRest => s
      | .off => s)

/-- HOST_LINK_TRAINED, R277 and R293: training ends at 64 or 128 GT/s and x16; CXL where offered and negotiated. -/
def execHostLinkTrained (p : Nat) (gts128 negCxl : Bool) (s : State) : Host.Outcome State Fault Refusal :=
  .next (let x := s.hc p
    if hostMode s p && x.linkEn && !x.safe && !x.linkUp && (s.rsh p).trained then
      let cxl := x.cxlAct && negCxl
      s |> modHc p (fun x => { x with
            linkUp := true, cxl := cxl, rate := if gts128 && !x.rateCap && !cxl then 7 else 6, width := 16 })
        |> tryFound p
    else s)

/-- HOST_LINK_DOWN, R283. -/
def execHostLinkDown (p : Nat) (s : State) : Host.Outcome State Fault Refusal :=
  .next (if hostMode s p && (s.hc p).linkUp then hcDown p s else s)

/-- HOT_RESET, R283: the link stays up. -/
def execHotReset (p : Nat) (s : State) : Host.Outcome State Fault Refusal :=
  .next (if hostMode s p && (s.hc p).linkUp then hostLoss p s else s)

/-- PF_FLR, R283. -/
def execPfFlr (p : Nat) (s : State) : Host.Outcome State Fault Refusal :=
  .next (if hostMode s p && (s.hc p).linkUp then hostLoss p s else s)

/-- Vats that the loss of port p's host tears down. -/
def lostVats (s : State) (p : Nat) : List Nat :=
  (s.wk.vats.filter (fun v => v.2.st = .aborting && v.2.tearSilent && pfOf v.2.fn = p)).map (·.1)

/-- HOST_TEARDOWN_COMPLETE, R284: the vats become FREE and the teardown is complete, which can end the lost state. -/
def execHostTeardownComplete (p : Nat) (s : State) : Host.Outcome State Fault Refusal :=
  .next (let s := forAll (lostVats s p) finishTear s
    if (s.hc p).tearing && (lostVats s p).isEmpty then s |> modHc p (fun x => { x with tearing := false }) |> tryFound p else s)

/-! ### Virtual functions (R281, R282) -/

/-- Reset a quiesced virtual function (R282). -/
def flrVf (f : Fn) (s : State) : State := s |> tearVats (vatsOf s f) |> clearVf f

/-- VF_FLR, R282: performed on a quiesced function, held and recorded otherwise. -/
def execVfFlr (p v : Nat) (s : State) : Host.Outcome State Fault Refusal :=
  .next (let f : Fn := .vf p v
    if !(s.fnS f).granted then s
    else if quiesced s f then flrVf f s
    else s |> modHc p (fun x => { x with vfFlrReq := if x.vfFlrReq.contains v then x.vfFlrReq else x.vfFlrReq ++ [v] }) |> hcErr p 0x8)

/-- VF_ENABLE_SET, R281: n functions are granted where the pool has them. -/
def execVfEnableSet (p n : Nat) (s : State) : Host.Outcome State Fault Refusal :=
  .next (if !hostMode s p || (s.hc p).vfEnable then s
    else if n ≤ s.lk.vfFree && n ≤ 512 then
      { s with lk.vfFree := s.lk.vfFree - n }
      |> modHc p (fun x => { x with vfEnable := true, numVfs := n })
      |> forAll (List.range n) (fun i => modFnS (.vf p i) (fun _ => { granted := true }))
    else hcErr p 0x20 s)

/-- VF_ENABLE_CLEAR, R282: performed once every virtual function is quiesced. -/
def execVfEnableClear (p : Nat) (s : State) : Host.Outcome State Fault Refusal :=
  .next (let fs := (fnsOfPort s p).filter isVf
    if !(s.hc p).vfEnable then s
    else if fs.all (quiesced s) then s |> forAll fs flrVf |> returnVfs p
    else hcErr p 0x10 s)

/-- BUS_MASTER_ENABLE, R284. -/
def execBusMasterEnable (p : Nat) (s : State) : Host.Outcome State Fault Refusal :=
  .next (if hostMode s p then s |> modHc p (fun x => { x with busMaster := true }) |> tryFound p else s)

/-- PMCSR_D_STATE, R453: in D3hot messages are withheld; they are sent after the return to D0 by MSIX_MESSAGE_SEND. -/
def execPmcsrDState (p : Nat) (d3 : Bool) (s : State) : Host.Outcome State Fault Refusal :=
  .next (if hostMode s p then modFnS (.pf p) (fun x => { x with dstate3 := d3 }) s else s)

/-! ### L0p (R279, R340) -/

/-- Whether a spare switch is in progress on a fibre of host-class port p. -/
def portSwitching (s : State) (p : Nat) : Bool :=
  (fibreMap s (2 * p)).switching.isSome || (fibreMap s (2 * p + 1)).switching.isSome

/-- L0P_REQUEST, R279: widths 16, 8, 4 and 2 are accepted; the change waits for a spare switch in progress (R340). -/
def execL0pRequest (p width : Nat) (s : State) : Host.Outcome State Fault Refusal :=
  .next (if !hostMode s p || !(s.hc p).linkUp then s
    else if [2, 4, 8, 16].contains width then
      s |> modHc p (fun x => if portSwitching s p then { x with pendWidth := some width } else { x with width := width, pendWidth := none })
        |> emit (.l0p p width true)
    else emit (.l0p p width false) s)

/-! ### IDE (R289 to R291) -/

/-- Whether a secured SPDM session stands on the DOE mailbox of physical function p (R288). -/
def doeSecured (s : State) (p : Nat) : Bool := (tabGet {} s.se.spdm (.doe p)).secured

/-- Run an IDE_KM message inside the secured session of physical function p; without one it is an invalid request. -/
def ideRun (p : Nat) (f : State → State) (s : State) : State :=
  if doeSecured s p then f s else emit (.spdmError (.doe p) 0x01) s

/-- Change an IDE stream of port p. -/
def modIde (p k : Nat) (f : IdeStream → IdeStream) (s : State) : State :=
  modHc p (fun x => { x with ide := tabSet x.ide k (f (tabGet {} x.ide k)) }) s

/-- Stream k of port p. -/
def ideOf (s : State) (p k : Nat) : IdeStream := tabGet {} (s.hc p).ide k

/-- IDE_KM_QUERY, R290: one Link stream and four Selective streams (R289). -/
def execIdeKmQuery (p : Nat) (s : State) : Host.Outcome State Fault Refusal := .next (ideRun p (emit (.ide p "QUERY_RESP" 5)) s)

/-- IDE_KM_KEY_PROG, R290: the key set is held; a stream that is programmed again leaves the Insecure state (R291). -/
def execIdeKmKeyProg (p stream ks : Nat) (s : State) : Host.Outcome State Fault Refusal :=
  .next (ideRun p (fun s =>
    if stream < 5 && ks < 2 then
      s |> modIde p stream (fun x => { x with keySet := x.keySet ||| BitVec.ofNat 2 (2 ^ ks), insecure := false })
        |> emit (.ide p "KP_ACK" stream)
    else emit (.ide p "KP_ACK_ERROR" stream) s) s)

/-- IDE_KM_K_SET_GO, R290: a programmed key set comes into use. -/
def execIdeKmKSetGo (p stream ks : Nat) (s : State) : Host.Outcome State Fault Refusal :=
  .next (ideRun p (fun s =>
    if stream < 5 && ks < 2 && (ideOf s p stream).keySet.getLsbD ks then
      s |> modIde p stream (fun x => { x with going := some ks }) |> emit (.ide p "K_GOSTOP_ACK" stream)
    else s) s)

/-- IDE_KM_K_SET_STOP, R290: the key set stops and its keys are erased. -/
def execIdeKmKSetStop (p stream ks : Nat) (s : State) : Host.Outcome State Fault Refusal :=
  .next (ideRun p (fun s =>
    if stream < 5 && ks < 2 then
      s |> modIde p stream (fun x => { x with
            keySet := x.keySet &&& ~~~ BitVec.ofNat 2 (2 ^ ks), going := if x.going = some ks then none else x.going })
        |> emit (.ide p "K_GOSTOP_ACK" stream)
    else s) s)

/-- IDE_CHECK_FAILED, R291: a stream in use enters the Insecure state. -/
def execIdeCheckFailed (p stream : Nat) (s : State) : Host.Outcome State Fault Refusal :=
  .next (if hostMode s p && (ideOf s p stream).going.isSome then
      s |> modIde p stream (fun x => { x with insecure := true }) |> hcErr p 0x40 |> emit (.aer p 5)
        |> countFault (0xA00 + 8 * p + 3)
    else s)

/-! ### HC_CTRL.LINK_EN (R275, R283, R306, R355) -/

/-- LINK_EN of port p becomes 1: MODE and CXL_EN take effect; without a valid calibration record the port does not start
(R275, R355). In recovery no port but the bring-up port is enabled (R447). -/
def hcEnable (p : Nat) (s : State) : State :=
  if (s.hc p).linkEn || s.tm.recovery then s
  else { s with st.cfgDirty := true }
    |> modHc p (fun x => { x with linkEn := true, modeAct := x.far, cxlAct := x.cxlEn })
    |> when (!s.st.calValid.contains p) (modRsh p (fun x => { x with err := x.err ||| 0x2 }))

/-- LINK_EN of port p becomes 0: the link goes down with the effects of R283 or R306. -/
def hcDisable (p : Nat) (s : State) : State :=
  if !(s.hc p).linkEn then s
  else { s with st.cfgDirty := true } |> modHc p (fun x => { x with linkEn := false }) |> when (s.hc p).linkUp (hcDown p)
    |> modRsh p (fun x => { x with trained := false })

/-- HC_LINK_ENABLE, R275. -/
def execHcLinkEnable (f : Fn) (p : Nat) (s : State) : Host.Outcome State Fault Refusal :=
  .next (if mayManage s f then hcEnable p s else s)

/-- HC_LINK_DISABLE, R283. -/
def execHcLinkDisable (f : Fn) (p : Nat) (s : State) : Host.Outcome State Fault Refusal :=
  .next (if mayManage s f then hcDisable p s else s)

end Sys2Proof.Machine
end

