-- ==== Sys2Proof/Machine/Cxl.lean ====
section
/-! DEFINITION. CXL on host-class ports: snoops and evictions of the coherent window cache, host requests to HDM windows,
back-invalidation, and far-memory ports (R293 to R306). -/

namespace Sys2Proof.Machine

open Sys2Proof

/-! ### Snoops (R296, R298). Answers from the cache itself carry the names of the CXL specification (PRESUMED, log entry 10) -/

/-- A line of port p in an eviction buffer. -/
def evictOf (s : State) (p a : Nat) : Option CohLine := s.cx.evict.find? (fun l => l.port = p && l.addr = a)

/-- Change the buffered line a of port p. -/
def modEvict (p a : Nat) (f : CohLine → CohLine) (s : State) : State :=
  { s with cx.evict := s.cx.evict.map (fun l => if l.port = p && l.addr = a then f l else l) }

/-- The state of a cached line changes; state I drops it. -/
def setLine (p a : Nat) (st : Mesi) (s : State) : State :=
  { s with cx.cohLines :=
      if st = .i then s.cx.cohLines.filter (fun l => !(l.port = p && l.addr = a))
      else s.cx.cohLines.map (fun l => if l.port = p && l.addr = a then { l with st := st } else l) }

/-- The 64 bytes of line a of port p's host. -/
def lineBytes (s : State) (p a : Nat) : List Byte := readBytes s (hostLoc p a) 64

/-- Answer a snoop: from the eviction buffer with RspIFwdM and its data, or RspIHitI where the buffer's line is already
Invalid (R298); else from the cache, a line that awaits its GO answering RspIHitI (R298). kept is the state left to a held
line, and the answers are for a line in M, and for one in E or S. -/
def snoop (p a : Nat) (kept : Mesi → Mesi) (ofM ofE ofS : String) (s : State) : State :=
  match evictOf s p a with
  | some l =>
    if l.st = .m then s |> emit (.d2h p "RspIFwdM" a l.data false) |> modEvict p a (fun l => { l with st := .i })
    else emit (.d2h p "RspIHitI" a [] false) s
  | none =>
    match cohState s p a with
    | .m => s |> emit (.d2h p ofM a (lineBytes s p a) false) |> setLine p a (kept .m)
    | .e => s |> emit (.d2h p ofE a [] false) |> setLine p a (kept .e)
    | .s => s |> emit (.d2h p ofS a [] false) |> setLine p a (kept .s)
    | _ => emit (.d2h p "RspIHitI" a [] false) s

/-- Whether the Hivik holds line a of port p, in the cache or in an eviction buffer. -/
def lineHeld (s : State) (p a : Nat) : Bool :=
  let st := cohState s p a
  st = .m || st = .e || st = .s || (evictOf s p a).elim false (fun l => l.st = .m)

/-- A snoop, and where it takes a line away, the watchers of the fences in it read them again (R299). -/
def snoopLine (p a : Nat) (kept : Mesi → Mesi) (ofM ofE ofS : String) (s : State) : State :=
  let t := snoop p a kept ofM ofE ofS s
  if lineHeld s p a && !lineHeld t p a then forAll (watchersAt t (hostLoc p a) 64) readWatcher t else t

/-- SNP_DATA, R298: a held line becomes shared. -/
def execSnpData (p addr : Nat) (s : State) : Host.Outcome State Fault Refusal :=
  .next (snoopLine p addr (fun _ => .s) "RspSFwdM" "RspSHitSE" "RspSHitSE" s)

/-- SNP_INV, R298 and R299: a held line becomes Invalid, and fences in it are read again. -/
def execSnpInv (p addr : Nat) (s : State) : Host.Outcome State Fault Refusal :=
  .next (snoopLine p addr (fun _ => .i) "RspIFwdM" "RspIHitSE" "RspIHitSE" s)

/-- SNP_CUR, R298: a held line keeps its state. -/
def execSnpCur (p addr : Nat) (s : State) : Host.Outcome State Fault Refusal :=
  .next (snoopLine p addr (fun x => x) "RspVFwdV" "RspVHitV" "RspVHitV" s)

/-- An eviction of line a of port p completes: its buffer is free (R298). -/
def endEvict (p a : Nat) (s : State) : State :=
  { s with cx.evict := s.cx.evict.filter (fun l => !(l.port = p && l.addr = a)) }

/-- GO_WRITEPULL, R298: the data message, with Bogus = 1 where a snoop took the line; requests for the line go on (R296). -/
def execGoWritePull (p addr : Nat) (s : State) : Host.Outcome State Fault Refusal :=
  .next (match evictOf s p addr with
    | some l => s |> endEvict p addr |> emit (.d2h p "Data" addr l.data (l.st ≠ .m)) |> rescan
    | none => s)

/-- GO_WRITEPULL_DROP, R298: GO_WritePull_Drop or GO-I; nothing is sent. -/
def execGoWritePullDrop (p addr : Nat) (s : State) : Host.Outcome State Fault Refusal :=
  .next (match evictOf s p addr with
    | some _ => s |> endEvict p addr |> rescan
    | none => s)

/-- A fill arrives: the line takes its GO's state and the host's data. -/
def takeFill (p a : Nat) (st : Mesi) (data : List Byte) (s : State) : State :=
  let s := s |> writeBytes (hostLoc p a) data |> setLine p a st
  { s with cx.cohLines := s.cx.cohLines.map (fun l => if l.port = p && l.addr = a then { l with data := data } else l) }

/-- CACHE_FILL_GO, R296 and R298: the fill is taken as its GO states, with the host's data, and the accesses that wait for the
line go on. -/
def execCacheFillGo (p addr : Nat) (st : Mesi) (data : List Byte) (s : State) : Host.Outcome State Fault Refusal :=
  .next (let was := cohState s p addr
    if (was = .fillS || was = .fillE) && st ≠ .fillS && st ≠ .fillE then
      s |> takeFill p addr st data |> forAll (watchersAt s (hostLoc p addr) 64) readWatcher |> rescan
    else s)

/-! ### HDM windows (R300, R301) -/

/-- The line of window k of port p at an offset: none beyond the window or the capacity behind it, which a vat store shrinks (R30,
R449), or where the window is not in force. -/
def hdmLine (s : State) (p k off : Nat) : Option Nat :=
  let w := hdmWin s p k
  let line := (field w.toNat 51 28 * 2 ^ 28 + off) / 64 * 64
  if w.msb && off < 2 ^ field w.toNat 5 0 && !paBeyond s line then some line else none

/-- Filter entries of other hosts with which a request of port p for a line conflicts: an exclusive copy with a shared
read, any copy with the others (R301). -/
def hdmHits (s : State) (p line : Nat) (any : Bool) : List Filt :=
  s.cx.filter.filter (fun f => f.port ≠ p && f.line = line && (any || f.excl))

/-- Record that port p may hold a line, as the most recently used entry (R301). -/
def holdLine (p line : Nat) (excl : Bool) (s : State) : State :=
  let old := (s.cx.filter.find? (fun f => f.port = p && f.line = line)).getD { port := p, line := line }
  { s with cx.filter := s.cx.filter.filter (fun f => !(f.port = p && f.line = line)) ++ [{ old with excl := excl }] }

/-- Whether port p's request needs a filter entry and none is free (R301). -/
def filterFull (s : State) (p line : Nat) : Bool :=
  2097152 ≤ s.cx.filter.length && !s.cx.filter.any (fun f => f.port = p && f.line = line)

/-- A host request that conflicts, needs an entry of a full filter, or goes to a stack at rate 0 waits; otherwise go (R301, R302,
R327). -/
def hdmServe (p off line : Nat) (read any : Bool) (go : State → State) (s : State) : State :=
  let hits := hdmHits s p line any
  if !hits.isEmpty then askHosts (.hdm p off) (hits.map (·, any)) s
  else if read && filterFull s p line then askHosts (.hdm p off) ((s.cx.filter.take 1).map (·, true)) s
  else if isHot s line then s
  else go s

/-- Answer a host's read of a line and record the copy. -/
def hdmRead (p off line : Nat) (excl : Bool) (s : State) : State :=
  hdmServe p off line true excl (fun s => s
    |> emit (.hdm p off (readBytes s line 64) (poisonedAt s line 64)) |> holdLine p line excl) s

/-- HDM_REQUEST, R300 and R301. A request that must wait changes nothing but what it asks of other hosts. -/
def execHdmRequest (p win off : Nat) (op : HdmOp) (s : State) : Host.Outcome State Fault Refusal :=
  .next (if !hostMode s p || !(s.hc p).cxl then s
    else match hdmLine s p win off with
      | none => s |> hcErr p 0x80 |> emit (.hdm p off [] true)
      | some line =>
        if !homeUp s (homeOf line) then emit (.hdm p off [] true) s
        else match op with
          | .readShared => hdmRead p off line false s
          | .readExclusive => hdmRead p off line true s
          | .write data => hdmServe p off line false true (fun s => s |> storeAt line data |> emit (.hdm p off [] false)) s)

/-- BIRSP, R301: a write-back is applied first; after BISnpInv the copy is gone, after BISnpData the host keeps it shared; what
waited goes on, and asks again where the copy left still conflicts. -/
def execBiRsp (p line : Nat) (wb : Option (List Byte)) (s : State) : Host.Outcome State Fault Refusal :=
  .next (match s.cx.filter.find? (fun f => f.port = p && f.line = line && f.snooping) with
    | none => s
    | some f =>
      let s := match wb with | some bs => storeAt line bs s | none => s
      rescan (if f.inv then dropFilter (fun g => g.port = p && g.line = line) s
      else forAll f.waiters releaseWaiter { s with cx.filter := s.cx.filter.map (fun g =>
          if g.port = p && g.line = line then { g with excl := false, snooping := false, waiters := [] } else g) }))

/-- BISNP_TIMEOUT, R302: the accesses that waited fail, a claim with FAIL = 1 (R324), a peer's request with TARGET_ERROR, another
host's with poison; the entry stays. -/
def execBiSnpTimeout (p line : Nat) (s : State) : Host.Outcome State Fault Refusal :=
  .next (match s.cx.filter.find? (fun f => f.port = p && f.line = line && f.snooping) with
    | none => s
    | some f =>
      { s with cx.filter := s.cx.filter.map (fun g =>
          if g.port = p && g.line = line then { g with snooping := false, waiters := [] } else g) }
      |> hcErr p 0x100 |> forAll f.waiters (fun o => ownerFails o .target))

/-! ### Far-memory ports (R303 to R306) -/

/-- FAR_LINK_UP, R303 and R305: an expander that trains as CXL brings the link up with a new key; firmware programs decoder 0 of
one that is a single logical device with HDM-H over its whole capacity, and goes no further with any other. -/
def execFarLinkUp (p : Nat) (x : Expander) (s : State) : Host.Outcome State Fault Refusal :=
  .next (let y := s.hc p
    if hostMode s p || !y.linkEn || y.safe || y.linkUp || !(s.rsh p).trained then s
    else if x.isCxl then
      s |> drawKey |> modHc p (fun y => { y with
            linkUp := true, cxl := true, rate := 6, width := 16, encKey := true, farOk := x.single && x.hdmH })
        |> when (x.single && x.hdmH) (emit (.far p "HDM_DECODER0" x.bytes))
    else hcErr p 0x200 s)

/-- FAR_MEDIA_READY, R303: CAPACITY in units of 256 MiB, at most 4 TiB, and READY. -/
def execFarMediaReady (p bytes : Nat) (s : State) : Host.Outcome State Fault Refusal :=
  .next (let x := s.hc p
    if hostMode s p || !x.linkUp || !x.farOk || x.ready then s
    else modHc p (fun x => { x with capacity := min 16384 (bytes / 2 ^ 28), ready := true }) s)

/-- The outstanding request of a tag toward a port. -/
def reqTo (s : State) (t : Tgt) (tag : Nat) : Option Req := s.lk.reqs.find? (fun r => r.tagged && r.tgt = t && r.tag = tag && r.sent)

/-- FAR_RESPONSE, R304: a DRS or NDR that is poisoned or in error fails its work; one without a request is discarded. -/
def execFarResponse (p tag : Nat) (ok : Bool) (s : State) : Host.Outcome State Fault Refusal :=
  .next (match reqTo s (.far p) tag with
    | none => s
    | some r => s |> dropTag (.far p) tag |> (fun s => if ok then ownerAnswered r.owner s else ownerFails r.owner .target s))

/-- FAR_TIMEOUT, R304. -/
def execFarTimeout (p tag : Nat) (s : State) : Host.Outcome State Fault Refusal :=
  .next (match reqTo s (.far p) tag with
    | none => s
    | some r => s |> dropTag (.far p) tag |> countFault (0xA00 + 8 * p + 1) |> ownerFails r.owner .target)

/-- FAR_LINK_DOWN, R306. -/
def execFarLinkDown (p : Nat) (s : State) : Host.Outcome State Fault Refusal :=
  .next (if !hostMode s p && (s.hc p).linkUp then hcDown p s else s)

/-! ### HDM_WIN (R300, R315, R320, R324) -/

/-- Bits of HDM_WIN that hold a field. -/
def hdmMask : W64 := 0x800FFFFFF000003F

/-- Whether a range may be exposed by port p: aligned, behind one Acdoic port of its wheel and within its capacity (R300). -/
def hdmRangeOk (s : State) (p : Nat) (w : W64) : Bool :=
  let n := field w.toNat 5 0
  let b := field w.toNat 51 28 * 2 ^ 28
  let q := b / 2 ^ 40
  28 ≤ n && n ≤ 40 && b % 2 ^ n = 0 && q < 4 && b % 2 ^ 40 + 2 ^ n ≤ acdCapacity s q && acdWheelOf s q = hcWheelOf s p

/-- Tell the die behind a window's range whether the window is in force (R320, R324). -/
def sendRange (p k : Nat) (w : W64) (on : Bool) (s : State) : State :=
  let b := field w.toNat 51 28 * 2 ^ 28
  let q := b / 2 ^ 40
  when (decide (q < 4) && (s.acd q).up)
    (sendAcd q 0x12 (2 * p + k) (b % 2 ^ 40) (BitVec.ofNat 64 (b2n on * 2 ^ 63 + field w.toNat 5 0))) s

/-- Write HDM_WIN[k] of port p; a write of VALID = 1 that breaks a condition of R300 is discarded. -/
def hdmWinWrite (p k : Nat) (v : W64) (s : State) : State :=
  let w := v &&& hdmMask
  let old := hdmWin s p k
  if w.msb && !hdmRangeOk s p w then s
  else s |> modHc p (fun x => if k = 0 then { x with hdm0 := w } else { x with hdm1 := w })
    |> when old.msb (sendRange p k old false) |> when w.msb (sendRange p k w true)

/-- HDM_WIN_WRITE, R300. -/
def execHdmWinWrite (f : Fn) (p k : Nat) (v : W64) (s : State) : Host.Outcome State Fault Refusal :=
  .next (if mayManage s f then hdmWinWrite p k v s else s)

end Sys2Proof.Machine
end

