-- ==== Sys2Proof/Machine/Peers.lean ====
section
/-! DEFINITION. The peer block: packets at the target, at a forwarding Hivik and at the issuer, lost nodes, collective
groups, the thermal hold, frames and sessions (R250 to R273, R345 to R348, R355). -/

namespace Sys2Proof.Machine

open Sys2Proof

/-! ### Arrival, forwarding and answers (R250, R253 to R257) -/

/-- The two qwords of a packet's header (R253). -/
def pktHeader (type : Nat) (k : Pkt) : Nat × Nat :=
  (type * 2 ^ 56 + k.tc * 2 ^ 54 + k.hops * 2 ^ 51 + k.dst * 2 ^ 38 + k.src * 2 ^ 25 + k.fdom * 2 ^ 13 + k.tag,
    k.len * 2 ^ 51 + b2n k.wide * 2 ^ 50 + k.atop * 2 ^ 45 + k.reason * 2 ^ 38 + k.offset)

/-- The bytes of a packet: its header, then its payload (R253). -/
def pktBytes (type : Nat) (k : Pkt) : List Byte :=
  natLe 8 (pktHeader type k).1 ++ natLe 8 (pktHeader type k).2 ++ k.payload

/-- TYPE and the packet that a header and a payload spell (R253); RETURN has no place in the header. -/
def pktOfHeader (q0 q1 : Nat) (payload : List Byte) : Nat × Pkt :=
  (field q0 63 56,
    { tc := field q0 55 54, hops := field q0 53 51, dst := field q0 50 38, src := field q0 37 25, fdom := field q0 24 13
      tag := field q0 12 0, len := field q1 63 51, wide := bitOf q1 50, atop := field q1 49 45, reason := field q1 44 38
      offset := field q1 37 0, payload := payload })

/-- Forward a packet for another node; one of any TYPE is answered with NAK UNREACHABLE without a port up, and with NAK HOP_LIMIT
beyond 5 links (R257). -/
def forwardPkt (type : Nat) (k : Pkt) (s : State) : State :=
  match (upPorts s k.dst).head? with
  | none => nakPkt 0x05 k s
  | some p =>
    if 4 ≤ k.hops then nakPkt 0x04 k s
    else s |> modPeerP p (fun x => { x with forwarded := x.forwarded + 1 }) |> sendPacket p type { k with hops := k.hops + 1 }

/-- A packet of a TYPE arrives at port p: served where it names this node, forwarded otherwise; nothing is carried while
the port is down or NODE_VALID is 0 (R250, R257). -/
def atNode (p type : Nat) (k : Pkt) (serve : State → State) (s : State) : State :=
  if !(s.peerP p).up || !s.pr.nodeValid then s
  else if k.dst = s.pr.nodeId then serve s else forwardPkt type k s

/-- RD_REQ, R251: read at the home; a read of a hot stack waits, but held bytes are served (R270). -/
def execRdReq (p : Nat) (k : Pkt) (s : State) : Host.Outcome State Fault Refusal := .next (atNode p 0x01 k (peerServe 0x01 k) s)

/-- WR, R251 and R270: applied at the home and acknowledged. -/
def execWr (p : Nat) (k : Pkt) (s : State) : Host.Outcome State Fault Refusal := .next (atNode p 0x03 k (peerServe 0x03 k) s)

/-- AT_REQ, R260: each operand is applied once. -/
def execAtReq (p : Nat) (k : Pkt) (s : State) : Host.Outcome State Fault Refusal := .next (atNode p 0x05 k (peerServe 0x05 k) s)

/-- JOURNAL_RECORD_EXPIRY, R260. -/
def execJournalRecordExpiry (q : Nat) (key : JKey) (s : State) : Host.Outcome State Fault Refusal :=
  .next { s with wk.peerJournals := s.wk.peerJournals.filter (fun j => !(j.1 = q && j.2.key = key)) }

/-! ### Answers at the issuer (R254, R255, R259, R263) -/

/-- The outstanding request that a response matches. -/
def reqOfPkt (s : State) (k : Pkt) (kind : ReqKind) : Option Req :=
  (reqTo s (.peer k.src) k.tag).bind (fun r => if r.kind = kind then some r else none)

/-- RD_DATA, R259: the data of a peer read is at hand, and what waited for it goes on (R40). -/
def takeData (k : Pkt) (s : State) : State :=
  match reqOfPkt s k .read with
  | none => s
  | some r => s |> dropTag r.tgt r.tag |> writeBytes r.addr k.payload |> ownerAnswered r.owner

/-- RD_DATA, R259. -/
def execRdData (p : Nat) (k : Pkt) (s : State) : Host.Outcome State Fault Refusal := .next (atNode p 0x02 k (takeData k) s)

/-- WR_ACK, R254: a status or head word that it answers is in place (R70). -/
def execWrAck (p : Nat) (k : Pkt) (s : State) : Host.Outcome State Fault Refusal :=
  .next (atNode p 0x04 k (fun s => match reqOfPkt s k .write with
    | some r => s |> dropTag r.tgt r.tag |> ownerAnswered r.owner
    | none => s) s)

/-- Operands of an answered AT_REQ count as applied at the issuer, and RETURN writes the old value (R102, R116, R260); the
fence of a LAUNCH that the die has completed ends its entry (R112). -/
def takeAtResp (k : Pkt) (s : State) : State :=
  match reqOfPkt s k .atomic with
  | none => s
  | some r =>
    let s := dropTag r.tgt r.tag s
    match r.owner with
    | .seg h i j =>
      match entryOf s h i with
      | none => s
      | some e =>
        if e.phase ≠ .started then s
        else if r.epoch ≠ (s.hoop h).epoch then toWhey h s
        else if e.opcode = 0x0E then
          let q := field e.subop 3 0
          match launchTag s q h i with
          | some t => endLaunch q t .ok s
          | none => s
        else if e.opcode = 0x09 then
          let n := (r.len - 16) / (if e.atop = 0x03 then 2 * e.width else e.width) * e.width
          s |> addDone h i j n |> when (e.flag 1) (vstore (s.hoop h).vat .write e.src.toNat (k.payload.take e.width))
        else s
    | _ => s

/-- AT_RESP, R260. -/
def execAtResp (p : Nat) (k : Pkt) (s : State) : Host.Outcome State Fault Refusal := .next (atNode p 0x06 k (takeAtResp k) s)

/-- The outstanding peer request of a tag, whatever node answers: a forwarding Hivik may NAK it (R257). -/
def peerReq (s : State) (tag : Nat) : Option Req :=
  s.lk.reqs.find? (fun r => r.tagged && r.tag = tag && (match r.tgt with | .peer _ => true | _ => false))

/-- Change the requests of a tag toward a node. -/
def modReq (t : Tgt) (tag : Nat) (f : Req → Req) (s : State) : State :=
  { s with lk.reqs := s.lk.reqs.map (fun r => if r.tagged && r.tgt = t && r.tag = tag then f r else r) }

/-- A NAK at the issuer, by REASON (R255). -/
def takeNak (k : Pkt) (s : State) : State :=
  match peerReq s k.tag with
  | none => s
  | some r =>
    match k.reason with
    | 0x04 => (match r.tgt with | .peer n => s |> modReq r.tgt r.tag (fun r => { r with held := true }) |> loseNode n | _ => s)
    | 0x05 => (match r.tgt with | .peer n => s |> modReq r.tgt r.tag (fun r => { r with held := true }) |> loseNode n | _ => s)
    | 0x06 => s |> modReq r.tgt r.tag (fun r => { r with held := true }) |> giveTags
    | 0x09 => s |> modReq r.tgt r.tag (fun r => { r with sent := false }) |> giveTags
    | _ => s |> dropTag r.tgt r.tag |> ownerFails r.owner .target

/-- NAK, R255. -/
def execNak (p : Nat) (k : Pkt) (s : State) : Host.Outcome State Fault Refusal := .next (atNode p 0x07 k (takeNak k) s)

/-- Send a request's packet again, through the first hop that its route has now (R260, R262, R270). -/
def resend (r : Req) (s : State) : State :=
  match r.tgt, r.pkt with
  | .peer d, some k =>
    match nextHop s r.wheel d with
    | some p => s |> modReq r.tgt r.tag (fun r => { r with held := false, sent := true, hop := some p }) |> sendPacket p (typeOf r) k
    | none => s
  | _, _ => s

/-- JOURNAL_RETRY, R260. -/
def execJournalRetry (tag : Nat) (s : State) : Host.Outcome State Fault Refusal :=
  .next (match peerReq s tag with
    | some r => if r.sent then s else resend r s
    | none => s)

/-- REQ_TIMEOUT, R263: the node is lost; the port that carried the request counts a timeout (R380). A request NAKed with
HOLD_FULL or JOURNAL_BUSY has had its response. -/
def execReqTimeout (tag : Nat) (s : State) : Host.Outcome State Fault Refusal :=
  .next (match peerReq s tag with
    | some r =>
      if !r.sent || r.held then s
      else match r.tgt with
        | .peer n => s |> (fun s => match r.hop with | some p => countFault (0xA80 + 8 * p + 3) s | none => s) |> loseNode n
        | _ => s
    | none => s)

/-! ### Collective groups (R265 to R268) -/

/-- The enabled group with a COLL_TAG. -/
def groupTagged (s : State) (k : Pkt) : Option Nat :=
  (s.pr.colls.find? (fun g => g.2.enable && g.2.tag = field k.offset 37 30)).map (·.1)

/-- READY sets once every child has joined and the member's own JOIN is acknowledged (R265), unless the group has left READY since
it was enabled (R268). -/
def tryReady (g : Nat) (s : State) : State :=
  modColl g (fun x => { x with
    ready := x.ready || (x.enable && !x.left && decide (x.children ≤ x.joins.length) && (x.root || x.joinAck)) }) s

/-- JOIN, R265. -/
def execJoin (p : Nat) (k : Pkt) (s : State) : Host.Outcome State Fault Refusal :=
  .next (atNode p 0x13 k (fun s => match groupTagged s k with
    | some g =>
      s |> modColl g (fun x => { x with joins := if x.joins.contains k.src then x.joins else x.joins ++ [k.src] }) |> tryReady g
    | none => s) s)

/-- JOIN_ACKNOWLEDGED, R265. -/
def execJoinAcknowledged (g : Nat) (s : State) : Host.Outcome State Fault Refusal :=
  .next (if (s.coll g).enable && !(s.coll g).root then s |> modColl g (fun x => { x with joinAck := true }) |> tryReady g else s)

/-- The incomplete entries of a group's current instance: those before its closing entry, and that entry once it runs. -/
def openEntries (s : State) (g : Nat) : List Entry :=
  let l := (s.hoop (s.coll g).hoop).entries
  l.takeWhile (fun e => !e.fence) ++ ((l.find? (·.fence)).toList.filter (fun e => e.phase = .started))

/-- End the incomplete entries of a group's instance: running ones through their segments, others before they start. -/
def endOpen (g : Nat) (c : FailCause) (st : Status) (s : State) : State :=
  let h := (s.coll g).hoop
  forAll (openEntries s g) (fun e t =>
    if e.phase = .started then t |> disarmWait h e.idx |> forAll (List.range e.segs.length) (fun j => failLive h e.idx j c)
    else if e.phase = .finishing || e.phase = .written || e.phase = .diverted then t
    else failEntry h e.idx st false t) s

/-! ### The thermal hold (R269 to R272) -/

/-- The THERMAL_HOLD record of group g for a hold of a node: code 1 start, 2 end, 3 timeout; us its duration (R272). -/
def holdRec (s : State) (g origin code us : Nat) : EvRec :=
  { cookie := 0, kind := 0x06, status := if code = 3 then 0x41 else 0, source := origin * 65536 + g
    fn := BitVec.ofNat 16 (funcId (s.hoop (s.coll g).hoop).fn), vat := 0xFFFF, detail := code * 2 ^ 30 + us % 2 ^ 30
    isrc := some (20544 + (s.coll g).wheel) }

/-- Post THERMAL_HOLD to a group's event hoop. -/
def postHold (g origin code us : Nat) (s : State) : State := postRec (s.coll g).evq (holdRec s g origin code us) s

/-- Post GUARANTEE_YIELDED for a hold, once per hold (R269, R426 THERMAL). -/
def yieldThermal (g origin : Nat) (s : State) : State :=
  let w := (s.coll g).wheel
  s |> modWheel w (fun x => { x with yields := tabDel x.yields (0x01 * 65536 + g) })
    |> postYield (s.coll g).evq w 4 1 0x01 g origin

/-- Send HOLD of an origin to a group's parent and children other than the origin and the node at the other end of the port
through which it came (R269). SRC_NODE names the origin, so that each origin and beacon is told apart, and a sender more than
one link away cannot be told from it: such a sender gets the HOLD back, and takes it once (DEDUCED, log entry 138). -/
def sendHold (g origin us : Nat) (fin : Bool) (from_ : Option Nat) (s : State) : State :=
  let x := s.coll g
  let sender := from_.map (fun p => (s.peerP p).farNode)
  forAll (((if x.root then [] else [x.parent]) ++ x.joins).filter (fun n => n ≠ origin && some n ≠ sender)) (fun n t =>
    match firstHop t x.wheel n with
    | some p => sendPacket p 0x10 { collPkt t g n (us * 2 ^ 32 + b2n fin) 8 with src := origin } t
    | none => t) s

/-- Groups of the wheel that holds Acdoic port q (R269). -/
def holdGroups (s : State) (q : Nat) : List Nat :=
  (s.pr.colls.filter (fun g => g.2.enable && g.2.wheel = acdWheelOf s q)).map (·.1)

/-- The hold space of port q's quadrant takes free contents: what it holds during and after a hold is undefined (R133, R410). -/
def spoilHold (q : Nat) (s : State) : State :=
  let w := acdWheelOf s q
  let n := (s.wheel w).holdCells * 65536
  forAll ((List.range 8).filter (fun k => sliceWheelOf s (8 * q + k) = w)) (fun k t =>
    t |> takeFree n |> storeAt (scratchLoc ((8 * q + k) * 2 ^ 22 + 2 ^ 22 - n)) (freeBytes n t)) s

/-- A thermal hold of port q begins, unless one lasts: records and the first HOLD (R269). -/
def startHold (q : Nat) (s : State) : State :=
  if (s.acd q).holdSince.isSome then s
  else s |> modAcd q (fun p => { p with holdSince := some s.tm.deviceTime, holdTimedOut := false }) |> spoilHold q
    |> forAll (holdGroups s q) (fun g t => t
      |> modColl g (fun x => { x with holdOrigin := tabSet x.holdOrigin s.pr.nodeId 0 })
      |> postHold g s.pr.nodeId 1 0 |> sendHold g s.pr.nodeId 0 false none)

/-- Age of port q's hold in µs. -/
def holdAge (s : State) (q : Nat) : Nat := (s.tm.deviceTime - (s.acd q).holdSince.getD s.tm.deviceTime) / 1000

/-- Port q's hold ends once no stack's rate is limited and the hold space is empty (R269, R270, R327; that a hold lasts while a
limit does is DEDUCED: log entry 74). -/
def tryEndHold (q : Nat) (s : State) : State :=
  if (s.acd q).holdSince.isNone || (s.acd q).rates.any (fun r => r.2 ≠ 0xFF) || !(s.acd q).heldWr.isEmpty then s
  else
    let us := holdAge s q
    s |> modAcd q (fun p => { p with holdSince := none, holdTimedOut := false }) |> spoilHold q
      |> forAll (holdGroups s q) (fun g t => t
        |> when (tabHas (t.coll g).holdOrigin s.pr.nodeId) (postHold g s.pr.nodeId 2 us)
        |> modColl g (fun x => { x with holdOrigin := tabDel x.holdOrigin s.pr.nodeId })
        |> sendHold g s.pr.nodeId us true none)

/-- The holds that a group knows of close with a timeout record (R269). -/
def closeHolds (g : Nat) (s : State) : State :=
  s |> forAll (s.coll g).holdOrigin (fun o => postHold g o.1 3 o.2) |> modColl g (fun x => { x with holdOrigin := [] })

/-- An agreed THERMAL_TIMEOUT ends the incomplete entries of the instance (R271). -/
def endHeld (g : Nat) (s : State) : State :=
  if (s.coll g).agreed = some 0x41 then endOpen g .heldOut .thermalTimeout s else s

/-- The hold of port q as its origin's groups know it: its duration so far (R272). -/
def ageHold (q g : Nat) (s : State) : State :=
  let l := (s.coll g).holdOrigin
  if tabHas l s.pr.nodeId then modColl g (fun x => { x with holdOrigin := tabSet l s.pr.nodeId (holdAge s q) }) s else s

/-- HOLD_BEACON, R269: every 10 µs while the hold lasts. -/
def execHoldBeacon (q : Nat) (s : State) : Host.Outcome State Fault Refusal :=
  .next (if (s.acd q).holdSince.isNone then s
    else forAll (holdGroups s q) (fun g t => t |> ageHold q g |> sendHold g s.pr.nodeId (holdAge s q) false none |> endHeld g) s)

/-- HOLD_TIMEOUT, R271: THERMAL_TIMEOUT is reported for each group's current instance. -/
def execHoldTimeout (q : Nat) (s : State) : Host.Outcome State Fault Refusal :=
  .next (if (s.acd q).holdSince.isNone || (s.acd q).holdTimedOut then s
    else s |> modAcd q (fun p => { p with holdTimedOut := true })
      |> forAll (holdGroups s q) (fun g t => t |> ageHold q g |> closeHolds g |> ownReport g 0x41 |> collProgress g |> endHeld g))

/-- HOLD_SPACE_DRAIN, R270: what is held for stacks whose rate permits it is written, and the hold may end. -/
def execHoldSpaceDrain (q : Nat) (s : State) : Host.Outcome State Fault Refusal :=
  .next (if (s.acd q).up then
      s |> modAcd q (fun p => { p with heldWr := p.heldWr.filter (fun w => rateOf s q (stackOf s q w.1) = 0) }) |> tryEndHold q
        |> serveAgain
    else s)

/-- A HOLD for a group of this node: writes NAKed with HOLD_FULL go again; once for each origin and beacon the HOLD is relayed, and
its first and last beacons post their records (R269, R270). -/
def takeHold (p : Nat) (k : Pkt) (g : Nat) (s : State) : State :=
  let x := s.coll g
  let v := leNat k.payload
  let us := field v 63 32
  let known := tabHas x.holdOrigin k.src
  let fin := bitOf v 0
  let s := forAll (s.lk.reqs.filter (·.held)) resend s
  if (fin && !known) || (!fin && known && tabGet 0 x.holdOrigin k.src = us) then s
  else
    let s := sendHold g k.src us fin (some p) s
    if fin then
      s |> postHold g k.src 2 us |> modColl g (fun x => { x with holdOrigin := tabDel x.holdOrigin k.src })
    else s |> modColl g (fun x => { x with holdOrigin := tabSet x.holdOrigin k.src us })
      |> when (!known) (fun s => s |> postHold g k.src 1 0 |> yieldThermal g k.src)

/-- HOLD, R269. -/
def execHold (p : Nat) (k : Pkt) (s : State) : Host.Outcome State Fault Refusal :=
  .next (atNode p 0x10 k (fun s => match groupTagged s k with
    | some g => if k.src = s.pr.nodeId then s else takeHold p k g s
    | none => s) s)

/-! ### Agreement packets (R266 to R268) -/

/-- Whether a packet belongs to a group's current instance. -/
def sameInst (s : State) (g : Nat) (k : Pkt) : Bool := field k.offset 29 0 = curInst (s.coll g)

/-- STEP_DONE, R266: a child's report is collected. -/
def execStepDone (p : Nat) (k : Pkt) (s : State) : Host.Outcome State Fault Refusal :=
  .next (atNode p 0x11 k (fun s => match groupTagged s k with
    | some g =>
      if sameInst s g k then
        s |> modColl g (fun x => { x with reports := tabSet x.reports k.src (leNat (k.payload.take 2)) })
          |> when (leNat (k.payload.take 2) ≠ 0 && !tabHas (s.coll g).reports s.pr.nodeId) (ownReport g 0)
          |> collProgress g |> endHeld g
      else s
    | none => s) s)

/-- OUTCOME, R266: the agreed status is passed to the children and ends the closing entry; THERMAL_TIMEOUT also ends the
incomplete entries and closes the holds known (R269, R271). -/
def execOutcome (p : Nat) (k : Pkt) (s : State) : Host.Outcome State Fault Refusal :=
  .next (atNode p 0x12 k (fun s => match groupTagged s k with
    | some g =>
      let c := agreeOf [leNat (k.payload.take 2)]
      if (s.coll g).root || !sameInst s g k || (s.coll g).agreed.isSome then s
      else s |> forAll (s.coll g).joins (fun n => sendColl 0x12 g n c 8)
        |> modColl g (fun x => { x with agreed := some c }) |> endHeld g |> when (c = 0x41) (closeHolds g) |> collProgress g
    | none => s) s)

/-- Whether a piece of work is that of an entry of hoop h. -/
def workOf (s : State) (h : Nat) : Owner → Bool
  | .seg h' _ _ => h' = h
  | .input h' _ => h' = h
  | .push h' _ => h' = h
  | .status h' _ => h' = h
  | .watcher w => (s.watcher w).waits.any (fun x => x.hoop = h)
  | .poll k => (s.pollWait k).waits.any (fun x => x.hoop = h)
  | _ => false

/-- Whether a wait of hoop h has its fence at another node. -/
def fenceAtPeer (s : State) (h : Nat) : Bool :=
  (s.wk.watchers ++ s.wk.polls).any (fun w => w.2.waits.any (fun x => x.hoop = h) &&
    (match lookup s w.2.vat w.2.va.toNat .read with
      | .ok pa => (match homeOf pa with | .peer _ => true | _ => false)
      | _ => false))

/-- Whether an entry of a group's hoop waits on a peer: a request outstanding, a fence there, or a closing entry without
agreement. -/
def waitsOnPeer (s : State) (g : Nat) : Bool :=
  (s.coll g).closing.isSome || fenceAtPeer s (s.coll g).hoop || s.lk.reqs.any (fun r => match r.tgt with
    | .peer _ => workOf s (s.coll g).hoop r.owner
    | _ => false)

/-- PROGRESS_TIMEOUT, R268: the instance's incomplete entries end as if the silent peers were lost; the member reports
PEER_LOST, or ends its closing entry so where its parent cannot be reached or has stayed silent; the group leaves READY. -/
def execProgressTimeout (g : Nat) (s : State) : Host.Outcome State Fault Refusal :=
  .next (let x := s.coll g
    if !x.enable || !waitsOnPeer s g then s
    else
      let h := x.hoop
      let again := !x.ready
      let s := s |> failReqs (fun r => match r.tgt with
            | .peer _ => workOf s h r.owner
            | _ => false) (fun r => .peerLost (r.sent && !r.held))
        |> endOpen g (.peerLost false) .peerLost |> closeHolds g |> ownReport g 0x40 |> collProgress g
      let cut := !x.root && ((firstHop s x.wheel x.parent).isNone || again)
      s |> when (cut && (s.coll g).agreed.isNone) (fun s => s |> modColl g (fun x => { x with agreed := some 0x40 }) |> collProgress g)
        |> modColl g (fun x => { x with ready := false, left := true, joins := [], joinAck := false }))

/-! ### COLL_GROUP and ROUTE (R257, R265, R273) -/

/-- Bits of COLL_GROUP qword 0 that software writes. -/
def collMask : W64 := 0x8FFFFFFFFFFFFFF0

/-- Whether f may write group g with the value v: the manager of the wheel that the entry names (R273). -/
def collWriter (s : State) (f : Fn) (g : Nat) (v : W64) : Bool :=
  !(s.fnS f).dstate3 && regManager s f (if (s.coll g).enable then (s.coll g).wheel else field v.toNat 7 4)

/-- Write COLL_GROUP qword 0: fields while ENABLE is 0; ENABLE 1 starts joining; ENABLE 0 ends the group once its hoop is
idle (R265, R273). -/
def collWrite (g : Nat) (v : W64) (s : State) : State :=
  let x := s.coll g
  if !x.enable then
    let s := modColl g (fun x => { q0 := v &&& collMask, inst := if v.msb then 0 else x.inst }) s
    if v.msb then s |> when (!(s.coll g).root) (sendColl 0x13 g (s.coll g).parent 0 0) |> tryReady g else s
  else if v.msb then s
  else if !(s.hoop x.hoop).present || (s.hoop x.hoop).idle then endGroup g s
  else modColl g (fun x => { x with ending := true }) s

/-- COLL_GROUP_ENABLE, R265. -/
def execCollGroupEnable (f : Fn) (g : Nat) (v : W64) (s : State) : Host.Outcome State Fault Refusal :=
  .next (if collWriter s f g (v ||| 0x8000000000000000) then collWrite g (v ||| 0x8000000000000000) s else s)

/-- COLL_GROUP_DISABLE, R273. -/
def execCollGroupDisable (f : Fn) (g : Nat) (s : State) : Host.Outcome State Fault Refusal :=
  .next (if (s.coll g).enable && collWriter s f g 0 then collWrite g 0 s else s)

/-- Write ROUTE[n]: it takes effect for later packets and clears LOST; a node left without a port that is up is lost again
(R262, R263); requests that wait for a first hop go out. -/
def routeWrite (n : Nat) (v : W64) (s : State) : State :=
  let s := modRoute n (fun _ => { mask := v.setWidth 16, links := field v.toNat 19 16, lost := false }) s
  if (portsUp s n).isEmpty then loseNode n s else giveTags s

/-- ROUTE_WRITE, R262. -/
def execRouteWrite (f : Fn) (n : Nat) (v : W64) (s : State) : Host.Outcome State Fault Refusal :=
  .next (if mayManage s f then routeWrite n v s else s)

/-! ### Frames (R345 to R348) -/

/-- Whether TYPE is one of R254. -/
def typeKnown (t : Nat) : Bool := (1 ≤ t && t ≤ 7) || (0x10 ≤ t && t ≤ 0x13)

/-- The acknowledgement and the credits of a frame (R345, R346). -/
def frameTrailer (f : Frame) (x : PeerPort) : PeerPort :=
  let c := 5 * f.credTc + f.credHop
  { x with
    ackd := f.ack + 1, replay := x.replay.filter (fun n => (n - f.ack - 1).toNat < 2 ^ 31)
    credits := if f.credHop < 5 then tabSet x.credits c (min 256 (tabGet 256 x.credits c + f.cred)) else x.credits }

/-- PEER_FRAME, R345 to R348: a frame whose CRC fails or that is out of sequence is answered with NAK; one whose tag fails
takes the port down; one in sequence delivers its packets, those of reserved TYPE being counted (R254); the credits that it
returns let packets that wait go out (R256). -/
def execPeerFrame (p : Nat) (f : Frame) (s : State) : Host.Outcome State Fault Refusal :=
  .next (let x := s.peerP p
    if !x.up then s
    else if !f.crcOk then emit (.frameNak p x.rxSeq) s
    else if !f.tagOk then s |> peerDown p |> rshErr (16 + p) 0x40 |> countFault (0xA80 + 8 * p + 2)
    else if !f.idle && f.seq ≠ x.rxSeq then emit (.frameNak p x.rxSeq) s
    else s
      |> modPeerP p (fun x => { frameTrailer f x with
          rxSeq := if f.idle then x.rxSeq else x.rxSeq + 1
          badType := min 65535 (x.badType + (f.types.filter (fun t => !typeKnown t)).length) })
      |> drainPackets p x.txq.length
      |> when f.nak (fun s => s |> emit (.frameReplay p (f.ack + 1)) |> countFault (0xA80 + 8 * p + 1)))

/-- FRAME_REPLAY_TIMEOUT, R347: ACK has not advanced for 4 µs while frames are unacknowledged. -/
def execFrameReplayTimeout (p : Nat) (s : State) : Host.Outcome State Fault Refusal :=
  .next (let x := s.peerP p
    if x.up && !x.replay.isEmpty then s |> emit (.frameReplay p (x.replay.headD x.ackd)) |> countFault (0xA80 + 8 * p + 1) else s)

/-- REPLAY_STUCK, R347: the link goes down. -/
def execReplayStuck (p : Nat) (s : State) : Host.Outcome State Fault Refusal :=
  .next (if (s.peerP p).up then s |> peerDown p |> rshErr (16 + p) 0x20 else s)

/-! ### Sessions and ports (R261, R262, R355) -/

/-- PEER_KEY_RENEWAL, R261 and R348. -/
def execPeerKeyRenewal (p : Nat) (s : State) : Host.Outcome State Fault Refusal :=
  .next (if (s.peerP p).up then s |> drawKey |> modPeerP p (fun x => { x with keyPhase := !x.keyPhase }) else s)

/-- Every receive buffer's credit, returned once the session holds (R346). -/
def fullCredits : List (Nat × Nat) := (List.range 20).map (·, 256)

/-- PEER_SESSION_ESTABLISHED, R261: a far end that fails authentication, or shows the local NODE_ID, leaves the port down. -/
def execPeerSessionEstablished (p node : Nat) (authOk : Bool) (s : State) : Host.Outcome State Fault Refusal :=
  .next (let x := s.peerP p
    if !x.en || x.up || x.safe || !(s.rsh (16 + p)).trained then s
    else if !authOk then countFault (0xA80 + 8 * p + 2) s
    else if node = s.pr.nodeId then s
    else s |> drawKey |> modPeerP p (fun x => { x with
        up := true, farNode := node, keyHeld := true, keyPhase := false, txSeq := 0, rxSeq := 0, ackd := 0
        replay := [], credits := fullCredits })
      |> giveTags)

/-- PEER_LINK_DOWN, R262 and R263. -/
def execPeerLinkDown (p : Nat) (s : State) : Host.Outcome State Fault Refusal :=
  .next (if (s.peerP p).up || (s.rsh (16 + p)).trained then peerDown p s else s)

/-- RSH_CTRL.EN of peer port p becomes 1; without a valid calibration record the port does not start (R355). -/
def peerEnable (p : Nat) (s : State) : State :=
  if (s.peerP p).en || s.tm.recovery then s
  else { s with st.cfgDirty := true } |> modPeerP p (fun x => { x with en := true })
    |> when (!s.st.calValid.contains (16 + p)) (rshErr (16 + p) 0x2)

/-- RSH_CTRL.EN of peer port p becomes 0: the port goes down (R262). -/
def peerDisable (p : Nat) (s : State) : State :=
  if !(s.peerP p).en then s
  else { s with st.cfgDirty := true } |> modPeerP p (fun x => { x with en := false }) |> peerDown p

/-- PEER_PORT_ENABLE, R355. -/
def execPeerPortEnable (f : Fn) (p : Nat) (s : State) : Host.Outcome State Fault Refusal :=
  .next (if mayManage s f then peerEnable p s else s)

/-- PEER_PORT_DISABLE, R262. -/
def execPeerPortDisable (f : Fn) (p : Nat) (s : State) : Host.Outcome State Fault Refusal :=
  .next (if mayManage s f then peerDisable p s else s)

end Sys2Proof.Machine
end

