-- ==== Sys2Proof/Machine/Acdoic.lean ====
section
/-! DEFINITION. Acdoic die-to-die ports: training, flits, modules, responses, launches, notices and claims (R311 to R329,
R112, R269, R449). -/

namespace Sys2Proof.Machine

open Sys2Proof

/-- Set bits of ACD_ERR of port q. -/
def acdErr (q : Nat) (bits : BitVec 8) (s : State) : State := modAcd q (fun p => { p with err := p.err ||| bits }) s

/-- Rennet source k of port q (R380). -/
def acdSrc (q k : Nat) : Nat := 0xB00 + 16 * q + k

/-! ### Training (R313, R315, R316) -/

/-- Whether DIE_PARAMS lies in the ranges of R316. -/
def paramsOk (w0 w1 w2 : Nat) : Bool :=
  let sp := field w0 51 44
  let d := field w0 43 40
  let t := field w0 39 28
  30 ≤ field w0 63 56 && field w0 63 56 ≤ 37 && 1 ≤ field w0 55 52 && field w0 55 52 ≤ 8 && sp ≠ 0 && 1 ≤ d && d ≤ 8 &&
    bitOf sp (d - 1) && t % 32 = 0 && 32 ≤ t && t ≤ 4064 && field w0 27 0 = 0 &&
    field w1 63 32 ≠ 0 && 128 ≤ field w1 31 20 && 16 ≤ field w1 19 8 && field w1 7 0 = 16 && w2 = 0

/-- The port with DIE_PARAMS accepted: up on every module that is not out of the stripe for good, with full credits, new
sequence numbers and no rate limited (R315 to R318, R327). -/
def trained (w0 w1 : Nat) (p : AcdPort) : AcdPort :=
  { p with
    training := false, retrain := false, up := true, paramsValid := true, modules := ~~~ p.dead
    stackLog2 := field w0 63 56, stackCount := field w0 55 52, splitMask := BitVec.ofNat 8 (field w0 51 44)
    defSplit := field w0 43 40, maxThreads := field w0 39 28, onchip := field w1 63 32
    reqSize := 16 * field w1 31 20, reqCred := 16 * field w1 31 20
    ctlSize := 16 * field w1 19 8, ctlCred := 16 * field w1 19 8
    ntcFree := 1024, credRet := 0, txSeq := 0, rxSeq := 0, ackd := 0, replay := [], rates := [] }

/-- Training fails: the port is down, with BAD_PARAMS (R315). -/
def trainFails (q : Nat) (s : State) : State :=
  s |> modAcd q (fun p => { p with training := false, retrain := false, up := false }) |> acdErr q 0x20

/-- HDM_RANGE for every window in force behind port q (R315 step 5). -/
def sendRanges (q : Nat) (s : State) : State :=
  forAll (List.range 32) (fun i t =>
    let w := hdmWin t (i / 2) (i % 2)
    when (w.msb && field w.toNat 51 28 * 2 ^ 28 / 2 ^ 40 = q) (sendRange (i / 2) (i % 2) w true) t) s

/-- A port that comes up takes a copy of the vat store while fewer than two ports hold one (R449). -/
def placeStore (q : Nat) (s : State) : State :=
  if s.st.vatStore.length < 2 && !s.st.vatStore.contains q then { s with st.vatStore := s.st.vatStore ++ [q] } else s

/-- DIE_PARAMS, R316. -/
def execDieParams (q : Nat) (w0 w1 w2 : W64) (s : State) : Host.Outcome State Fault Refusal :=
  .next (if !(s.acd q).training then s
    else if paramsOk w0.toNat w1.toNat w2.toNat && 8 ≤ (bitsSet 16 (~~~ (s.acd q).dead).toNat).length then
      s |> modAcd q (trained w0.toNat w1.toNat) |> placeStore q |> sendRanges q
    else trainFails q s)

/-- ACD_TRAIN_TIMEOUT, R315. -/
def execAcdTrainTimeout (q : Nat) (s : State) : Host.Outcome State Fault Refusal :=
  .next (if (s.acd q).training then trainFails q s else s)

/-! ### Flits and modules (R314, R317, R318, R326) -/

/-- The acknowledgement and credits of a flit taken in order, and its NTC slots, drained at once (R317, R318). -/
def flitTrailer (f : Flit) (p : AcdPort) : AcdPort :=
  { p with
    rxSeq := p.rxSeq + 1, ackd := f.ack + 1, replay := p.replay.filter (fun n => (n - f.ack - 1).toNat < 2 ^ 15)
    ctlCred := if f.credVc = 0 then min p.ctlSize (p.ctlCred + f.cred) else p.ctlCred
    reqCred := if f.credVc = 2 then min p.reqSize (p.reqCred + f.cred) else p.reqCred
    credRet := (p.credRet + f.ntcSlots) % 2 ^ 14 }

/-- ACD_FLIT, R317: a flit with a bad CRC or out of sequence is answered with NAK; a NAK makes the port replay. -/
def execAcdFlit (q : Nat) (f : Flit) (s : State) : Host.Outcome State Fault Refusal :=
  .next (let p := s.acd q
    if !p.up then s
    else if !f.crcOk || f.seq ≠ p.rxSeq then emit (.acdNak q p.rxSeq) s
    else s |> modAcd q (flitTrailer f)
      |> when f.nak (fun s => s |> emit (.acdReplay q (f.ack + 1)) |> acdErr q 0x2 |> countFault (acdSrc q 2)))

/-- The port's own failure drives it into its safe state (R326). -/
def acdFails (q : Nat) (s : State) : State := s |> severeFault (acdSrc q 0) |> unitSafe (32 + q)

/-- ACD_REPLAY_TIMEOUT, R326. -/
def execAcdReplayTimeout (q : Nat) (s : State) : Host.Outcome State Fault Refusal :=
  .next (if (s.acd q).up then acdFails q s else s)

/-- Modules in the stripe. -/
def modulesUp (p : AcdPort) : Nat := (bitsSet 16 p.modules.toNat).length

/-- ACD_LANE_FAILURE, R314: the module leaves the stripe, for good without a redundant lane; fewer than 8 modules drive the
port into its safe state. -/
def execAcdLaneFailure (q m : Nat) (spareLeft : Bool) (s : State) : Host.Outcome State Fault Refusal :=
  .next (if !(s.acd q).up || !(s.acd q).modules.getLsbD m then s
    else
      let bit := BitVec.ofNat 16 (2 ^ m)
      let s := s |> modAcd q (fun p => { p with
            modules := p.modules &&& ~~~ bit, dead := if spareLeft then p.dead else p.dead ||| bit })
        |> when (!spareLeft) (acdErr q 0x4) |> rennetEvent (acdSrc q 1) false true spareLeft false []
      when (decide (modulesUp (s.acd q) < 8)) (acdFails q) s)

/-- ACD_MODULE_REJOIN, R314: a module retrained with a redundant lane rejoins. -/
def execAcdModuleRejoin (q m : Nat) (s : State) : Host.Outcome State Fault Refusal :=
  .next (let p := s.acd q
    if !p.up || p.modules.getLsbD m || p.dead.getLsbD m || 16 ≤ m then s
    else modAcd q (fun p => { p with
      modules := p.modules ||| BitVec.ofNat 16 (2 ^ m), repaired := tabSet p.repaired m (min 15 (tabGet 0 p.repaired m + 1)) }) s)

/-! ### Responses (R320, R321, R323, R326) -/

/-- The outstanding request of a kind that a response of port q names. -/
def acdReq (s : State) (q tag : Nat) (k : ReqKind) : Option Req :=
  (reqTo s (.acd q) tag).bind (fun r => if r.kind = k then some r else none)

/-- A response answers a request of a kind: it is no longer outstanding. -/
def acdAnswer (q tag : Nat) (k : ReqKind) (f : Req → State → State) (s : State) : State :=
  match acdReq s q tag k with
  | some r => s |> dropTag (.acd q) tag |> f r
  | none => s

/-- ACD_RD_DATA, R320. -/
def execAcdRdData (q tag : Nat) (poisoned : Bool) (s : State) : Host.Outcome State Fault Refusal :=
  .next (acdAnswer q tag .read (fun r s => if poisoned then ownerFails r.owner .target s else ownerAnswered r.owner s) s)

/-- ACD_WR_ACK, R321. -/
def execAcdWrAck (q tag : Nat) (s : State) : Host.Outcome State Fault Refusal :=
  .next (acdAnswer q tag .write (fun r s => ownerAnswered r.owner s) s)

/-- AT_DATA, R321. -/
def execAtData (q tag : Nat) (s : State) : Host.Outcome State Fault Refusal :=
  .next (acdAnswer q tag .atomic (fun r s => ownerAnswered r.owner s) s)

/-- ERR, R320 and R326: the request's work fails, or the launch ends ABORTED; one that names nothing sets BAD_MSG. -/
def execErr (q : Nat) (launch : Bool) (tag _reason : Nat) (s : State) : Host.Outcome State Fault Refusal :=
  .next (if launch then
      if tabHas (s.acd q).launches tag && (tabGet {} (s.acd q).launches tag).ended.isNone then endLaunch q tag .aborted s
      else acdErr q 0x40 s
    else match reqTo s (.acd q) tag with
      | some r => s |> dropTag (.acd q) tag |> ownerFails r.owner .target |> endCond
      | none => acdErr q 0x40 s)

/-! ### Launches (R112, R325, R328) -/

/-- A launch of port q that has not ended. -/
def liveLaunch (s : State) (q tag : Nat) : Option Launch :=
  ((s.acd q).launches.find? (fun x => x.1 = tag && x.2.ended.isNone)).map (·.2)

/-- Change a launch. -/
def modLaunch (q tag : Nat) (f : Launch → Launch) (s : State) : State :=
  modAcd q (fun p => { p with launches := tabSet p.launches tag (f (tabGet {} p.launches tag)) }) s

/-- Send a launch's message, where its entry is at hand (R325, R328). -/
def pushLaunch (q tag : Nat) (s : State) : State :=
  match liveLaunch s q tag with
  | none => s
  | some l => match entryOf s l.hoop l.idx with
    | some e => sendLaunch q tag e (launchBlock s l.hoop e) s
    | none => s

/-- Whether delivery of a launch is held by a stack at rate 0 (R328). -/
def launchHeld (s : State) (q : Nat) (l : Launch) : Bool := (!l.sent || l.retry) && (s.acd q).rates.any (fun r => r.2 = 0)

/-- ACCEPT, R325. -/
def execAccept (q tag : Nat) (retry : Bool) (s : State) : Host.Outcome State Fault Refusal :=
  .next (match liveLaunch s q tag with
    | some l => if l.sent && !l.accepted then
        modLaunch q tag (fun l => if retry then { l with retry := true } else { l with accepted := true, retry := false }) s else s
    | none => s)

/-- LAUNCH_RESEND, R325: 10 µs after ACCEPT with RETRY. -/
def execLaunchResend (q tag : Nat) (s : State) : Host.Outcome State Fault Refusal :=
  .next (match liveLaunch s q tag with
    | some l => if l.retry then pushLaunch q tag s else s
    | none => s)

/-- NO_ACCEPT, R325: no ACCEPT without RETRY within 1 s for a reason other than R328. -/
def execNoAccept (q tag : Nat) (s : State) : Host.Outcome State Fault Refusal :=
  .next (match liveLaunch s q tag with
    | some l => if l.accepted || launchHeld s q l then s else s |> acdErr q 0x80 |> countFault (acdSrc q 0)
    | none => s)

/-- LAUNCH_THERMAL_TIMEOUT, R112 and R325. -/
def execLaunchThermalTimeout (q tag : Nat) (s : State) : Host.Outcome State Fault Refusal :=
  .next (match liveLaunch s q tag with
    | some l => if !l.accepted && launchHeld s q l then endLaunch q tag .thermalTimeout s else s
    | none => s)

/-- COMPLETE, R325: FAIL ends the launch ABORTED; otherwise the LAUNCH fence is signalled and the entry ends OK. While the
entry is being resumed, its tag keeps the end. -/
def execComplete (q tag : Nat) (failed : Bool) (s : State) : Host.Outcome State Fault Refusal :=
  .next (match liveLaunch s q tag with
    | none => s
    | some l =>
      if failed then endLaunch q tag .aborted s
      else match entryOf s l.hoop l.idx with
        | some e => completeLaunch q tag l.hoop l.idx e s
        | none => endLaunch q tag .ok s)

/-! ### Notices (R322, R324, R326, R327, R269) -/

/-- THERMAL, R327 and R269: the stack's rate; a notice that limits a stack begins a hold, and one that lifts the last limit ends
it (log entry 74). A launch that R328 held is sent once no stack has rate 0, and a peer's request that the rate held is served
(R270). -/
def execThermal (q stack rate : Nat) (s : State) : Host.Outcome State Fault Refusal :=
  .next (if !(s.acd q).up || (s.acd q).stackCount ≤ stack then s
    else
      let s := modAcd q (fun p => { p with rates := tabSet p.rates stack (rate % 256) }) s
      let waiting := ((s.acd q).launches.filter (fun l => l.2.ended.isNone && !l.2.sent)).map (·.1)
      s |> (if rate % 256 = 0xFF then tryEndHold q else startHold q) |> forAll waiting (pushLaunch q) |> serveAgain)

/-- FAULT, R326: by SCOPE, a launch, a request, a stack's outstanding requests, or the port. -/
def execFault (q scope tag addr stack : Nat) (s : State) : Host.Outcome State Fault Refusal :=
  .next (if !(s.acd q).up then s
    else
      let s := acdErr q 0x8 s
      match scope with
      | 0 => s |> countFault (acdSrc q 3) |> (fun s => if (liveLaunch s q tag).isSome then endLaunch q tag .aborted s else s)
      | 1 => s |> countFault (acdSrc q 3)
        |> failReqs (fun r => r.tgt = .acd q && r.sent && overlap (q * 2 ^ 40 + addr) 1 r.addr r.len) (fun _ => .target) |> endCond
      | 2 => s |> countFault (acdSrc q 3)
        |> failReqs (fun r => r.tgt = .acd q && r.sent && stackOf s q r.addr = stack) (fun _ => .target) |> endCond
      | _ => acdFails q s)

/-- FENCE_HINT, R322 and R40: the watchers of the word that the die has written read it again. -/
def execFenceHint (q addr : Nat) (s : State) : Host.Outcome State Fault Refusal :=
  .next (if (s.acd q).up then forAll (watchersAt s (q * 2 ^ 40 + addr) 8) readWatcher s else s)

/-- CLAIM, R324: conflicting host copies are asked back first; CLAIM_GO follows at once where there is none. -/
def execClaim (q ctag line : Nat) (write : Bool) (s : State) : Host.Outcome State Fault Refusal :=
  .next (if !(s.acd q).up || tabHas (s.acd q).claims ctag || 256 ≤ (s.acd q).claims.length then s
    else
      s |> modAcd q (fun p => { p with claims := tabSet p.claims ctag { line := line, write := write } }) |> tryClaim q ctag)

/-- ACD_REQUEST_RELEASE, R327: a request held by a rate is sent once its stack permits. -/
def execAcdRequestRelease (q tag : Nat) (s : State) : Host.Outcome State Fault Refusal :=
  .next (match s.lk.reqs.find? (fun r => r.tagged && r.tgt = .acd q && r.tag = tag && !r.sent) with
    | some r => if isHot s r.addr then s else modReq (.acd q) tag (fun r => { r with sent := true }) s
    | none => s)

/-! ### ACD_CTRL (R315, R329) -/

/-- LINK_EN of port q becomes 1: training starts, unless the port is in its safe state. In recovery no such port is
enabled (R447). -/
def acdEnable (q : Nat) (s : State) : State :=
  if (s.acd q).linkEn || s.tm.recovery then s
  else { s with st.cfgDirty := true } |> modAcd q (fun p => { p with linkEn := true, training := !p.safe })

/-- LINK_EN of port q becomes 0: the effects of the safe state (R329); the loss of the last vat store drives the device
into its safe state (R449). -/
def acdDisable (q : Nat) (s : State) : State :=
  if !(s.acd q).linkEn then s
  else
    let had := !s.st.vatStore.isEmpty
    { s with st.cfgDirty := true } |> when (s.acd q).up (fun s => s |> acdDrop q |> dropStore q |> storeGone had)
    |> modAcd q (fun p => { p with linkEn := false, training := false, retrain := false })

/-- RETRAIN of port q: outstanding requests end as target failures, and training runs (R329). -/
def acdRetrain (q : Nat) (s : State) : State :=
  if !(s.acd q).linkEn || (s.acd q).safe then s
  else s |> when (s.acd q).up (acdDrop q) |> modAcd q (fun p => { p with training := true, retrain := true })

/-- ACD_LINK_ENABLE, R315. -/
def execAcdLinkEnable (f : Fn) (q : Nat) (s : State) : Host.Outcome State Fault Refusal :=
  .next (if mayManage s f then acdEnable q s else s)

/-- ACD_LINK_DISABLE, R329. -/
def execAcdLinkDisable (f : Fn) (q : Nat) (s : State) : Host.Outcome State Fault Refusal :=
  .next (if mayManage s f then acdDisable q s else s)

/-- RETRAIN, R315. -/
def execRetrain (f : Fn) (q : Nat) (s : State) : Host.Outcome State Fault Refusal :=
  .next (if mayManage s f then acdRetrain q s else s)

end Sys2Proof.Machine
end

