-- ==== Sys2Proof/Machine/Affineur.lean ====
section
/-! DEFINITION. The active Affineur core as an observer: store buffer, data cache, combining buffer, barriers, reserved
load and conditional store (R226, R230, R231, R240, R241, R244, R245). Addresses are locations (log entry 7). -/

namespace Sys2Proof.Machine

open Sys2Proof

/-- Whether the n bytes at a all have a home (R195, R227). -/
def affPlaced (a n : Nat) : Bool := homeOf a ≠ .none && homeOf (a + n - 1) ≠ .none

/-- Snoop filter entries with which an access of the core conflicts (R301). -/
def affHits (s : State) (need : Access) (a n : Nat) : List (Filt × Bool) :=
  (filterHits s { va := a, pa := a, len := n, need := need }).map (fun f => (f, decide (need ≠ .read)))

/-- Whether a store of the core waits: its stack is held, or a host holds the line (R269, R301). -/
def affStuck (s : State) (a n : Nat) : Bool := isHot s a || !(affHits s .write a n).isEmpty

/-! ### The store buffer (R230, R234, R240) -/

/-- Stores leave the store buffer in order, up to the first one that waits (R234). -/
def affDrain : List (Nat × Byte) → State → State
  | [], s => { s with af.affBuf := [] }
  | b :: r, s =>
    if affStuck s b.1 1 then { s with af.affBuf := b :: r } |> askHosts .core (affHits s .write b.1 1)
    else affDrain r (affWrite b.1 [b.2] s)

/-- Drain the store buffer as far as nothing waits. -/
def drainStores (s : State) : State := affDrain s.af.affBuf s

/-- The bytes of a line with those of a store put in. -/
def patchLine (base : Nat) (old : List Byte) (a : Nat) (bs : List Byte) : List Byte :=
  (List.range old.length).map (fun i => if a ≤ base + i && base + i < a + bs.length then bs.getD (base + i - a) 0 else old.getD i 0)

/-! ### The combining buffer (R241) -/

/-- A line leaves the combining buffer as one write of its written bytes; a line that must wait for its stack or a host stays
there, due, where no load reads it (R241, R269, R301). -/
def ntLeave (l : NtLine) (s : State) : State :=
  if affStuck s l.addr 64 then
    { s with af.ntLines := s.af.ntLines.map (fun x => if x.addr = l.addr then { x with due := true } else x) }
    |> askHosts .core (affHits s .write l.addr 64)
  else
    forAll l.bytes (fun b => affWrite (l.addr + b.1) [b.2]) { s with af.ntLines := s.af.ntLines.filter (fun x => x.addr ≠ l.addr) }

/-- Lines that overlap a range leave. -/
def ntFlush (a n : Nat) (s : State) : State := forAll (s.af.ntLines.filter (fun l => overlap a n l.addr 64)) ntLeave s

/-- The 64-byte lines of a range. -/
def affLines (a n : Nat) : List Nat := (List.range ((a + n + 63) / 64 - a / 64)).map (fun k => 64 * (a / 64 + k))

/-- The lines of a range that the combining buffer does not hold. -/
def ntNew (s : State) (a n : Nat) : Nat :=
  ((affLines a n).filter (fun b => !s.af.ntLines.any (fun l => l.addr = b))).length

/-- Room for k new lines: while more than eight would stand, the oldest leave (R241). -/
def ntRoom (k : Nat) (s : State) : State := forAll (s.af.ntLines.take (s.af.ntLines.length + k - 8)) ntLeave s

/-- One byte enters the combining buffer: it merges into its line, or takes a new one; a full line leaves. -/
def ntByte (a : Nat) (b : Byte) (s : State) : State :=
  let base := a / 64 * 64
  let ls := if s.af.ntLines.any (fun l => l.addr = base) then s.af.ntLines else s.af.ntLines ++ [{ addr := base }]
  let s := { s with af.ntLines := ls.map (fun l => if l.addr = base then { l with bytes := tabSet l.bytes (a - base) b } else l) }
  match s.af.ntLines.find? (fun l => l.addr = base && l.bytes.length = 64) with
  | some l => ntLeave l s
  | none => s

/-- The bytes of a non-temporal store, first to last. -/
def ntBytes (a : Nat) : List Byte → State → State
  | [], s => s
  | b :: r, s => ntBytes (a + 1) r (ntByte a b s)

/-- Invalidate the cached lines that a range touches (R241). -/
def affInval (a n : Nat) (s : State) : State :=
  { s with af.affCache := s.af.affCache.filter (fun l => !(overlap a n l.1 64)) }

/-! ### Barriers (R231, R232, R241) -/

/-- Every store becomes visible: the combining buffer empties, then the store buffer (R231, R241). -/
def drainAll (s : State) : State := s |> forAll s.af.ntLines ntLeave |> drainStores

/-- Before each access of the core and at each line timeout, lines that are due leave where they now can, and a barrier that
waits drains the stores before it; it ends once none is left, a conditional store among them (R231, R241, R245; when a store
that waited goes on: log entry 78). -/
def coreGo (s : State) : State :=
  let s := forAll (s.af.ntLines.filter (·.due)) ntLeave s
  if !s.af.barSt then s
  else
    let s := drainAll s
    if s.af.affBuf.isEmpty && s.af.ntLines.isEmpty && s.af.affCond.isNone then { s with af.barSt := false, af.barFull := false } else s

/-- BAR_LD, R231: loads have been performed when their commands end, and the combining buffer does not drain. -/
def execBarLd (s : State) : Host.Outcome State Fault Refusal := .next s

/-- BAR_ST, R231: until every store before it is visible, the core performs no store after it. -/
def execBarSt (s : State) : Host.Outcome State Fault Refusal := .next (coreGo { s with af.barSt := true })

/-- BAR_FULL, R231: until every store before it is visible, the core performs no access after it. -/
def execBarFull (s : State) : Host.Outcome State Fault Refusal := .next (coreGo { s with af.barSt := true, af.barFull := true })

/-! ### Stores (R230, R240, R241) -/

/-- The core's own store in its cached lines (R240). -/
def affPatch (a : Nat) (bs : List Byte) (s : State) : State :=
  { s with af.affCache := s.af.affCache.map (fun l => (l.1, patchLine l.1 l.2 a bs)) }

/-- AFF_STORE, R240: the cached line and the store buffer take the store; when the buffer drains the manual leaves open. Behind
a barrier that waits, the command is to be given again (log entry 78). -/
def execAffStore (addr : Nat) (data : List Byte) (s : State) : Host.Outcome State Fault Refusal :=
  if affPlaced addr data.length then
    let s := coreGo s
    if s.af.barSt then .next s
    else .next ({ affPatch addr data s with af.affBuf := s.af.affBuf ++ data.mapIdx (fun i b => (addr + i, b)) }
      |> takeFree 1 |> when (Config.freeNat s.m.free % 2 = 0) drainStores)
  else .fault .absentAddress

/-- AFF_NT_STORE, R241: where a ninth line is needed the oldest leaves first; behind a barrier that waits, or an oldest line that
cannot leave, the command is to be given again (log entry 78). -/
def execAffNtStore (addr : Nat) (data : List Byte) (s : State) : Host.Outcome State Fault Refusal :=
  if affPlaced addr data.length then
    let s := coreGo s
    if s.af.barSt then .next s
    else
      let s := ntRoom (ntNew s addr data.length) s
      .next (if 8 < s.af.ntLines.length + ntNew s addr data.length then s else s |> affInval addr data.length |> ntBytes addr data)
  else .fault .absentAddress

/-- NT_LINE_TIMEOUT, R241. -/
def execNtLineTimeout (line : Nat) (s : State) : Host.Outcome State Fault Refusal :=
  .next (match s.af.ntLines.find? (fun l => l.addr = line) with
    | some l => ntLeave l s
    | none => s)

/-! ### Loads (R230, R240) -/

/-- Whether the home of a line answers a read of the core: it is reachable and holds no poison there. -/
def affReadable (s : State) (a : Nat) : Bool :=
  match homeOf a with
  | .peer _ => false
  | h => homeUp s h && !poisonedAt s a 1

/-- The cached line that holds a byte. -/
def affLine (s : State) (a : Nat) : Option (List Byte) :=
  (s.af.affCache.find? (fun l => l.1 = a / 64 * 64)).map (·.2)

/-- A byte as the core loads it: from its store buffer, its cache, or the home; where the home gives none, free byte i. -/
def affByte (s : State) (a i : Nat) : Byte :=
  match s.af.affBuf.reverse.find? (fun b => b.1 = a) with
  | some b => b.2
  | none =>
    match affLine s a with
    | some l => l.getD (a % 64) 0
    | none => if affReadable s a then byteAt s a else Config.freeByte (s.m.free + i)

/-- Allocate a line of the data cache, 512 of them, the oldest leaving (R240). -/
def affFill (base : Nat) (s : State) : State :=
  if (affLine s base).isSome || !affReadable s base then s
  else
    let line := (base, (List.range 64).map (fun i => affByte s (base + i) i))
    { s with af.affCache := s.af.affCache.drop (s.af.affCache.length + 1 - 512) ++ [line] }

/-- Whether a load waits: for a line of the combining buffer that it overlaps and that has not left, or for a line that the cache
does not hold and that lies in a held stack outside the hold space or that a host holds exclusive (R241, R269, R270, R301). -/
def affLoadWaits (s : State) (a n : Nat) : Bool :=
  s.af.ntLines.any (fun l => overlap a n l.addr 64) ||
  (affLines a n).any (fun l => (affLine s l).isNone && (isHot s l && !heldCovers s l 64 || !(affHits s .read l 64).isEmpty))

/-- The core loads n bytes into affData. -/
def affRead (a n : Nat) (s : State) : State :=
  let bs := (List.range n).map (fun i => affByte s (a + i) i)
  { s with af.affData := bs } |> takeFree n

/-- Firmware may have invalidated the lines of a range: the spec gives no command for it, so a free value says whether it has
(R240; DESIGN CHOICE, log entry 139). -/
def fwInval (a n : Nat) (s : State) : State := s |> takeFree 1 |> when (Config.freeNat s.m.free % 2 = 0) (affInval a n)

/-- AFF_LOAD, R230 and R240: the lines of the combining buffer that it overlaps leave first; behind a full barrier that waits,
and where it must itself wait, the command is to be given again (log entry 78). -/
def execAffLoad (addr len : Nat) (s : State) : Host.Outcome State Fault Refusal :=
  if affPlaced addr len then
    let s := coreGo s
    if s.af.barFull then .next s
    else
      let s := s |> fwInval addr len |> ntFlush addr len
      if affLoadWaits s addr len then
        .next (askHosts .core ((affLines addr len).flatMap (fun l => affHits s .read l 64)) s)
      else .next (s |> affRead addr len |> forAll (affLines addr len) affFill)
  else .fault .absentAddress

/-! ### Reserved load and conditional store (R244, R245, R323) -/

/-- The home of the reservations on a location: its home cell, or 2,048 + its Acdoic port; elsewhere none (R244). -/
def resvHome (a : Nat) : Option Nat :=
  match homeOf a with
  | .slice _ => some (cellOf a)
  | .acd q => some (2048 + q)
  | _ => none

/-- The reservation granule of a location. -/
def granuleOf (a : Nat) : Nat := a / granuleLen a * granuleLen a

/-- Place the core's reservation; on compute-die memory it takes a watch slot, told to the die (R323). -/
def affReserve (home a : Nat) (s : State) : State :=
  let g := granuleOf a
  let s := placeResv home { owner := .core 0, granule := g } s
  if home < 2048 then s
  else
    let q := home - 2048
    match firstFree 16 (tabHas (s.acd q).watches) with
    | none => s
    | some w =>
      { s with wk.resvs := s.wk.resvs.map (fun x => if isCoreResv x && x.2.granule = g then (x.1, { x.2 with watch := some w }) else x) }
      |> modAcd q (fun p => { p with watches := tabSet p.watches w g })
      |> sendAcd q 0x10 w (g % 2 ^ 40) 0

/-- AFF_RESERVED_LOAD, R244 and R245: the granule is read from its home and reserved, the core's earlier reservation being lost;
where no reservation can be placed the load alone is done. It waits for a conditional store that awaits its COND_ACK. -/
def execAffReservedLoad (addr : Nat) (s : State) : Host.Outcome State Fault Refusal :=
  if affPlaced addr 1 then
    let n := granuleLen addr
    let g := granuleOf addr
    let s := coreGo s
    if s.af.barFull || s.af.affCond.isSome then .next s
    else
      let s := s |> ntFlush g n |> drainStores |> affInval g n
      if affLoadWaits s g n || !s.af.affBuf.isEmpty then
        .next (askHosts .core ((affLines g n).flatMap (fun l => affHits s .read l 64)) s)
      else
        .next (s |> affRead g n |> loseResv isCoreResv |> (fun t => match resvHome addr with
          | some home => when (affReadable t g) (affReserve home addr) t
          | none => t))
  else .fault .absentAddress

/-- The reservation of the core on the granule of a location. -/
def coreResv (s : State) (a : Nat) : Option Resv :=
  (s.wk.resvs.find? (fun x => isCoreResv x && x.2.granule = granuleOf a)).map (·.2)

/-- The byte mask of a partial write at offset o of a 64-byte block (R320). -/
def byteMask (o n : Nat) : W64 := BitVec.ofNat 64 (maskOf 64 ((List.range n).map (· + o)))

/-- AFF_CONDITIONAL_STORE, R245: off is the offset of the bytes in the granule of addr. With the reservation intact it
writes a scratchpad granule at once, and asks the die with WR_COND on compute-die memory (R323); otherwise it fails and
writes nothing. It waits behind the core's earlier stores and behind a barrier, and on compute-die memory for its stack's
rate and a tag (R231, R234, R319, R327). -/
def execAffConditionalStore (addr off : Nat) (data : List Byte) (s : State) : Host.Outcome State Fault Refusal :=
  if affPlaced addr 1 then
    let a := granuleOf addr + off
    let s := coreGo s
    let s := if s.af.affCond.isSome || s.af.barSt then s else s |> ntFlush a data.length |> drainStores
    .next (if s.af.affCond.isSome || s.af.barSt || !s.af.affBuf.isEmpty || s.af.ntLines.any (fun l => overlap a data.length l.addr 64)
      then s
      else match coreResv s addr, homeOf addr with
        | some r, .acd q =>
          match freeTag s (.acd q) with
          | none => s
          | some tag => if isHot s a then s else
          { s with af.affCond := some (a, data), af.affOk := false, af.affCache := (affInval a data.length s).af.affCache }
          |> addReq (.acd q) .core .cond a data.length 0
          |> sendAcd q 0x05 tag (r.watch.getD 0 * 2 ^ 40 + a / 64 * 64 % 2 ^ 40) (byteMask (a % 64) data.length)
        | some _, _ =>
          { s with af.affOk := true } |> storeAt a data |> loseResv isCoreResv |> affInval a data.length
        | none, _ => { s with af.affOk := false })
  else .fault .absentAddress

/-- COND_ACK, R323 and R245: on SUCCESS the Affineur's conditional store stands written at its home and in the core's cached
line, unless its reservation has been lost since (DEDUCED, log entry 140); otherwise it has failed. Its reservation is
consumed. -/
def execCondAck (q tag : Nat) (success : Bool) (s : State) : Host.Outcome State Fault Refusal :=
  .next (acdAnswer q tag .cond (fun _ s => match s.af.affCond with
    | some c =>
      let ok := success && (coreResv s c.1).isSome
      { s with af.affCond := none, af.affOk := ok } |> when ok (fun t => t |> storeAt c.1 c.2 |> affPatch c.1 c.2)
        |> loseResv (fun x => isCoreResv x && overlap c.1 1 x.2.granule 128)
    | none => s) s)

/-- RESERVATION_TIMEOUT, R140 and R244: of the reservations on a granule at a home, the one placed first has reached its time. -/
def execReservationTimeout (home granule : Nat) (s : State) : Host.Outcome State Fault Refusal :=
  .next (match s.wk.resvs.find? (fun x => x.1 = home && x.2.granule = granule) with
    | some y => loseResv (fun x => decide (x = y)) s
    | none => s)

end Sys2Proof.Machine
end

