-- ==== Sys2Proof/Machine/Fences.lean ====
section
/-! DEFINITION. Commands on armed fence waits (R39, R40). -/

namespace Sys2Proof.Machine

open Sys2Proof

/-- WATCHER_REREAD: the watcher reads its fence word again, and satisfied waits complete (R40). -/
def execWatcherReread (w : Nat) (s : State) : Host.Outcome State Fault Refusal := .next (readWatcher w s)

/-- WATCHER_POLL: every 10 µs the watcher reads its fence word again (R40). -/
def execWatcherPoll (w : Nat) (s : State) : Host.Outcome State Fault Refusal :=
  .next (if tabHas s.wk.watchers w then readWatcher w s else s)

/-- HOOP_ENGINE_POLL: every 10 µs the hoop engine reads the fence of a wait that has no watcher (R39). -/
def execHoopEnginePoll (k : Nat) (s : State) : Host.Outcome State Fault Refusal := .next (readPoll k s)

end Sys2Proof.Machine
end

