-- ==== Sys2Proof/Machine/Hoops.lean ====
section
/-! DEFINITION. Commands on hoops and admin hoops: doorbells, pushes, fetch, start, publication, enabling and resumption
(R60 to R78, R84, R122). -/

namespace Sys2Proof.Machine

open Sys2Proof

/-- DOORBELL: an exact 64-bit write of TAIL on a page that the function may write; bits 63 to 32 are ignored (R60, R61). -/
def execDoorbell (f : Fn) (n : Nat) (v : W64) (s : State) : Host.Outcome State Fault Refusal :=
  .next (match pageHoop s f n with
    | some h => ringTail h (v.setWidth 32) s
    | none => when (pageUr s f n) (bar2Reject f) s)

/-- PUSH: a whole 64-byte write of a push slot (R62, R63). -/
def execPush (f : Fn) (n slot : Nat) (words : List W64) (s : State) : Host.Outcome State Fault Refusal :=
  .next (match pageHoop s f n with
    | some h => pushEntry h slot words s
    | none => when (pageUr s f n) (bar2Reject f) s)

/-- ADMIN_DOORBELL: an exact 64-bit write of ADMIN_TAIL (R61, R84). -/
def execAdminDoorbell (f : Fn) (v : W64) (s : State) : Host.Outcome State Fault Refusal :=
  .next (match adminOf f with
    | some a => inD0 f (adminTail a (v.setWidth 32)) s
    | none => s)

/-- RING_FETCH: up to count entries, at most 16, arrive from the ring, and the next fetch is requested (R64). -/
def execRingFetch (r : Ring) (count : Nat) (s : State) : Host.Outcome State Fault Refusal :=
  .next (match r with
    | .data h => s |> dropOwner (.ring (.data h)) |> fetchEntries h (min 16 count) |> askRing h |> tryIdle h
    | .admin a => s |> dropOwner (.ring (.admin a)) |> fetchAdmin a (min 16 count) |> askAdmin a)

/-- OWN_REREAD: every entry fetched with OWN = 0 is read again (R64). -/
def execOwnReread (r : Ring) (s : State) : Host.Outcome State Fault Refusal :=
  .next (match r with
    | .data h => forAll ((s.hoop h).entries.filter (fun e => e.phase = .fetched && !e.own)) (rereadEntry h) s
    | .admin a => forAll ((s.admin a).entries.filter (fun e => e.phase = .fetched && !e.own)) (rereadAdmin a) s)

/-- ENTRY_START: the entry starts where the order rules, the in-flight limit, its vat's slot and the journal allow it
(R31, R67, R75); an entry whose vat lacks a slot waits for one (R32). -/
def execEntryStart (r : Ring) (i : W32) (s : State) : Host.Outcome State Fault Refusal :=
  .next (match r with
    | .data h =>
      let s := takePushed h 4 s
      if canStart s h i then startEntry h i s
      else if ((entryOf s h i).elim false (fun e => e.phase = .ready)) then needSlot (s.hoop h).vat s else s
    | .admin a => if adminCanStart s a i then startAdmin a i s else s)

/-- HEAD_PUBLISH_TIMER: 1 µs after the head moved past the published value, the head is published (R71). -/
def execHeadPublishTimer (h : Nat) (s : State) : Host.Outcome State Fault Refusal :=
  .next (if (s.hoop h).present && (s.hoop h).pubTimer then publishHead h s else s)

/-- FREEZE_TIMEOUT: a function still FREEZING after 100 ms returns to RUNNING as if thawed; FREEZE completes BUSY (R122). -/
def execFreezeTimeout (f : Fn) (s : State) : Host.Outcome State Fault Refusal :=
  .next (if (s.fnS f).vfState = .freezing then
      match (s.fnS f).freezeBy with
      | some a => s |> thawFn f |> adminEnd a .busy
      | none => thawFn f s
    else s)

/-- HOOP_RESUME: the new placement of a moved hoop resumes once the old unit has drained or its gate has closed (R74). -/
def execHoopResume (h : Nat) (s : State) : Host.Outcome State Fault Refusal :=
  .next (let x := s.hoop h
    if x.present && x.migrating && oldUnitDone s x then s |> resumeHoop (startedTo x) h |> tryIdle h else s)

/-- Enable a hoop where it is disabled and idle, without RING_FAULT, its slice outside its safe state (R78, R80, R391). -/
def enableHoop (h : Nat) (s : State) : State :=
  let x := s.hoop h
  if x.present && !x.enabled && x.idle && !x.ringFault && !sliceSafe s (sliceOf h) then
    s |> modHoop h (fun x => { x with enabled := true, idle := false, pubTimer := x.head ≠ x.pub }) |> askRing h
  else s

/-- HOOP_ENABLE: writing 1 to HOOP_CTRL.ENABLE (R78). -/
def execHoopEnable (f : Fn) (n : Nat) (s : State) : Host.Outcome State Fault Refusal :=
  .next (match pageHoop s f n with
    | some h => enableHoop h s
    | none => when (pageUr s f n) (bar2Reject f) s)

/-- Whether ADMIN_CFG lets admin hoop a start: LOG2_SIZE is 4 to 12, and the bring-up function names no event hoop
(R84, R308). -/
def adminCfgOk (a : Nat) (x : AdminHoop) : Bool := 4 ≤ x.log2 && x.log2 ≤ 12 && !(a = 16 && x.evqValid)

/-- Write 1 to ADMIN_CTRL.ENABLE of admin hoop a (R84, R492). CFG_ERR is cleared by the next write that starts the hoop
(DESIGN CHOICE, log entry 127: R84 says when it sets, not when it clears). -/
def adminStart (a : Nat) (s : State) : State :=
  let x := s.admin a
  if x.enable || x.running || x.ringFault then s
  else if adminCfgOk a x then
    modAdmin a (fun x => { x with
      enable := true, running := true, idle := true, cfgErr := false, head := 0, tail := 0, pub := 0, fetchNext := 0
      entries := [], cur := none }) s
  else modAdmin a (fun x => { x with cfgErr := true }) s

/-- Write 0 to ADMIN_CTRL.ENABLE: the admin hoop is disabled gently, its accepted entries completing first (R77, R84). -/
def adminOff (a : Nat) (s : State) : State :=
  modAdmin a (fun x => { x with
    enable := false, running := x.running && !(x.entries.isEmpty && x.fetchNext = x.tail) }) s

/-- ADMIN_ENABLE: a write of ADMIN_CTRL.ENABLE = 1 (R84). -/
def execAdminEnable (f : Fn) (s : State) : Host.Outcome State Fault Refusal :=
  .next (match adminOf f with
    | some a => inD0 f (adminStart a) s
    | none => s)

/-- ADMIN_DISABLE: a write of ADMIN_CTRL.ENABLE = 0 (R84). -/
def execAdminDisable (f : Fn) (s : State) : Host.Outcome State Fault Refusal :=
  .next (match adminOf f with
    | some a => inD0 f (adminOff a) s
    | none => s)

end Sys2Proof.Machine
end

