-- ==== Sys2Proof/Machine/Interrupts.lean ====
section
/-! DEFINITION. Interrupts: coalescing, MSI-X messages, claims and completions, the mask and pending bitmaps, routes and
fast source slots (R362 to R377). -/

namespace Sys2Proof.Machine

open Sys2Proof

/-! ### Who may write what (R362, R366, R372) -/

/-- Whether function f configures source x (R362). -/
def configures (s : State) (f : Fn) (x : Nat) : Bool :=
  if x < 16384 then (s.hoop x).present && (s.hoop x).fn = f
  else if x < 18432 then
    tabHas s.wk.watchers (x - 16384) && f = .pf (pfOf (s.vat (s.watcher (x - 16384)).vat).fn)
  else if x < 20480 then isDevmgr s f
  else if x < 20528 then f = .pf (x % 16)
  else if x < 20560 then regManager s f (x % 16)
  else false

/-- The source of bit 64 q + k of function f's bitmaps: for a virtual function, the hoop of doorbell slot k (R375, R377). -/
def bankSource (s : State) (f : Fn) (b : Nat) : Option Nat :=
  if isVf f then (hoopsOf s f).find? (fun h => (s.hoop h).vfSlot = b)
  else if configures s f b then some b else none

/-- Apply an operation to every source whose bit a write of qword q of function f's normal bank sets; a source that a fast
slot names is not reached there (R366, R372). -/
def bankWrite (f : Fn) (q : Nat) (v : W64) (g : Nat → State → State) (s : State) : State :=
  inD0 f (fun s => forAll (bitsSet 64 v.toNat) (fun k t =>
    match bankSource t f (64 * q + k) with
    | some x => if (fastSlotOf t x).isNone then g x t else t
    | none => t) s) s

/-- Set MASK of a source (R365). -/
def maskSrc (x : Nat) (s : State) : State := modSrc x (fun q => { q with mask := true }) s
/-- Clear MASK of a source; a pending event is delivered (R365). -/
def unmaskSrc (x : Nat) (s : State) : State := s |> modSrc x (fun q => { q with mask := false }) |> deliverPending x
/-- Discard an undelivered event of a source (R365). -/
def unpendSrc (x : Nat) (s : State) : State := modSrc x (fun q => { q with pending := false }) s

/-- MASK_SET, R366. -/
def execMaskSet (f : Fn) (q : Nat) (v : W64) (s : State) : Host.Outcome State Fault Refusal := .next (bankWrite f q v maskSrc s)

/-- MASK_CLR, R365 and R366. -/
def execMaskClr (f : Fn) (q : Nat) (v : W64) (s : State) : Host.Outcome State Fault Refusal := .next (bankWrite f q v unmaskSrc s)

/-- PEND_SET, R365: an event as if the input had produced it. -/
def execPendSet (f : Fn) (q : Nat) (v : W64) (s : State) : Host.Outcome State Fault Refusal := .next (bankWrite f q v srcEvent s)

/-- PEND_CLR, R365. -/
def execPendClr (f : Fn) (q : Nat) (v : W64) (s : State) : Host.Outcome State Fault Refusal := .next (bankWrite f q v unpendSrc s)

/-! ### Messages (R367, R368, R371, R453) -/

/-- COALESCE_TIMEOUT, R367: TIME has passed since the first event counted. -/
def execCoalesceTimeout (e : Nat) (s : State) : Host.Outcome State Fault Refusal :=
  .next (if (s.evq e).ist = .armed && (s.evq e).en then signalEvq e s else s)

/-- Whether a fast event hoop of the port of event hoop e owes its messages, so that they pass those of e (R371). -/
def fastAhead (s : State) (e : Nat) : Bool :=
  !isFastEvq e && s.ev.evhoops.any (fun x => isFastEvq x.1 && x.2.msgDue && pfOf x.2.fn = pfOf (s.evq e).fn)

/-- MSIX_MESSAGE_SEND, R371: the messages of the targeted vectors go out, or set their PBA bits. They wait for records of
the event hoop that are not yet written, and for D0 (R453); fast messages that pass normal ones are a yield (R426). -/
def execMsixMessageSend (e : Nat) (s : State) : Host.Outcome State Fault Refusal :=
  .next (let x := s.evq e
    if !x.msgDue || (s.fnS x.fn).dstate3 || s.ev.heldRecs.any (fun r => r.1 = e) then s
    else
      s |> when (fastAhead s e && pfOf x.fn < 16) (yieldWheel (hcWheelOf s (pfOf x.fn)) 4 0x06 (pfOf x.fn) 0 5)
        |> modEvq e (fun x => { x with msgDue := false })
        |> forAll (evqVectors s e) (sendMsix x.fn))

/-- Send the messages withheld on vectors that nothing masks any more (R371). -/
def releaseMsix (f : Fn) (s : State) : State :=
  let x := s.fnS f
  if !x.msixEn || x.funcMask then s
  else forAll ((List.range (vectorCount f)).filter (fun v => (tabGet {} x.msix v).pba && !(tabGet {} x.msix v).mask))
    (fun v t => t |> modFnS f (fun x => { x with msix := tabSet x.msix v { tabGet {} x.msix v with pba := false } })
      |> emit (.msix f v)) s

/-- MSIX_UNMASK, R371: a change of MSI-X Enable, Function Mask or a vector's mask, and the messages that it releases. -/
def execMsixUnmask (f : Fn) (m : MsixCtl) (s : State) : Host.Outcome State Fault Refusal :=
  .next (s |> modFnS f (fun x => match m with
      | .enable b => { x with msixEn := b }
      | .funcMask b => { x with funcMask := b }
      | .vecMask v b =>
        if v < vectorCount f then { x with msix := tabSet x.msix v { tabGet {} x.msix v with mask := b } } else x)
    |> releaseMsix f)

/-! ### Claims (R368, R370, R372, R377) -/

/-- What CLAIM returns for event hoop e: E in [27:16], the slot at SIGNALLED in [15:0] (R368). -/
def claimValue (s : State) (e : Nat) : Nat := e % 4096 * 65536 + (s.evq e).sigSlot % 65536

/-- Claim the oldest event hoop on vector v's queue, or return the spurious value (R368). -/
def claimVector (f : Fn) (v : Nat) (s : State) : State :=
  match tabGet [] (s.fnS f).claimQ v with
  | e :: _ =>
    s |> emit (.barData f (claimValue s e) false) |> unclaim e
      |> modEvq e (fun x => { x with ist := .claimed, sinceClaim := 0 })
  | [] => emit (.barData f 0xFFFFFFFF false) s

/-- CLAIM_READ, R368 and R472; a virtual function has 16 CLAIM registers, and beyond them nothing (R377). -/
def execClaimRead (f : Fn) (v : Nat) (s : State) : Host.Outcome State Fault Refusal :=
  .next (inD0 f (fun s => if isVf f && 16 ≤ v then emit (.barData f 0 false) s else claimVector f v s) s)

/-- A completion of function f that names event hoop E in [27:16] and the READ slot in [15:0], in the fast bank or not
(R370, R376). -/
def doneWrite (fast : Bool) (f : Fn) (v : W64) (s : State) : State :=
  let e := field v.toNat 27 16
  let x := s.evq e
  if !(x.present && x.fn = f && x.ist = .claimed && isFastEvq e = fast) then
    modFnS f (fun q => if fast then { q with fDoneBad := true } else { q with doneBad := true }) s
  else if !(readInRange x (field v.toNat 15 0)) then
    modFnS f (fun q => if fast then { q with fReadBad := true } else { q with readBad := true }) s
  else completeClaim e (field v.toNat 15 0) s

/-- INT_DONE, R370: of a physical function or the bring-up function. -/
def execIntDone (f : Fn) (v : W64) (s : State) : Host.Outcome State Fault Refusal :=
  .next (if isVf f then s else inD0 f (doneWrite false f v) s)

/-- FAST_DONE, R370 and R372: only physical functions use the fast class. -/
def execFastDone (f : Fn) (v : W64) (s : State) : Host.Outcome State Fault Refusal :=
  .next (if isVf f || f = .bu then s else inD0 f (doneWrite true f v) s)

/-- VF_INT_DONE, R377. -/
def execVfIntDone (f : Fn) (v : W64) (s : State) : Host.Outcome State Fault Refusal :=
  .next (if isVf f then inD0 f (doneWrite false f v) s else s)

/-! ### Routes and fast slots (R367, R372, R375, R376) -/

/-- Write the route of an event hoop: EN = 0 while SIGNALLED returns it to ARMED, off every claim queue (R367). -/
def routeOf (e : Nat) (v : W64) (s : State) : State :=
  let en := v.msb
  let s := modEvq e (fun x => { x with
    en := en, vector := field v.toNat 62 52, tmask := BitVec.ofNat 8 (field v.toNat 51 44)
    coalCount := field v.toNat 31 16, coalTime := field v.toNat 15 0 }) s
  if !en && (s.evq e).ist = .signalled then
    s |> unclaim e |> modEvq e (fun x => { x with ist := .armed, msgDue := false })
  else checkSignal e s

/-- EVQ_ROUTE_WRITE, R367 and R375: only the owning function's write takes effect. -/
def execEvqRouteWrite (f : Fn) (e : Nat) (v : W64) (s : State) : Host.Outcome State Fault Refusal :=
  .next (inD0 f (fun s => if (s.evq e).present && (s.evq e).fn = f then routeOf e v s else s) s)

/-- Whether a FAST_SRC write stands: the slot is free or the writer's own, and the source it names, if VALID, is one the
writer configures and no other valid slot names (R372). -/
def fastSrcOk (s : State) (p k : Nat) (v : W64) : Bool :=
  let x := field v.toNat 14 0
  (!(s.fast k).valid || (s.fast k).by_ = p) &&
    (!v.msb || configures s (.pf p) x && (fastSlotOf s x).all (· = k))

/-- Write FAST_SRC[k] as physical function p (R372, R376). -/
def fastSlotWrite (p k : Nat) (v : W64) (s : State) : State :=
  if fastSrcOk s p k v then
    modFast k (fun _ => { valid := v.msb, source := field v.toNat 14 0, by_ := p, sense := field v.toNat 17 16 }) s
  else modFnS (.pf p) (fun q => { q with slotBad := true }) s

/-- FAST_SRC_WRITE, R372: only physical functions use the fast class. -/
def execFastSrcWrite (f : Fn) (k : Nat) (v : W64) (s : State) : Host.Outcome State Fault Refusal :=
  .next (match f with
    | .pf p => inD0 f (fastSlotWrite p k v) s
    | _ => s)

end Sys2Proof.Machine
end

