-- ==== Sys2Proof/Machine/Optics.lean ====
section
/-! DEFINITION. Rosham's physical layer and the reference clocks: training, spare switches, laser inputs, loss of a reference
(R331 to R355, R485). -/

namespace Sys2Proof.Machine

open Sys2Proof

/-! ### Training (R355) -/

/-- Enable of Rosham port n: HC_CTRL.LINK_EN of a host-class port, RSH_CTRL.EN of a peer port (R355, R360). -/
def rshEn (s : State) (n : Nat) : Bool := if n < 16 then (s.hc n).linkEn else (s.peerP (n - 16)).en

/-- Whether Rosham port n is in its safe state. -/
def rshSafe (s : State) (n : Nat) : Bool := if n < 16 then (s.hc n).safe else (s.peerP (n - 16)).safe

/-- Lanes of a direction of Rosham port n that are up: 0 transmit, 1 receive (R360 LANES_UP). -/
def lanesUp (s : State) (n dir : Nat) : Nat :=
  if n < 16 then 8 else 16 - ((s.rsh n).lanesDown.filter (fun y => y / 16 = dir)).length

/-- Whether the laser groups of a port have their inputs in limits (R349, R355). -/
def portLit (s : State) (n : Nat) : Bool := (portGroups n).all (fun g => s.lk.laserIn.getLsbD (laserOf s g))

/-- ROSHAM_TRAINED, R355: a port that is enabled, has a valid calibration record and light, and is not in its safe state; a
peer port needs 8 lanes per direction (R344). Without a valid record it does not start, with CAL_INVALID. Receive fibres 0 and 1
crossed are put right by training; any other crossing leaves the port untrained, with FIBRE_CROSS (R334). -/
def execRoshamTrained (x : Training) (s : State) : Host.Outcome State Fault Refusal :=
  .next (if !rshEn s x.n || rshSafe s x.n || (s.rsh x.n).trained then s
    else if !s.st.calValid.contains x.n then rshErr x.n 0x2 s
    else if portLit s x.n && 8 ≤ lanesUp s x.n 0 && 8 ≤ lanesUp s x.n 1 then
      if x.x = .other then rshErr x.n 0x1 s else modRsh x.n (fun y => { y with trained := true }) s
    else s)

/-! ### Spare switches (R340 to R342) -/

/-- Whether the Hivik transmits on a fibre (R332). -/
def isTxFibre (fb : Nat) : Bool := if fb < 32 then fb % 2 = 0 else (fb - 32) % 4 < 2

/-- Lane l is in service on the spare channel, and its old channel is the spare, not yet tested (R342); a width change that
waited for the switch takes effect (R340). -/
def switchDone (fb l : Nat) (s : State) : State :=
  let n := (fibreOf fb).1
  let s := s |> modFibre fb (fun m => { m with
        lanes := tabSet m.lanes l m.spare, spare := laneCh m l, spareOk := false, switching := none, started := false })
    |> rshErr n 0x8
  if n < 16 && !portSwitching s n then
    modHc n (fun x => { x with width := x.pendWidth.getD x.width, pendWidth := none }) s
  else s

/-- SWAP, R342: the transmitter starts the lane on the spare, with MARK. One that names another channel than the spare, a
fibre on which the Hivik receives, or a fibre whose switch is in progress, is not acted on. -/
def execSwap (fb lane spare : Nat) (s : State) : Host.Outcome State Fault Refusal :=
  .next (let m := fibreMap s fb
    if isTxFibre fb && (s.rsh (fibreOf fb).1).trained && spare = m.spare && m.switching.isNone then
      s |> modFibre fb (fun m => { m with switching := some lane, started := true }) |> emit (.lane fb "MARK" lane spare)
    else s)

/-- MARK, R342: the receiver takes the lane from the spare and sends DONE. -/
def execMark (fb lane : Nat) (s : State) : Host.Outcome State Fault Refusal :=
  .next (let m := fibreMap s fb
    if m.switching = some lane && !m.started then s |> emit (.lane fb "DONE" lane m.spare) |> switchDone fb lane else s)

/-- DONE, R342: the lane is in service on the spare, and the old channel goes to the idle pattern. -/
def execDone (fb lane : Nat) (s : State) : Host.Outcome State Fault Refusal :=
  .next (let m := fibreMap s fb
    if m.switching = some lane && m.started then s |> emit (.lane fb "IDLE" lane (laneCh m lane)) |> switchDone fb lane else s)

/-! ### Laser inputs (R350 to R352) -/

/-- LASER_INPUT_FAULT, R351: the input's source becomes severe, and a spare input takes its group or the group's ports enter
their safe states; CAUSE stays with an input that still feeds a group (R384). -/
def execLaserInputFault (k : Nat) (s : State) : Host.Outcome State Fault Refusal :=
  .next (if !s.lk.laserIn.getLsbD k then s
    else
      let s := { s with lk.laserIn := s.lk.laserIn &&& ~~~ (BitVec.ofNat 8 (2 ^ k)) } |> severeFault (0xF60 + k)
      s |> modRsrc (0xF60 + k) (fun q => { q with cause := !laserIdle s k }) |> setLsrEn)

/-- LASER_INPUT_RESTORED, R351. -/
def execLaserInputRestored (k : Nat) (s : State) : Host.Outcome State Fault Refusal :=
  .next ({ s with lk.laserIn := s.lk.laserIn ||| BitVec.ofNat 8 (2 ^ k) }
    |> modRsrc (0xF60 + k) (fun q => { q with cause := false }) |> setLsrEn)

/-- LSR_FLT, R352: the Hivik reads LSR_FLTn from the source; nothing else follows from it. -/
def execLsrFlt (s : State) : Host.Outcome State Fault Refusal := .next { s with pin.lsrFlt := true }

/-! ### Reference clocks (R485) -/

/-- Number of a reference input in State's list of lost ones. -/
def clkNum : RefClk → Nat
  | .rosham => 0
  | .acdoic => 1
  | .bringUp => 2
  | .xtal => 3

/-- The port sources k = 0 that a reference input feeds (R380, R485). -/
def clkSources : RefClk → List Nat
  | .rosham => (List.range 16).map (fun p => 0xA00 + 8 * p) ++ (List.range 16).map (fun p => 0xA80 + 8 * p)
  | .acdoic => (List.range 4).map (fun q => 0xB00 + 16 * q)
  | .bringUp => []
  | .xtal => []

/-- The bring-up link is down: requests of the bring-up host's admin hoop fail (R308). -/
def buDown (s : State) : State :=
  { s with lk.buLinkUp := false, lk.buRate := 0, lk.buWidth := 0 } |> failReqs (fun r => r.tgt = .host 16) (fun _ => .target)

/-- REFCLK_LOSS, R485. -/
def execRefclkLoss (c : RefClk) (s : State) : Host.Outcome State Fault Refusal :=
  .next (if s.pin.refclkLost.contains (clkNum c) then s
    else
      { s with pin.refclkLost := s.pin.refclkLost ++ [clkNum c] }
      |> forAll (clkSources c) (fun x s => s |> modRsrc x (fun q => { q with cause := true }) |> severeFault x)
      |> when (c = .bringUp) buDown)

/-- REFCLK_RESTORED, R485 and R384. -/
def execRefclkRestored (c : RefClk) (s : State) : Host.Outcome State Fault Refusal :=
  .next ({ s with pin.refclkLost := s.pin.refclkLost.filter (· ≠ clkNum c) }
    |> forAll (clkSources c) (fun x => modRsrc x (fun q => { q with cause := false })))

end Sys2Proof.Machine
end

