-- ==== Sys2Proof/Machine/Regs.lean ====
section
/-! DEFINITION. Views of the state that software reads: wheel, Rennet and supply registers, measurements, the capability
table (R48, R49, R162, R191, R225, R246, R273, R274, R309, R310, R330, R361, R379, R403 to R405, R436, R441, R443, R465
to R469). -/

namespace Sys2Proof.Machine

open Sys2Proof

/-- The number whose bit k says whether f k, for k below n. -/
def maskBy (n : Nat) (f : Nat → Bool) : Nat := (List.range n).foldl (fun a k => if f k then a + 2 ^ k else a) 0

/-! ### Wheels (R273, R441) -/

/-- WHEEL_STATE. -/
def wheelState (s : State) (w : Nat) : Nat :=
  let x := s.wheel w
  let pinned := (s.wk.vats.filter (fun v => v.2.pin && v.2.st ≠ .free && v.2.wheel = w)).length
  b2n x.present * 2 ^ 63 + b2n x.resetting * 2 ^ 62 + b2n x.safe * 2 ^ 61 + x.manager * 2 ^ 8 + pinned % 64

/-- WHEEL_RES. -/
def wheelRes (s : State) (w : Nat) : Nat :=
  maskBy 16 (fun p => peerWheelOf s p = w) * 2 ^ 48 + maskBy 16 (fun p => hcWheelOf s p = w) * 2 ^ 32 +
    maskBy 32 (fun k => sliceWheelOf s k = w)

/-- WHEEL_CFG. -/
def wheelCfg (s : State) (w : Nat) : Nat :=
  let x := s.wheel w
  maskBy 4 (fun q => acdWheelOf s q = w) * 2 ^ 32 + x.pinQuota * 2 ^ 16 + x.holdCells * 2 ^ 8 + x.weight

/-- WHEEL_FDOM. -/
def wheelFdom (s : State) (w : Nat) : Nat := b2n (s.wheel w).fdomValid * 2 ^ 12 + (s.wheel w).fdom

/-! ### Rennet (R403, R404) -/

/-- RENNET_STATE. -/
def rennetState (s : State) : Nat :=
  b2n s.rn.deviceSafe * 2 ^ 63 + b2n s.pin.safen * 2 ^ 62 +
    (s.rn.rsrcs.filter (fun r => r.2.severe)).length * 2 ^ 32 + (s.rn.rsrcs.filter (fun r => r.2.status)).length

/-- SUPPLY_STATE. -/
def supplyState (s : State) : Nat :=
  b2n s.st.mramBlocked * 2 ^ 63 + b2n s.st.logicLow * 2 ^ 62 + b2n s.st.photLow * 2 ^ 61 + s.st.blocks

/-- INDEX of the unit under test, as R396 numbers it. -/
def turnIndex (t : Turn) : Nat := if t.kind = 2 then 9 * t.quad + t.index else if t.kind = 3 then 5 * t.quad + t.index else t.index

/-- KIND of the unit under test; for kinds that R396 gives no code, a value that the manual leaves open. -/
def turnKind (t : Turn) : Nat := if t.kind ≤ 7 then t.kind else Config.freeNat t.kind % 256

/-- TURN_STATE. -/
def turnState (s : State) : Nat :=
  match s.sp.turn with
  | some t => 2 ^ 63 + turnKind t * 2 ^ 48 + turnIndex t * 2 ^ 32 + s.sp.turns.toNat
  | none => s.sp.turns.toNat

/-- SPARE_Q of a quadrant. -/
def spareReg (s : State) (q : Nat) : Nat :=
  let x := s.spareQ q
  maskBy 9 (x.ladleFailed.contains ·) * 2 ^ 55 + maskBy 5 (x.heFailed.contains ·) * 2 ^ 50 + x.cellsOut.length * 2 ^ 32 +
    (32 - x.tilesUsed.length - (x.cellSpareBad.filter (fun t => !x.tilesUsed.contains t)).length) * 2 ^ 16 +
    x.ladleSpare.getD 15 * 2 ^ 8 + x.heSpare.getD 15 * 2 ^ 4

/-- SPARE_DEV. -/
def spareDev (s : State) : Nat :=
  s.sp.mramSpare * 2 ^ 40 + s.sp.laserSpares * 2 ^ 8 + b2n s.sp.secStandby * 32 + b2n s.sp.affStandby * 16 + s.sp.walkerSpares

/-- STATUS_MAP and SEVERE_MAP. -/
def faultMaps (s : State) : List Byte :=
  natLe 512 ((s.rn.rsrcs.filter (fun r => r.2.status && r.1 < 4096)).foldl (fun a r => a + 2 ^ r.1) 0) ++
    natLe 512 ((s.rn.rsrcs.filter (fun r => r.2.severe && r.1 < 4096)).foldl (fun a r => a + 2 ^ r.1) 0)

/-! ### Measurements (R436, R437) -/

/-- STATE of a measurement value: UPDATE_PENDING. -/
def measState (s : State) : Nat := b2n s.st.fwPending

/-- What measurement 0x04 covers: VERSION, port modes, the device manager, the number of wheels. -/
def modeBytes (s : State) : List Byte :=
  natLe 4 0x00020001 ++ natLe 2 (maskBy 16 (fun p => !hostMode s p)) ++ natLe 1 (s.wh.devmgr.getD 16) ++
    natLe 1 (s.wh.wheels.filter (fun w => w.2.present)).length

/-- What measurement 0x10 + w covers: bindings, manager, FDOM, settings, EXPORT slots, the digests of loaded recipes. -/
def wheelBytes (s : State) (w : Nat) : List Byte :=
  natLe 8 (wheelRes s w) ++ natLe 8 (wheelCfg s w) ++ natLe 1 (s.wheel w).manager ++ natLe 2 (wheelFdom s w) ++
    (s.pr.exports.filter (fun x => x.2.wheel = w)).flatMap (fun x => natLe 1 x.1 ++ natLe 8 x.2.q0.toNat) ++
    (s.wk.recipes.filter (fun r => fnWheel s r.fn = some w)).flatMap (fun r => natLe 48 (sha384 r.image))

/-- The digest that measurement index k reports. -/
def measDigest (s : State) (k : Nat) : Nat :=
  if k = 2 then (s.fwSlot s.st.fwRunning).digest
  else Config.measure k (if k = 3 then natLe 48 (s.fwSlot s.st.fwRunning).digest else if k = 4 then modeBytes s
    else if 16 ≤ k then wheelBytes s (k - 16) else [])

/-- The 52 bytes of a measurement value. -/
def measValue (s : State) (k : Nat) : List Byte := natLe 48 (measDigest s k) ++ natLe 4 (measState s)

/-! ### The capability table (R47, R465 to R469) -/

/-- FUNC_ID as FUNC_SELF shows it: 0xFFFF for the bring-up function. -/
def selfId (f : Fn) : Nat := if f = .bu then 0xFFFF else funcId f

/-- One record: header and words (R47). -/
def capRec (type : Nat) (ws : List Nat) : List Byte := natLe 4 (type * 65536 + 4 * (ws.length + 1)) ++ ws.flatMap (natLe 4)

/-- The words of FUNCTION (R469). -/
def capFunction (s : State) (f : Fn) : List Nat :=
  let id := selfId f * 65536 + (fnWheel s f).getD 0 * 4096
  match f with
  | .pf _ => [id, 0x01000000, 16384 * 65536 + 12, 28 * 2 ^ 24 + 27 * 2 ^ 16, 0x00020000, 0x00072000, 0]
  | .vf _ _ => [id, 0x00010000, 32 * 65536 + 12, 18 * 2 ^ 24, 0x00004000, 0x00008000, 0]
  | .bu => [id, 0, 0, 20 * 2 ^ 24, 0x00020000, 0x00072000, 0]

/-- The words of OBJECT_LIMITS (R49, R421). -/
def capObjects (s : State) (f : Fn) : List Nat :=
  let g := s.fnS f
  match f with
  | .pf _ => [65536, 32 * 65536 + 128, 16384, 4096, 2048, 0x20401004, 1048576]
  | .vf _ _ => [g.grVats, 32 * 65536 + 128, g.grHoops, g.grEvqs, 2048, 0x20401004, 1048576]
  | .bu => [0, 0, 0, 0, 0, 0x20401004, 0]

/-- The capability table of a function, terminator included (R466, R467). -/
def capTable (s : State) (f : Fn) : List Byte :=
  capRec 0x0001 [0x00020001, 0x4B554856, 65536] ++ capRec 0x0002 (capFunction s f) ++ capRec 0x0010 (capObjects s f) ++
    capRec 0x0011 [256 * 65536 + 1, 32768, 0x04200820, 8388608, 65536, 0x01FF0F3E, 0x03033F3F] ++
    capRec 0x0012 [0x00FF7F1E, 0x80FF0140, 2240 * 65536 + 32] ++
    capRec 0x0013 [512 * 65536 + 256, 131072, 0x10053834, 0x40211000, 16384, 256 * 65536 + 64, 512 * 65536 + 8192] ++
    capRec 0x0014 [64 * 65536 + 128, 8 * 65536 + 64, 16 * 65536 + 64] ++
    capRec 0x0015 [8192 * 65536 + 4096, 256 * 65536 + 64 * 256 + 5, 8192 * 65536 + 10] ++
    capRec 0x0016 [2048 * 65536 + 512, 65536, 4096 * 65536 + 2 * 256 + 16, 2097152] ++
    capRec 0x0017 [16 * 65536 + 16384, 256 * 65536 + 16 * 256 + 4, 4096 * 65536 + 16] ++
    capRec 0x0018 [9 * 65536 + 400, 4096 * 65536 + 320, 180 * 65536 + 256] ++
    capRec 0x0019 [20608 * 65536 + 4096, 3840 * 65536 + 256, vectorCount f * 65536 + 64] ++
    capRec 0x001A [4096 * 65536 + 2048, 16000000, 16384 * 65536 + 255] ++
    capRec 0x001B [16 * 65536 + 16 * 256 + 255, 256 * 65536 + 16, 64 * 65536 + 32] ++ natLe 4 0

end Sys2Proof.Machine
end

