-- ==== Sys2Proof/Machine/Security.lean ====
section
/-! DEFINITION. The SPDM responder, measurements, MCTP, keys and JTAG (R428 to R439, R488). The codes of SPDM's own errors
are those of the SPDM standard: 0x01 InvalidRequest, 0x03 Busy, 0x04 UnexpectedRequest, 0x07 UnsupportedRequest, 0x0A
SessionLimitExceeded (PRESUMED, log entry 15). -/

namespace Sys2Proof.Machine

open Sys2Proof

/-! ### Channels (R432) -/

/-- Whether a channel reaches the responder: its link is up (R288, R307, R433). -/
def chOpen (s : State) : SpdmCh → Bool
  | .doe p => hostMode s p && (s.hc p).linkUp
  | .bu => s.lk.buLinkUp
  | .mctp => true
  | .peer p => (s.rsh (16 + p)).trained

/-- The session of a channel. -/
def spdmOf (s : State) (ch : SpdmCh) : SpdmSess := tabGet {} s.se.spdm ch

/-- Change the session of a channel. -/
def modSpdm (ch : SpdmCh) (g : SpdmSess → SpdmSess) (s : State) : State :=
  { s with se.spdm := tabSet s.se.spdm ch (g (spdmOf s ch)) }

/-- A response whose contents the manual leaves to SPDM. -/
def spdmAnswer (ch : SpdmCh) (what : String) (k : Nat) (s : State) : State := emit (.spdm ch what (Config.response k)) s

/-! ### P-384 (R439; the curve's constants are those of its standard) -/

/-- The field prime. -/
def p384 : Nat := 2 ^ 384 - 2 ^ 128 - 2 ^ 96 + 2 ^ 32 - 1

/-- The constant b of the curve. -/
def b384 : Nat := 0xB3312FA7E23EE7E4988E056BE3F82D19181D9C6EFE8141120314088F5013875AC656398D8A2ED19D2A85C8EDD3EC2AEF

/-- Whether a point satisfies the curve's equation. -/
def onCurve (t : EcPoint) : Bool := (t.y * t.y + 3 * t.x) % p384 = (t.x * t.x * t.x + b384) % p384

/-- The code of the first check of R439 that a point fails. -/
def pointError (t : EcPoint) : Option Nat :=
  if p384 ≤ t.x || p384 ≤ t.y then some 0x11
  else if t.x = 0 && t.y = 0 then some 0x12
  else if !onCurve t then some 0x13
  else none

/-- KEY_EXCHANGE, R432 and R439: a point that fails a check is rejected with its code; otherwise session keys are derived on
die. A channel has one secured session. -/
def execKeyExchange (ch : SpdmCh) (pt : EcPoint) (s : State) : Host.Outcome State Fault Refusal :=
  .next (if !chOpen s ch then s
    else if !(spdmOf s ch).negotiated then emit (.spdmError ch 0x04) s
    else if (spdmOf s ch).secured then emit (.spdmError ch 0x0A) s
    else match pointError pt with
      | some c => emit (.spdmError ch c) s
      | none => s |> drawKey |> modSpdm ch (fun x => { x with keyed := true }) |> spdmAnswer ch "KEY_EXCHANGE_RSP" 0xE4)

/-! ### The other requests (R432) -/

/-- Answer another SPDM request on an open channel. -/
def spdmServe (ch : SpdmCh) (code : SpdmCode) (s : State) : State :=
  let x := spdmOf s ch
  match code with
  | .getVersion => spdmAnswer ch "VERSION" 0x84 s
  | .getCapabilities => spdmAnswer ch "CAPABILITIES" 0xE1 s
  | .negotiateAlgorithms => s |> modSpdm ch (fun x => { x with negotiated := true }) |> spdmAnswer ch "ALGORITHMS" 0xE3
  | .getDigests => spdmAnswer ch "DIGESTS" 0x81 s
  | .getCertificate slot => if slot = 0 then spdmAnswer ch "CERTIFICATE" 0x82 s else emit (.spdmError ch 0x01) s
  | .challenge => spdmAnswer ch "CHALLENGE_AUTH" 0x83 s
  | .finish macOk =>
    if !x.keyed then emit (.spdmError ch 0x04) s
    else if macOk then
      s |> modSpdm ch (fun x => { x with keyed := false, secured := true, updates := 0 }) |> spdmAnswer ch "FINISH_RSP" 0xE5
    else s |> modSpdm ch (fun x => { x with keyed := false }) |> emit (.spdmError ch 0x16)
  | .heartbeat => if x.secured then spdmAnswer ch "HEARTBEAT_ACK" 0xE8 s else emit (.spdmError ch 0x04) s
  | .keyUpdate =>
    if x.secured then s |> modSpdm ch (fun x => { x with updates := x.updates + 1 }) |> spdmAnswer ch "KEY_UPDATE_ACK" 0xE9
    else emit (.spdmError ch 0x04) s
  | .endSession =>
    if x.secured then s |> modSpdm ch (fun x => { x with secured := false }) |> spdmAnswer ch "END_SESSION_ACK" 0xEC
    else emit (.spdmError ch 0x04) s
  | .unsupported => emit (.spdmError ch 0x07) s

/-- SPDM_REQUEST, R432. -/
def execSpdmRequest (ch : SpdmCh) (code : SpdmCode) (s : State) : Host.Outcome State Fault Refusal :=
  .next (if chOpen s ch then spdmServe ch code s else s)

/-! ### Measurements (R436 to R438) -/

/-- Whether a requester may read measurement index k (R436). -/
def mayMeasure (s : State) (ch : SpdmCh) (k : Nat) : Bool :=
  (1 ≤ k && k ≤ 4) ||
  (16 ≤ k && k < 32 && (s.wheel (k - 16)).present &&
    match ch with
    | .doe p => hcWheelOf s p = k - 16 || s.wh.devmgr = some p
    | .bu => true
    | .mctp => true
    | .peer _ => false)

/-- Whether index k is answered Busy: its wheel is under WHEEL_RESET or a BIND changes it (R438). -/
def measBusy (s : State) (k : Nat) : Bool :=
  16 ≤ k && ((s.wheel (k - 16)).resetting || (s.wh.bindBusy && s.wh.bindWheels.contains (k - 16)))

/-- One measurement of a response: its index and value. -/
def measBlock (s : State) (k : Nat) : List Byte := natLe 1 k ++ measValue s k

/-- GET_MEASUREMENTS, R436: index 0xFF asks for all, from which a block that the requester may not read, or that is Busy, is
absent; index 0 asks for their number. -/
def execGetMeasurements (ch : SpdmCh) (index : Nat) (s : State) : Host.Outcome State Fault Refusal :=
  .next (if !chOpen s ch then s
    else
      let ks := (List.range 32).filter (mayMeasure s ch)
      if index = 0 then emit (.spdm ch "MEASUREMENTS" (natLe 1 ks.length)) s
      else if index = 0xFF then
        emit (.spdm ch "MEASUREMENTS" ((ks.filter (fun k => !measBusy s k)).flatMap (measBlock s))) s
      else if !mayMeasure s ch index then emit (.spdmError ch 0x01) s
      else if measBusy s index then emit (.spdmError ch 0x03) s
      else emit (.spdm ch "MEASUREMENTS" (measBlock s index)) s)

/-! ### MCTP, DRBG, migration sessions, JTAG -/

/-- MCTP_MESSAGE, R428 and R488: power is POWER_TELEM's value; the two sensors of an island are reported under its number (R13),
with readings that the manual leaves open. An island that does not exist has none. -/
def execMctpMessage (m : Mctp) (s : State) : Host.Outcome State Fault Refusal :=
  .next (match m with
    | .power => emit (.mctp "power" s.pin.watts) s
    | .sensor i =>
      if i < 60 then
        s |> emit (.sensor i 0 (Config.freeNat s.m.free)) |> emit (.sensor i 1 (Config.freeNat (s.m.free + 1))) |> takeFree 2
      else s
    | .spdm c => spdmServe .mctp c s)

/-- DRBG_RESEED, R430. -/
def execDrbgReseed (s : State) : Host.Outcome State Fault Refusal := .next { s with se.drbg := 0 }

/-- MIG_SESSION_EXPIRY, R434. -/
def execMigSessionExpiry (n : Nat) (s : State) : Host.Outcome State Fault Refusal :=
  .next (modMig n (fun m => if m.established then { m with spent := true } else m) s)

/-- JTAG_ACCESS, R431 and R481: TDO shifts out bits that the manual leaves open, and nothing else changes: no path of it reads
a key. -/
def execJtagAccess (op : Jtag) (s : State) : Host.Outcome State Fault Refusal :=
  .next (match op with
    | .reset => s
    | .shiftIr _ => s |> emit (.bits "tdo" (Config.freeNat s.m.free)) |> takeFree 1
    | .shiftDr _ => s |> emit (.bits "tdo" (Config.freeNat s.m.free)) |> takeFree 1)

end Sys2Proof.Machine
end

