-- ==== Sys2Proof/Machine/Supply.lean ====
section
/-! DEFINITION. Rennet's commands: source events, windows, gates, turning, supply rails, the temperature trip, clearing and
forcing (R381 to R398, R488). -/

namespace Sys2Proof.Machine

open Sys2Proof

/-! ### Sources (R380 to R384, R389) -/

/-- Whether Rennet has a source of a number that is not reserved (R380). -/
def srcExists (x : Nat) : Bool :=
  if x < 0x0FB then true
  else if x < 0x100 then false
  else if x < 0x924 then true
  else if x < 0x928 then false
  else if x < 0x93C then true
  else if x < 0x940 then false
  else if x < 0x964 then true
  else if x < 0x970 then false
  else if x < 0x980 then true
  else if x < 0xA00 then false
  else if x < 0xA80 then decide (x % 8 < 5)
  else if x < 0xB00 then decide (x % 8 < 4)
  else if x < 0xB40 then decide (x % 16 < 4)
  else if x < 0xC00 then false
  else decide (x < 0xF68)

/-- Whether a source is that of SRAM arrays (R380, R389). -/
def isSramSrc (x : Nat) : Bool := x = 0x0F9 || (0x940 ≤ x && x < 0x960)

/-- SOURCE_EVENT, R381: a corrected error of an array whose bank still has a spare row replaces the row and is no event
(R382, R389). -/
def execSourceEvent (src : Nat) (ev : FaultEvent) (alive : Bool) (s : State) : Host.Outcome State Fault Refusal :=
  .next (if !srcExists src then s
    else if isSramSrc src && !ev.unc && tabGet 0 s.sp.sramRows src < 4 then
      { s with sp.sramRows := tabSet s.sp.sramRows src (tabGet 0 s.sp.sramRows src + 1) }
    else rennetEvent src ev.unc alive alive false ev.lost s)

/-- WINDOW_EXPIRY, R381: COUNT below N returns to 0; a severe source keeps its count. -/
def execWindowExpiry (src : Nat) (s : State) : Host.Outcome State Fault Refusal :=
  .next (if (s.rsrc src).severe || threshOf s src ≤ (s.rsrc src).count then s
    else modRsrc src (fun q => { q with count := 0 }) s)

/-- WRITE_GATE_CLOSED, R390. -/
def execWriteGateClosed (u : Unit_) (s : State) : Host.Outcome State Fault Refusal :=
  .next (if s.rn.gates.contains u && !s.rn.gatesClosed.contains u then { s with rn.gatesClosed := s.rn.gatesClosed ++ [u] } else s)

/-- SRC_STATUS_CLEAR, R384 and R393. -/
def execSrcStatusClear (f : Fn) (src : Nat) (s : State) : Host.Outcome State Fault Refusal :=
  .next (inD0 f (fun s => if isDevmgr s f && srcExists src then s |> clearSrc src |> setLsrEn else s) s)

/-- SRC_FORCE, R383. -/
def execSrcForce (f : Fn) (src : Nat) (s : State) : Host.Outcome State Fault Refusal :=
  .next (inD0 f (fun s => if isDevmgr s f && srcExists src then rennetEvent src false true true true [] s else s) s)

/-! ### Turning (R394, R395) -/

/-- TURN_DUE, R394: deferred while another test runs or no spare of the kind is free. -/
def execTurnDue (kind q : Nat) (s : State) : Host.Outcome State Fault Refusal :=
  .next (if !s.sp.turnEn then s
    else match s.sp.turn, turnUnit s kind q with
      | none, some k => runTurn kind q k s
      | _, _ => if s.sp.deferred.contains (kind, q) then s else { s with sp.deferred := s.sp.deferred ++ [(kind, q)] })

/-- The source of a unit that failed its test counts an uncorrectable event, logged with REACTION 0x08 (R394). -/
def failedTest (x : Nat) (s : State) : State :=
  let was := (s.rsrc x).severe
  s |> modRsrc x (fun q => { q with
      status := true, count := if was then q.count else min 255 (q.count + 1), severe := true, uncorr := true
      reaction := if was then q.reaction else 0x08 })
    |> when (!was) (fun s => s |> logSevere x 0x08 0xFFFF |> sendMsix .bu 1)
    |> summaryInput (x / 2)

/-- TURN_TEST_DONE, R394 to R397. -/
def execTurnTestDone (pass : Bool) (s : State) : Host.Outcome State Fault Refusal :=
  .next (match s.sp.turn with
    | none => s
    | some t => s |> when (!pass) (failedTest (testSource s t)) |> endTest t pass)

/-! ### Rails and temperature (R398, R488) -/

/-- A condition behind a source begins: CAUSE is 1, and the source becomes severe. -/
def conditionOn (x : Nat) (s : State) : State := s |> modRsrc x (fun q => { q with cause := true }) |> severeFault x

/-- The condition ends: CAUSE falls to 0 (R384). -/
def conditionOff (x : Nat) (s : State) : State := modRsrc x (fun q => { q with cause := false }) s

/-- LOGIC_RAIL_LOW, R398. -/
def execLogicRailLow (s : State) : Host.Outcome State Fault Refusal :=
  .next (if s.st.logicLow then s else { s with st.logicLow := true } |> conditionOn 0x0F0)

/-- PHOT_RAIL_LOW, R398. -/
def execPhotRailLow (s : State) : Host.Outcome State Fault Refusal :=
  .next (if s.st.photLow then s else { s with st.photLow := true } |> conditionOn 0x0F1)

/-- RAIL_18_LOW, R398: MRAM writes are blocked, and an episode counts (R404 BLOCKS). -/
def execRail18Low (s : State) : Host.Outcome State Fault Refusal :=
  .next (if s.st.mramBlocked then s
    else { s with st.mramBlocked := true, st.blocks := min 65535 (s.st.blocks + 1) } |> conditionOn 0x0F2)

/-- RAIL_RESTORED, R398: with the 1.8 V rail back, the MRAM writes that waited are carried out. -/
def execRailRestored (r : Rail) (s : State) : Host.Outcome State Fault Refusal :=
  .next (match r with
    | .logic => { s with st.logicLow := false } |> conditionOff 0x0F0
    | .photonic => { s with st.photLow := false } |> conditionOff 0x0F1
    | .r18 => { s with st.mramBlocked := false, st.mramWaits := [] } |> conditionOff 0x0F2 |> forAll s.st.mramWaits mramDo)

/-- THERM_TRIP, R488: the device enters its safe state, with SAFEn and LSR_EN low. -/
def execThermTrip (s : State) : Host.Outcome State Fault Refusal :=
  .next (if s.pin.thermTrip then s else { s with pin.thermTrip := true } |> conditionOn 0x0F8 |> setLsrEn)

/-- THERM_TRIP_CLEARED, R488 and R384. -/
def execThermTripCleared (s : State) : Host.Outcome State Fault Refusal :=
  .next ({ s with pin.thermTrip := false } |> conditionOff 0x0F8)

end Sys2Proof.Machine
end

