-- ==== Sys2Proof/Machine/Startup.lean ====
section
/-! DEFINITION. Reset domains, the cold start sequence, the vat store, Rest and Deep Rest, the time base, power and energy
windows, and the bring-up link (R13, R18, R307, R374, R378, R428, R444 to R457, R476 to R487). -/

namespace Sys2Proof.Machine

open Sys2Proof

/-! ### Reset domains (R399, R444, R478) -/

/-- Whether a reset of the cold domain loses a location: the far tier, whose key goes, and the scratchpad (R132, R306, R399). -/
def lostAtReset (a : Nat) : Bool := (2 ^ 48 ≤ a && a < 2 ^ 48 + 2 ^ 46) || (2 ^ 52 ≤ a && a < 2 ^ 52 + 2 ^ 27)

/-- MRAM and SPI flash, which a reset keeps: an MRAM write not yet made is lost, a pending image is abandoned (R399, R402,
R450). -/
def keptStore (x : StoreS) : StoreS :=
  { log := x.log, portCfg := x.portCfg, calValid := x.calValid, calSeq := x.calSeq, fwActive := x.fwActive, fwSvn := x.fwSvn
    fwSlots := x.fwSlots, fwRunning := x.fwActive, mramBlocked := x.mramBlocked, logicLow := x.logicLow, photLow := x.photLow }

/-- The cold reset domain in reset: everything returns to its reset state but MRAM, SPI flash, DEVICE_TIME and the Cave
registers, the pins' inputs, and memory that the Hivik does not hold (R444). -/
def coldDomain (s : State) : State :=
  { State.reset with
    pending := s.pending
    m := { mem := s.m.mem.filter (fun c => !lostAtReset c.1), poison := s.m.poison.filter (fun g => !lostAtReset (64 * g))
           free := s.m.free }
    pin := { out := s.pin.out, lsrFlt := s.pin.lsrFlt, refclkLost := s.pin.refclkLost, thermTrip := s.pin.thermTrip
             undriven := s.pin.undriven }
    tm := { bootCount := s.tm.bootCount, deviceTime := s.tm.deviceTime, timeKnown := s.tm.timeKnown }
    cv := s.cv
    lk := { laserIn := s.lk.laserIn }
    st := keptStore s.st }

/-! ### Cold start (R407, R408, R446 to R448) -/

/-- The slot that the boot ROM loads: the active one if its image passes, else the other; none: recovery (R447). -/
def bootSlot (s : State) : Option Nat :=
  [s.st.fwActive, 1 - s.st.fwActive].find? (fun k => (s.fwSlot k).valid && s.st.fwSvn ≤ (s.fwSlot k).svn)

/-- The port configuration in force: the stored record, or that of R446 where none is stored. -/
def startCfg (s : State) : PortCfg := s.st.portCfg.getD { hcEn := 0xFFFF, acdEn := 0xF }

/-- The device manager of a cold start (R407, R408). -/
def startDevmgr (s : State) : Option Nat :=
  let c := startCfg s
  if s.st.portCfg.isSome && c.devmgr < 16 && !c.far.getLsbD c.devmgr then some c.devmgr
  else (List.range 16).find? (fun p => !c.far.getLsbD p)

/-- A host-class port as firmware sets it up (R276). -/
def startHc (c : PortCfg) (on : Bool) (p : Nat) : HcPort :=
  { far := c.far.getLsbD p, cxlEn := c.cxlEn.getLsbD p, linkEn := c.hcEn.getLsbD p && on
    modeAct := c.far.getLsbD p, cxlAct := c.cxlEn.getLsbD p }

/-- Ports enabled by the configuration; in recovery none is (R446, R447). -/
def startPorts (on : Bool) (s : State) : State :=
  let c := startCfg s
  { s with
    lk.hc := (List.range 16).map (fun p => (p, startHc c on p))
    lk.peer := (List.range 16).map (fun p => (p, { en := c.peerEn.getLsbD p && on }))
    lk.acd := (List.range 4).map (fun q => (q, { linkEn := c.acdEn.getLsbD q && on, training := c.acdEn.getLsbD q && on }))
    lk.rsh := (List.range 32).map (fun n =>
      (n, { err := if rshEnOf c on n && !s.st.calValid.contains n then 0x2 else 0 })) }
where
  /-- Enable of Rosham port n in the configuration. -/
  rshEnOf (c : PortCfg) (on : Bool) (n : Nat) : Bool := on && (if n < 16 then c.hcEn.getLsbD n else c.peerEn.getLsbD (n - 16))

/-- Conditions behind sources that persist through a reset are there again after it (R384, R398, R485, R488). -/
def persistConditions (s : State) : State :=
  s |> when s.st.logicLow (conditionOn 0x0F0) |> when s.st.photLow (conditionOn 0x0F1)
    |> when s.st.mramBlocked (conditionOn 0x0F2) |> when s.pin.thermTrip (conditionOn 0x0F8)
    |> forAll ([RefClk.rosham, .acdoic].filter (fun c => s.pin.refclkLost.contains (clkNum c)))
        (fun c => forAll (clkSources c) conditionOn)

/-- Steps 3 to 9 of R446 on a domain in reset; training, its results and the sessions of step 10 are commands of their own.
Every unit passes the self-test of R448 here: one that fails is a SOURCE_EVENT. -/
def startUp (s : State) : State :=
  let slot := bootSlot s
  let dm := startDevmgr s
  s |> startPorts slot.isSome
    |> (fun s => { s with
        tm.boot := .running, tm.bootCount := s.tm.bootCount + 1, tm.recovery := slot.isNone
        tm.islands := (List.range 60).map (fun i => (i, { time := s.tm.deviceTime }))
        st.fwRunning := slot.getD s.st.fwActive
        wh.devmgr := dm
        wh.wheels := [(0, { present := true, pinQuota := 32, manager := dm.getD 0 })]
        pin.safen := false })
    |> persistConditions |> setLsrEn

/-- COLD_START, R446: PORSTn is released with every rail in range and the reference clocks stable (R445); DEVICE_TIME starts
from 0, and the Cave registers from their reset values, unless they were kept (R444). -/
def execColdStart (s : State) : Host.Outcome State Fault Refusal :=
  .next (let t := coldDomain s
    startUp { t with
      cv := if s.tm.timeKnown then s.cv else {}
      tm.deviceTime := if s.tm.timeKnown then s.tm.deviceTime else 0
      tm.timeKnown := true
      pin.refclkLost := [], pin.thermTrip := false, pin.undriven := false
      st.logicLow := false, st.photLow := false, st.mramBlocked := false })

/-- Whether Hivik-L is powered and out of reset. -/
def isUp (s : State) : Bool := s.tm.boot = .running || s.tm.boot = .rest

/-- WARM_RESET, R444: the cold start sequence from step 3. -/
def execWarmReset (s : State) : Host.Outcome State Fault Refusal :=
  .next (if isUp s then s |> coldDomain |> startUp else s)

/-- CORE_RAIL_LOSS, R478: the cold reset domain resets, and waits for PORSTn's release. In Deep Rest the rail is removed
without a fault (R479). -/
def execCoreRailLoss (s : State) : Host.Outcome State Fault Refusal :=
  .next (if s.tm.boot = .deepRest || s.tm.boot = .deepWake then s else coldDomain s)

/-- CAVE_POWER_LOSS, R478: the Cave stops, DEVICE_TIME and the Cave registers are lost, SAFEn and LSR_EN are undriven. A
device at rest has nothing left to wake it. -/
def execCavePowerLoss (s : State) : Host.Outcome State Fault Refusal :=
  .next { s with
    cv := {}, tm.deviceTime := 0, tm.timeKnown := false, pin.undriven := true, pin.lsrEn := false
    tm.boot := if s.tm.boot = .running || s.tm.boot = .held then s.tm.boot else .off }

/-! ### The vat store (R449) -/

/-- VAT_STORE_REMIRROR, R449: the surviving copy is mirrored onto the lowest-numbered other port that is up. -/
def execVatStoreRemirror (s : State) : Host.Outcome State Fault Refusal :=
  .next (match s.st.vatStore with
    | [q] => match (List.range 4).find? (fun r => r ≠ q && (s.acd r).up && !(s.acd r).safe) with
      | some r => { s with st.vatStore := [q, r] }
      | none => s
    | _ => s)

/-! ### Rest and Deep Rest (R374, R452 to R457, R479) -/

/-- Whether an admin entry is in progress, a data hoop's tail differs from its published head, or a LAUNCH is outstanding
(R454). -/
def workLeft (s : State) : Bool :=
  s.wk.admins.any (fun a => a.2.cur.isSome || !a.2.entries.isEmpty || a.2.head ≠ a.2.tail) ||
    s.wk.hoops.any (fun h => h.2.present && h.2.tail ≠ h.2.pub) ||
    s.lk.acd.any (fun q => !q.2.launches.isEmpty)

/-- The first reason of R454 for which entry is refused; 0: none. -/
def restRefusal (deep : Bool) (s : State) : Nat :=
  if (List.range 16).any (fun p => hostMode s p && !(s.fnS (.pf p)).dstate3) then 1
  else if workLeft s then 2
  else if s.pr.colls.any (fun g => g.2.enable) then 3
  else if deep && s.wk.vats.any (fun v => v.2.st ≠ .free) then 4
  else 0

/-- A write of REST_CTRL with ENTER = 1 (R454). -/
def restRequest (deep : Bool) (s : State) : State :=
  if s.tm.boot ≠ .running || s.tm.restEnter then s
  else
    let r := restRefusal deep s
    if r ≠ 0 then { s with tm.refused := r } else { s with tm.restDeep := deep, tm.restEnter := true }

/-- REST_ENTER, R454. -/
def execRestEnter (f : Fn) (s : State) : Host.Outcome State Fault Refusal :=
  .next (inD0 f (fun s => if isDevmgr s f then restRequest false s else s) s)

/-- DEEP_REST_ENTER, R454. -/
def execDeepRestEnter (f : Fn) (s : State) : Host.Outcome State Fault Refusal :=
  .next (inD0 f (fun s => if isDevmgr s f then restRequest true s else s) s)

/-- CAVE_CAUSE records the first cause of a wake (R374, R378). -/
def caveCause (kind slot : Nat) (s : State) : State :=
  if s.cv.woke then s else { s with cv.woke := true, cv.wakeKind := kind, cv.wakeSlot := slot }

/-- Whether a cause is enabled: a watch slot in use, a fixed input of CAVE_FIXED (R374). -/
def causeOn (s : State) : WakeCause → Bool
  | .inbound => true
  | .watched k => (tabGet (false, 0) s.cv.caveWatch k).1
  | .waken => s.cv.caveWakeEn
  | .smbus => s.cv.caveSmbEn
  | .alarm => s.cv.caveAlarmEn

/-- CAVE_CAUSE of a cause; an inbound request has no code there (R378). -/
def recordCause (c : WakeCause) (s : State) : State :=
  match c with
  | .inbound => s
  | .watched k => caveCause 0 k s
  | .waken => caveCause 1 0 s
  | .smbus => caveCause 2 0 s
  | .alarm => caveCause 3 0 s

/-- The device runs again: WAKES counts, vector 3 of the bring-up function is signalled, and a watched source's event is
delivered (R373, R374, R455). -/
def wakeUp (c : WakeCause) (s : State) : State :=
  let s := { s with tm.boot := .running, tm.restEnter := false, tm.wakes := min 255 (s.tm.wakes + 1) } |> recordCause c
    |> sendMsix .bu 3
  match c with
  | .watched k => deliverPending (tabGet (false, 0) s.cv.caveWatch k).2 s
  | _ => s

/-- Whether a cause is a fixed input (R374). -/
def isFixed : WakeCause → Bool
  | .inbound => false
  | .watched _ => false
  | _ => true

/-- A cause arrives: it wakes the device from Rest, ends an entry in progress, or starts the wake from Deep Rest, for which
VCORE_EN goes high (R455, R456, R479). -/
def wake (c : WakeCause) (s : State) : State :=
  if !causeOn s c then s
  else if s.tm.boot = .rest || (s.tm.restEnter && (!s.tm.restDeep || isFixed c)) then wakeUp c s
  else if s.tm.boot = .deepRest && isFixed c then { s with tm.boot := .deepWake, pin.vcoreEn := true } |> recordCause c
  else s

/-- REST_WAKE, R455. -/
def execRestWake (c : WakeCause) (s : State) : Host.Outcome State Fault Refusal :=
  .next (if s.tm.boot = .deepRest then s else wake c s)

/-- DEEP_REST_WAKE, R456. -/
def execDeepRestWake (c : WakeCause) (s : State) : Host.Outcome State Fault Refusal :=
  .next (if s.tm.boot = .rest then s else wake c s)

/-- WAKEN_ASSERT, R374. -/
def execWakenAssert (s : State) : Host.Outcome State Fault Refusal := .next (wake .waken s)

/-- CAVE_ALARM_MATCH, R378. -/
def execCaveAlarmMatch (s : State) : Host.Outcome State Fault Refusal := .next (wake .alarm s)

/-- CORE_RAILS_READY, R456 and R479: the cold start from step 2, with DEVICE_TIME and the Cave registers kept; the wake is
complete. -/
def execCoreRailsReady (s : State) : Host.Outcome State Fault Refusal :=
  .next (if s.tm.boot = .deepWake then s |> coldDomain |> startUp |> sendMsix .bu 3 else s)

/-- Deep Rest brings every Rosham and Acdoic port down, with the effects of R283, R306 and R326 (R456). -/
def portsDown (s : State) : State :=
  s |> forAll (List.range 16) (fun p s => when (s.hc p).linkUp (hcDown p) s)
    |> forAll (List.range 16) (fun p s => when (s.peerP p).up (peerDown p) s)
    |> forAll (List.range 4) (fun q s => when (s.acd q).up (fun s => s |> acdDrop q |> dropStore q) s)

/-- Turning stops: a test that runs ends, its unit being presumed good (R395, R454). -/
def stopTurning (s : State) : State :=
  match s.sp.turn with
  | some t => { s with sp.turn := none } |> unitPassed t
  | none => s

/-- The watch slots whose sources hold an undelivered, unmasked event (R374). -/
def watchedPending (s : State) : List Nat :=
  (List.range 64).filter (fun k =>
    let w := tabGet (false, 0) s.cv.caveWatch k
    w.1 && (s.src w.2).pending && !(s.src w.2).mask)

/-- REST_ENTRY_COMPLETE, R454: REFUSED reads 0, and a watched source with an undelivered event wakes the device at once
(R374). -/
def execRestEntryComplete (s : State) : Host.Outcome State Fault Refusal :=
  .next (if !s.tm.restEnter then s
    else
      let s := { s with tm.restEnter := false, tm.refused := 0 } |> stopTurning
      if s.tm.restDeep then
        let s := portsDown s
        { s with tm.boot := .deepRest, pin.vcoreEn := false, pin.lsrEn := false, pin.safen := false }
      else
        let s := { s with tm.boot := .rest }
        match watchedPending s with
        | k :: _ => wakeUp (.watched k) s
        | [] => s)

/-! ### Time, power and energy (R13, R18, R428, R487) -/

/-- TIME_REALIGN, R18: the islands' copies take DEVICE_TIME. -/
def execTimeRealign (s : State) : Host.Outcome State Fault Refusal :=
  .next (if s.tm.timeKnown then forAll (List.range 60) (fun i => modIsland i (fun x => { x with time := s.tm.deviceTime })) s else s)

/-- POWER_WINDOW, R428: POWER_TELEM takes the mean power of the window, in whole watts. -/
def execPowerWindow (milliwatts : Nat) (s : State) : Host.Outcome State Fault Refusal :=
  .next { s with pin.watts := milliwatts / 1000, pin.windows := s.pin.windows + 1 }

/-- ENERGY_WINDOW, R487: 0.8 pJ for each optical bit and 0.3 pJ for each Acdoic bit against 2.17 mJ. -/
def execEnergyWindow (optBits acdBits : Nat) (s : State) : Host.Outcome State Fault Refusal :=
  .next { s with pin.paced := decide (21700000000 < 8 * optBits + 3 * acdBits) }

/-! ### The bring-up port (R307, R308, R444) -/

/-- BU_LINK_TRAINED, R307. -/
def execBuLinkTrained (rate width : Nat) (s : State) : Host.Outcome State Fault Refusal :=
  .next (if isUp s && !s.pin.refclkLost.contains (clkNum .bringUp) then
      { s with lk.buLinkUp := true, lk.buRate := rate, lk.buWidth := width }
    else s)

/-- BU_LINK_DOWN, R307. -/
def execBuLinkDown (s : State) : Host.Outcome State Fault Refusal := .next (buDown s)

/-- BU_RESET, R444: the bring-up function and its admin hoop return to their reset states. -/
def execBuReset (s : State) : Host.Outcome State Fault Refusal :=
  .next (
    let ports := match (s.admin 16).cur with
      | some w => match w.kind with
        | .calibrate _ => w.ports
        | _ => []
      | none => []
    let s := buDown s |> forAll ports (fun n => modRsh n (fun x => { x with calibrating := false }))
    { s with
      wk.admins := tabDel s.wk.admins 16, ev.fns := tabDel s.ev.fns .bu, se.spdm := tabDel s.se.spdm .bu })

end Sys2Proof.Machine
end

