-- ==== Sys2Proof/Machine/RegMap.lean ====
section
/-! DEFINITION. Where registers lie in BAR0 and what an exact write of each does (R84, R85, R224, R273, R309, R329, R360,
R375 to R378, R403, R404, R441, R457, R462 to R465). -/

namespace Sys2Proof.Machine

open Sys2Proof

/-! ### The layout (R462 to R465) -/

/-- A run of registers: first offset, offset past the last, width in bytes. -/
abbrev RegRun := Nat × Nat × Nat

/-- The runs of the admin, interrupt, Rennet, Cave, translation and wheel blocks, and of the identity block (R84, R224, R375,
R376, R378, R403, R441, R457, R462, R465). -/
def runsLow : List RegRun :=
  [(0x0, 0x8, 4), (0x8, 0x20, 8), (0x1000, 0x1128, 4), (0x10000, 0x10038, 8),
   (0x20000, 0x20010, 8), (0x20100, 0x20B10, 8), (0x20D00, 0x21710, 8), (0x21900, 0x22310, 8), (0x22500, 0x22F10, 8),
   (0x23100, 0x24520, 8), (0x25000, 0x27000, 4), (0x28000, 0x2F800, 8),
   (0x30000, 0x30010, 8), (0x30100, 0x30180, 8), (0x30800, 0x31800, 8),
   (0x40000, 0x40038, 8), (0x40040, 0x40080, 8), (0x40100, 0x40128, 8), (0x40800, 0x40C00, 8), (0x48000, 0x50000, 8),
   (0x50000, 0x50030, 8), (0x50100, 0x50300, 8), (0x60000, 0x60040, 8), (0x60100, 0x60180, 8),
   (0x70000, 0x70010, 8), (0x70600, 0x70700, 8), (0x71000, 0x72000, 8)]

/-- The runs of the port and peer blocks (R273, R309, R360). -/
def runsPort : List RegRun :=
  [(0x81000, 0x81010, 8), (0x88000, 0x88010, 8), (0x88100, 0x88180, 8), (0x88200, 0x88280, 8), (0x88400, 0x89800, 8),
   (0x8A000, 0x9A000, 8), (0xB2000, 0xB2010, 8)]

/-- Repeated groups: base, past the last, stride, bytes used of each stride (R273, R309, R329, R360, R441, R442). -/
def regGroups : List (Nat × Nat × Nat × Nat) :=
  [(0x70100, 0x70500, 0x40, 0x30), (0x72000, 0x76000, 0x20, 0x18), (0x80000, 0x81000, 0x100, 0x38), (0xA0000, 0xA0400, 0x100, 0x40),
   (0xB0000, 0xB2000, 0x100, 0x40), (0x1000000, 0x5000000, 0x1000, 0x40)]

/-- The MSI-X table and PBA of the fast bank; the bring-up function has four entries (R376, R463). -/
def runsMsix (bu : Bool) : List RegRun :=
  if bu then [(0x38000, 0x38040, 4)] else [(0x37F00, 0x38000, 8), (0x38000, 0x40000, 4)]

/-- The runs of VF BAR0 (R377, R464). -/
def runsVf : List RegRun :=
  [(0x0, 0x8, 4), (0x8, 0x20, 8), (0x1000, 0x1128, 4), (0x4000, 0x4038, 8), (0x4100, 0x4140, 4), (0x4200, 0x4208, 8),
   (0x4400, 0x4500, 4), (0x5000, 0x8000, 8), (0x8000, 0x8018, 8), (0x8020, 0xC820, 8)]

/-- First offset and width of the register of a run that holds byte o. -/
def inRun (o : Nat) (r : RegRun) : Option (Nat × Nat) :=
  if r.1 ≤ o && o < r.2.1 then some (o - (o - r.1) % r.2.2, r.2.2) else none

/-- First offset and width of the register of a repeated group that holds byte o. -/
def inGroup (o : Nat) (g : Nat × Nat × Nat × Nat) : Option (Nat × Nat) :=
  if g.1 ≤ o && o < g.2.1 && (o - g.1) % g.2.2.1 < g.2.2.2 then some (o - (o - g.1) % 8, 8) else none

/-- The register that holds byte o of function f's BAR0: its first offset and its width; none at a reserved offset. -/
def regAt (f : Fn) (o : Nat) : Option (Nat × Nat) :=
  match f with
  | .vf _ _ => (runsVf.findSome? (inRun o)).or (inGroup o (0x10000, 0x30000, 0x1000, 0x40))
  | .pf _ => (((runsLow ++ runsPort ++ runsMsix false).findSome? (inRun o)).or (inVfFlr o)).or (regGroups.findSome? (inGroup o))
  | .bu => if o < 2 ^ 20 then
      (((runsLow ++ runsPort ++ runsMsix true).findSome? (inRun o)).or (inVfFlr o)).or (regGroups.findSome? (inGroup o))
    else none
where
  /-- VF_FLR_REQ, past the first seven registers of a host-class port. -/
  inVfFlr (o : Nat) : Option (Nat × Nat) :=
    if 0x80000 ≤ o && o < 0x81000 && 0x40 ≤ o % 0x100 && o % 0x100 < 0x80 then some (o - o % 8, 8) else none

/-! ### Blocks -/

/-- HOOP_ERR and ADMIN_ERR bits that a W1C write leaves (R84, R85). -/
def keepBit (v : W64) (i : Nat) (b : Bool) : Bool := b && !v.getLsbD i

/-- A write of a doorbell page's HOOP_ERR or HOOP_CTRL by the owner (R85). -/
def pageWrite (h r : Nat) (v : W64) (s : State) : State :=
  if r = 0x10 then
    modHoop h (fun x => { x with
      ringFault := keepBit v 5 x.ringFault, dbDisabled := keepBit v 4 x.dbDisabled, pushMismatch := keepBit v 3 x.pushMismatch
      dbBadWidth := keepBit v 2 x.dbBadWidth, tailRange := keepBit v 1 x.tailRange, ownTimeout := keepBit v 0 x.ownTimeout }) s
  else if r = 0x18 && v.getLsbD 0 then enableHoop h s
  else s

/-- A write of the admin hoop setup block of admin hoop a (R84). -/
def adminSetup (a r : Nat) (v : W64) (s : State) : State :=
  let free := !(s.admin a).enable
  if r = 0x00 then adminTail a (v.setWidth 32) s
  else if r = 0x10 then when free (modAdmin a (fun x => { x with base := v.toNat / 4096 * 4096 })) s
  else if r = 0x18 then
    when free (modAdmin a (fun x => { x with
      evqValid := v.getLsbD 28, evq := field v.toNat 27 16, log2 := field v.toNat 3 0 })) s
  else if r = 0x20 then when free (modAdmin a (fun x => { x with headAddr := v.toNat / 8 * 8 })) s
  else if r = 0x28 then (if v.getLsbD 0 then adminStart a s else adminOff a s)
  else if r = 0x30 then
    modAdmin a (fun x => { x with
      ringFault := keepBit v 5 x.ringFault, dbDisabled := keepBit v 4 x.dbDisabled
      dbBadWidth := keepBit v 2 x.dbBadWidth, tailRange := keepBit v 1 x.tailRange, ownTimeout := keepBit v 0 x.ownTimeout }) s
  else s

/-- A write of a SENSE register: two bits for each of 32 sources that the writer configures (R364, R375). -/
def senseWrite (f : Fn) (q : Nat) (v : W64) (s : State) : State :=
  forAll (List.range 32) (fun k t =>
    match bankSource t f (32 * q + k) with
    | some x => if (fastSlotOf t x).isNone then modSrc x (fun y => { y with sense := some (field v.toNat (2 * k + 1) (2 * k)) }) t else t
    | none => t) s

/-- INT_ERR, VF_INT_ERR or FAST_ERR: W1C (R375, R376). -/
def intErrWrite (fast : Bool) (f : Fn) (v : W64) (s : State) : State :=
  modFnS f (fun x => if fast then
      { x with slotBad := keepBit v 2 x.slotBad, fDoneBad := keepBit v 1 x.fDoneBad, fReadBad := keepBit v 0 x.fReadBad }
    else { x with doneBad := keepBit v 1 x.doneBad, readBad := keepBit v 0 x.readBad }) s

/-- A route write by the owning function (R375). -/
def evqWrite (f : Fn) (e : Nat) (v : W64) (s : State) : State :=
  if (s.evq e).present && (s.evq e).fn = f then routeOf e v s else s

/-- A write of the normal interrupt bank (R375). -/
def normalBank (f : Fn) (r : Nat) (v : W64) (s : State) : State :=
  if r = 0x0 then doneWrite false f v s
  else if r = 0x8 then intErrWrite false f v s
  else if r < 0xD00 then bankWrite f ((r - 0x100) / 8) v maskSrc s
  else if r < 0x1900 then bankWrite f ((r - 0xD00) / 8) v unmaskSrc s
  else if r < 0x2500 then bankWrite f ((r - 0x1900) / 8) v srcEvent s
  else if r < 0x3100 then bankWrite f ((r - 0x2500) / 8) v unpendSrc s
  else if r < 0x5000 then senseWrite f ((r - 0x3100) / 8) v s
  else if r < 0x8000 then s
  else evqWrite f ((r - 0x8000) / 8) v s

/-- Apply an operation to the sources of the fast slots whose bits a write sets, where the writer configures them (R366,
R372, R376). -/
def fastBits (f : Fn) (q : Nat) (v : W64) (g : Nat → State → State) (s : State) : State :=
  forAll (bitsSet 64 v.toNat) (fun k t =>
    let y := t.fast (64 * q + k)
    if y.valid && configures t f y.source then g y.source t else t) s

/-- Word j (0, 1: address; 2: data; 3: vector control) of an MSI-X table entry (R371, R373). -/
def msixWord (j : Nat) (v : W64) (e : MsixEntry) : MsixEntry :=
  match j with
  | 0 => { e with addr := (e.addr &&& 0xFFFFFFFF00000000) ||| (v &&& 0xFFFFFFFF) }
  | 1 => { e with addr := (e.addr &&& 0xFFFFFFFF) ||| (v <<< 32) }
  | 2 => { e with data := v.setWidth 32 }
  | _ => { e with mask := v.getLsbD 0 }

/-- A write of word j of MSI-X entry n; a vector that becomes unmasked sends its withheld message (R371). -/
def msixWrite (f : Fn) (n j : Nat) (v : W64) (s : State) : State :=
  s |> modFnS f (fun x => { x with msix := tabSet x.msix n (msixWord j v (tabGet {} x.msix n)) }) |> releaseMsix f

/-- A write of the fast bank (R376): only physical functions use the fast class (R372). -/
def fastBank (f : Fn) (r : Nat) (v : W64) (s : State) : State :=
  if 0x8000 ≤ r then msixWrite f ((r - 0x8000) / 16) (r % 16 / 4) v s
  else match f with
    | .pf p =>
      if r = 0x0 then doneWrite true f v s
      else if r = 0x8 then intErrWrite true f v s
      else if r < 0x120 then fastBits f ((r - 0x100) / 8) v maskSrc s
      else if r < 0x140 then fastBits f ((r - 0x120) / 8) v unmaskSrc s
      else if r < 0x160 then fastBits f ((r - 0x140) / 8) v srcEvent s
      else if r < 0x180 then fastBits f ((r - 0x160) / 8) v unpendSrc s
      else if r < 0x1000 then fastSlotWrite p ((r - 0x800) / 8) v s
      else if r < 0x1800 then evqWrite f (3840 + (r - 0x1000) / 8) v s
      else s
    | _ => s

/-- A write of SRC[x] of Rennet: THRESH, read-only for primary oscillators, and WINDOW, each
taken into its range; STATUS clears, FORCE injects (R383,
R384, R404). -/
def srcWrite (x : Nat) (v : W64) (s : State) : State :=
  if !srcExists x then s
  else
    s |> modRsrc x (fun q => { q with
          thresh := if x < 0x0F0 && x % 4 = 0 then q.thresh else some (max 1 (field v.toNat 7 0))
          window := some (min 16000000 (max 1 (field v.toNat 31 8))) })
      |> when v.msb (fun s => s |> clearSrc x |> setLsrEn)
      |> when (v.getLsbD 59) (rennetEvent x false true true true [])

/-- A write of the Rennet block by the device manager or the bring-up function (R404). -/
def rennetBlock (r : Nat) (v : W64) (s : State) : State :=
  if r = 0x0 then { s with rn.rennetEvqValid := v.getLsbD 28, rn.rennetEvq := field v.toNat 27 16 }
  else if r = 0x10 then { s with sp.turnEn := v.getLsbD 8, sp.turnPeriod := field v.toNat 3 0 }
  else if r = 0x30 then { s with st.logSel := field v.toNat 13 0 }
  else if 0x8000 ≤ r then srcWrite ((r - 0x8000) / 8) v s
  else s

/-- A write of the Cave block by the device manager or the bring-up function (R378, R457). -/
def caveBlock (r : Nat) (v : W64) (s : State) : State :=
  if r = 0x0 then { s with cv.caveAlarmEn := v.getLsbD 2, cv.caveSmbEn := v.getLsbD 1, cv.caveWakeEn := v.getLsbD 0 }
  else if r = 0x8 then { s with cv.woke := keepBit v 63 s.cv.woke }
  else if r = 0x10 then { s with cv.caveAlarm := field v.toNat 47 0 }
  else if r = 0x20 then
    if v.getLsbD 0 then restRequest (v.getLsbD 1) s
    else if s.tm.restEnter then s else { s with tm.restDeep := v.getLsbD 1 }
  else if 0x100 ≤ r then { s with cv.caveWatch := tabSet s.cv.caveWatch ((r - 0x100) / 8) (v.msb, field v.toNat 14 0) }
  else s

/-- A write of the translation setup block by the device manager or the bring-up function (R224). -/
def xlateBlock (r : Nat) (v : W64) (s : State) : State :=
  if r = 0x0 then when (v.getLsbD 0) flushAll s
  else if r = 0x10 then { s with xl.priTimeout := field v.toNat 3 0 }
  else s

/-- A write of DEVMGR by the bring-up function: it stands if it names a physical function whose port is in HOST mode and in
wheel 0 (R407, R408). -/
def devmgrSet (d : Nat) (s : State) : State :=
  if d < 16 && hostMode s d && hcWheelOf s d = 0 then
    { s with wh.devmgr := some d, st.cfgDirty := true } |> modWheel 0 (fun w => { w with manager := d })
  else s

/-- DEVMGR_WRITE, R408: only the bring-up function writes it. -/
def execDevmgrWrite (f : Fn) (v : W64) (s : State) : Host.Outcome State Fault Refusal :=
  .next (if f = .bu then devmgrSet (field v.toNat 3 0) s else s)

/-- A write of the wheel setup block: DEVMGR, and WHEEL_YIELD of a wheel by its manager (R441). -/
def wheelBlock (f : Fn) (r : Nat) (v : W64) (s : State) : State :=
  if r = 0x0 then (if f = .bu then devmgrSet (field v.toNat 3 0) s else s)
  else if 0x100 ≤ r && r < 0x500 && r % 0x40 = 0x18 then
    let w := (r - 0x100) / 0x40
    when (regManager s f w) (modWheel w (fun x => { x with yieldValid := v.getLsbD 12, yieldEvq := field v.toNat 11 0 })) s
  else s

/-- A write of HC_CTRL of port p: MODE and CXL_EN while LINK_EN is 0; MODE = 1 is discarded for the device manager's port
(R275, R309, R408). -/
def hcCtrlWrite (p : Nat) (v : W64) (s : State) : State :=
  let x := s.hc p
  let far := if x.linkEn || (v.getLsbD 1 && s.wh.devmgr = some p) then x.far else v.getLsbD 1
  let cxl := if x.linkEn then x.cxlEn else v.getLsbD 2
  { s with st.cfgDirty := s.st.cfgDirty || far ≠ x.far || cxl ≠ x.cxlEn }
  |> modHc p (fun x => { x with rateCap := v.getLsbD 3, far := far, cxlEn := cxl })
  |> (if v.getLsbD 0 then hcEnable p else hcDisable p)

/-- A write of the host-port registers by the device manager or the bring-up function (R309). -/
def hcBlock (r : Nat) (v : W64) (s : State) : State :=
  let p := r / 0x100
  let k := r % 0x100
  if 0x1000 ≤ r then s
  else if k = 0x00 then hcCtrlWrite p v s
  else if k = 0x10 then modHc p (fun x => { x with err := x.err &&& ~~~ (v.setWidth 10) }) s
  else if k = 0x18 then modHc p (fun x => { x with cohWin := v &&& 0x01FFFFFFFFF03F01 }) s
  else if k = 0x20 then hdmWinWrite p 0 v s
  else if k = 0x28 then hdmWinWrite p 1 v s
  else if 0x40 ≤ k then
    modHc p (fun x => { x with vfFlrReq := x.vfFlrReq.filter (fun i => !(i / 64 = (k - 0x40) / 8 && v.getLsbD (i % 64))) }) s
  else s

/-- Whether the range that EXPORT qword 0 maps lies within wheel w's Acdoic ports or slices (R251). -/
def exportFits (s : State) (w : Nat) (q0 : W64) : Bool :=
  let b := field q0.toNat 51 12 * 4096
  let n := 2 ^ field q0.toNat 11 7
  if q0.getLsbD 6 then
    b + n ≤ 2 ^ 27 && (List.range 32).all (fun k => !(k * 2 ^ 22 < b + n && b < (k + 1) * 2 ^ 22) || sliceWheelOf s k = w)
  else b + n ≤ 2 ^ 42 && (List.range 4).all (fun q => !(q * 2 ^ 40 < b + n && b < (q + 1) * 2 ^ 40) || acdWheelOf s q = w)

/-- A write of qword j of EXPORT slot k by the manager of the wheel that it names; one whose range leaves that wheel is
discarded (R251, R273). -/
def exportWrite (f : Fn) (k j : Nat) (v : W64) (s : State) : State :=
  let x := s.exp k
  if j = 0 then
    let q := v &&& 0xFFFFFFFFFFFFFFF9
    when (regManager s f x.wheel && (!q.getLsbD 0 || exportFits s x.wheel q)) (modExp k (fun x => { x with q0 := q })) s
  else
    let w := field v.toNat 3 0
    when (regManager s f w && (!x.q0.getLsbD 0 || (regManager s f x.wheel && exportFits s w x.q0)))
      (modExp k (fun x => { x with wheel := w })) s

/-- A write of NODE_ID and NODE_VALID (R273). A port whose far node has the new number goes down: its two ends would show one
NODE_ID (R261; DEDUCED, log entry 141). -/
def nodeWrite (v : W64) (s : State) : State :=
  let n := if s.pr.nodeValid then s.pr.nodeId else field v.toNat 12 0
  { s with pr.nodeId := n, pr.nodeValid := v.msb }
  |> forAll ((List.range 16).filter (fun p => (s.peerP p).up && (s.peerP p).farNode = n)) peerDown

/-- A write of the peer block (R273): dev says whether the writer has the device manager's rights. -/
def peerBlock (f : Fn) (dev : Bool) (r : Nat) (v : W64) (s : State) : State :=
  if r = 0x0 then when dev (nodeWrite v) s
  else if r = 0x8 then
    when dev (fun s => { s with pr.progress := field v.toNat 7 4, pr.reqTimeout := field v.toNat 3 0 }) s
  else if r < 0x200 then
    when dev (modWheel ((r - 0x100) / 8) (fun w => { w with fdomValid := v.getLsbD 12, fdom := field v.toNat 11 0 })) s
  else if r < 0x400 then s
  else if r < 0x800 then exportWrite f ((r - 0x400) / 16) (r % 16 / 8) v s
  else if r < 0x2000 then
    let g := (r - 0x800) / 16
    if r % 16 = 0 && collWriter s f g v then collWrite g v s else s
  else when dev (routeWrite ((r - 0x2000) / 8) v) s

/-- A write of the Acdoic block by the device manager or the bring-up function (R329). -/
def acdBlock (r : Nat) (v : W64) (s : State) : State :=
  let q := r / 0x100
  if r % 0x100 = 0x00 then
    s |> (if v.getLsbD 0 then acdEnable q else acdDisable q) |> when (v.getLsbD 1) (acdRetrain q)
  else if r % 0x100 = 0x10 then modAcd q (fun x => { x with err := x.err &&& ~~~ (v.setWidth 8) }) s
  else s

/-- A write of the Rosham block by the device manager or the bring-up function (R360). -/
def rshBlock (r : Nat) (v : W64) (s : State) : State :=
  let n := r / 0x100
  if 0x2000 ≤ r then s
  else if r % 0x100 = 0x00 then
    (if n < 16 then s else if v.getLsbD 0 then peerEnable (n - 16) s else peerDisable (n - 16) s)
  else if r % 0x100 = 0x10 then modRsh n (fun x => { x with err := x.err &&& ~~~ (v.setWidth 7) }) s
  else s

/-- An exact write of the register at offset b of the layout that physical functions and the bring-up function share (R462,
R463). -/
def pfWrite (f : Fn) (b : Nat) (v : W64) (s : State) : State :=
  let dev := isDevmgr s f
  if b < 0x10000 then s
  else if b < 0x20000 then
    match adminOf f with
    | some a => adminSetup a (b - 0x10000) v s
    | none => s
  else if b < 0x30000 then normalBank f (b - 0x20000) v s
  else if b < 0x40000 then fastBank f (b - 0x30000) v s
  else if b < 0x50000 then when dev (rennetBlock (b - 0x40000) v) s
  else if b < 0x60000 then when dev (caveBlock (b - 0x50000) v) s
  else if b < 0x70000 then when dev (xlateBlock (b - 0x60000) v) s
  else if b < 0x80000 then wheelBlock f (b - 0x70000) v s
  else if b < 0x88000 then when dev (hcBlock (b - 0x80000) v) s
  else if b < 0xA0000 then peerBlock f dev (b - 0x88000) v s
  else if b < 0xB0000 then when dev (acdBlock (b - 0xA0000) v) s
  else if b < 0x1000000 then when dev (rshBlock (b - 0xB0000) v) s
  else match pageHoop s f ((b - 0x1000000) / 0x1000) with
    | some h => pageWrite h (b % 0x1000) v s
    | none => s

/-- An exact write of the register at offset b of VF BAR0 (R377, R464). -/
def vfWrite (f : Fn) (b : Nat) (v : W64) (s : State) : State :=
  let low := v &&& 0xFFFFFFFF
  if b < 0x4000 then s
  else if b = 0x4000 then doneWrite false f v s
  else if b = 0x4008 then intErrWrite false f v s
  else if b = 0x4010 then bankWrite f 0 low maskSrc s
  else if b = 0x4018 then bankWrite f 0 low unmaskSrc s
  else if b = 0x4020 then bankWrite f 0 low srcEvent s
  else if b = 0x4028 then bankWrite f 0 low unpendSrc s
  else if b = 0x4030 then senseWrite f 0 v s
  else if b < 0x4400 then s
  else if b < 0x4500 then msixWrite f ((b - 0x4400) / 16) (b % 16 / 4) v s
  else if b < 0x8000 then evqWrite f ((b - 0x5000) / 8) v s
  else if b < 0x8020 then s
  else if b < 0xC800 then evqWrite f ((b - 0x5000) / 8) v s
  else if b < 0xC820 then evqWrite f (1536 + (b - 0xC800) / 8) v s
  else match pageHoop s f ((b - 0x10000) / 0x1000) with
    | some h => pageWrite h (b % 0x1000) v s
    | none => s

/-- An exact write of a register (R462, R464, R475). -/
def regWrite (f : Fn) (b : Nat) (v : W64) (s : State) : State := if isVf f then vfWrite f b v s else pfWrite f b v s

/-! ### Classes of access (R470, R471, R473) -/

/-- Offsets of the bytes that an access enables. -/
def enabledAt (off : Nat) (data : List (Option Byte)) : List Nat :=
  ((List.range data.length).filter (fun i => (data.getD i none).isSome)).map (off + ·)

/-- The registers that the enabled bytes touch, in address order. -/
def touched (f : Fn) (l : List Nat) : List (Nat × Nat) :=
  (l.filterMap (regAt f)).foldl (fun a r => if a.contains r then a else a ++ [r]) []

/-- Whether every byte of a register is enabled. -/
def wholeReg (l : List Nat) (r : Nat × Nat) : Bool := (List.range r.2).all (fun i => l.contains (r.1 + i))

/-- The value that an access gives a register. -/
def regValue (off : Nat) (data : List (Option Byte)) (r : Nat × Nat) : W64 :=
  BitVec.ofNat 64 (leNat ((List.range r.2).map (fun i => (data.getD (r.1 + i - off) none).getD 0)))

/-- The doorbell page number and the offset in it of a byte of function f's BAR0. -/
def pageOf (f : Fn) (o : Nat) : Option (Nat × Nat) :=
  match f with
  | .pf _ => if 0x1000000 ≤ o && o < 0x5000000 then some ((o - 0x1000000) / 0x1000, o % 0x1000) else none
  | .vf _ _ => if 0x10000 ≤ o && o < 0x30000 then some ((o - 0x10000) / 0x1000, o % 0x1000) else none
  | .bu => none

/-- Whether an access touches a page of a slice outside the requester's wheel (R413, R471 row 2). -/
def hitsForeign (s : State) (f : Fn) (off n : Nat) : Bool :=
  ((List.range (ceilDiv n 4 + 1)).map (fun i => min (off + 4 * i) (off + n - 1))).any (fun o =>
    match pageOf f o with
    | some (k, _) => pageUr s f k
    | none => false)

/-- Whether an offset of a page is a byte of TAIL or of the push window (R59). -/
def isDoorbellByte (o : Nat) : Bool := o < 8 || (0x100 ≤ o && o < 0x200)

/-- The pages of which an access enables a byte of TAIL or of the push window. -/
def rungPages (f : Fn) (l : List Nat) : List Nat :=
  dedup (l.filterMap (fun o => (pageOf f o).bind (fun k => if isDoorbellByte k.2 then some k.1 else none)))

/-- DB_BAD_WIDTH of the hoop of a page (R60, R473). -/
def badWidth (f : Fn) (k : Nat) (s : State) : State :=
  match pageHoop s f k with
  | some h => modHoop h (fun x => { x with dbBadWidth := true }) s
  | none => s

/-- An access that touches TAIL or the push window (R473): an exact doorbell, a whole push, or discarded. -/
def ringWrite (f : Fn) (off : Nat) (data : List (Option Byte)) (l pages : List Nat) (s : State) : State :=
  let whole := l.length = data.length
  match pageOf f off, pages with
  | some (k, o), [k'] =>
    let bs := data.map (fun b => b.getD 0)
    match pageHoop s f k with
    | some h =>
      if k = k' && whole && o = 0 && data.length = 8 then ringTail h (BitVec.ofNat 32 (leNat (bs.take 4))) s
      else if k = k' && whole && data.length = 64 && 0x100 ≤ o && o % 64 = 0 then pushEntry h ((o - 0x100) / 64) (qwords 8 bs) s
      else badWidth f k' s
    | none => s
  | _, _ => forAll pages (badWidth f) s

/-- Whether an access enables a byte of ADMIN_TAIL without being an exact write of it (R60, R84). -/
def badAdminTail (f : Fn) (l : List Nat) : Bool :=
  !isVf f && l.any (fun o => 0x10000 ≤ o && o < 0x10008) && !(l.length = 8 && l.all (fun o => 0x10000 ≤ o && o < 0x10008))

/-- The classes of R470 in the order of R471, for a write that no earlier row takes. -/
def classWrite (f : Fn) (off : Nat) (data : List (Option Byte)) (l : List Nat) (s : State) : State :=
  let rs := touched f l
  let partly := rs.filter (fun r => !wholeReg l r)
  if partly.isEmpty then forAll rs (fun r => regWrite f r.1 (regValue off data r)) s
  else if rs.length = 1 && l.all (fun o => (regAt f o).isSome) then countFault 0x0F7 s
  else bar2Reject f s

/-- REGISTER_WRITE, R471: a write to BAR0 with byte enables, unless its IDE stream is Insecure (R291). A
poisoned write is discarded whatever its class (R286), with the port's report of it (R287). -/
def execRegisterWrite (f : Fn) (off : Nat) (data : List (Option Byte)) (poisoned : Bool) (s : State) :
    Host.Outcome State Fault Refusal :=
  .next (let l := enabledAt off data
    if tlpDropped s (pfOf f) none then s
    else if poisoned then
      when (pfOf f < 16) (fun s => s |> hcErr (pfOf f) 0x2 |> emit (.aer (pfOf f) 1) |> countFault (0xA00 + 8 * pfOf f + 2)) s
    else if (s.fnS f).dstate3 || hitsForeign s f off data.length then bar2Reject f s
    else if !(rungPages f l).isEmpty then ringWrite f off data l (rungPages f l) s
    else if badAdminTail f l then
      match adminOf f with
      | some a => modAdmin a (fun x => { x with dbBadWidth := true }) s
      | none => s
    else classWrite f off data l s)

end Sys2Proof.Machine
end

