-- ==== Sys2Proof/Machine/Resync.lean ====
section
/-! DEFINITION. QUERY_CAPS and RESYNC: the summary's sections, its scope, and the output of both commands from an admin hoop
or a virtual function's data hoop (R48, R83, R118, R120, R458 to R461). -/

namespace Sys2Proof.Machine

open Sys2Proof

/-! ### Scope (R458) -/

/-- SCOPE of a summary issued by f. -/
def scopeOf (s : State) (f : Fn) : Nat := if isDevmgr s f then 0 else if isVf f then 2 else 1

/-- Whether a function lies in the scope of issuer f. -/
def inScope (s : State) (f g : Fn) : Bool :=
  match scopeOf s f with
  | 0 => true
  | 1 => fnWheel s g = fnWheel s f && g ≠ .bu
  | _ => g = f

/-- Numbers in rising order, each once. -/
def sorted (l : List Nat) : List Nat := l.foldl (fun a x => insertNat x a) []

/-- Physical functions in scope: those of ports in HOST mode. -/
def scopePfs (s : State) (f : Fn) : List Nat := (List.range 16).filter (fun p => hostMode s p && inScope s f (.pf p))

/-- Virtual functions in scope, by FUNC_ID. -/
def scopeVfs (s : State) (f : Fn) : List Fn :=
  (sorted ((s.ev.fns.filter (fun x => isVf x.1 && x.2.granted && inScope s f x.1)).map (fun x => funcId x.1))).map fnOfId

/-- Vats in scope. -/
def scopeVats (s : State) (f : Fn) : List Nat := sorted ((s.wk.vats.filter (fun v => v.2.st ≠ .free && inScope s f v.2.fn)).map (·.1))

/-! ### Records (R461) -/

/-- A record of qwords. -/
def qrec (l : List Nat) : List Byte := l.flatMap (natLe 8)

/-- WHEELS record. -/
def recWheel (s : State) (w : Nat) : List Byte := qrec [wheelState s w, wheelRes s w, wheelCfg s w, w * 2 ^ 16 + wheelFdom s w]

/-- PFS record. -/
def recPf (s : State) (p : Nat) : List Byte :=
  let x := s.hc p
  qrec [funcId (.pf p) * 2 ^ 48 + hcWheelOf s p * 2 ^ 44 + (if (s.fnS (.pf p)).dstate3 then 3 else 0) * 2 ^ 42 + b2n x.linkUp * 2 ^ 41 +
    b2n x.cxl * 2 ^ 40 + b2n x.modeAct * 2 ^ 39 + b2n (s.admin p).running * 2 ^ 38, x.err.toNat]

/-- Code of a state of R121. -/
def vfCode : VfState → Nat
  | .running => 0
  | .freezing => 1
  | .frozen => 2
  | .saving => 3
  | .restored => 4

/-- Whether a Function Level Reset of a virtual function is held. -/
def flrHeld (s : State) (f : Fn) : Bool := match f with | .vf p i => (s.hc p).vfFlrReq.contains i | _ => false

/-- VFS record. -/
def recVf (s : State) (f : Fn) : List Byte :=
  let x := s.fnS f
  qrec [funcId f * 2 ^ 48 + (fnWheel s f).getD 0 * 2 ^ 44 + vfCode x.vfState * 2 ^ 41 + b2n (flrHeld s f) * 2 ^ 40 + x.grHoops * 2 ^ 34 +
    x.grEvqs * 2 ^ 21 + x.grVats * 2 ^ 5]

/-- Code of a vat's state. -/
def vatCode : VatState → Nat
  | .free => 0
  | .idle => 0
  | .resident => 1
  | .pinned => 2
  | .aborting => 3

/-- VATS record. -/
def recVat (s : State) (v : Nat) : List Byte :=
  let x := s.vat v
  qrec [v * 2 ^ 48 + funcId x.fn * 2 ^ 32 + vatCode x.st * 2 ^ 29 + b2n x.xlateSeen * 2 ^ 28 + b2n x.rindSeen * 2 ^ 27 +
    b2n x.pageReqSeen * 2 ^ 26 + b2n x.partialSeen * 2 ^ 25 + x.cause * 2 ^ 17 + x.prOut % 2 ^ 14, x.faultVa.toNat]

/-- RESIDENT record. -/
def recSlotOf (s : State) (v : Nat) : List Byte :=
  qrec [b2n (s.vat v).pin * 2 ^ 23 + (s.vat v).slot.getD 0 * 2 ^ 16 + v]

/-- ADMIN_HOOPS record. -/
def recAdmin (s : State) (p : Nat) : List Byte :=
  let x := s.admin p
  qrec [x.tail.toNat * 2 ^ 32 + x.head.toNat,
    x.pub.toNat * 2 ^ 32 + 0xFFFF * 2 ^ 16 + (x.entries.filter inFlight).length * 4 + b2n x.running * 2,
    p * 2 ^ 50 + x.evq * 2 ^ 38 + x.log2 * 2 ^ 33 + b2n x.idle * 2 ^ 32]

/-- HOOPS record. -/
def recHoop (s : State) (h : Nat) : List Byte :=
  let x := s.hoop h
  qrec [x.tail.toNat * 2 ^ 32 + x.head.toNat,
    x.pub.toNat * 2 ^ 32 + x.vat * 2 ^ 16 + x.epoch.toNat * 2 ^ 8 + inFlightCount x % 64 * 4 + b2n x.enabled * 2 + b2n x.migrating,
    h * 2 ^ 50 + x.evq * 2 ^ 38 + x.log2 * 2 ^ 33 + b2n x.idle * 2 ^ 32 + x.whey.toNat]

/-- Code of an interrupt state. -/
def intCode : IntState → Nat
  | .idle => 0
  | .armed => 1
  | .signalled => 2
  | .claimed => 3

/-- EVENT_HOOPS record. -/
def recEvq (s : State) (e : Nat) : List Byte :=
  let x := s.evq e
  qrec [e * 2 ^ 52 + funcId x.fn * 2 ^ 36 + intCode x.ist * 2 ^ 34 + b2n x.phase * 2 ^ 33 + x.wr * 2 ^ 16 + x.rd,
    x.dropped * 2 ^ 52 + x.log2 * 2 ^ 47 + b2n x.en * 2 ^ 46]

/-- WATCHERS record. -/
def recWatcher (s : State) (w : Nat) : List Byte :=
  let x := s.watcher w
  qrec [x.va.toNat, x.vat * 2 ^ 48 + w * 2 ^ 37 + x.lastVal.toNat % 2 ^ 32]

/-- SPARES record. -/
def recSpares (s : State) : List Byte :=
  qrec [spareReg s 0, spareReg s 1, spareReg s 2, spareReg s 3, spareDev s, turnState s, 0, 0]

/-- DEVICE record. -/
def recDevice (s : State) (all : Bool) : List Byte :=
  natLe 4 0x00020001 ++ natLe 4 (maskBy 32 (s.st.calValid.contains ·)) ++
    natLe 8 ((s.fwSlot s.st.fwRunning).svn * 2 ^ 32 + s.st.fwActive * 2 ^ 24 + b2n s.st.fwPending) ++
    natLe 8 (if all then supplyState s else 0) ++ natLe 8 (if all then rennetState s else 0) ++
    measValue s 1 ++ measValue s 2 ++ measValue s 3 ++ measValue s 4 ++ natLe 16 0

/-! ### The summary (R460) -/

/-- Sections 0 to 11 of a summary issued by f. -/
def sections (s : State) (f : Fn) : List (List (List Byte)) :=
  let sc := scopeOf s f
  let hs := sorted ((s.wk.hoops.filter (fun h => h.2.present && inScope s f h.2.fn)).map (·.1))
  let es := sorted ((s.ev.evhoops.filter (fun e => e.2.present && inScope s f e.2.fn)).map (·.1))
  let ws := sorted ((s.wk.watchers.filter (fun w => inScope s f (s.vat w.2.vat).fn)).map (·.1))
  let pfs := if sc = 2 then [] else scopePfs s f
  let wheels := if sc = 0 then (List.range 16).filter (fun w => (s.wheel w).present)
    else if sc = 1 then (fnWheel s f).toList else []
  [ wheels.map (recWheel s), pfs.map (recPf s), (scopeVfs s f).map (recVf s), (scopeVats s f).map (recVat s),
    ((scopeVats s f).filter (fun v => (s.vat v).slot.isSome)).map (recSlotOf s), pfs.map (recAdmin s), hs.map (recHoop s),
    es.map (recEvq s), ws.map (recWatcher s), if sc = 0 then [faultMaps s] else [], if sc = 0 then [recSpares s] else [],
    if sc = 2 then [] else [recDevice s (sc = 0)] ]

/-- The section table: offset and count of each section from offset o on. -/
def sectionTable : Nat → List (List (List Byte)) → List Byte
  | _, [] => []
  | o, x :: r => natLe 8 (o * 2 ^ 32 + x.length) ++ sectionTable (o + x.flatten.length) r

/-- The summary that RESYNC writes (R460). -/
def summary (s : State) (f : Fn) : List Byte :=
  let secs := sections s f
  let body := (secs.map List.flatten).flatten
  let sc := scopeOf s f
  natLe 4 0x52594E43 ++ natLe 4 (0x00010000 + sc) ++ natLe 4 (256 + body.length) ++
    natLe 4 (selfId f * 65536 + (if sc = 0 then 0xFFFF else (fnWheel s f).getD 0)) ++
    natLe 8 s.tm.deviceTime ++ natLe 8 s.tm.deviceTime ++ sectionTable 256 secs ++ natLe 128 0 ++ body

/-- Clear the fault bits, CAUSE and FAULT_VA of the vats reported (R206, R459). -/
def clearVatFaults (vs : List Nat) (s : State) : State :=
  forAll vs (fun v => modVat v (fun x => { x with
    xlateSeen := false, rindSeen := false, pageReqSeen := false, partialSeen := false, cause := 0, faultVa := 0 })) s

/-! ### Output (R83, R120, R493) -/

/-- What an output buffer of n bytes lets a command of m output bytes do (R120). -/
inductive Sized where
  | size
  | short
  | fits
deriving DecidableEq, Repr

/-- Compare a buffer with an output (R120). -/
def sizeOf (n m : Nat) : Sized := if n = 0 then .size else if n < m then .short else .fits

/-- QUERY_CAPS or RESYNC on an admin hoop: post is what else the command does where it writes its output; long: the
status follows with ADMIN_COMMAND_COMPLETE. -/
def adminReport (a : Nat) (e : Entry) (bs : List Byte) (post : State → State) (long : Bool) (s : State) : State :=
  let fin (s : State) : State := if long then adminHold a .resync .ok bs.length s else adminFinish a .ok false bs.length s
  match sizeOf (outLen e) bs.length with
  | .size => fin s
  | .short => adminEnd a .malformed s
  | .fits => s |> post |> adminOut a e.dst.toNat bs |> fin

/-- The output of a report has been sent: with no answer to await the entry completes OK; else SEGMENT_DONE ends it, or the
failure of a write at its target, which leaves PARTIAL (R113, R493). -/
def reportSent (h : Nat) (i : W32) (n : Nat) (s : State) : State :=
  if waitsFor s (.seg h i 0) then s else finishEntry h i .ok false n s

/-- QUERY_CAPS or RESYNC of a virtual function's data hoop: the output passes the gate of the hoop's vat (R83, R493). -/
def entryReport (op h : Nat) (i : W32) (bs : State → List Byte) (post : State → State) (s : State) : State :=
  match segLive s h i 0 with
  | some (e, .todo) =>
    if e.opcode ≠ op then s
    else
      let v := (s.hoop h).vat
      let b := bs s
      match sizeOf (outLen e) b.length with
      | .size => finishEntry h i .ok false b.length s
      | .short => finishEntry h i .malformed false 0 s
      | .fits =>
        match gateSeg (.seg h i 0) v [(e.dst.toNat, b.length, .write)] s with
        | (.wait, t) => t
        | (.fail (.revoked r), t) => failSeg h i 0 (.revoked r) 0 t
        | (.fail _, t) => t |> post |> finishEntry h i .partialDone true 0
        | (.refused, t) => t |> post |> severeFault (0x970 + vatWheel s v) |> finishEntry h i .partialDone true 0
        | (.go ps, t) => t |> post |> vstore v .write e.dst.toNat b 
            |> modEntry h i (fun e => { e with report := b.length }) |> busySeg h i 0 ps |> reportSent h i b.length
  | _ => s

/-- The function of a command's issuer. -/
def issuerFn (s : State) : Issuer → Fn
  | .admin a => adminFn a
  | .entry h _ => (s.hoop h).fn

/-- QUERY_CAPS, R48: the issuer's capability table. -/
def execQueryCaps (w : Issuer) (s : State) : Host.Outcome State Fault Refusal :=
  .next (match w with
    | .admin a => adminRun a 0x89 (fun _ _ => true) (fun e _ s => adminReport a e (capTable s (adminFn a)) id false s) s
    | .entry h i => entryReport 0x89 h i (fun s => capTable s (s.hoop h).fn) id s)

/-- RESYNC, R460: the summary of the issuer's scope; CLEAR_VAT_FAULTS clears the fault bits of the vats it reports. -/
def execResync (w : Issuer) (s : State) : Host.Outcome State Fault Refusal :=
  .next (match w with
    | .admin a => adminRun a 0x8A (fun _ _ => true) (fun e _ s =>
        adminReport a e (summary s (adminFn a)) (when (e.flag 0) (clearVatFaults (scopeVats s (adminFn a)))) true s) s
    | .entry h i =>
      let clear := (entryOf s h i).elim false (fun e => e.flag 0)
      entryReport 0x8A h i (fun s => summary s (s.hoop h).fn) (when clear (clearVatFaults (scopeVats s (s.hoop h).fn))) s)

end Sys2Proof.Machine
end

