-- ==== Sys2Proof/Machine/Dispatch.lean ====
section
/-! DEFINITION. One arm per command: the meaning that the spec gives it. -/

namespace Sys2Proof.Machine

open Sys2Proof

/-- The effect of a command on everything but the queue. -/
def exec (i : Instr) (s : State) : Host.Outcome State Fault Refusal :=
  match i with
  | .copy h ix j => Sys2Proof.Machine.execCopy h ix j s
  | .fill h ix j => Sys2Proof.Machine.execFill h ix j s
  | .gather h ix j => Sys2Proof.Machine.execGather h ix j s
  | .scatter h ix j => Sys2Proof.Machine.execScatter h ix j s
  | .transform h ix j => Sys2Proof.Machine.execTransform h ix j s
  | .reduce h ix j => Sys2Proof.Machine.execReduce h ix j s
  | .accumulate h ix j => Sys2Proof.Machine.execAccumulate h ix j s
  | .resolve h ix j => Sys2Proof.Machine.execResolve h ix j s
  | .atomic h ix j => Sys2Proof.Machine.execAtomic h ix j s
  | .fenceSignal h ix => Sys2Proof.Machine.execFenceSignal h ix s
  | .fenceWait h ix => Sys2Proof.Machine.execFenceWait h ix s
  | .prefetch h ix j => Sys2Proof.Machine.execPrefetch h ix j s
  | .advise h ix j => Sys2Proof.Machine.execAdvise h ix j s
  | .launch h ix => Sys2Proof.Machine.execLaunch h ix s
  | .invalidate h ix => Sys2Proof.Machine.execInvalidate h ix s
  | .nop h ix => Sys2Proof.Machine.execNop h ix s
  | .createHoop a => Sys2Proof.Machine.execCreateHoop a s
  | .createEventHoop a => Sys2Proof.Machine.execCreateEventHoop a s
  | .destroyHoop a => Sys2Proof.Machine.execDestroyHoop a s
  | .destroyEventHoop a => Sys2Proof.Machine.execDestroyEventHoop a s
  | .disableHoop a => Sys2Proof.Machine.execDisableHoop a s
  | .createVat a => Sys2Proof.Machine.execCreateVat a s
  | .destroyVat a => Sys2Proof.Machine.execDestroyVat a s
  | .loadRecipe a => Sys2Proof.Machine.execLoadRecipe a s
  | .unloadRecipe a => Sys2Proof.Machine.execUnloadRecipe a s
  | .createWheel a => Sys2Proof.Machine.execCreateWheel a s
  | .deleteWheel a => Sys2Proof.Machine.execDeleteWheel a s
  | .bindMove a => Sys2Proof.Machine.execBindMove a s
  | .bindVats a => Sys2Proof.Machine.execBindVats a s
  | .bindEvqs a => Sys2Proof.Machine.execBindEvqs a s
  | .bindShare a => Sys2Proof.Machine.execBindShare a s
  | .vfGrant a => Sys2Proof.Machine.execVfGrant a s
  | .funcReset a => Sys2Proof.Machine.execFuncReset a s
  | .wheelReset a => Sys2Proof.Machine.execWheelReset a s
  | .queryCaps w => Sys2Proof.Machine.execQueryCaps w s
  | .resync w => Sys2Proof.Machine.execResync w s
  | .freeze a => Sys2Proof.Machine.execFreeze a s
  | .saveState a => Sys2Proof.Machine.execSaveState a s
  | .restoreState a => Sys2Proof.Machine.execRestoreState a s
  | .thaw a => Sys2Proof.Machine.execThaw a s
  | .calibrate a => Sys2Proof.Machine.execCalibrate a s
  | .selftest a => Sys2Proof.Machine.execSelftest a s
  | .keySessionOpen a => Sys2Proof.Machine.execKeySessionOpen a s
  | .keySessionStep a => Sys2Proof.Machine.execKeySessionStep a s
  | .keySessionClose a => Sys2Proof.Machine.execKeySessionClose a s
  | .fwUpdate a spiOk => Sys2Proof.Machine.execFwUpdate a spiOk s
  | .fwActivate a => Sys2Proof.Machine.execFwActivate a s
  | .doorbell f n v => Sys2Proof.Machine.execDoorbell f n v s
  | .push f n slot words => Sys2Proof.Machine.execPush f n slot words s
  | .adminDoorbell f v => Sys2Proof.Machine.execAdminDoorbell f v s
  | .ringFetch r count => Sys2Proof.Machine.execRingFetch r count s
  | .ownReread r => Sys2Proof.Machine.execOwnReread r s
  | .entryStart r ix => Sys2Proof.Machine.execEntryStart r ix s
  | .segmentDone h ix j res => Sys2Proof.Machine.execSegmentDone h ix j res s
  | .headPublishTimer h => Sys2Proof.Machine.execHeadPublishTimer h s
  | .freezeTimeout f => Sys2Proof.Machine.execFreezeTimeout f s
  | .vatTeardownComplete v => Sys2Proof.Machine.execVatTeardownComplete v s
  | .vatLoad v => Sys2Proof.Machine.execVatLoad v s
  | .vatSlotExpiry v => Sys2Proof.Machine.execVatSlotExpiry v s
  | .hoopResume h => Sys2Proof.Machine.execHoopResume h s
  | .watcherReread w => Sys2Proof.Machine.execWatcherReread w s
  | .watcherPoll w => Sys2Proof.Machine.execWatcherPoll w s
  | .hoopEnginePoll k => Sys2Proof.Machine.execHoopEnginePoll k s
  | .translationCompletion p tag r => Sys2Proof.Machine.execTranslationCompletion p tag r s
  | .walkComplete v va poisoned => Sys2Proof.Machine.execWalkComplete v va poisoned s
  | .pageRequestResponse pf index code => Sys2Proof.Machine.execPageRequestResponse pf index code s
  | .priTimeout pf index => Sys2Proof.Machine.execPriTimeout pf index s
  | .prgIndexFree pf index => Sys2Proof.Machine.execPrgIndexFree pf index s
  | .invalidateRequest p itag rf pasid addr len => Sys2Proof.Machine.execInvalidateRequest p itag rf pasid addr len s
  | .invalidateCompletion p itag => Sys2Proof.Machine.execInvalidateCompletion p itag s
  | .xlateFlush f => Sys2Proof.Machine.execXlateFlush f s
  | .hostCompletion p tag c => Sys2Proof.Machine.execHostCompletion p tag c s
  | .completionTimeout p tag => Sys2Proof.Machine.execCompletionTimeout p tag s
  | .bar2Read f off len => Sys2Proof.Machine.execBar2Read f off len s
  | .bar2Write f off data poisoned => Sys2Proof.Machine.execBar2Write f off data poisoned s
  | .bar2AtomicOp f at_ op width operand compare => Sys2Proof.Machine.execBar2AtomicOp f at_ op width operand compare s
  | .configRequest r => Sys2Proof.Machine.execConfigRequest r s
  | .hostLinkTrained p gts128 negCxl => Sys2Proof.Machine.execHostLinkTrained p gts128 negCxl s
  | .hostLinkDown p => Sys2Proof.Machine.execHostLinkDown p s
  | .hotReset p => Sys2Proof.Machine.execHotReset p s
  | .pfFlr p => Sys2Proof.Machine.execPfFlr p s
  | .vfFlr p v => Sys2Proof.Machine.execVfFlr p v s
  | .vfEnableSet p n => Sys2Proof.Machine.execVfEnableSet p n s
  | .vfEnableClear p => Sys2Proof.Machine.execVfEnableClear p s
  | .busMasterEnable p => Sys2Proof.Machine.execBusMasterEnable p s
  | .pmcsrDState p d3 => Sys2Proof.Machine.execPmcsrDState p d3 s
  | .l0pRequest p width => Sys2Proof.Machine.execL0pRequest p width s
  | .ideKmQuery p => Sys2Proof.Machine.execIdeKmQuery p s
  | .ideKmKeyProg p stream ks => Sys2Proof.Machine.execIdeKmKeyProg p stream ks s
  | .ideKmKSetGo p stream ks => Sys2Proof.Machine.execIdeKmKSetGo p stream ks s
  | .ideKmKSetStop p stream ks => Sys2Proof.Machine.execIdeKmKSetStop p stream ks s
  | .ideCheckFailed p stream => Sys2Proof.Machine.execIdeCheckFailed p stream s
  | .getMeasurements ch index => Sys2Proof.Machine.execGetMeasurements ch index s
  | .keyExchange ch pt => Sys2Proof.Machine.execKeyExchange ch pt s
  | .spdmRequest ch code => Sys2Proof.Machine.execSpdmRequest ch code s
  | .mctpMessage m => Sys2Proof.Machine.execMctpMessage m s
  | .snpData p addr => Sys2Proof.Machine.execSnpData p addr s
  | .snpInv p addr => Sys2Proof.Machine.execSnpInv p addr s
  | .snpCur p addr => Sys2Proof.Machine.execSnpCur p addr s
  | .goWritePull p addr => Sys2Proof.Machine.execGoWritePull p addr s
  | .goWritePullDrop p addr => Sys2Proof.Machine.execGoWritePullDrop p addr s
  | .cacheFillGo p addr st data => Sys2Proof.Machine.execCacheFillGo p addr st data s
  | .hdmRequest p win off op => Sys2Proof.Machine.execHdmRequest p win off op s
  | .biRsp p line wb => Sys2Proof.Machine.execBiRsp p line wb s
  | .biSnpTimeout p line => Sys2Proof.Machine.execBiSnpTimeout p line s
  | .farLinkUp p x => Sys2Proof.Machine.execFarLinkUp p x s
  | .farMediaReady p bytes => Sys2Proof.Machine.execFarMediaReady p bytes s
  | .farResponse p tag ok => Sys2Proof.Machine.execFarResponse p tag ok s
  | .farTimeout p tag => Sys2Proof.Machine.execFarTimeout p tag s
  | .farLinkDown p => Sys2Proof.Machine.execFarLinkDown p s
  | .dieParams q w0 w1 w2 => Sys2Proof.Machine.execDieParams q w0 w1 w2 s
  | .acdTrainTimeout q => Sys2Proof.Machine.execAcdTrainTimeout q s
  | .acdFlit q f => Sys2Proof.Machine.execAcdFlit q f s
  | .acdReplayTimeout q => Sys2Proof.Machine.execAcdReplayTimeout q s
  | .acdLaneFailure q m spareLeft => Sys2Proof.Machine.execAcdLaneFailure q m spareLeft s
  | .acdModuleRejoin q m => Sys2Proof.Machine.execAcdModuleRejoin q m s
  | .acdRdData q tag poisoned => Sys2Proof.Machine.execAcdRdData q tag poisoned s
  | .acdWrAck q tag => Sys2Proof.Machine.execAcdWrAck q tag s
  | .atData q tag => Sys2Proof.Machine.execAtData q tag s
  | .condAck q tag success => Sys2Proof.Machine.execCondAck q tag success s
  | .err q launch tag reason => Sys2Proof.Machine.execErr q launch tag reason s
  | .accept q tag retry => Sys2Proof.Machine.execAccept q tag retry s
  | .thermal q stack rate => Sys2Proof.Machine.execThermal q stack rate s
  | .fault q scope tag addr stack => Sys2Proof.Machine.execFault q scope tag addr stack s
  | .complete q tag failed => Sys2Proof.Machine.execComplete q tag failed s
  | .fenceHint q addr => Sys2Proof.Machine.execFenceHint q addr s
  | .claim q ctag line write => Sys2Proof.Machine.execClaim q ctag line write s
  | .launchResend q tag => Sys2Proof.Machine.execLaunchResend q tag s
  | .noAccept q tag => Sys2Proof.Machine.execNoAccept q tag s
  | .launchThermalTimeout q tag => Sys2Proof.Machine.execLaunchThermalTimeout q tag s
  | .acdRequestRelease q tag => Sys2Proof.Machine.execAcdRequestRelease q tag s
  | .holdBeacon q => Sys2Proof.Machine.execHoldBeacon q s
  | .holdTimeout q => Sys2Proof.Machine.execHoldTimeout q s
  | .holdSpaceDrain q => Sys2Proof.Machine.execHoldSpaceDrain q s
  | .rdReq p k => Sys2Proof.Machine.execRdReq p k s
  | .rdData p k => Sys2Proof.Machine.execRdData p k s
  | .wr p k => Sys2Proof.Machine.execWr p k s
  | .wrAck p k => Sys2Proof.Machine.execWrAck p k s
  | .atReq p k => Sys2Proof.Machine.execAtReq p k s
  | .atResp p k => Sys2Proof.Machine.execAtResp p k s
  | .nak p k => Sys2Proof.Machine.execNak p k s
  | .hold p k => Sys2Proof.Machine.execHold p k s
  | .stepDone p k => Sys2Proof.Machine.execStepDone p k s
  | .outcome p k => Sys2Proof.Machine.execOutcome p k s
  | .join p k => Sys2Proof.Machine.execJoin p k s
  | .reqTimeout tag => Sys2Proof.Machine.execReqTimeout tag s
  | .progressTimeout g => Sys2Proof.Machine.execProgressTimeout g s
  | .journalRetry tag => Sys2Proof.Machine.execJournalRetry tag s
  | .journalRecordExpiry q key => Sys2Proof.Machine.execJournalRecordExpiry q key s
  | .peerFrame p f => Sys2Proof.Machine.execPeerFrame p f s
  | .frameReplayTimeout p => Sys2Proof.Machine.execFrameReplayTimeout p s
  | .replayStuck p => Sys2Proof.Machine.execReplayStuck p s
  | .peerKeyRenewal p => Sys2Proof.Machine.execPeerKeyRenewal p s
  | .peerSessionEstablished p node authOk => Sys2Proof.Machine.execPeerSessionEstablished p node authOk s
  | .peerLinkDown p => Sys2Proof.Machine.execPeerLinkDown p s
  | .roshamTrained x => Sys2Proof.Machine.execRoshamTrained x s
  | .swap fb lane spare => Sys2Proof.Machine.execSwap fb lane spare s
  | .mark fb lane => Sys2Proof.Machine.execMark fb lane s
  | .done fb lane => Sys2Proof.Machine.execDone fb lane s
  | .laserInputFault k => Sys2Proof.Machine.execLaserInputFault k s
  | .lsrFlt => Sys2Proof.Machine.execLsrFlt s
  | .refclkLoss c => Sys2Proof.Machine.execRefclkLoss c s
  | .sourceEvent src ev alive => Sys2Proof.Machine.execSourceEvent src ev alive s
  | .windowExpiry src => Sys2Proof.Machine.execWindowExpiry src s
  | .writeGateClosed u => Sys2Proof.Machine.execWriteGateClosed u s
  | .logRecordWrite verifyOk => Sys2Proof.Machine.execLogRecordWrite verifyOk s
  | .mramWriteWaitTimeout => Sys2Proof.Machine.execMramWriteWaitTimeout s
  | .turnDue kind q => Sys2Proof.Machine.execTurnDue kind q s
  | .turnTestDone pass => Sys2Proof.Machine.execTurnTestDone pass s
  | .logicRailLow => Sys2Proof.Machine.execLogicRailLow s
  | .photRailLow => Sys2Proof.Machine.execPhotRailLow s
  | .rail18Low => Sys2Proof.Machine.execRail18Low s
  | .railRestored r => Sys2Proof.Machine.execRailRestored r s
  | .coreRailLoss => Sys2Proof.Machine.execCoreRailLoss s
  | .cavePowerLoss => Sys2Proof.Machine.execCavePowerLoss s
  | .thermTrip => Sys2Proof.Machine.execThermTrip s
  | .coldStart => Sys2Proof.Machine.execColdStart s
  | .warmReset => Sys2Proof.Machine.execWarmReset s
  | .buReset => Sys2Proof.Machine.execBuReset s
  | .buLinkTrained rate width => Sys2Proof.Machine.execBuLinkTrained rate width s
  | .portConfigCommit => Sys2Proof.Machine.execPortConfigCommit s
  | .vatStoreRemirror => Sys2Proof.Machine.execVatStoreRemirror s
  | .restEnter f => Sys2Proof.Machine.execRestEnter f s
  | .deepRestEnter f => Sys2Proof.Machine.execDeepRestEnter f s
  | .restWake c => Sys2Proof.Machine.execRestWake c s
  | .wakenAssert => Sys2Proof.Machine.execWakenAssert s
  | .caveAlarmMatch => Sys2Proof.Machine.execCaveAlarmMatch s
  | .deepRestWake c => Sys2Proof.Machine.execDeepRestWake c s
  | .coreRailsReady => Sys2Proof.Machine.execCoreRailsReady s
  | .timeRealign => Sys2Proof.Machine.execTimeRealign s
  | .powerWindow milliwatts => Sys2Proof.Machine.execPowerWindow milliwatts s
  | .energyWindow optBits acdBits => Sys2Proof.Machine.execEnergyWindow optBits acdBits s
  | .drbgReseed => Sys2Proof.Machine.execDrbgReseed s
  | .migSessionExpiry n => Sys2Proof.Machine.execMigSessionExpiry n s
  | .coalesceTimeout e => Sys2Proof.Machine.execCoalesceTimeout e s
  | .msixMessageSend e => Sys2Proof.Machine.execMsixMessageSend e s
  | .msixUnmask f m => Sys2Proof.Machine.execMsixUnmask f m s
  | .claimRead f v => Sys2Proof.Machine.execClaimRead f v s
  | .intDone f v => Sys2Proof.Machine.execIntDone f v s
  | .fastDone f v => Sys2Proof.Machine.execFastDone f v s
  | .vfIntDone f v => Sys2Proof.Machine.execVfIntDone f v s
  | .maskSet f q v => Sys2Proof.Machine.execMaskSet f q v s
  | .maskClr f q v => Sys2Proof.Machine.execMaskClr f q v s
  | .pendSet f q v => Sys2Proof.Machine.execPendSet f q v s
  | .pendClr f q v => Sys2Proof.Machine.execPendClr f q v s
  | .evqRouteWrite f e v => Sys2Proof.Machine.execEvqRouteWrite f e v s
  | .fastSrcWrite f k v => Sys2Proof.Machine.execFastSrcWrite f k v s
  | .hoopEnable f n => Sys2Proof.Machine.execHoopEnable f n s
  | .adminEnable f => Sys2Proof.Machine.execAdminEnable f s
  | .adminDisable f => Sys2Proof.Machine.execAdminDisable f s
  | .srcStatusClear f src => Sys2Proof.Machine.execSrcStatusClear f src s
  | .srcForce f src => Sys2Proof.Machine.execSrcForce f src s
  | .hcLinkEnable f p => Sys2Proof.Machine.execHcLinkEnable f p s
  | .hcLinkDisable f p => Sys2Proof.Machine.execHcLinkDisable f p s
  | .acdLinkEnable f q => Sys2Proof.Machine.execAcdLinkEnable f q s
  | .acdLinkDisable f q => Sys2Proof.Machine.execAcdLinkDisable f q s
  | .retrain f q => Sys2Proof.Machine.execRetrain f q s
  | .peerPortEnable f p => Sys2Proof.Machine.execPeerPortEnable f p s
  | .peerPortDisable f p => Sys2Proof.Machine.execPeerPortDisable f p s
  | .collGroupEnable f g v => Sys2Proof.Machine.execCollGroupEnable f g v s
  | .collGroupDisable f g => Sys2Proof.Machine.execCollGroupDisable f g s
  | .routeWrite f n v => Sys2Proof.Machine.execRouteWrite f n v s
  | .devmgrWrite f v => Sys2Proof.Machine.execDevmgrWrite f v s
  | .hdmWinWrite f p k v => Sys2Proof.Machine.execHdmWinWrite f p k v s
  | .registerWrite f off data poisoned => Sys2Proof.Machine.execRegisterWrite f off data poisoned s
  | .reservationTimeout home granule => Sys2Proof.Machine.execReservationTimeout home granule s
  | .ntLineTimeout line => Sys2Proof.Machine.execNtLineTimeout line s
  | .affLoad addr len => Sys2Proof.Machine.execAffLoad addr len s
  | .affStore addr data => Sys2Proof.Machine.execAffStore addr data s
  | .affNtStore addr data => Sys2Proof.Machine.execAffNtStore addr data s
  | .affReservedLoad addr => Sys2Proof.Machine.execAffReservedLoad addr s
  | .affConditionalStore addr off data => Sys2Proof.Machine.execAffConditionalStore addr off data s
  | .barLd => Sys2Proof.Machine.execBarLd s
  | .barSt => Sys2Proof.Machine.execBarSt s
  | .barFull => Sys2Proof.Machine.execBarFull s
  | .adminCommandComplete a => Sys2Proof.Machine.execAdminCommandComplete a s
  | .portCalibrationDone n result ms => Sys2Proof.Machine.execPortCalibrationDone n result ms s
  | .restEntryComplete => Sys2Proof.Machine.execRestEntryComplete s
  | .hostTeardownComplete p => Sys2Proof.Machine.execHostTeardownComplete p s
  | .joinAcknowledged g => Sys2Proof.Machine.execJoinAcknowledged g s
  | .refclkRestored c => Sys2Proof.Machine.execRefclkRestored c s
  | .laserInputRestored k => Sys2Proof.Machine.execLaserInputRestored k s
  | .thermTripCleared => Sys2Proof.Machine.execThermTripCleared s
  | .buLinkDown => Sys2Proof.Machine.execBuLinkDown s
  | .jtagAccess op => Sys2Proof.Machine.execJtagAccess op s

end Sys2Proof.Machine
end

