-- ==== Sys2Proof/Safety.lean ====
section
/-! DEFINITION. What counts as a safe state, and which parts of the state a command may change: the terms of the claims
about every step. -/

namespace Sys2Proof

open Sys2Proof.Machine

/-- A state whose memory holds its canonical form. -/
def Safe (s : State) : Prop := Memory.wf s.m.mem

/-- The areas of the state that a command's footprint names. The counter of free values, which is the model's own, belongs
to no part. -/
inductive Area where
  /-- bytes of memory and their poison -/
  | memory
  /-- what the ports and pins have sent; pins and sensors -/
  | pins
  /-- power state, time base, islands -/
  | time
  /-- the Cave block -/
  | cave
  /-- hoops, vats, watchers, journals, recipes -/
  | work
  /-- event hoops, functions, interrupt sources -/
  | events
  /-- Rennet -/
  | rennet
  /-- spares and turning -/
  | spares
  /-- supply monitor, MRAM, SPI flash -/
  | store
  /-- translation -/
  | xlat
  /-- ports and outstanding requests -/
  | links
  /-- coherent window cache and snoop filter -/
  | coherent
  /-- the peer block -/
  | peers
  /-- wheels and bindings -/
  | wheels
  /-- security engine and sessions -/
  | security
  /-- the Affineur core -/
  | core
deriving DecidableEq, Repr

/-- Area p is the same in both states. -/
def Area.same (p : Area) (s t : State) : Prop :=
  match p with
  | .memory => t.m.mem = s.m.mem ∧ t.m.poison = s.m.poison
  | .pins => t.pin = s.pin
  | .time => t.tm = s.tm
  | .cave => t.cv = s.cv
  | .work => t.wk = s.wk
  | .events => t.ev = s.ev
  | .rennet => t.rn = s.rn
  | .spares => t.sp = s.sp
  | .store => t.st = s.st
  | .xlat => t.xl = s.xl
  | .links => t.lk = s.lk
  | .coherent => t.cx = s.cx
  | .peers => t.pr = s.pr
  | .wheels => t.wh = s.wh
  | .security => t.se = s.se
  | .core => t.af = s.af

/-- Every area but those named. -/
def areasBut (l : List Area) : List Area :=
  [Area.memory, .pins, .time, .cave, .work, .events, .rennet, .spares, .store, .xlat, .links, .coherent, .peers, .wheels,
    .security, .core].filter (fun p => !l.contains p)

/-- The footprint of a command: the parts that it may change, itself or through the events, faults, reactions of Rennet and
completions that it causes. -/
def Instr.touches (i : Instr) : List Area :=
  match i with
  | .copy _ _ _ | .fill _ _ _ | .gather _ _ _ | .scatter _ _ _ | .transform _ _ _ | .reduce _ _ _ | .accumulate _ _ _
  | .resolve _ _ _ | .atomic _ _ _ | .fenceSignal _ _ | .prefetch _ _ _ | .advise _ _ _ | .launch _ _ | .queryCaps _
  | .resync _ | .hostCompletion _ _ _ | .completionTimeout _ _ | .bar2Write _ _ _ _ | .ideCheckFailed _ _
  | .farTimeout _ _ | .acdFlit _ _ | .acdReplayTimeout _ | .acdLaneFailure _ _ _ | .fault _ _ _ _ _ | .complete _ _ _
  | .noAccept _ _ | .reqTimeout _ | .peerFrame _ _ | .frameReplayTimeout _ | .peerSessionEstablished _ _ _
  | .laserInputFault _ | .refclkLoss _ | .sourceEvent _ _ _ | .logRecordWrite _ | .turnTestDone _ | .logicRailLow
  | .photRailLow | .rail18Low | .thermTrip | .srcStatusClear _ _ | .srcForce _ _ => areasBut [.cave]
  | .fenceWait _ _ | .invalidate _ _ | .nop _ _ | .deleteWheel _ | .funcReset _ | .wheelReset _ | .ringFetch _ _
  | .ownReread _ | .entryStart _ _ | .segmentDone _ _ _ _ | .vatTeardownComplete _ | .watcherReread _ | .watcherPoll _
  | .hoopEnginePoll _ | .translationCompletion _ _ _ | .walkComplete _ _ _ | .pageRequestResponse _ _ _
  | .priTimeout _ _ | .invalidateCompletion _ _ | .xlateFlush _ | .vfFlr _ _ | .vfEnableClear _ | .snpData _ _
  | .snpInv _ _ | .snpCur _ _ | .goWritePull _ _ | .goWritePullDrop _ _ | .cacheFillGo _ _ _ _ | .biRsp _ _ _
  | .acdWrAck _ _ | .atData _ _ | .fenceHint _ _ | .launchThermalTimeout _ _ | .holdBeacon _ | .holdTimeout _
  | .rdData _ _ | .wrAck _ _ | .atResp _ _ | .hold _ _ | .stepDone _ _ | .outcome _ _ | .hostTeardownComplete _
    => [.memory, .pins, .work, .events, .xlat, .links, .coherent, .peers, .wheels]
  | .createHoop _ | .createEventHoop _ | .destroyEventHoop _ | .createVat _ | .destroyVat _ | .loadRecipe _
  | .unloadRecipe _ | .calibrate _ | .prgIndexFree _ _ | .intDone _ _ | .fastDone _ _ | .vfIntDone _ _
  | .maskClr _ _ _ | .pendSet _ _ _ => [.memory, .pins, .work, .events, .xlat, .links, .coherent]
  | .destroyHoop _ | .disableHoop _ | .freeze _ | .thaw _ | .doorbell _ _ _ | .push _ _ _ _ | .headPublishTimer _
  | .freezeTimeout _ | .hoopResume _ | .thermal _ _ _ | .holdSpaceDrain _ | .hoopEnable _ _
    => [.memory, .pins, .work, .events, .xlat, .links, .coherent, .peers]
  | .createWheel _ | .bindMove _ | .bindVats _ | .bindEvqs _ | .bindShare _ | .vfGrant _ | .msixMessageSend _
    => [.memory, .pins, .work, .events, .xlat, .links, .coherent, .wheels]
  | .saveState _ | .restoreState _ | .keySessionOpen _ | .keySessionStep _ | .keySessionClose _
    => [.memory, .pins, .work, .events, .xlat, .links, .coherent, .security]
  | .selftest _ => [.memory, .pins, .work, .events, .spares, .xlat, .links, .coherent]
  | .fwUpdate _ _ | .fwActivate _ | .mramWriteWaitTimeout | .portConfigCommit | .portCalibrationDone _ _ _
    => [.memory, .pins, .work, .events, .store, .xlat, .links, .coherent]
  | .adminDoorbell _ _ | .reservationTimeout _ _ => [.pins, .work, .links]
  | .vatLoad _ | .vatSlotExpiry _ | .journalRecordExpiry _ _ => [.work]
  | .invalidateRequest _ _ _ _ _ _ => [.xlat, .links]
  | .bar2Read _ _ _ | .ideKmQuery _ | .getMeasurements _ _ | .lsrFlt | .powerWindow _ | .energyWindow _ _
  | .jtagAccess _ => [.pins]
  | .bar2AtomicOp _ _ _ _ _ _ | .hdmRequest _ _ _ _ => [.memory, .pins, .work, .links, .coherent]
  | .configRequest _ => [.pins, .events, .xlat, .links]
  | .hostLinkTrained _ _ _ | .busMasterEnable _ | .farMediaReady _ _ | .acdTrainTimeout _ | .acdModuleRejoin _ _
  | .accept _ _ _ | .acdRequestRelease _ _ | .roshamTrained _ | .buLinkTrained _ _ => [.links]
  | .hostLinkDown _ | .hotReset _ | .pfFlr _ | .farLinkDown _ | .buReset | .hcLinkDisable _ _
    => areasBut [.time, .cave, .rennet, .spares, .core]
  | .vfEnableSet _ _ => [.events, .links]
  | .pmcsrDState _ _ => [.events]
  | .l0pRequest _ _ | .ideKmKeyProg _ _ _ | .ideKmKSetGo _ _ _ | .ideKmKSetStop _ _ _ | .launchResend _ _
  | .journalRetry _ | .swap _ _ _ | .mark _ _ | .done _ _ | .hdmWinWrite _ _ _ _ => [.pins, .links]
  | .keyExchange _ _ | .spdmRequest _ _ | .mctpMessage _ => [.pins, .security]
  | .biSnpTimeout _ _ | .farResponse _ _ _ | .acdRdData _ _ _ | .nak _ _ | .progressTimeout _ | .replayStuck _
  | .peerLinkDown _ | .peerPortDisable _ _ | .routeWrite _ _ _ | .buLinkDown
    => [.memory, .pins, .work, .events, .store, .xlat, .links, .coherent, .peers, .wheels]
  | .farLinkUp _ _ => [.pins, .links, .security]
  | .dieParams _ _ _ _ => [.pins, .store, .links]
  | .condAck _ _ _ | .ntLineTimeout _ | .affLoad _ _ | .affStore _ _ | .affNtStore _ _ | .affReservedLoad _
  | .affConditionalStore _ _ _ | .barSt | .barFull => [.memory, .pins, .work, .links, .coherent, .core]
  | .err _ _ _ _ | .retrain _ _ | .adminCommandComplete _ => areasBut [.time, .cave, .rennet, .spares, .security]
  | .claim _ _ _ _ => [.pins, .links, .coherent]
  | .rdReq _ _ | .wr _ _ | .atReq _ _ => [.memory, .pins, .work, .links, .coherent, .peers]
  | .join _ _ | .collGroupEnable _ _ _ | .collGroupDisable _ _ => [.pins, .links, .peers]
  | .peerKeyRenewal _ => [.links, .security]
  | .windowExpiry _ | .writeGateClosed _ => [.rennet]
  | .turnDue _ _ => [.pins, .work, .spares, .links]
  | .railRestored _ => [.memory, .pins, .work, .events, .rennet, .store, .xlat, .links, .coherent]
  | .coreRailLoss | .coldStart | .warmReset | .coreRailsReady | .registerWrite _ _ _ _ => areasBut []
  | .cavePowerLoss => [.pins, .time, .cave]
  | .vatStoreRemirror => [.store]
  | .restEnter _ | .deepRestEnter _ => [.pins, .time]
  | .restWake _ | .wakenAssert | .caveAlarmMatch | .deepRestWake _
    => [.memory, .pins, .time, .cave, .work, .events, .xlat, .links, .coherent]
  | .timeRealign => [.time]
  | .drbgReseed | .migSessionExpiry _ => [.security]
  | .coalesceTimeout _ | .msixUnmask _ _ | .claimRead _ _ | .maskSet _ _ _ | .pendClr _ _ _ | .evqRouteWrite _ _ _
  | .fastSrcWrite _ _ _ => [.pins, .events]
  | .adminEnable _ | .adminDisable _ => [.pins, .work]
  | .hcLinkEnable _ _ | .acdLinkEnable _ _ | .peerPortEnable _ _ => [.store, .links]
  | .acdLinkDisable _ _ => areasBut [.time, .cave, .spares]
  | .devmgrWrite _ _ => [.store, .wheels]
  | .barLd => []
  | .restEntryComplete => areasBut [.rennet]
  | .joinAcknowledged _ => [.peers]
  | .refclkRestored _ | .thermTripCleared => [.pins, .rennet]
  | .laserInputRestored _ => [.pins, .rennet, .links]

/-! ### When a command is given its own effect -/

/-- Segment j of entry i of hoop h is one of opcode op that has not moved yet, may be worked on, and passes the gate with
parts ps and in state g; none of its pages now fails, and none of the parts is a read of another node. -/
abbrev SegGoes (s : State) (h : Nat) (i : W32) (j op : Nat) (e : Entry) (ps : List Part) (g : State) : Prop :=
  segLive s h i j = some (e, .todo) ∧ e.opcode = op ∧ segFault s h e j = none ∧
    gateSeg (.seg h i j) (s.hoop h).vat (segAccesses s h e j) s = (.go ps, g) ∧
    ps.any (fun p => isPeerPart p && p.need = .read) = false

/-- The state in which a segment that passed the gate in state g moves: its earlier requests are done with. -/
def segState (g : State) (h : Nat) (i : W32) (j : Nat) : State := dropOwner (.seg h i j) g

/-- Admin hoop a runs entry e of opcode op with parameter block q, and the block can be read. -/
abbrev AdminGot (s : State) (a op : Nat) (e : Entry) (q : List W64) : Prop :=
  adminEntry s a op = some e ∧ (noBlock op = true ∨ inputOk s a e.src.toNat e.length = true) ∧ q = adminBlock s a e

/-- The state in which an admin command is performed: the reads of its input are done with. -/
def adminState (s : State) (a : Nat) : State := dropOwner (.adminInput a) s

/-- Admin hoop a's command in progress has been accepted as work of kind k, which a later event ends. -/
def AdminWaits (t : State) (a : Nat) (k : AdminKind) : Prop := ∃ w, (t.admin a).cur = some w ∧ w.kind = k

/-- Port p is up, node and destination are this node's, no earlier request of its class and pair waits, the export that packet k
of a TYPE names gives location pa with the right that the access needs, nothing poisoned is read, no host holds the bytes and
their stack is not held. -/
abbrev PeerServes (s : State) (p type : Nat) (k : Pkt) (pa : Nat) : Prop :=
  (s.peerP p).up = true ∧ s.pr.nodeValid = true ∧ k.dst = s.pr.nodeId ∧ heldBack s k = false ∧
    exportCheck s k.fdom k.offset (pktLen type k) (pktAccess type k).1 = .ok pa ∧
    ((pktAccess type k).1 = .write ∨ poisonedAt s pa (pktAccess type k).2 = false) ∧
    filterHits s { va := 0, pa := pa, len := (pktAccess type k).2, need := (pktAccess type k).1 } = [] ∧ isHot s pa = false

end Sys2Proof
end

