-- ==== Sys2Proof/Certificates/Slice0/Obligations.lean ====
section
/-! DEFINITION. The statements for the provers. -/

open Sys2Proof Sys2Proof.Machine



/-! ### Every step -/

/-- A step takes the command at the front of the queue and is exec of it, with the queue's rest. -/
def Obligations.StepRunsTheFrontCommand : Prop :=
  ∀ (s : State) (c : Instr), step { s with pending := c :: s.pending } = exec c s

/-- With no command waiting, one 40 ns period passes (the model's choice, log entry 4): while the Cave keeps time,
DEVICE_TIME advances by 40 modulo 2^64, and nothing but time, the Cave and the functions' counter copies changes. -/
def Obligations.IdleStepIsOneTick : Prop :=
  ∀ s : State, s.pending = [] → ∃ t, step s = .next t ∧
    (s.tm.timeKnown = true → t.tm.deviceTime = (s.tm.deviceTime + 40) % 2 ^ 64) ∧
    (s.tm.timeKnown = false → t = s) ∧
    t.pending = s.pending ∧ ∀ p : Area, p ≠ .time → p ≠ .cave → p ≠ .events → p.same s t

/-- Every step keeps the memory's canonical form. The model's own readings in it: log entry 13. -/
def Obligations.EveryStepKeepsTheMemoryForm : Prop :=
  ∀ s t : State, Safe s → step s = .next t → Safe t

/-- After reset no command waits, the memory is empty and in its canonical form. The model's own readings in it: log
entries 1 and 2. -/
def Obligations.ResetIsSafe : Prop :=
  Safe State.reset ∧ State.reset.pending = [] ∧ ∀ a, byteAt State.reset a = 0

/-- No command changes the queue of the commands that wait behind it. -/
def Obligations.NoCommandTouchesTheQueue : Prop :=
  ∀ (c : Instr) (s t : State), exec c s = .next t → t.pending = s.pending

/-- The frame of every command: an area of the state outside a command's footprint, the memory included, is the same
afterwards. -/
def Obligations.EveryCommandKeepsWhatItsFootprintLeavesOut : Prop :=
  ∀ (c : Instr) (s t : State) (p : Area), exec c s = .next t → p ∉ c.touches → p.same s t

/-- Only the Affineur's own loads and stores can end other than in a next state, and only at an address with no home. The
model's own readings in it: log entry 7. -/
def Obligations.OnlyAnAbsentAddressStops : Prop :=
  ∀ (c : Instr) (s : State), (∃ t, exec c s = .next t) ∨
    (exec c s = .fault .absentAddress ∧
      ((∃ a n, c = .affLoad a n ∧ affPlaced a n = false) ∨ (∃ a d, c = .affStore a d ∧ affPlaced a d.length = false) ∨
        (∃ a d, c = .affNtStore a d ∧ affPlaced a d.length = false) ∨
        (∃ a, c = .affReservedLoad a ∧ affPlaced a 1 = false) ∨
        (∃ a o d, c = .affConditionalStore a o d ∧ affPlaced a 1 = false)))

/-- Bytes written are read back, and every other byte reads as before. The model's own readings in it: log entry 13. -/
def Obligations.WrittenBytesReadBack : Prop :=
  ∀ (s : State) (a : Nat) (bs : List Byte), Safe s →
    readBytes (writeBytes a bs s) a bs.length = bs ∧
    ∀ x, x < a ∨ a + bs.length ≤ x → byteAt (writeBytes a bs s) x = byteAt s x

/-- A write through the Hivik reads back at its home unless a lost cell discards it, and no other byte changes (R161).
The model's own readings in it: log entry 13. -/
def Obligations.StoresLandAtTheirHome : Prop :=
  ∀ (s : State) (a : Nat) (bs : List Byte), Safe s →
    (cellOut s a = false → readBytes (storeAt a bs s) a bs.length = bs) ∧
    (cellOut s a = true → storeAt a bs s = s) ∧
    ∀ x, x < a ∨ a + bs.length ≤ x → byteAt (storeAt a bs s) x = byteAt s x

/-! ### Data commands (R90 to R112) -/

/-- COPY, FILL, GATHER and SCATTER of a segment that passes the gate complete, and the memory is that in which the
segment's bytes have moved. The model's own readings in it: log entries 27 and 28. -/
def Obligations.MovesComplete : Prop :=
  (∀ s h i j e ps g, SegGoes s h i j 0x01 e ps g →
    let u := segState g h i j
    let v := (u.hoop h).vat
    let put := vstoreAll v .write (segWrites u h e j) (vreadAll u v (segReads u h e j)) u
    ∃ t, exec (.copy h i j) s = .next t ∧
      t.m.mem = (spoilAliases v (copySources e) (segWrites u h e j) put).m.mem) ∧
  (∀ s h i j e ps g, SegGoes s h i j 0x02 e ps g →
    let u := segState g h i j
    let a := (segRange u h e j).1
    ∃ t, exec (.fill h i j) s = .next t ∧
      t.m.mem = (vstore (u.hoop h).vat .write (e.dst.toNat + a)
        ((List.range ((segRange u h e j).2 - a)).map (fun k => e.operand.extractLsb' (8 * ((a + k) % 8)) 8)) u).m.mem) ∧
  (∀ s h i j e ps g, SegGoes s h i j 0x03 e ps g →
    let u := segState g h i j
    let v := (u.hoop h).vat
    ∃ t, exec (.gather h i j) s = .next t ∧
      t.m.mem = (vstoreAll v .write (segWrites u h e j) (vreadAll u v (segReads u h e j)) u).m.mem) ∧
  (∀ s h i j e ps g u, SegGoes s h i j 0x04 e ps g → scatterTurn s h i j = true →
    moveScatter h j e (segState g h i j) = .ok u →
    ∃ t, exec (.scatter h i j) s = .next t ∧ t.m.mem = u.m.mem)

/-- TRANSFORM and REDUCE of a segment that passes the gate and is served by a working replica complete, and the memory is
that in which its blocks have gone through the recipe; an ACCUMULATE whose operands can be applied and a RESOLVE complete,
and the memory is that in which its accumulators have been applied or resolved. The model's own readings in it: log entries
19 and 25. -/
def Obligations.RecipeCommandsComplete : Prop :=
  (∀ s h i j e ps g, SegGoes s h i j 0x05 e ps g → segReplicas (segState g h i j) h e j ≠ [] →
    ∃ t u, exec (.transform h i j) s = .next t ∧
      moveRecipe h i j (fun e => [e.src.toNat]) e (segState g h i j) = .ok u ∧ t.m.mem = u.m.mem) ∧
  (∀ s h i j e ps g, SegGoes s h i j 0x06 e ps g → segReplicas (segState g h i j) h e j ≠ [] →
    ∃ t u, exec (.reduce h i j) s = .next t ∧
      moveRecipe h i j (fun e => e.opsRead.map (·.toNat)) e (segState g h i j) = .ok u ∧ t.m.mem = u.m.mem) ∧
  (∀ s h i j e ps g u, SegGoes s h i j 0x07 e ps g → moveAcc h i j e (segState g h i j) = .ok u →
    ∃ t, exec (.accumulate h i j) s = .next t ∧ t.m.mem = u.m.mem) ∧
  (∀ s h i j e ps g, SegGoes s h i j 0x08 e ps g →
    ∃ t u, exec (.resolve h i j) s = .next t ∧ moveResolve h i j e (segState g h i j) = .ok u ∧ t.m.mem = u.m.mem)

/-- ATOMIC and FENCE_SIGNAL of a segment that passes the gate complete: the operands are applied, or the fence is raised
to the maximum of its value and FENCE_VALUE; a FENCE_WAIT that is not armed is armed, and its fence read. The model's own
readings in it: log entries 30 to 32. -/
def Obligations.AtomicsAndFencesComplete : Prop :=
  (∀ s h i j e ps g, SegGoes s h i j 0x09 e ps g →
    ∃ t u, exec (.atomic h i j) s = .next t ∧ moveAtomic h i j e (segState g h i j) = .ok u ∧ t.m.mem = u.m.mem) ∧
  (∀ s h i e ps g pa, SegGoes s h i 0 0x0A e ps g →
    let u := segState g h i 0
    lookup u (u.hoop h).vat e.dst.toNat .atomic = .ok pa → (∀ n, homeOf pa ≠ .peer n) →
    ∃ t, exec (.fenceSignal h i) s = .next t ∧
      t.m.mem = (if readNat u pa 8 < e.fenceVal.toNat then storeAt pa (natLe 8 e.fenceVal.toNat) u else u).m.mem) ∧
  (∀ s h i e, segLive s h i 0 = some (e, .todo) → e.opcode = 0x0B → waitArmed s h i = false →
    exec (.fenceWait h i) s = .next (armWait h i e s))

/-- PREFETCH and ADVISE move the pages of their segment; LAUNCH takes the lowest free launch tag for its entry; INVALIDATE
removes the translations of its vat or of its range, and its segment ends at once, or is left to SEGMENT_DONE while accesses of
its vat are outstanding; NOP ends its segment. The model's own readings in it: log entries 33 and 35. -/
def Obligations.OtherDataCommandsComplete : Prop :=
  (∀ s h i j e ps g u, SegGoes s h i j 0x0C e ps g → moveTier h j e (segState g h i j) = .ok u →
    ∃ t, exec (.prefetch h i j) s = .next t ∧ t.m.mem = u.m.mem) ∧
  (∀ s h i j e ps g u, SegGoes s h i j 0x0D e ps g → moveTier h j e (segState g h i j) = .ok u →
    ∃ t, exec (.advise h i j) s = .next t ∧ t.m.mem = u.m.mem) ∧
  (∀ s h i e n, segLive s h i 0 = some (e, .todo) → e.opcode = 0x0E →
    let q := field e.subop 3 0
    launchTag s q h i = none → (s.acd q).up = true → (s.acd q).safe = false →
    firstFree 256 (tabHas (s.acd q).launches) = some n →
    ∃ t, exec (.launch h i) s = .next t ∧
      (tabGet {} (t.acd q).launches n).hoop = h ∧ (tabGet {} (t.acd q).launches n).idx = i) ∧
  (∀ s h i e, segLive s h i 0 = some (e, .todo) → e.opcode = 0x0F →
    let v := (s.hoop h).vat
    let u := if bitOf e.subop 0 then dropAsid v s else dropRange v e.dst.toNat e.length s
    (vatBusy u v = true →
      exec (.invalidate h i) s = .next (rescan (modEntry h i (fun e => { e with segs := [.busy] }) u))) ∧
    (vatBusy u v = false → exec (.invalidate h i) s = .next (rescan (doneSeg h i 0 u)))) ∧
  (∀ s h i e, segLive s h i 0 = some (e, .todo) → e.opcode = 0x10 → exec (.nop h i) s = .next (doneSeg h i 0 s))

/-! ### Admin commands (R77 to R82, R50, R150, R414 to R423) -/

/-- CREATE_HOOP of a data hoop that passes its checks, and whose ring and head pages translate, makes the hoop that its block
describes and completes with OK, as does an event CREATE_HOOP without a vat. DESTROY_HOOP of an idle, disabled hoop removes it
and completes with OK; of an event hoop that nothing names, removes it, and the status is left to ADMIN_COMMAND_COMPLETE.
DISABLE_HOOP of an enabled hoop disables it, publishes its head, and completes once it is idle. The model's own readings in
it: log entries 46 and 49. -/
def Obligations.HoopCommandsComplete : Prop :=
  (∀ s a e q, AdminGot s a 0x80 e q → e.subop = 0 → createHoopCheck (adminState s a) a e q = none →
    pagesOutcome (adminState s a) none e.vatId (createHoopPages q) = .ok →
    ∃ u, exec (.createHoop a) s = .next (forgetFaults e.vatId (adminEnd a .ok u)) ∧
      let x := u.hoop (chNumber q)
      x.present = true ∧ x.vat = e.vatId ∧ x.fn = (s.vat e.vatId).fn ∧ x.evq = chEvq q ∧ x.ringBase = qw q 0 ∧
        x.headAddr = qw q 1 ∧ x.log2 = chLog2 q ∧ x.pubCount = chPub q ∧ x.enabled = bitOf (qw q 2) 8 ∧
        x.head = 0 ∧ x.tail = 0 ∧ x.epoch = 0 ∧ x.entries = [] ∧ ∀ h, h ≠ chNumber q → u.hoop h = s.hoop h) ∧
  (∀ s a e q, AdminGot s a 0x80 e q → e.subop = 1 → e.vatId = 0xFFFF → createEvqCheck (adminState s a) a e q = none →
    ∃ u, exec (.createEventHoop a) s = .next (adminEnd a .ok u) ∧
      (u.evq (chNumber q)).present = true ∧ (u.evq (chNumber q)).vat = none ∧ (u.evq (chNumber q)).ringBase = qw q 0 ∧
        (u.evq (chNumber q)).log2 = chLog2 q ∧ ∀ n, n ≠ chNumber q → u.evq n = s.evq n) ∧
  (∀ s a e q, AdminGot s a 0x81 e q → e.subop = 0 → hoopNamed (adminState s a) a (hoopNumber e) = none →
    (s.hoop (hoopNumber e)).migrating = false → (s.hoop (hoopNumber e)).enabled = false →
    (s.hoop (hoopNumber e)).idle = true →
    ∃ u, exec (.destroyHoop a) s = .next (adminEnd a .ok u) ∧ (u.hoop (hoopNumber e)).present = false) ∧
  (∀ s a e q, AdminGot s a 0x81 e q → e.subop = 1 → hoopNumber e < 4096 → evqBlockOf s (hoopNumber e) = hcWheelOf s a →
    (s.evq (hoopNumber e)).present = true → ownsFn a (s.evq (hoopNumber e)).fn = true →
    evqNamed (adminState s a) (hoopNumber e) = false →
    ∃ t, exec (.destroyEventHoop a) s = .next t ∧ (t.evq (hoopNumber e)).present = false ∧
      AdminWaits t a (.destroyEvq (hoopNumber e))) ∧
  (∀ s a e q, AdminGot s a 0x82 e q → hoopNamed (adminState s a) a (hoopNumber e) = none →
    (s.hoop (hoopNumber e)).enabled = true →
    ∃ u, exec (.disableHoop a) s = .next (tryIdle (hoopNumber e) (publishHead (hoopNumber e) u)) ∧
      (u.hoop (hoopNumber e)).enabled = false ∧ (u.hoop (hoopNumber e)).disabling = true ∧
      (u.hoop (hoopNumber e)).disableBy = some a ∧ AdminWaits u a (.disable (hoopNumber e)))

/-- CREATE_VAT of a vat that passes the rows of R221 makes the vat of its block and completes with OK; with PIN the vat is
PINNED, and takes a slot or waits for one. DESTROY_VAT of a vat that passes those of R53 turns it ABORTING, and its status waits
for the end of the teardown. -/
def Obligations.VatCommandsComplete : Prop :=
  (∀ s a e q, AdminGot s a 0x83 e q → e.flag 0 = false → createVatCheck (adminState s a) a e q = none →
    ∃ u, exec (.createVat a) s = .next (adminEnd a .ok u) ∧
      let x := u.vat e.vatId
      x.st = .idle ∧ x.fn = fnOfId (cvFn q) ∧ x.wheel = hcWheelOf s a ∧ x.root = cvRoot q ∧
        x.windowMask = BitVec.ofNat 16 (field (qw q 1) 15 0) ∧ x.slot = none ∧ ∀ v, v ≠ e.vatId → u.vat v = s.vat v) ∧
  (∀ s a e q, AdminGot s a 0x83 e q → e.flag 0 = true → createVatCheck (adminState s a) a e q = none →
    ∃ u, exec (.createVat a) s = .next (adminEnd a .ok (pinSlot e.vatId u)) ∧ (u.vat e.vatId).st = .pinned ∧
      (u.vat e.vatId).pin = true ∧ (u.vat e.vatId).fn = fnOfId (cvFn q) ∧ (u.vat e.vatId).root = cvRoot q) ∧
  (∀ s a e q, AdminGot s a 0x84 e q → destroyVatCheck (adminState s a) a e.vatId = none →
    ∃ t, exec (.destroyVat a) s = .next t ∧ (t.vat e.vatId).st = .aborting ∧ (t.vat e.vatId).destroyBy = some a ∧
      AdminWaits t a (.destroyVat e.vatId))

/-- LOAD_RECIPE of a recipe that passes steps 1 to 6 of R150 and whose replicas can be placed adds the recipe, its image and its
replicas under its handle, and its status OK is left to ADMIN_COMMAND_COMPLETE. UNLOAD_RECIPE of a loaded recipe that no entry in
flight runs removes it and completes with OK; of one that an entry runs, leaves it in place with its unloading recorded, and the
command waits. The model's own readings in it: log entries 23, 46 and 52. -/
def Obligations.RecipeLoadsComplete : Prop :=
  (∀ s a e q reps, AdminGot s a 0x85 e q →
    let u := adminState s a
    let img := lrImage u a q
    lrBlockOk e q = true → namesOwn u a (lrFn q) = true → lrEarly u (hcWheelOf u a) e q = none →
    inputOk u a (qw q 0) (lrBytes q) = true → recipeError img (lrBytes q) = none →
    placeAll u img (lrSlices u (hcWheelOf u a) q) (lrReplicas q) = some reps →
    ∃ t, exec (.loadRecipe a) s = .next t ∧
      (t.admin a).cur = some { idx := e.idx, kind := .loadRecipe, status := .ok, doneBytes := 0, ports := [], dst := 0 } ∧
      t.wk.recipes = s.wk.recipes ++ [{ fn := fnOfId (lrFn q), handle := e.subop, image := img, replicas := reps }]) ∧
  (∀ s a e q r, AdminGot s a 0x86 e q →
    let f := adminFn a
    let mine (x : Recipe) : Bool := x.fn = f && x.handle = e.subop
    recipeOf s f e.subop = some r → (∀ x ∈ s.wk.recipes, x.fn = f → x.unloadBy = none) →
    (recipeBusy s f e.subop = false →
      ∃ u, exec (.unloadRecipe a) s = .next (adminEnd a .ok u) ∧ u.wk.recipes = s.wk.recipes.filter (fun x => !mine x)) ∧
    (recipeBusy s f e.subop = true →
      ∃ t, exec (.unloadRecipe a) s = .next t ∧ AdminWaits t a (.unload f e.subop) ∧
        t.wk.recipes = s.wk.recipes.map (fun x => if mine x then { x with unloadBy := some a } else x)))

/-- CREATE_WHEEL that passes the rows of R414 makes a wheel that holds nothing, with the manager of its block, or deletes the
wheel of its block with every EXPORT and COLL_GROUP entry that names it; both complete with OK. -/
def Obligations.WheelCommandsComplete : Prop :=
  (∀ s a e q, AdminGot s a 0x87 e q → bitOf (qw q 0) 16 = false → wheelCheck (adminState s a) a q = none →
    ∃ u, exec (.createWheel a) s = .next (adminEnd a .ok u) ∧
      u.wheel (field (qw q 0) 3 0) = { present := true, manager := field (qw q 0) 11 8 } ∧
      ∀ w, w ≠ field (qw q 0) 3 0 → u.wheel w = s.wheel w) ∧
  (∀ s a e q, AdminGot s a 0x87 e q → bitOf (qw q 0) 16 = true → wheelCheck (adminState s a) a q = none →
    ∃ u, exec (.deleteWheel a) s = .next (adminEnd a .ok u) ∧ (u.wheel (field (qw q 0) 3 0)).present = false ∧
      (∀ x ∈ u.pr.exports, x.2.wheel ≠ field (qw q 0) 3 0) ∧ ∀ x ∈ u.pr.colls, x.2.wheel ≠ field (qw q 0) 3 0)

/-- BIND of a block that passes every row of R419 is accepted: it is in progress, and its status is left to
ADMIN_COMMAND_COMPLETE. With it FUNC_RESET tears down the vats of its virtual function, and WHEEL_RESET those of its wheel, whose
RESETTING reads 1. The model's own readings in it: log entries 47 and 48. -/
def Obligations.BindsAreAccepted : Prop :=
  ∀ s a e q, AdminGot s a 0x88 e q → bindCheck (adminState s a) a q = none →
    (bOp q = 1 → ∃ t, exec (.bindMove a) s = .next t ∧ t.wh.bindBusy = true ∧ t.wh.bindWheels = [bFrom q, bTo q] ∧
      AdminWaits t a (.bind q)) ∧
    (bOp q = 2 → ∃ t, exec (.bindVats a) s = .next t ∧ t.wh.bindBusy = true ∧ t.wh.bindWheels = [bFrom q, bTo q] ∧
      AdminWaits t a (.bind q)) ∧
    (bOp q = 3 → ∃ t, exec (.bindEvqs a) s = .next t ∧ t.wh.bindBusy = true ∧ t.wh.bindWheels = [bFrom q, bTo q] ∧
      AdminWaits t a (.bind q)) ∧
    (bOp q = 4 → ∃ t, exec (.bindShare a) s = .next t ∧ t.wh.bindBusy = true ∧ t.wh.bindWheels = [bTo q] ∧
      AdminWaits t a (.bind q)) ∧
    (bOp q = 5 → ∃ t, exec (.vfGrant a) s = .next t ∧ t.wh.bindBusy = true ∧ t.wh.bindWheels = [] ∧
      AdminWaits t a (.bind q)) ∧
    (bOp q = 6 → ∃ u, exec (.funcReset a) s = .next (tearVats (vatsOf s (.vf a (bVf q))) u) ∧ u.wh.bindBusy = true ∧
      AdminWaits u a (.funcReset (.vf a (bVf q)))) ∧
    (bOp q = 7 → ∃ u, exec (.wheelReset a) s = .next (tearVats (wheelVats s (bTo q)) u) ∧ u.wh.bindBusy = true ∧
      (u.wheel (bTo q)).resetting = true ∧ AdminWaits u a (.wheelReset (bTo q)))

/-- ADMIN_COMMAND_COMPLETE ends the long-running command in progress: a BIND that still meets its conditions brings its new
bindings, settings or grant about and completes with OK; the change-over of the firmware takes the other slot's image and SVN and
completes with OK; a recipe load, a save, a restore, a thaw, a resync, an event hoop's destruction and a firmware update
complete with the status that their command decided. The model's own readings in it: log entries 46 and 47. -/
def Obligations.AdminCommandCompleteEnds : Prop :=
  (∀ s a w q, (s.admin a).cur = some w → w.kind = .bind q → bOp q = 1 → peerBusy s q = false → bindQuiet s a q = true →
    exec (.adminCommandComplete a) s = .next (rescan (bindEnd a .ok (bindMoveEffect q s)))) ∧
  (∀ s a w q, (s.admin a).cur = some w → w.kind = .bind q → bindQuiet s a q = true →
    (bOp q = 2 → ∃ u, exec (.adminCommandComplete a) s = .next (rescan (bindEnd a .ok u)) ∧
      ∀ b, b ∈ bBlocks q → tabGet 0 u.wh.vatBlock b = bTo q) ∧
    (bOp q = 3 → ∃ u, exec (.adminCommandComplete a) s = .next (rescan (bindEnd a .ok u)) ∧
      ∀ b, b ∈ bBlocks q → tabGet 0 u.wh.evqBlock b = bTo q) ∧
    (bOp q = 4 → ∃ u, exec (.adminCommandComplete a) s = .next (rescan (bindEnd a .ok u)) ∧
      (u.wheel (bTo q)).pinQuota = bPins q ∧ (u.wheel (bTo q)).holdCells = bHold q ∧ (u.wheel (bTo q)).weight = bWeight q) ∧
    (bOp q = 5 → ∃ u, exec (.adminCommandComplete a) s = .next (rescan (bindEnd a .ok u)) ∧
      (u.fnS (.vf a (bVf q))).grVats = bVats q ∧ (u.fnS (.vf a (bVf q))).grHoops = bHoops q ∧
      (u.fnS (.vf a (bVf q))).grEvqs = bEvqs q)) ∧
  (∀ s a w, (s.admin a).cur = some w → w.kind = .fwActivate → s.st.mramBlocked = false →
    ∃ u, exec (.adminCommandComplete a) s = .next (adminEnd a .ok u) ∧ u.st.fwActive = fwOther s ∧
      u.st.fwRunning = fwOther s ∧ u.st.fwPending = false ∧ u.st.fwSvn = (s.fwSlot (fwOther s)).svn) ∧
  (∀ s a w, (s.admin a).cur = some w →
    (w.kind = .loadRecipe ∨ w.kind = .resync ∨ w.kind = .fwUpdate ∨ (∃ f, w.kind = .saveState f) ∨
      (∃ f, w.kind = .restoreState f) ∨ (∃ f, w.kind = .thaw f) ∨ ∃ n, w.kind = .destroyEvq n) →
    exec (.adminCommandComplete a) s = .next (adminFinish a w.status false w.doneBytes s))

/-! ### Reports, moving a function, key sessions and device commands (R82, R122 to R125, R434, R435, R357, R396, R450) -/

/-- QUERY_CAPS and RESYNC on an admin hoop: with OPERAND[31:0] = 0 the length of the report is the answer; where the output
buffer holds the report it is written at DST, with the fault bits of the reported vats cleared before that by a RESYNC with
CLEAR_VAT_FAULTS. QUERY_CAPS then completes with OK; RESYNC's status OK is left to ADMIN_COMMAND_COMPLETE. On a virtual
function's data hoop, with a length of 0 both complete with OK and the length; where the output passes the gate and needs no
answer, the memory is that in which the report stands at DST, and the entry completes with OK; where it needs answers its segment
is left to SEGMENT_DONE. The model's own readings in it: log entries 43 and 46. -/
def Obligations.ReportsComplete : Prop :=
  (∀ s a e q, AdminGot s a 0x89 e q →
    let u := adminState s a
    let bs := capTable u (adminFn a)
    (outLen e = 0 → exec (.queryCaps (.admin a)) s = .next (adminFinish a .ok false bs.length u)) ∧
    (bs.length ≤ outLen e → outLen e ≠ 0 →
      exec (.queryCaps (.admin a)) s = .next (adminFinish a .ok false bs.length (adminOut a e.dst.toNat bs u)))) ∧
  (∀ s a e q, AdminGot s a 0x8A e q →
    let u := adminState s a
    let bs := summary u (adminFn a)
    let work : AdminWork := { idx := e.idx, kind := .resync, status := .ok, doneBytes := bs.length, ports := [], dst := 0 }
    (outLen e = 0 → ∃ t, exec (.resync (.admin a)) s = .next t ∧ (t.admin a).cur = some work ∧ t.m.mem = s.m.mem) ∧
    (bs.length ≤ outLen e → outLen e ≠ 0 →
      let v := if e.flag 0 then clearVatFaults (scopeVats u (adminFn a)) u else u
      ∃ t, exec (.resync (.admin a)) s = .next t ∧ (t.admin a).cur = some work ∧
        t.m.mem = (adminOut a e.dst.toNat bs v).m.mem ∧
        (e.flag 0 = true → ∀ x ∈ scopeVats u (adminFn a), (t.vat x).xlateSeen = false ∧ (t.vat x).rindSeen = false ∧
          (t.vat x).pageReqSeen = false ∧ (t.vat x).partialSeen = false ∧ (t.vat x).cause = 0 ∧ (t.vat x).faultVa = 0))) ∧
  (∀ s h i e, segLive s h i 0 = some (e, .todo) → outLen e = 0 →
    (e.opcode = 0x89 →
      exec (.queryCaps (.entry h i)) s = .next (finishEntry h i .ok false (capTable s (s.hoop h).fn).length s)) ∧
    (e.opcode = 0x8A →
      exec (.resync (.entry h i)) s = .next (finishEntry h i .ok false (summary s (s.hoop h).fn).length s))) ∧
  (∀ s h i e ps g bs, segLive s h i 0 = some (e, .todo) → bs.length ≤ outLen e → outLen e ≠ 0 →
    gateSeg (.seg h i 0) (s.hoop h).vat [(e.dst.toNat, bs.length, .write)] s = (.go ps, g) →
    (e.opcode = 0x89 → bs = capTable s (s.hoop h).fn →
      ∃ u, exec (.queryCaps (.entry h i)) s = .next (if waitsFor u (.seg h i 0) then u else finishEntry h i .ok false bs.length u) ∧
        u.m.mem = (vstore (s.hoop h).vat .write e.dst.toNat bs g).m.mem) ∧
    (e.opcode = 0x8A → bs = summary s (s.hoop h).fn →
      ∃ u, exec (.resync (.entry h i)) s = .next (if waitsFor u (.seg h i 0) then u else finishEntry h i .ok false bs.length u) ∧
        u.m.mem = (vstore (s.hoop h).vat .write e.dst.toNat bs
          (if e.flag 0 then clearVatFaults (scopeVats s (s.hoop h).fn) g else g)).m.mem))

/-- FREEZE of a RUNNING virtual function of the issuer turns it FREEZING for that command, which waits; where the function's work is
complete it goes on to FROZEN at once. SAVE_STATE of a FROZEN or SAVING one with a good session turns it SAVING, with its image written at DST
where LENGTH is not 0 and holds it; the status OK with the size is left to ADMIN_COMMAND_COMPLETE. RESTORE_STATE of a virtual
function that passes the rows of R124 rebuilds it from its image, turns it RESTORED and spends the session; of one that does not,
ends with the status of its row. THAW of a function that is neither RUNNING nor FREEZING turns it RUNNING and lets its hoops
go on, and its status is left to ADMIN_COMMAND_COMPLETE. The model's own readings in it: log entries 17, 46, 55, 134 and 135. -/
def Obligations.MovingAFunctionCompletes : Prop :=
  (∀ s a e q, AdminGot s a 0x8B e q →
    let f := fnOfId (movedId e)
    namesVf (adminState s a) a (movedId e) = true → (s.fnS f).vfState = .running →
    ∃ u, exec (.freeze a) s = .next (tryFrozen f u) ∧ (u.fnS f).vfState = .freezing ∧ (u.fnS f).freezeBy = some a ∧
      AdminWaits u a (.freeze f)) ∧
  (∀ s a e q m, AdminGot s a 0x8C e q →
    let f := fnOfId (movedId e)
    let u := adminState s a
    let bs := imageBytes u f m
    let work : AdminWork := { idx := e.idx, kind := .saveState f, status := .ok, doneBytes := bs.length, ports := [], dst := 0 }
    namesVf u a (movedId e) = true → goodSession u (movedSession e) f = some m →
    (s.fnS f).vfState = .frozen ∨ (s.fnS f).vfState = .saving →
    (e.length = 0 → ∃ t, exec (.saveState a) s = .next t ∧ (t.fnS f).vfState = .saving ∧ (t.admin a).cur = some work ∧
      t.m.mem = s.m.mem) ∧
    (e.length ≠ 0 → bs.length ≤ e.length → ∃ t, exec (.saveState a) s = .next t ∧ (t.fnS f).vfState = .saving ∧
      (t.admin a).cur = some work ∧ t.m.mem = (adminOut a e.dst.toNat bs u).m.mem)) ∧
  (∀ s a e q, AdminGot s a 0x8D e q →
    let f := fnOfId (movedId e)
    let u := adminState s a
    namesVf u a (movedId e) = true →
    match restoreCheck u e f (readBytes u (hostLoc a e.src.toNat) e.length) with
    | .ok i => exec (.restoreState a) s = .next (adminHold a (.restoreState f) .ok 0
        (modMig (movedSession e) (fun m => { m with spent := true }) (restoreFn f i u))) ∧
        ((restoreFn f i u).fnS f).vfState = .restored
    | .error st => exec (.restoreState a) s = .next (adminEnd a st u)) ∧
  (∀ s a e q, AdminGot s a 0x8E e q →
    let f := fnOfId (movedId e)
    namesVf (adminState s a) a (movedId e) = true → (s.fnS f).vfState ≠ .running → (s.fnS f).vfState ≠ .freezing →
    ∃ u, exec (.thaw a) s = .next (thawFn f u) ∧ AdminWaits u a (.thaw f) ∧ u.ev = s.ev)

/-- CALIBRATE that passes the rows of R358 begins the calibration of its ports and waits for it. SELFTEST of the device manager
whose check gives a test, while no test runs, begins the test of its unit and waits. KEY_SESSION OPEN as
initiator adds a session of its function that is not established, and completes with OK; OPEN as responder adds one that takes
the peer's message, and STEP lets its session take it: where the message is good the session goes one step on, or is
established, and the command completes with OK, and otherwise the session closes and it completes with CRYPTO_REJECT; CLOSE
removes the session and completes with OK. The model's own readings in it: log entries 17, 53 and 56. -/
def Obligations.TestsAndKeySessionsComplete : Prop :=
  (∀ s a e q, AdminGot s a 0x8F e q → calCheck (adminState s a) e q = none →
    ∃ t, exec (.calibrate a) s = .next t ∧ AdminWaits t a (.calibrate (calPorts q)) ∧
      ∀ n ∈ calPorts q, (t.rsh n).calibrating = true) ∧
  (∀ s a e q swap, AdminGot s a 0x90 e q → isDevmgr s (adminFn a) = true → selftestCheck (adminState s a) e q = .ok swap →
    s.sp.turn = none →
    ∃ u, exec (.selftest a) s = .next (startTest (stKind q) (stQuad q) (stUnit q) swap (some a) u) ∧ AdminWaits u a .selftest ∧
      u.sp = s.sp ∧
      ∃ x, (startTest (stKind q) (stQuad q) (stUnit q) swap (some a) u).sp.turn = some x ∧ x.kind = stKind q ∧
        x.quad = stQuad q ∧ x.index = stUnit q ∧ x.selftest = some a) ∧
  (∀ s a e q, AdminGot s a 0x91 e q →
    let u := adminState s a
    ksOp q = 1 → namesVf u a (ksFn q) = true → ksFieldsOk e q = true →
    (s.se.migs.filter (fun m => !m.spent)).length < 64 → (∀ m ∈ s.se.migs, m.num ≠ s.se.nextMig) →
    let m : MigSession := { num := s.se.nextMig, fn := fnOfId (ksFn q), responder := ksRole q }
    let v := drawKey { u with se.migs := s.se.migs ++ [m], se.nextMig := (s.se.nextMig + 1) % 2 ^ 32 }
    (ksRole q = false → ∃ w, exec (.keySessionOpen a) s =
        .next (adminFinish a .ok false (16 + ((Config.spdmFirst m.num).take 4080).length) w) ∧
      w.se.migs = s.se.migs ++ [{ m with steps := 1 }]) ∧
    (ksRole q = true → exec (.keySessionOpen a) s = .next (ksTake a e m (ksMessage u a e q) v))) ∧
  (∀ s a e q m, AdminGot s a 0x91 e q →
    let u := adminState s a
    ksOp q = 2 → ownMig s a (ksSession q) = some m → ksFieldsOk e q = true →
    match Config.spdmStep m.num m.steps (ksMessage u a e q) with
    | .error _ => ∃ w, exec (.keySessionStep a) s = .next (adminEnd a .cryptoReject w) ∧ ∀ x ∈ w.se.migs, x.num ≠ m.num
    | .ok (est, reply) => ∃ w, exec (.keySessionStep a) s =
          .next (adminFinish a .ok false (16 + (reply.take 4080).length) w) ∧
        w.se.migs = s.se.migs.map (fun x => if x.num = m.num then
          { x with steps := x.steps + 1, established := x.established || est } else x)) ∧
  (∀ s a e q m, AdminGot s a 0x91 e q → ksOp q = 3 → ownMig s a (ksSession q) = some m → ksFieldsOk e q = true →
    ∃ u, exec (.keySessionClose a) s = .next (adminFinish a .ok false 16 u) ∧ ∀ x ∈ u.se.migs, x.num ≠ m.num)

/-- FW_UPDATE that passes the rows of R450 before its image is read, of an image that the device can read: where its flash takes
the image and the image is good, it becomes the inactive slot's and UPDATE_PENDING is 1, and the status is left to
ADMIN_COMMAND_COMPLETE; a bad image ends the command with CRYPTO_REJECT, a failed write with BUSY, both with UPDATE_PENDING 0.
FW_ACTIVATE of a pending update that may be activated waits for its change-over. The model's own readings in it: log entries
17 and 57. -/
def Obligations.FirmwareCommandsComplete : Prop :=
  (∀ s a e q, AdminGot s a 0x92 e q →
    let u := adminState s a
    fwEarly u a e q = none → inputOk u a (fwAddr q) (fwBytes q) = true →
    let img := readBytes u (hostLoc a (fwAddr q)) (fwBytes q)
    (fwOk s img = true → ∃ t, exec (.fwUpdate a true) s = .next t ∧ t.st.fwPending = true ∧
      t.fwSlot (fwOther s) = { digest := sha384 img, svn := Config.fwSvnOf img, valid := true } ∧ AdminWaits t a .fwUpdate) ∧
    (fwOk s img = false → ∃ u, exec (.fwUpdate a true) s = .next (adminEnd a .cryptoReject u) ∧ u.st.fwPending = false) ∧
    (∃ u, exec (.fwUpdate a false) s = .next (adminEnd a .busy u) ∧ u.st.fwPending = false)) ∧
  (∀ s a e q, AdminGot s a 0x93 e q → isDevmgr s (adminFn a) = true → s.st.fwPending = true → s.sp.affStandby = true →
    s.sp.secStandby = true → (s.fwSlot (fwOther s)).valid = true → s.st.fwSvn ≤ (s.fwSlot (fwOther s)).svn →
    ∃ t, exec (.fwActivate a) s = .next t ∧ AdminWaits t a .fwActivate ∧ t.st = s.st)

/-! ### Hoops: doorbells, fetch, start and end (R60 to R76, R113) -/

/-- A DOORBELL whose value advances the tail within the ring sets the tail and asks for the ring; one with another value than the
tail that does not leaves the tail and sets TAIL_RANGE; on a hoop whose doorbells are dead it sets DB_WHILE_DISABLED. A PUSH to the
slot of the tail that is accepted, while the buffer has room, keeps its words and advances the tail; one to another slot sets
PUSH_MISMATCH. ADMIN_DOORBELL to an enabled admin hoop whose value advances the tail sets the tail and asks for the ring. The
model's own readings in it: log entries 12 and 42. -/
def Obligations.DoorbellsMoveTheTail : Prop :=
  (∀ s f n v h, pageHoop s f n = some h → dbDead s h = false → dbGone s h = false →
    tailOk (s.hoop h).log2 (s.hoop h).head (s.hoop h).tail (v.setWidth 32) = true →
    ∃ u, exec (.doorbell f n v) s = .next (askRing h u) ∧ (u.hoop h).tail = v.setWidth 32 ∧ (u.hoop h).idle = false ∧
      (u.hoop h).entries = (s.hoop h).entries) ∧
  (∀ s f n v h, pageHoop s f n = some h → dbDead s h = false → dbGone s h = false → v.setWidth 32 ≠ (s.hoop h).tail →
    tailOk (s.hoop h).log2 (s.hoop h).head (s.hoop h).tail (v.setWidth 32) = false →
    ∃ t, exec (.doorbell f n v) s = .next t ∧ (t.hoop h).tail = (s.hoop h).tail ∧ (t.hoop h).tailRange = true) ∧
  (∀ s f n v h, pageHoop s f n = some h → dbDead s h = true →
    ∃ t, exec (.doorbell f n v) s = .next t ∧ (t.hoop h).tail = (s.hoop h).tail ∧ (t.hoop h).dbDisabled = true) ∧
  (∀ s f n slot ws h, pageHoop s f n = some h → slot = (s.hoop h).tail.toNat % 4 → dbTaken s h ((s.hoop h).tail + 1) = true →
    (s.hoop h).pushed.length < 4 → (s.hoop h).migrating = false →
    ∃ u, exec (.push f n slot ws) s = .next (askRing h u) ∧ (u.hoop h).tail = (s.hoop h).tail + 1 ∧
      (u.hoop h).pushed = (s.hoop h).pushed ++ [((s.hoop h).tail, ws)]) ∧
  (∀ s f n slot ws h, pageHoop s f n = some h → slot ≠ (s.hoop h).tail.toNat % 4 →
    ∃ t, exec (.push f n slot ws) s = .next t ∧ (t.hoop h).tail = (s.hoop h).tail ∧ (t.hoop h).pushed = (s.hoop h).pushed ∧
      (t.hoop h).pushMismatch = true) ∧
  (∀ s f a v, adminOf f = some a → tlpDropped s (pfOf f) none = false → (s.fnS f).dstate3 = false →
    (s.admin a).enable = true → (s.admin a).ringFault = false →
    tailOk (s.admin a).log2 (s.admin a).head (s.admin a).tail (v.setWidth 32) = true →
    ∃ u, exec (.adminDoorbell f v) s = .next (askAdmin a u) ∧ (u.admin a).tail = v.setWidth 32)

/-- RING_FETCH of one entry of a data hoop whose ring slot can be read takes its eight words as the entry at FETCH and asks for the
next; of an admin hoop appends the entry that they spell, which is validated where OWN = 1. OWN_REREAD of the one entry that
showed OWN = 0 puts in its place what its slot spells now, and validates it where that shows OWN = 1. -/
def Obligations.FetchedEntriesAreTaken : Prop :=
  (∀ s h pa, let u := dropOwner (.ring (.data h)) s
    let x := s.hoop h
    fetchDone x = false → x.doneAhead.contains x.fetchNext = false → pushedAt x x.fetchNext = none →
    lookupIn (some (sliceOf h)) u x.vat (slotAddr x x.fetchNext) .read = .ok pa → homeUp u (homeOf pa) = true →
    poisonedAt u pa 64 = false →
    exec (.ringFetch (.data h) 1) s = .next (tryIdle h (askRing h (takeWords h (qwords 8 (readBytes u pa 64)) u)))) ∧
  (∀ s a, let x := s.admin a
    let pa := adminSlot s a x.fetchNext
    let e := entryOfWords x.fetchNext 0 (qwords 8 (readBytes s pa 64))
    let v := dropOwner (.ring (.admin a)) s
    x.running = true → x.ringFault = false → x.fetchNext ≠ x.tail → (x.fetchNext - x.head).toNat < 64 →
    homeUp v (.host a) = true → poisonedAt v pa 64 = false →
    ∃ u, exec (.ringFetch (.admin a) 1) s = .next (askAdmin a (when e.own (adminValidate a e) u)) ∧
      (u.admin a).entries = x.entries ++ [e] ∧ (u.admin a).fetchNext = x.fetchNext + 1) ∧
  (∀ s h e pa, (s.hoop h).entries.filter (fun e => e.phase = .fetched && !e.own) = [e] →
    lookupIn (some (sliceOf h)) s (s.hoop h).vat (slotAddr (s.hoop h) e.idx) .read = .ok pa → homeUp s (homeOf pa) = true →
    poisonedAt s pa 64 = false →
    let y := readEntry e.idx e.epoch e.again (qwords 8 (readBytes s pa 64))
    y.own = true → exec (.ownReread (.data h)) s = .next (validate h e.idx (modEntry h e.idx (fun _ => y) s))) ∧
  (∀ s a e, (s.admin a).entries.filter (fun e => e.phase = .fetched && !e.own) = [e] → homeUp s (.host a) = true →
    poisonedAt s (adminSlot s a e.idx) 64 = false →
    let y := entryOfWords e.idx 0 (qwords 8 (readBytes s (adminSlot s a e.idx) 64))
    y.own = true →
    ∃ u, exec (.ownReread (.admin a)) s = .next (adminValidate a y u) ∧
      (u.admin a).entries = (s.admin a).entries.map (fun z => if z.idx = e.idx then y else z))

/-- ENTRY_START of an entry that may start, on a hoop of no collective group, starts it, cut into its segments, none of which has
moved; of an admin entry that is next, starts it. SEGMENT_DONE of a segment whose requests have been answered ends it, except that
of an INVALIDATE; of one that failed at its target fails it, with the bytes that it knows written; of one with a superseded epoch
counts it as whey. HEAD_PUBLISH_TIMER writes the head that its timer waits for, where it can be written at once; the records behind
it follow, when its write has been answered. The model's own readings in it: log entries 34, 121 to 124. -/
def Obligations.EntriesStartAndEnd : Prop :=
  (∀ s h i e, let u := takePushed h 4 s
    canStart u h i = true → entryOf u h i = some e → e.status = .ok → groupOf u h = none →
    ∃ t, exec (.entryStart (.data h) i) s = .next t ∧
      ∀ y ∈ (t.hoop h).entries, y.idx = i → y.phase = .started ∧ y.begun = true ∧
        y.segs = List.replicate (segCount u h e) .todo ∧ y.epoch = (t.hoop h).epoch) ∧
  (∀ s a i, adminCanStart s a i = true →
    ∃ t, exec (.entryStart (.admin a) i) s = .next t ∧ (t.admin a).idle = false ∧
      ∀ y ∈ (t.admin a).entries, y.idx = i → y.phase = .started) ∧
  (∀ s h i j e, entryOf s h i = some e → e.phase = .started → e.epoch = (s.hoop h).epoch → e.segs[j]? = some .busy →
    segMayEnd s h e j = true → e.opcode ≠ 0x0F →
    exec (.segmentDone h i j .ok) s = .next (doneSeg h i j s)) ∧
  (∀ s h i j e n, entryOf s h i = some e → e.phase = .started → e.epoch = (s.hoop h).epoch → e.segs[j]? = some .busy →
    e.opcode ≠ 0x0E → e.opcode ≠ 0x0B →
    exec (.segmentDone h i j (.failed n)) s = .next (failSeg h i j .target
      (if countsOperands e.opcode then knownBytes e j else min n (segBytes s h e j)) s)) ∧
  (∀ s h i j e, entryOf s h i = some e → (s.hoop h).whey ≠ 0xFFFFFFFF →
    ∃ t, exec (.segmentDone h i j .late) s = .next t ∧ (t.hoop h).whey = (s.hoop h).whey + 1 ∧
      (t.hoop h).entries = (s.hoop h).entries) ∧
  (∀ s h pa, let x := s.hoop h
    x.present = true → x.pubTimer = true → x.head ≠ x.pub → waitsFor s (.head h) = false →
    lookupIn (some (sliceOf h)) s x.vat x.headAddr .write = .ok pa → homeUp s (homeOf pa) = true →
    ownedGate (.head h) x.vat x.headAddr pa 8 s = (true, s) →
    ∃ u, exec (.headPublishTimer h) s = .next (if waitsFor u (.head h) then u else headOver h u) ∧
      (u.hoop h).pub = x.head ∧ u.m.mem = (storeAt pa (natLe 8 (headWord x)) s).m.mem)

/-- FREEZE_TIMEOUT of a FREEZING function thaws it and ends its FREEZE with BUSY. VAT_TEARDOWN_COMPLETE of an ABORTING vat without
hoops and without a fault event hoop makes it FREE and ends the DESTROY_VAT that waits for it. VAT_LOAD gives the only vat that
waits a free slot. VAT_SLOT_EXPIRY marks a RESIDENT vat as expired while others wait. HOOP_RESUME of a moved hoop whose old unit
is done goes on from its head, its entries up to the last one started to be run again. The model's own readings in it: log entries
5 and 11. -/
def Obligations.FunctionsVatsAndHoopsGoOn : Prop :=
  (∀ s f a, (s.fnS f).vfState = .freezing → (s.fnS f).freezeBy = some a →
    exec (.freezeTimeout f) s = .next (adminEnd a .busy (thawFn f s))) ∧
  (∀ s v, (s.vat v).st = .aborting → hoopsWith s (fun y => y.vat = v) = [] → (s.vat v).faultEvqValid = false →
    ∃ u, exec (.vatTeardownComplete v) s =
        .next (match (s.vat v).destroyBy with | some a => adminEnd a .ok (tryEvict u) | none => tryEvict u) ∧
      (u.vat v).st = .free) ∧
  (∀ s v k, s.wk.vatWait = [v] → freeSlot s = some k →
    ∃ t, exec (.vatLoad v) s = .next t ∧ (t.vat v).slot = some k ∧ t.wk.vatWait = [] ∧
      (t.vat v).st = (if (s.vat v).st = .pinned then .pinned else .resident)) ∧
  (∀ s v, (s.vat v).st = .resident → (s.vat v).slot.isSome = true → s.wk.vatWait ≠ [] →
    ∃ u, exec (.vatSlotExpiry v) s = .next (tryEvict u) ∧ (u.vat v).expired = true ∧ (u.vat v).slot = (s.vat v).slot) ∧
  (∀ s h, let x := s.hoop h
    x.present = true → x.migrating = true → oldUnitDone s x = true →
    ∃ u, exec (.hoopResume h) s = .next (tryIdle h (askRing h u)) ∧ (u.hoop h).migrating = false ∧
      (u.hoop h).entries = [] ∧ (u.hoop h).fetchNext = x.head ∧
      (u.hoop h).resumeTo = if startedTo x = x.head then none else some (startedTo x))

/-- WATCHER_REREAD and WATCHER_POLL of an armed watcher, and HOOP_ENGINE_POLL of a polled wait, whose fence word has its
translation and lies in no coherent window: in the scratchpad they read it, and every wait that the value satisfies completes;
behind a port or node they send its read, which the answer ends. The model's own readings in it: log entry 31. -/
def Obligations.WatchersReadTheirFence : Prop :=
  (∀ s w pa, tabHas s.wk.watchers w = true → let y := s.watcher w
    lookupIn (some (watchSeat y)) s y.vat y.va.toNat .read = .ok pa → homeUp s (homeOf pa) = true →
    cohPort s y.vat y.va.toNat = none → filterHits s { va := y.va.toNat, pa := pa, len := 8, need := .read } = [] →
    (tgtOf (homeOf pa) = none → poisonedAt s pa 8 = false → let val := BitVec.ofNat 64 (readNat s pa 8)
      ∃ u, exec (.watcherReread w) s = .next (fenceSeen (some w) y.waits val u) ∧
        exec (.watcherPoll w) s = .next (fenceSeen (some w) y.waits val u) ∧ (u.watcher w).lastVal = val) ∧
    (tgtOf (homeOf pa) ≠ none → waitsFor s (.watcher w) = false →
      exec (.watcherReread w) s = .next (askFence (.watcher w) y pa s) ∧
      exec (.watcherPoll w) s = .next (askFence (.watcher w) y pa s))) ∧
  (∀ s k pa, tabHas s.wk.polls k = true → let y := s.pollWait k
    lookupIn (some (watchSeat y)) s y.vat y.va.toNat .read = .ok pa → homeUp s (homeOf pa) = true →
    cohPort s y.vat y.va.toNat = none → filterHits s { va := y.va.toNat, pa := pa, len := 8, need := .read } = [] →
    (tgtOf (homeOf pa) = none → poisonedAt s pa 8 = false → let val := BitVec.ofNat 64 (readNat s pa 8)
      ∃ u, exec (.hoopEnginePoll k) s = .next (fenceSeen none y.waits val u) ∧ (u.pollWait k).lastVal = val) ∧
    (tgtOf (homeOf pa) ≠ none → waitsFor s (.poll k) = false →
      exec (.hoopEnginePoll k) s = .next (askFence (.poll k) y pa s)))

/-! ### Translation (R203 to R223) -/

/-- TRANSLATION_COMPLETION of an outstanding Translation Request, an error or one that no Insecure stream carries, ends the request
and acts on its answer; an error of a live one faults the access that waits with cause 8, and a grant of what the access needs,
whose range no Invalidate Request met, is cached for the port, function and PASID that asked. WALK_COMPLETE of a walk under way
ends the walk, and caches its leaf or faults with the walk's cause. XLATE_FLUSH by the device manager in D0 empties the walk cache
and removes every translation that no Invalidate Request holds. The model's own readings in it: log entries 36, 38, 128 and 129. -/
def Obligations.TranslationsComplete : Prop :=
  (∀ s p tag r q, s.xl.atsReqs.find? (fun q => q.port = p && q.tag = tag) = some q →
    r = .error ∨ tlpDropped s p (some q.page) = false →
    ∃ u, exec (.translationCompletion p tag r) s = .next (rescan (nextAts p (takeCompletion q r u))) ∧
      u.xl.atsReqs = s.xl.atsReqs.filter (fun y => !(y.port = p && y.tag = tag)) ∧ u.wk = s.wk ∧
      (q.stale = false → (s.vat q.vat).st ≠ .free → q.invals = [] →
        (r = .error → (takeCompletion q r u).xl.xfaults =
          s.xl.xfaults ++ [{ vat := q.vat, page := q.va.toNat / 4096 * 4096, need := q.need, cause := 0x08 }]) ∧
        ∀ pa size rd wr, r = .grant pa size rd wr false → grantsNeed q.need rd wr = true →
          ∃ x ∈ (takeCompletion q r u).xl.xlats, x.port = some p ∧ x.reqFn = q.reqFn ∧ x.pasid = q.pasid ∧
            x.size = atcSize size ∧ x.page = q.page / atcSize size * atcSize size ∧ x.pa = pa / atcSize size * atcSize size ∧
            x.rd = rd ∧ x.wr = wr ∧ x.untrans = false)) ∧
  (∀ s v va poisoned w, s.xl.walks.find? (fun w => w.vat = v && w.va.toNat / 4096 = va.toNat / 4096) = some w →
    let g := { s with xl.walks := s.xl.walks.erase w }
    ∃ u, exec (.walkComplete v va poisoned) s = .next (rescan u) ∧ u.xl.walks = s.xl.walks.erase w ∧
      (∀ x b ptrs, walkVat g v w.va.toNat poisoned = .leaf x b ptrs → ∃ y ∈ u.xl.xlats, y = { x with slices := y.slices }) ∧
      ∀ c, walkVat g v w.va.toNat poisoned = .fault c → u.xl.xfaults =
        s.xl.xfaults ++ [{ vat := v, page := w.va.toNat / 4096 * 4096, need := w.need, cause := c }]) ∧
  (∀ s f, mayManage s f = true → ∃ u, exec (.xlateFlush f) s = .next (rescan u) ∧ u.xl.walkCache = [] ∧
    u.xl.xlats = s.xl.xlats.filter (fun x => x.stopped))

/-- PAGE_REQUEST_RESPONSE, not of an Insecure stream: of a live request it ends it and frees its index, and success repeats the
Translation Request, invalid faults the access with cause 9, and failure does that and stops the page requests of the physical
function; of a dead request, whatever its code, it only frees the index. PRI_TIMEOUT of a live request faults the access with cause
9 and keeps the index, and PRG_INDEX_FREE frees the index of a dead one. -/
def Obligations.PageRequestsEnd : Prop :=
  (∀ s pf ix r, pageReqOf s pf ix = some r → tlpDropped s pf none = false → r.dead = false →
    let g := pageGone r.vat s
    let again : AtsReq := { port := r.port, vat := r.vat, reqFn := r.reqFn, pasid := r.pasid, page := r.page, need := r.need
                            afterPri := true, va := r.va, slice := r.slice }
    let ended (t : State) : State := tryFrozen (s.vat r.vat).fn (tryEvict (rescan (freeIndex pf ix t)))
    exec (.pageRequestResponse pf ix .invalid) s = .next (ended (addFault r.vat r.va r.need 0x09 g)) ∧
      exec (.pageRequestResponse pf ix .success) s =
        .next (ended (sendAts again g)) ∧
      exec (.pageRequestResponse pf ix .failure) s =
        .next (ended (stopPages r.pf (addFault r.vat r.va r.need 0x09 g)))) ∧
  (∀ s pf ix r code, pageReqOf s pf ix = some r → tlpDropped s pf none = false → r.dead = true →
    exec (.pageRequestResponse pf ix code) s = .next (freeIndex pf ix s)) ∧
  (∀ s pf ix r, pageReqOf s pf ix = some r → r.dead = false →
    ∃ u, exec (.priTimeout pf ix) s = .next (tryFrozen (s.vat r.vat).fn (tryEvict (rescan u))) ∧
      (∀ y ∈ u.xl.pageReqs, y.pf = pf → y.index = ix → y.dead = true) ∧
      u.xl.xfaults = s.xl.xfaults ++ [{ vat := r.vat, page := r.va.toNat / 4096 * 4096, need := r.need, cause := 0x09 }]) ∧
  (∀ s pf ix r, pageReqOf s pf ix = some r → r.dead = true →
    ∃ u, exec (.prgIndexFree pf ix) s = .next (nextPage pf u) ∧
      u.xl.pageReqs = s.xl.pageReqs.filter (fun r => !(r.pf = pf && r.index = ix)))

/-- INVALIDATE_REQUEST that its port can take stops every translation that it matches, marks the Translation Requests of its
function and PASID that are under way with its range, and counts as outstanding; INVALIDATE_COMPLETION, where no access uses
a matching translation, removes those and sends the completion. -/
def Obligations.InvalidationsComplete : Prop :=
  (∀ s p itag rf pasid addr len, tlpDropped s p none = false → hostMode s p = true → (s.hc p).lost = false →
    (s.hc p).linkUp = true → (s.xl.invals.filter (fun x => x.port = p)).length < 32 →
    s.xl.invals.any (fun x => x.port = p && x.itag = itag) = false →
    let v : Inval := { port := p, itag := itag, reqFn := rf, pasid := pasid, lo := addr, len := len }
    ∃ t, exec (.invalidateRequest p itag rf pasid addr len) s = .next t ∧ t.xl.invals = s.xl.invals ++ [v] ∧
      t.xl.xlats = s.xl.xlats.map (fun x => if invalMatches v x then { x with stopped := true } else x) ∧
      (∀ r ∈ t.xl.atsReqs, r.port = p → r.reqFn = rf → r.pasid = pasid → (addr, len) ∈ r.invals) ∧
      (t.hc p).invals = (s.hc p).invals + 1) ∧
  (∀ s p itag v, s.xl.invals.find? (fun x => x.port = p && x.itag = itag) = some v → invalBusy s v = false →
    ∃ u, exec (.invalidateCompletion p itag) s = .next (rescan (emit (.invalDone p itag) u)) ∧
      u.xl.xlats = s.xl.xlats.filter (fun x => !(x.stopped && invalMatches v x)) ∧
      u.xl.invals = s.xl.invals.filter (fun x => !(x.port = p && x.itag = itag)) ∧ (u.hc p).invals = (s.hc p).invals - 1)

/-! ### Host ports (R275 to R293) -/

/-- HOST_COMPLETION of an outstanding request, not of an Insecure stream: it ends the request; a successful one lets its work go
on, Unsupported Request, Completer Abort and a poisoned one fail it. COMPLETION_TIMEOUT ends the request and fails its work; on a
host-class port it sets bit 2 of HC_ERR and reports the timeout in AER. The model's own readings in it: log entries 5 and 18. -/
def Obligations.HostRequestsEnd : Prop :=
  (∀ s p tag r, hostReq s p tag = some r → tlpDropped s p (some (r.addr - hostLoc p 0)) = false →
    let u := dropTag (.host p) tag s
    ((∀ a, r.owner ≠ .adminInput a) →
      exec (.hostCompletion p tag .success) s = .next (ownerAnswered r.owner u) ∧
      exec (.hostCompletion p tag .unsupported) s = .next (ownerFails r.owner .target u) ∧
      exec (.hostCompletion p tag .abort) s = .next (ownerFails r.owner .target u)) ∧
    (∀ a, r.owner = .adminInput a →
      exec (.hostCompletion p tag .success) s = .next (askImage a u) ∧
      exec (.hostCompletion p tag .unsupported) s = .next (adminReadFails a true u) ∧
      exec (.hostCompletion p tag .abort) s = .next (adminReadFails a true u)) ∧
    (p < 16 → exec (.hostCompletion p tag .poisoned) s =
      .next (hostReqFails r false (countFault (0xA00 + 8 * p + 2) (emit (.aer p 2) u)))) ∧
    (16 ≤ p → exec (.hostCompletion p tag .poisoned) s = .next (hostReqFails r false u))) ∧
  (∀ s p tag r, hostReq s p tag = some r →
    let u := dropTag (.host p) tag s
    (p < 16 → exec (.completionTimeout p tag) s =
      .next (hostReqFails r false (countFault (0xA00 + 8 * p + 1) (emit (.aer p 3) (hcErr p 0x4 u))))) ∧
    (16 ≤ p → exec (.completionTimeout p tag) s = .next (hostReqFails r false u)))

/-- PF BAR2 accesses that come in no Insecure stream. Where the access passes the rind check, a read of what is not poisoned
answers the scratchpad's bytes and changes no memory, and of what is answers poison; a write of at most Max_Payload_Size that is not
poisoned stores the bytes in the slices outside their safe state; an AtomicOp of a width that its operation has, on what is not
poisoned, answers the old value and stores the new one, a compare-and-swap only where the value equals its comparand. Every other
read, write or AtomicOp, and every AtomicOp to BAR0, is rejected as an Unsupported Request and leaves the memory as it is. The
model's own readings in it: log entry 13. -/
def Obligations.Bar2AccessesComplete : Prop :=
  (∀ s f off len, tlpDropped s (pfOf f) none = false → bar2Ok s f off len = true →
    (bar2Poisoned s off len = false →
      exec (.bar2Read f off len) s = .next (emit (.barData f (readNat s (scratchLoc off) len) false) s)) ∧
    (bar2Poisoned s off len = true → ∃ x,
      exec (.bar2Read f off len) s = .next (takeFree len (emit (.barData f x true) s)))) ∧
  (∀ s f off data, tlpDropped s (pfOf f) none = false → bar2Ok s f off data.length = true →
    data.length ≤ (s.hc (pfOf f)).mps → exec (.bar2Write f off data false) s = .next (bar2Store off data s)) ∧
  (∀ s f off op width a c, tlpDropped s (pfOf f) none = false → bar2Ok s f off width = true →
    barAtomicWidth op width = true → bar2Poisoned s off width = false →
    let old := readNat s (scratchLoc off) width
    let u := emit (.barData f old false) s
    (op ≠ .cas ∨ old = c % 2 ^ (8 * width) → exec (.bar2AtomicOp f ⟨false, off⟩ op width a c) s =
      .next (bar2Store off (natLe width (barAtomicNew op width old a c)) u)) ∧
    (op = .cas → old ≠ c % 2 ^ (8 * width) → exec (.bar2AtomicOp f ⟨false, off⟩ op width a c) s = .next u)) ∧
  (∀ s f off, tlpDropped s (pfOf f) none = false →
    (bar2Reject f s).m = s.m ∧
    (∀ len, bar2Ok s f off len = false → exec (.bar2Read f off len) s = .next (bar2Reject f s)) ∧
    (∀ data, bar2Ok s f off data.length = false ∨ (s.hc (pfOf f)).mps < data.length →
      exec (.bar2Write f off data false) s = .next (bar2Reject f s)) ∧
    ∀ bar0 op width a c, bar0 = true ∨ bar2Ok s f off width = false ∨ barAtomicWidth op width = false →
      exec (.bar2AtomicOp f ⟨bar0, off⟩ op width a c) s = .next (bar2Reject f s))

/-- CONFIG_REQUEST to a routing ID of a host-class port, not of an Insecure stream, while the device runs or rests, and to the
bring-up port while its link is up: a read answers the item's value and a write takes effect and is answered, and a routing ID without
a function is answered Unsupported Request; of a host-class port it is retried while the device is held or wakes. PMCSR_D_STATE sets
the D-state and BUS_MASTER_ENABLE the bus master enable of a port in HOST mode; L0P_REQUEST on a link that is up is accepted for
widths 2, 4, 8 and 16, taking effect at once or, in a spare switch, once that ends, and refused for others. The model's own readings in
it: log entry 136. -/
def Obligations.HostPortRequestsComplete : Prop :=
  (∀ s p n op, (p < 16 ∧ tlpDropped s p none = false ∧ (s.tm.boot = .running ∨ s.tm.boot = .rest)) ∨
      (p = 16 ∧ s.lk.buLinkUp = true) →
    (cfgFn s p n = none → exec (.configRequest ⟨p, n, op⟩) s = .next (emit (.cfgUr p n) s)) ∧
    ∀ f, cfgFn s p n = some f →
      (∀ x, op = .read x → exec (.configRequest ⟨p, n, op⟩) s = .next (emit (.cfgAnswer p n (cfgValue s f x)) s)) ∧
      ((∀ x, op ≠ .read x) → exec (.configRequest ⟨p, n, op⟩) s = .next (emit (.cfgAnswer p n 0) (cfgWrite p f op s)))) ∧
  (∀ s p n op, p < 16 → tlpDropped s p none = false → s.tm.boot = .held ∨ s.tm.boot = .deepWake →
    exec (.configRequest ⟨p, n, op⟩) s = .next (emit (.cfgRetry p) s)) ∧
  (∀ s p d3, hostMode s p = true → ∃ t, exec (.pmcsrDState p d3) s = .next t ∧ (t.fnS (.pf p)).dstate3 = d3 ∧
    ∀ f, f ≠ .pf p → t.fnS f = s.fnS f) ∧
  (∀ s p, hostMode s p = true → ∃ u, exec (.busMasterEnable p) s = .next (tryFound p u) ∧ (u.hc p).busMaster = true) ∧
  (∀ s p width, hostMode s p = true → (s.hc p).linkUp = true →
    (width ∈ [2, 4, 8, 16] → ∃ t, exec (.l0pRequest p width) s = .next t ∧ t.pin.out = s.pin.out ++ [.l0p p width true] ∧
      (portSwitching s p = false → (t.hc p).width = width) ∧
      (portSwitching s p = true → (t.hc p).pendWidth = some width ∧ (t.hc p).width = (s.hc p).width)) ∧
    (width ∉ [2, 4, 8, 16] → exec (.l0pRequest p width) s = .next (emit (.l0p p width false) s)))

/-- HOST_LINK_TRAINED of an enabled, trained HOST port whose link is down brings its link up at x16, at 128 GT/s where that was
trained, without a rate cap and without CXL, else at 64; HOST_LINK_DOWN of a HOST port whose link is up takes it down and loses the
host; HOT_RESET and PF_FLR lose the host with the link up. HOST_TEARDOWN_COMPLETE ends the port's teardown once the vats of the lost
host are torn down. The model's own readings in it: log entries 60 and 61. -/
def Obligations.HostLinksRiseAndFall : Prop :=
  (∀ s p g c, hostMode s p = true → (s.hc p).linkEn = true → (s.hc p).safe = false → (s.hc p).linkUp = false →
    (s.rsh p).trained = true →
    ∃ u, exec (.hostLinkTrained p g c) s = .next (tryFound p u) ∧ (u.hc p).linkUp = true ∧ (u.hc p).width = 16 ∧
      (u.hc p).cxl = ((s.hc p).cxlAct && c) ∧
      (u.hc p).rate = (if g = true ∧ (s.hc p).rateCap = false ∧ ((s.hc p).cxlAct && c) = false then 7 else 6)) ∧
  (∀ s p, hostMode s p = true → (s.hc p).linkUp = true →
    (∃ u, exec (.hostLinkDown p) s = .next (hostLoss p u) ∧ (u.hc p).linkUp = false ∧ (u.rsh p).trained = false) ∧
    exec (.hotReset p) s = .next (hostLoss p s) ∧ exec (.pfFlr p) s = .next (hostLoss p s)) ∧
  (∀ s p, let g := forAll (lostVats s p) finishTear s
    (g.hc p).tearing = true → lostVats g p = [] →
    ∃ u, exec (.hostTeardownComplete p) s = .next (tryFound p u) ∧ (u.hc p).tearing = false ∧ u.wk = g.wk)

/-- VF_ENABLE_SET of a HOST port without virtual functions grants n of them where n is at most 512 and the pool has them, and
otherwise sets bit 5 of HC_ERR. VF_ENABLE_CLEAR of a port that has them resets every one and returns them to the pool where all are
quiesced, and otherwise sets bit 4 of HC_ERR. VF_FLR of a granted one resets it where it is quiesced, and otherwise is recorded in
VF_FLR_REQ with bit 3 of HC_ERR. The model's own readings in it: log entry 8. -/
def Obligations.VirtualFunctionsComeAndGo : Prop :=
  (∀ s p n, hostMode s p = true → (s.hc p).vfEnable = false →
    (n ≤ s.lk.vfFree → n ≤ 512 →
      ∃ t, exec (.vfEnableSet p n) s = .next t ∧ (t.hc p).vfEnable = true ∧ (t.hc p).numVfs = n ∧
        t.lk.vfFree = s.lk.vfFree - n ∧ ∀ i, i < n → (t.fnS (.vf p i)).granted = true) ∧
    (s.lk.vfFree < n ∨ 512 < n → exec (.vfEnableSet p n) s = .next (hcErr p 0x20 s))) ∧
  (∀ s p, (s.hc p).vfEnable = true → let fs := (fnsOfPort s p).filter isVf
    (fs.all (quiesced s) = true → exec (.vfEnableClear p) s = .next (returnVfs p (forAll fs flrVf s)) ∧
      ((returnVfs p (forAll fs flrVf s)).hc p).vfEnable = false ∧ ((returnVfs p (forAll fs flrVf s)).hc p).numVfs = 0) ∧
    (fs.all (quiesced s) = false → exec (.vfEnableClear p) s = .next (hcErr p 0x10 s))) ∧
  (∀ s p v, (s.fnS (.vf p v)).granted = true →
    (quiesced s (.vf p v) = true → exec (.vfFlr p v) s = .next (flrVf (.vf p v) s)) ∧
    (quiesced s (.vf p v) = false →
      ∃ t, exec (.vfFlr p v) s = .next t ∧ v ∈ (t.hc p).vfFlrReq ∧ (t.hc p).err = (s.hc p).err ||| 0x8))

/-- Inside the secured session of its function IDE_KM QUERY answers with the port's five streams; KEY_PROG of one of them programs
a key set, takes the stream out of the Insecure state and is acknowledged; K_SET_GO of a programmed set brings it into use;
K_SET_STOP ends its use and erases it. A failed IDE check of a stream in use on a HOST port makes it Insecure, sets bit 6 of HC_ERR
and counts as an event of its source. The model's own readings in it: log entry 64. -/
def Obligations.IdeStreamsAreManaged : Prop :=
  (∀ s p, doeSecured s p = true →
    exec (.ideKmQuery p) s = .next (emit (.ide p "QUERY_RESP" 5) s) ∧
    ∀ stream ks, stream < 5 → ks < 2 →
      (∃ t, exec (.ideKmKeyProg p stream ks) s = .next t ∧ (ideOf t p stream).keySet.getLsbD ks = true ∧
        (ideOf t p stream).insecure = false ∧ t.pin.out = s.pin.out ++ [.ide p "KP_ACK" stream]) ∧
      ((ideOf s p stream).keySet.getLsbD ks = true →
        ∃ t, exec (.ideKmKSetGo p stream ks) s = .next t ∧ (ideOf t p stream).going = some ks) ∧
      ∃ t, exec (.ideKmKSetStop p stream ks) s = .next t ∧ (ideOf t p stream).keySet.getLsbD ks = false ∧
        (ideOf t p stream).going ≠ some ks) ∧
  (∀ s p stream, hostMode s p = true → (ideOf s p stream).going.isSome = true →
    ∃ u, exec (.ideCheckFailed p stream) s = .next (countFault (0xA00 + 8 * p + 3) u) ∧
      (ideOf u p stream).insecure = true ∧ (u.hc p).err = (s.hc p).err ||| 0x40)

/-! ### Security (R428 to R439) -/

/-- On an open channel GET_MEASUREMENTS of index 0 answers the number of the blocks that the requester may read, and of a block that
it may read and that is not Busy, that block; KEY_EXCHANGE after the negotiation and outside a session answers a bad point with its
code and draws a key for a good one; GET_VERSION is answered, NEGOTIATE_ALGORITHMS negotiates, and a FINISH with a good MAC after a key
exchange opens the session. An MCTP message answers the power reading, the two readings of an island's sensors under its number, or an
SPDM request over MCTP. The model's own readings in it: log entries 9, 15 and 17. -/
def Obligations.TheResponderAnswers : Prop :=
  (∀ s ch, chOpen s ch = true → exec (.getMeasurements ch 0) s =
    .next (emit (.spdm ch "MEASUREMENTS" (natLe 1 ((List.range 32).filter (mayMeasure s ch)).length)) s)) ∧
  (∀ s ch k, chOpen s ch = true → mayMeasure s ch k = true → measBusy s k = false →
    exec (.getMeasurements ch k) s = .next (emit (.spdm ch "MEASUREMENTS" (measBlock s k)) s)) ∧
  (∀ s ch pt, chOpen s ch = true → (spdmOf s ch).negotiated = true → (spdmOf s ch).secured = false →
    (∀ c, pointError pt = some c → exec (.keyExchange ch pt) s = .next (emit (.spdmError ch c) s)) ∧
    (pointError pt = none → ∃ t, exec (.keyExchange ch pt) s = .next t ∧ (spdmOf t ch).keyed = true ∧
      t.se.keyGen = s.se.keyGen + 1)) ∧
  (∀ s ch, chOpen s ch = true →
    exec (.spdmRequest ch .getVersion) s = .next (emit (.spdm ch "VERSION" (Config.response 0x84)) s) ∧
    (∃ t, exec (.spdmRequest ch .negotiateAlgorithms) s = .next t ∧ (spdmOf t ch).negotiated = true) ∧
    ((spdmOf s ch).keyed = true → ∃ t, exec (.spdmRequest ch (.finish true)) s = .next t ∧ (spdmOf t ch).secured = true)) ∧
  (∀ s, exec (.mctpMessage .power) s = .next (emit (.mctp "power" s.pin.watts) s)) ∧
  (∀ s i, i < 60 → ∃ t, exec (.mctpMessage (.sensor i)) s = .next t ∧ t.pin.out = s.pin.out ++
    [.sensor i 0 (Config.freeNat s.m.free), .sensor i 1 (Config.freeNat (s.m.free + 1))]) ∧
  (∀ s c, exec (.mctpMessage (.spdm c)) s = exec (.spdmRequest .mctp c) s)

/-! ### Coherent windows and far memory (R296 to R306) -/

/-- A snoop of a line that no eviction buffer holds: of one that the window cache holds in M it answers the data, of one in E or S a
hit, and leaves the line S, I or as it was, as SNP_DATA, SNP_INV and SNP_CUR say; of another it answers a miss. Of a line in an
eviction buffer, that the cache does not hold, it answers the buffer's data and leaves the buffered line Invalid, or a miss where it is
Invalid already. Where a snoop takes a line away, the watchers of the fences in it read them again. GO_WRITEPULL of a buffered line
sends its data, with Bogus where it is no longer M, and frees its buffer; GO_WRITEPULL_DROP frees it; CACHE_FILL_GO of a line that
awaits its fill stores the host's bytes and gives the line the state of its GO. The model's own readings in it: log entry 10. -/
def Obligations.CoherentLinesFollowTheHost : Prop :=
  let reread (p a : Nat) (t : State) : State := forAll (watchersAt t (hostLoc p a) 64) readWatcher t
  (∀ s p a, evictOf s p a = none →
    let hit (what : String) (st : Mesi) (bs : List Byte) : State := setLine p a st (emit (.d2h p what a bs false) s)
    (cohState s p a = .m → let bs := lineBytes s p a
      exec (.snpData p a) s = .next (hit "RspSFwdM" .s bs) ∧ exec (.snpInv p a) s = .next (reread p a (hit "RspIFwdM" .i bs)) ∧
        exec (.snpCur p a) s = .next (hit "RspVFwdV" .m bs)) ∧
    (∀ st, cohState s p a = st → st = .e ∨ st = .s →
      exec (.snpData p a) s = .next (hit "RspSHitSE" .s []) ∧
        exec (.snpInv p a) s = .next (reread p a (hit "RspIHitSE" .i [])) ∧ exec (.snpCur p a) s = .next (hit "RspVHitV" st [])) ∧
    (∀ st what bs, cohState s p a = .m ∨ cohState s p a = .e ∨ cohState s p a = .s → cohState (hit what st bs) p a = st) ∧
    (cohState s p a ≠ .m → cohState s p a ≠ .e → cohState s p a ≠ .s →
      ∀ c ∈ [Instr.snpData p a, .snpInv p a, .snpCur p a], exec c s = .next (emit (.d2h p "RspIHitI" a [] false) s))) ∧
  (∀ s p a l, evictOf s p a = some l → cohState s p a ≠ .m → cohState s p a ≠ .e → cohState s p a ≠ .s →
    ∀ c ∈ [Instr.snpData p a, .snpInv p a, .snpCur p a],
    (l.st = .m → exec c s =
      .next (reread p a (modEvict p a (fun l => { l with st := .i }) (emit (.d2h p "RspIFwdM" a l.data false) s)))) ∧
    (l.st ≠ .m → exec c s = .next (emit (.d2h p "RspIHitI" a [] false) s))) ∧
  (∀ s p a l, evictOf s p a = some l → evictOf (endEvict p a s) p a = none ∧
    exec (.goWritePull p a) s = .next (rescan (emit (.d2h p "Data" a l.data (l.st ≠ .m)) (endEvict p a s))) ∧
    exec (.goWritePullDrop p a) s = .next (rescan (endEvict p a s))) ∧
  (∀ s p a st data, cohState s p a = .fillS ∨ cohState s p a = .fillE → st ≠ .fillS → st ≠ .fillE →
    let u := takeFill p a st data s
    exec (.cacheFillGo p a st data) s = .next (rescan (forAll (watchersAt s (hostLoc p a) 64) readWatcher u)) ∧
      cohState u p a = st ∧ u.m.mem = (writeBytes (hostLoc p a) data s).m.mem)

/-- HDM_REQUEST of a HOST port in CXL mode, of a line of its window whose home is up. A read that conflicts with no other host's copy,
needs no entry of a full filter and goes to no held stack answers the line and records the copy; a write that conflicts with none and
goes to no held stack is stored and answered; one that conflicts asks for the copies, a read that needs an entry of a full filter asks
for the oldest, and one to a held stack changes nothing. A line whose home is down, and an offset outside the window, is answered
poisoned, the latter with bit 7 of HC_ERR. BIRSP applies what it writes back; after BISnpInv the copy goes, after BISnpData it stays
shared. BISNP_TIMEOUT sets bit 8 of HC_ERR, fails what waited and keeps the entry. The model's own readings in it: log entries 67 and
68. -/
def Obligations.HostManagedMemoryIsServed : Prop :=
  (∀ s p win off line, hostMode s p = true → (s.hc p).cxl = true → hdmLine s p win off = some line →
    homeUp s (homeOf line) = true →
    let answer := emit (.hdm p off (readBytes s line 64) (poisonedAt s line 64)) s
    let ask (any : Bool) : State := askHosts (.hdm p off) ((hdmHits s p line any).map (·, any)) s
    let first := askHosts (.hdm p off) ((s.cx.filter.take 1).map (·, true)) s
    (∀ op excl, (op = .readShared ∧ excl = false) ∨ (op = .readExclusive ∧ excl = true) →
      (hdmHits s p line excl ≠ [] → exec (.hdmRequest p win off op) s = .next (ask excl)) ∧
      (hdmHits s p line excl = [] → filterFull s p line = true → exec (.hdmRequest p win off op) s = .next first) ∧
      (hdmHits s p line excl = [] → filterFull s p line = false → isHot s line = true →
        exec (.hdmRequest p win off op) s = .next s) ∧
      (hdmHits s p line excl = [] → filterFull s p line = false → isHot s line = false →
        exec (.hdmRequest p win off op) s = .next (holdLine p line excl answer))) ∧
    ∀ data,
      (hdmHits s p line true ≠ [] → exec (.hdmRequest p win off (.write data)) s = .next (ask true)) ∧
      (hdmHits s p line true = [] → isHot s line = true → exec (.hdmRequest p win off (.write data)) s = .next s) ∧
      (hdmHits s p line true = [] → isHot s line = false →
        exec (.hdmRequest p win off (.write data)) s = .next (emit (.hdm p off [] false) (storeAt line data s)))) ∧
  (∀ s p win off op, hostMode s p = true → (s.hc p).cxl = true →
    (hdmLine s p win off = none → exec (.hdmRequest p win off op) s = .next (emit (.hdm p off [] true) (hcErr p 0x80 s))) ∧
    ∀ line, hdmLine s p win off = some line → homeUp s (homeOf line) = false →
      exec (.hdmRequest p win off op) s = .next (emit (.hdm p off [] true) s)) ∧
  (∀ s p line f wb, s.cx.filter.find? (fun f => f.port = p && f.line = line && f.snooping) = some f →
    let u := (wb.map (fun bs => storeAt line bs s)).getD s
    (f.inv = true → exec (.biRsp p line wb) s = .next (rescan (dropFilter (fun g => g.port = p && g.line = line) u))) ∧
    (f.inv = false → exec (.biRsp p line wb) s = .next (rescan (forAll f.waiters releaseWaiter
      { u with cx.filter := u.cx.filter.map (fun g =>
          if g.port = p && g.line = line then { g with excl := false, snooping := false, waiters := [] } else g) })))) ∧
  (∀ s p line f, s.cx.filter.find? (fun f => f.port = p && f.line = line && f.snooping) = some f →
    ∃ u, exec (.biSnpTimeout p line) s = .next (forAll f.waiters (fun o => ownerFails o .target) u) ∧
      (u.hc p).err = (s.hc p).err ||| 0x100 ∧
      u.cx.filter = s.cx.filter.map (fun g =>
        if g.port = p && g.line = line then { g with snooping := false, waiters := [] } else g))

/-- FAR_LINK_UP of an enabled, trained FAR port out of its safe state whose link is down: an expander that trains as CXL brings the link
up with a new key, and decoder 0 is programmed over its capacity where it is a single logical device with HDM-H; another sets bit 9 of
HC_ERR. FAR_MEDIA_READY of a link that is up, so programmed and not ready gives the capacity in units of 256 MiB, at most 4 TiB, and
READY. FAR_RESPONSE and FAR_TIMEOUT of an outstanding request end it, and its work goes on or fails. FAR_LINK_DOWN takes the link down
and loses the tier. The model's own readings in it: log entry 5. -/
def Obligations.FarMemoryComesAndGoes : Prop :=
  (∀ s p single hdmH bytes, hostMode s p = false → (s.hc p).linkEn = true → (s.hc p).safe = false → (s.hc p).linkUp = false →
    (s.rsh p).trained = true →
    (∃ t, exec (.farLinkUp p ⟨true, single, hdmH, bytes⟩) s = .next t ∧ (t.hc p).linkUp = true ∧ (t.hc p).encKey = true ∧
      (t.hc p).farOk = (single && hdmH) ∧ t.se.keyGen = s.se.keyGen + 1 ∧
      (single && hdmH = true → t.pin.out = s.pin.out ++ [.far p "HDM_DECODER0" bytes]) ∧
      (single && hdmH = false → t.pin.out = s.pin.out)) ∧
    exec (.farLinkUp p ⟨false, single, hdmH, bytes⟩) s = .next (hcErr p 0x200 s)) ∧
  (∀ s p bytes, hostMode s p = false → (s.hc p).linkUp = true → (s.hc p).farOk = true → (s.hc p).ready = false →
    ∃ t, exec (.farMediaReady p bytes) s = .next t ∧ (t.hc p).ready = true ∧
      (t.hc p).capacity = min 16384 (bytes / 2 ^ 28)) ∧
  (∀ s p tag r, reqTo s (.far p) tag = some r →
    exec (.farResponse p tag true) s = .next (ownerAnswered r.owner (dropTag (.far p) tag s)) ∧
    exec (.farResponse p tag false) s = .next (ownerFails r.owner .target (dropTag (.far p) tag s)) ∧
    exec (.farTimeout p tag) s = .next (ownerFails r.owner .target (countFault (0xA00 + 8 * p + 1) (dropTag (.far p) tag s)))) ∧
  (∀ s p, hostMode s p = false → (s.hc p).linkUp = true →
    ∃ u, exec (.farLinkDown p) s = .next (farLoss p u) ∧ (u.hc p).linkUp = false ∧ (u.rsh p).trained = false)

/-! ### Acdoic ports (R313 to R328) -/

/-- DIE_PARAMS of a training port, in range and with 8 modules left, bring it up with what the die states; other parameters, fewer
modules and ACD_TRAIN_TIMEOUT end the training with BAD_PARAMS. Of a port that is up: a good flit in order is taken, and a NAK in it
makes the port replay; another is NAKed; ACD_REPLAY_TIMEOUT drives the port into its safe state; a lane failure of a module of the
stripe takes the module out, for good without a redundant lane, and with fewer than 8 left drives the port into its safe state; a
rejoin takes back a module that is not out for good. The model's own readings in it: log entries 71 and 73. -/
def Obligations.AcdoicLinksTrainAndFail : Prop :=
  (∀ s q w0 w1 w2, (s.acd q).training = true →
    (paramsOk w0.toNat w1.toNat w2.toNat = true → 8 ≤ (bitsSet 16 (~~~ (s.acd q).dead).toNat).length →
      ∃ u, exec (.dieParams q w0 w1 w2) s = .next (sendRanges q (placeStore q u)) ∧ (u.acd q).up = true ∧
        (u.acd q).training = false ∧ (u.acd q).stackLog2 = field w0.toNat 63 56 ∧
        (u.acd q).stackCount = field w0.toNat 55 52 ∧ (u.acd q).modules = ~~~ (s.acd q).dead ∧ (u.acd q).rxSeq = 0 ∧
        (u.acd q).txSeq = 0) ∧
    (paramsOk w0.toNat w1.toNat w2.toNat = false ∨ (bitsSet 16 (~~~ (s.acd q).dead).toNat).length < 8 →
      exec (.dieParams q w0 w1 w2) s = .next (trainFails q s)) ∧
    exec (.acdTrainTimeout q) s = .next (trainFails q s) ∧
    ((trainFails q s).acd q).up = false ∧ ((trainFails q s).acd q).training = false ∧
    ((trainFails q s).acd q).err = (s.acd q).err ||| 0x20) ∧
  (∀ s q f, (s.acd q).up = true →
    (f.crcOk = true → f.seq = (s.acd q).rxSeq → let u := modAcd q (flitTrailer f) s
      (f.nak = false → exec (.acdFlit q f) s = .next u) ∧
      (f.nak = true → exec (.acdFlit q f) s =
        .next (countFault (acdSrc q 2) (acdErr q 0x2 (emit (.acdReplay q (f.ack + 1)) u))))) ∧
    (f.crcOk = false ∨ f.seq ≠ (s.acd q).rxSeq → exec (.acdFlit q f) s = .next (emit (.acdNak q (s.acd q).rxSeq) s))) ∧
  (∀ s q, (s.acd q).up = true → exec (.acdReplayTimeout q) s = .next (acdFails q s)) ∧
  (∀ s q m spareLeft, (s.acd q).up = true → (s.acd q).modules.getLsbD m = true → let bit := BitVec.ofNat 16 (2 ^ m)
    ∃ u, (u.acd q).modules = (s.acd q).modules &&& ~~~ bit ∧
      (u.acd q).dead = (if spareLeft then (s.acd q).dead else (s.acd q).dead ||| bit) ∧
      (u.acd q).err = (if spareLeft then (s.acd q).err else (s.acd q).err ||| 0x4) ∧
      let v := rennetEvent (acdSrc q 1) false true spareLeft false [] u
      exec (.acdLaneFailure q m spareLeft) s = .next (when (decide (modulesUp (v.acd q) < 8)) (acdFails q) v)) ∧
  (∀ s q m, (s.acd q).up = true → (s.acd q).modules.getLsbD m = false → (s.acd q).dead.getLsbD m = false → m < 16 →
    ∃ t, exec (.acdModuleRejoin q m) s = .next t ∧
      (t.acd q).modules = (s.acd q).modules ||| BitVec.ofNat 16 (2 ^ m))

/-- RD_DATA, WR_ACK and AT_DATA end the outstanding request of their kind and tag, and its work goes on, or fails with poisoned read
data. COND_ACK ends the core's conditional store, which is written at its home where the die reports SUCCESS and the reservation still
stands. ERR fails the work of the request that it names, or ends the launch that it names ABORTED, and sets BAD_MSG where it names
nothing. ACD_REQUEST_RELEASE sends a held request unless its stack is still held. The model's own readings in it: log entries 41, 75
and 140. -/
def Obligations.DieAnswersEndRequests : Prop :=
  (∀ s q tag r, acdReq s q tag .read = some r →
    exec (.acdRdData q tag false) s = .next (ownerAnswered r.owner (dropTag (.acd q) tag s)) ∧
    exec (.acdRdData q tag true) s = .next (ownerFails r.owner .target (dropTag (.acd q) tag s))) ∧
  (∀ s q tag r, acdReq s q tag .write = some r →
    exec (.acdWrAck q tag) s = .next (ownerAnswered r.owner (dropTag (.acd q) tag s))) ∧
  (∀ s q tag r, acdReq s q tag .atomic = some r →
    exec (.atData q tag) s = .next (ownerAnswered r.owner (dropTag (.acd q) tag s))) ∧
  (∀ s q tag r c success, acdReq s q tag .cond = some r → s.af.affCond = some c →
    let u := dropTag (.acd q) tag s
    let ok := success && (coreResv s c.1).isSome
    ∃ t, exec (.condAck q tag success) s = .next t ∧ t.af.affCond = none ∧ t.af.affOk = ok ∧
      t.m.mem = (if ok = true then storeAt c.1 c.2 u else u).m.mem) ∧
  (∀ s q tag k,
    (∀ r, reqTo s (.acd q) tag = some r →
      exec (.err q false tag k) s = .next (endCond (ownerFails r.owner .target (dropTag (.acd q) tag s)))) ∧
    (reqTo s (.acd q) tag = none → exec (.err q false tag k) s = .next (acdErr q 0x40 s)) ∧
    (tabHas (s.acd q).launches tag = true → (tabGet {} (s.acd q).launches tag).ended = none →
      exec (.err q true tag k) s = .next (endLaunch q tag .aborted s)) ∧
    (tabHas (s.acd q).launches tag = false ∨ (tabGet {} (s.acd q).launches tag).ended ≠ none →
      exec (.err q true tag k) s = .next (acdErr q 0x40 s))) ∧
  (∀ s q tag r, s.lk.reqs.find? (fun r => r.tagged && r.tgt = .acd q && r.tag = tag && !r.sent) = some r →
    (isHot s r.addr = false →
      exec (.acdRequestRelease q tag) s = .next (modReq (.acd q) tag (fun r => { r with sent := true }) s)) ∧
    (isHot s r.addr = true → exec (.acdRequestRelease q tag) s = .next s))

/-- Of a launch that has not ended: ACCEPT of one sent and not accepted is recorded, with RETRY for sending it again, which
LAUNCH_RESEND does; COMPLETE with FAIL ends it ABORTED; without FAIL it ends OK where its entry has no fence, or where the fence can be
raised without an answer to wait for, and otherwise its tag keeps the end for the entry. No ACCEPT of one that no stack holds sets bit
7 of ACD_ERR and counts as an event of the port; LAUNCH_THERMAL_TIMEOUT of one that a stack holds ends it THERMAL_TIMEOUT. The model's
own readings in it: log entries 5 and 75. -/
def Obligations.LaunchesEnd : Prop :=
  (∀ s q tag l, liveLaunch s q tag = some l → l.sent = true → l.accepted = false →
    exec (.accept q tag false) s = .next (modLaunch q tag (fun l => { l with accepted := true, retry := false }) s) ∧
    exec (.accept q tag true) s = .next (modLaunch q tag (fun l => { l with retry := true }) s)) ∧
  (∀ s q tag l, liveLaunch s q tag = some l →
    let kept (t : State) : State := modLaunch q tag (fun l => { l with ended := some .ok }) t
    exec (.complete q tag true) s = .next (endLaunch q tag .aborted s) ∧
    (∀ e, entryOf s l.hoop l.idx = some e →
      (e.phase = .started → e.dst = 0 → exec (.complete q tag false) s = .next (endLaunch q tag .ok s)) ∧
      (∀ ps g, e.phase = .started → e.dst ≠ 0 →
        gateSeg (.seg l.hoop l.idx 0) (s.hoop l.hoop).vat [(e.dst.toNat, 8, .atomic)] s = (.go ps, g) →
        let u := raiseFence (.seg l.hoop l.idx 0) l.hoop l.idx e.dst e.fenceVal g
        (waitsFor u (.seg l.hoop l.idx 0) = false → exec (.complete q tag false) s = .next (endLaunch q tag .ok u)) ∧
        (waitsFor u (.seg l.hoop l.idx 0) = true → exec (.complete q tag false) s = .next (kept u))) ∧
      (e.phase ≠ .started → exec (.complete q tag false) s = .next (kept s))) ∧
    (l.retry = true → exec (.launchResend q tag) s = .next (pushLaunch q tag s)) ∧
    (l.accepted = false → launchHeld s q l = false →
      exec (.noAccept q tag) s = .next (countFault (acdSrc q 0) (acdErr q 0x80 s))) ∧
    (l.accepted = false → launchHeld s q l = true →
      exec (.launchThermalTimeout q tag) s = .next (endLaunch q tag .thermalTimeout s)))

/-- On a port that is up: THERMAL of a stack that the die has sets its rate, and then begins a hold, or with full rate ends it where it
can, sends the launches that wait to be sent, and serves the requests that wait; FAULT sets bit 3 of ACD_ERR and ends by its scope a
launch, the outstanding requests that it names, or the port; FENCE_HINT makes the word's watchers read again; CLAIM is granted where
no host holds the line, and otherwise asks the hosts. The model's own readings in it: log entry 74. -/
def Obligations.DieReportsTakeEffect : Prop :=
  (∀ s q stack rate, (s.acd q).up = true → stack < (s.acd q).stackCount →
    let u := modAcd q (fun p => { p with rates := tabSet p.rates stack (rate % 256) }) s
    let waiting := ((s.acd q).launches.filter (fun l => l.2.ended.isNone && !l.2.sent)).map (·.1)
    exec (.thermal q stack rate) s = .next (serveAgain (forAll waiting (pushLaunch q)
      (if rate % 256 = 0xFF then tryEndHold q u else startHold q u)))) ∧
  (∀ s q tag a k, (s.acd q).up = true →
    let u := acdErr q 0x8 s
    let v := countFault (acdSrc q 3) u
    (liveLaunch v q tag = none → exec (.fault q 0 tag a k) s = .next v) ∧
      ((liveLaunch v q tag).isSome = true → exec (.fault q 0 tag a k) s = .next (endLaunch q tag .aborted v)) ∧
      exec (.fault q 1 tag a k) s = .next (endCond (failReqs (fun r => r.tgt = .acd q && r.sent &&
        overlap (q * 2 ^ 40 + a) 1 r.addr r.len) (fun _ => .target) v)) ∧
      exec (.fault q 2 tag a k) s = .next (endCond (failReqs (fun r => r.tgt = .acd q && r.sent &&
        stackOf u q r.addr = k) (fun _ => .target) v)) ∧
      exec (.fault q 3 tag a k) s = .next (acdFails q u)) ∧
  (∀ s q a, (s.acd q).up = true →
    exec (.fenceHint q a) s = .next (forAll (watchersAt s (q * 2 ^ 40 + a) 8) readWatcher s)) ∧
  (∀ s q ctag line w, (s.acd q).up = true → tabHas (s.acd q).claims ctag = false → (s.acd q).claims.length < 256 →
    let u := modAcd q (fun p => { p with claims := tabSet p.claims ctag { line := line, write := w } }) s
    (claimHits u q ctag = [] → exec (.claim q ctag line w) s = .next (claimGo q ctag false u)) ∧
    (claimHits u q ctag ≠ [] →
      exec (.claim q ctag line w) s = .next (askHosts (.claim q ctag) ((claimHits u q ctag).map (·, w)) u)))

/-! ### Peers (R249 to R274) -/

/-- A packet that arrives at a port that is up with NODE_VALID, for this node. RD_REQ, WR and AT_REQ whose export admits the access,
that no earlier request of their class and pair, no poison, no host's copy and no held stack keeps waiting, are served: the bytes are
answered; stored and acknowledged; or each operand from the journal's mark on is applied, and the old values are answered where RETURN
is set. One behind an earlier request waits; of the others, one that its export does not admit is NAKed with the check's reason and one
that reads poison with POISON. A request or answer for another node is forwarded, whatever its TYPE, and at a port that is down, or
without NODE_VALID, has no effect. The model's own readings in it: log entries 93, 94 and 137. -/
def Obligations.PeerRequestsAreServed : Prop :=
  (∀ s p k pa, PeerServes s p 0x01 k pa →
    exec (.rdReq p k) s = .next (answerPkt 0x02 0 (readBytes s pa k.len) k s)) ∧
  (∀ s p k pa, PeerServes s p 0x03 k pa →
    exec (.wr p k) s = .next (answerPkt 0x04 0 [] k (storeAt pa k.payload s))) ∧
  (∀ s p k pa, PeerServes s p 0x05 k pa → k.payload.length = 16 + (atShape k).2.2 * (atShape k).2.1 → (atShape k).2.2 ≠ 0 →
    pa % (atShape k).1 = 0 → atopKnown k.atop = true →
    let answer (r : List Byte × State) : State := answerPkt 0x06 0 (if k.ret then r.1 else []) k r.2
    (∀ j, s.wk.peerJournals.find? (fun j => j.2.key = atKey k) = some j →
      exec (.atReq p k) s = .next (answer (atApply k pa (tabGet 0 j.2.marks 0) s))) ∧
    (s.wk.peerJournals.find? (fun j => j.2.key = atKey k) = none →
      (s.wk.peerJournals.filter (fun j => j.1 = homeQuad (homeOf pa))).length < 1024 →
      let u := { s with wk.peerJournals := s.wk.peerJournals ++ [(homeQuad (homeOf pa), { key := atKey k })] }
      exec (.atReq p k) s = .next (answer (atApply k pa 0 u)))) ∧
  (∀ s p k c type, (s.peerP p).up = true → s.pr.nodeValid = true → k.dst = s.pr.nodeId →
    (c = .rdReq p k ∧ type = 0x01) ∨ (c = .wr p k ∧ type = 0x03) ∨ (c = .atReq p k ∧ type = 0x05) →
    let check := exportCheck s k.fdom k.offset (pktLen type k) (pktAccess type k).1
    (heldBack s k = true → exec c s = .next { s with pr.waiting := s.pr.waiting ++ [(type, k)] }) ∧
    (∀ r, heldBack s k = false → check = .error r → exec c s = .next (nakPkt r k s)) ∧
    (∀ pa, heldBack s k = false → check = .ok pa → (pktAccess type k).1 ≠ .write →
      poisonedAt s pa (pktAccess type k).2 = true → exec c s = .next (nakPkt 0x07 k s))) ∧
  (∀ s p k c, c ∈ [(Instr.rdReq p k, 0x01), (.rdData p k, 0x02), (.wr p k, 0x03), (.wrAck p k, 0x04), (.atReq p k, 0x05),
      (.atResp p k, 0x06), (.nak p k, 0x07), (.hold p k, 0x10), (.stepDone p k, 0x11), (.outcome p k, 0x12), (.join p k, 0x13)] →
    ((s.peerP p).up = true → s.pr.nodeValid = true → k.dst ≠ s.pr.nodeId → exec c.1 s = .next (forwardPkt c.2 k s)) ∧
    ((s.peerP p).up = false ∨ s.pr.nodeValid = false → exec c.1 s = .next s))

/-- Answers that arrive at a port that is up with NODE_VALID, for this node, to a request of it outstanding. RD_DATA puts the bytes in
place and its work goes on; WR_ACK ends the request and its work goes on; AT_RESP for a running ATOMIC counts its operands as applied
and, with RETURN, writes the old value, for a running LAUNCH ends the launch, and under a superseded epoch goes to whey. NAK with
HOLD_FULL or JOURNAL_BUSY keeps the request, with HOP_LIMIT or UNREACHABLE loses the node, and with another reason fails the work.
REQ_TIMEOUT of a request sent and not held back loses the node; JOURNAL_RETRY of one NAKed with JOURNAL_BUSY sends it again through
the first hop of its route, where there is one; JOURNAL_RECORD_EXPIRY frees the record. The model's own readings in it: log entries 41
and 93. -/
def Obligations.PeerAnswersEndRequests : Prop :=
  (∀ s p k r, (s.peerP p).up = true → s.pr.nodeValid = true → k.dst = s.pr.nodeId →
    let u := dropTag r.tgt r.tag s
    (reqOfPkt s k .read = some r →
      exec (.rdData p k) s = .next (ownerAnswered r.owner (writeBytes r.addr k.payload u))) ∧
    (reqOfPkt s k .write = some r → exec (.wrAck p k) s = .next (ownerAnswered r.owner u)) ∧
    (∀ h i j e, reqOfPkt s k .atomic = some r → r.owner = .seg h i j → entryOf u h i = some e → e.phase = .started →
      let n := (r.len - 16) / (if e.atop = 0x03 then 2 * e.width else e.width) * e.width
      (r.epoch ≠ (u.hoop h).epoch → exec (.atResp p k) s = .next (toWhey h u)) ∧
      (r.epoch = (u.hoop h).epoch → e.opcode = 0x09 →
        (e.flag 1 = false → exec (.atResp p k) s = .next (addDone h i j n u)) ∧
        (e.flag 1 = true → exec (.atResp p k) s = .next (vstore (u.hoop h).vat .write e.src.toNat
          (k.payload.take e.width) (addDone h i j n u)))) ∧
      (∀ t, r.epoch = (u.hoop h).epoch → e.opcode = 0x0E → launchTag u (field e.subop 3 0) h i = some t →
        exec (.atResp p k) s = .next (endLaunch (field e.subop 3 0) t .ok u))) ∧
    (peerReq s k.tag = some r →
      (k.reason = 0x06 → exec (.nak p k) s = .next (giveTags (modReq r.tgt r.tag (fun r => { r with held := true }) s))) ∧
      (k.reason = 0x09 → exec (.nak p k) s = .next (giveTags (modReq r.tgt r.tag (fun r => { r with sent := false }) s))) ∧
      (∀ n, k.reason = 0x04 ∨ k.reason = 0x05 → r.tgt = .peer n →
        exec (.nak p k) s = .next (loseNode n (modReq r.tgt r.tag (fun r => { r with held := true }) s))) ∧
      (k.reason ∉ [0x04, 0x05, 0x06, 0x09] → exec (.nak p k) s = .next (ownerFails r.owner .target u)))) ∧
  (∀ s tag r n, peerReq s tag = some r → r.tgt = .peer n →
    (∀ p, r.hop = some p → r.sent = true → r.held = false →
      exec (.reqTimeout tag) s = .next (loseNode n (countFault (0xA80 + 8 * p + 3) s))) ∧
    (∀ k, r.sent = false → r.pkt = some k →
      (∀ p, nextHop s r.wheel n = some p → exec (.journalRetry tag) s = .next (sendPacket p (typeOf r) k
        (modReq r.tgt r.tag (fun r => { r with held := false, sent := true, hop := some p }) s))) ∧
      (nextHop s r.wheel n = none → exec (.journalRetry tag) s = .next s))) ∧
  (∀ s q key, ∃ t, exec (.journalRecordExpiry q key) s = .next t ∧
    t.wk.peerJournals = s.wk.peerJournals.filter (fun j => !(j.1 = q && j.2.key = key)))

/-- HOLD_BEACON of a port under a hold sends its beacon for each group; HOLD_TIMEOUT of one not reported yet reports
THERMAL_TIMEOUT for each group; HOLD_SPACE_DRAIN of a port that is up keeps what is held for stacks at rate 0 alone. A message of an
enabled group that arrives for this node at a port that is up: HOLD of another node is taken, STEP_DONE's report and OUTCOME's status of
the current instance are taken, the latter by a member that is not the root and has no agreed status, and JOIN adds a member.
JOIN_ACKNOWLEDGED of a member is recorded; PROGRESS_TIMEOUT of a group that waits on a peer ends its incomplete entries, reports
PEER_LOST and takes the group out of READY. The model's own readings in it: log entries 74, 92, 95 and 138. -/
def Obligations.HoldsAndGroupMessagesAreTaken : Prop :=
  (∀ s q us, (s.acd q).holdSince = some us →
    exec (.holdBeacon q) s = .next (forAll (holdGroups s q)
      (fun g t => endHeld g (sendHold g s.pr.nodeId (holdAge s q) false none (ageHold q g t))) s) ∧
    ((s.acd q).holdTimedOut = false → let u := modAcd q (fun p => { p with holdTimedOut := true }) s
      exec (.holdTimeout q) s = .next (forAll (holdGroups s q) (fun g t =>
          endHeld g (collProgress g (ownReport g 0x41 (closeHolds g (ageHold q g t))))) u))) ∧
  (∀ s q, (s.acd q).up = true →
    ∃ u, exec (.holdSpaceDrain q) s = .next (serveAgain (tryEndHold q u)) ∧ u.m = s.m ∧
      (u.acd q).heldWr = (s.acd q).heldWr.filter (fun w => rateOf s q (stackOf s q w.1) = 0)) ∧
  (∀ s p k g, (s.peerP p).up = true → s.pr.nodeValid = true → k.dst = s.pr.nodeId → groupTagged s k = some g →
    let c := leNat (k.payload.take 2)
    (k.src ≠ s.pr.nodeId → exec (.hold p k) s = .next (takeHold p k g s)) ∧
    (sameInst s g k = true → let u := modColl g (fun x => { x with reports := tabSet x.reports k.src c }) s
      exec (.stepDone p k) s = .next (endHeld g (collProgress g
        (when (c ≠ 0 && !tabHas (s.coll g).reports s.pr.nodeId) (ownReport g 0) u)))) ∧
    ((s.coll g).root = false → sameInst s g k = true → (s.coll g).agreed = none →
      let u := modColl g (fun x => { x with agreed := some (agreeOf [c]) })
        (forAll (s.coll g).joins (fun n => sendColl 0x12 g n (agreeOf [c]) 8) s)
      exec (.outcome p k) s = .next (collProgress g (when (agreeOf [c] = 0x41) (closeHolds g) (endHeld g u)))) ∧
    ∃ u, exec (.join p k) s = .next (tryReady g u) ∧
      (u.coll g).joins = (if k.src ∈ (s.coll g).joins then (s.coll g).joins else (s.coll g).joins ++ [k.src])) ∧
  (∀ s g, (s.coll g).enable = true → (s.coll g).root = false →
    exec (.joinAcknowledged g) s = .next (tryReady g (modColl g (fun x => { x with joinAck := true }) s))) ∧
  (∀ s g, (s.coll g).enable = true → waitsOnPeer s g = true → let x := s.coll g
    let lost (r : Req) : Bool := match r.tgt with | .peer _ => workOf s x.hoop r.owner | _ => false
    let u := collProgress g (ownReport g 0x40 (closeHolds g (endOpen g (.peerLost false) .peerLost
      (failReqs lost (fun r => .peerLost (r.sent && !r.held)) s))))
    let cut := !x.root && ((firstHop u x.wheel x.parent).isNone || !x.ready)
    ∃ v, exec (.progressTimeout g) s =
        .next (modColl g (fun x => { x with ready := false, left := true, joins := [], joinAck := false }) v) ∧
      (cut = true → (u.coll g).agreed = none → v = collProgress g (modColl g (fun x => { x with agreed := some 0x40 }) u)) ∧
      (cut = false ∨ (u.coll g).agreed ≠ none → v = u))

/-- Of a peer port that is up: PEER_FRAME with good CRC and tag is taken where it is idle or in sequence, its packets counted, the
sequence number advanced unless it is idle, its credits letting packets go, and a NAK in it makes the port replay; one out of sequence,
or with a bad CRC, is NAKed; one whose tag fails takes the link down. FRAME_REPLAY_TIMEOUT with frames unacknowledged replays;
REPLAY_STUCK and PEER_LINK_DOWN take the link down; PEER_KEY_RENEWAL draws a key. PEER_SESSION_ESTABLISHED of an enabled, trained port
out of its safe state that is down brings it up with a new key where the far end authenticates and shows another NODE_ID; without
authentication it counts an event, and with this node's NODE_ID it leaves the port down. The model's own readings in it: log entries
5, 41 and 141. -/
def Obligations.PeerLinksCarryFrames : Prop :=
  (∀ s p f, (s.peerP p).up = true → let x := s.peerP p
    (f.crcOk = true → f.tagOk = true → f.idle = true ∨ f.seq = x.rxSeq →
      ∃ u, u = modPeerP p (fun x => { frameTrailer f x with
          rxSeq := if f.idle then x.rxSeq else x.rxSeq + 1
          badType := min 65535 (x.badType + (f.types.filter (fun t => !typeKnown t)).length) }) s ∧
        (f.nak = false → exec (.peerFrame p f) s = .next (drainPackets p x.txq.length u)) ∧
        (f.nak = true → exec (.peerFrame p f) s = .next (countFault (0xA80 + 8 * p + 1)
          (emit (.frameReplay p (f.ack + 1)) (drainPackets p x.txq.length u))))) ∧
    (f.crcOk = false → exec (.peerFrame p f) s = .next (emit (.frameNak p x.rxSeq) s)) ∧
    (f.crcOk = true → f.tagOk = true → f.idle = false → f.seq ≠ x.rxSeq →
      exec (.peerFrame p f) s = .next (emit (.frameNak p x.rxSeq) s)) ∧
    (f.crcOk = true → f.tagOk = false →
      exec (.peerFrame p f) s = .next (countFault (0xA80 + 8 * p + 2) (rshErr (16 + p) 0x40 (peerDown p s)))) ∧
    (x.replay ≠ [] → exec (.frameReplayTimeout p) s =
      .next (countFault (0xA80 + 8 * p + 1) (emit (.frameReplay p (x.replay.headD x.ackd)) s))) ∧
    exec (.replayStuck p) s = .next (rshErr (16 + p) 0x20 (peerDown p s)) ∧
    (∃ t, exec (.peerKeyRenewal p) s = .next t ∧ (t.peerP p).keyPhase = !(s.peerP p).keyPhase ∧
      t.se.keyGen = s.se.keyGen + 1) ∧
    exec (.peerLinkDown p) s = .next (peerDown p s)) ∧
  (∀ s p node, (s.peerP p).en = true → (s.peerP p).up = false → (s.peerP p).safe = false →
    (s.rsh (16 + p)).trained = true →
    (node ≠ s.pr.nodeId →
      ∃ u, exec (.peerSessionEstablished p node true) s = .next (giveTags u) ∧ (u.peerP p).up = true ∧
        (u.peerP p).farNode = node ∧ (u.peerP p).keyHeld = true ∧ (u.peerP p).txSeq = 0 ∧ (u.peerP p).rxSeq = 0 ∧
        u.se.keyGen = s.se.keyGen + 1) ∧
    (node = s.pr.nodeId → exec (.peerSessionEstablished p node true) s = .next s) ∧
    exec (.peerSessionEstablished p node false) s = .next (countFault (0xA80 + 8 * p + 2) s))

/-! ### Optics and clocks (R339 to R359, R485) -/

/-- ROSHAM_TRAINED of an enabled port out of its safe state that is not trained: without a valid calibration record it sets
CAL_INVALID; calibrated, lit and with 8 lanes each way, it trains, unless its fibres are crossed otherwise than receive fibres 0 and 1,
which sets FIBRE_CROSS. SWAP of a transmit fibre of a trained port that names the spare, with no switch in progress, begins one with
MARK; MARK and DONE of the lane being switched, at the receiver and the transmitter, complete it. A laser input that fails makes its
source severe, and one that comes back, or is named as back, clears CAUSE; LSR_FLT sets the pin; a reference input that is lost makes
the sources that it feeds severe, and the bring-up one takes the bring-up link down; one that comes back clears their CAUSE. The
model's own readings in it: log entries 97 to 100. -/
def Obligations.OpticsFollowTheirEvents : Prop :=
  (∀ s n x, rshEn s n = true → rshSafe s n = false → (s.rsh n).trained = false →
    (n ∉ s.st.calValid → exec (.roshamTrained ⟨n, x⟩) s = .next (rshErr n 0x2 s)) ∧
    (n ∈ s.st.calValid → portLit s n = true → 8 ≤ lanesUp s n 0 → 8 ≤ lanesUp s n 1 →
      (x = .other → exec (.roshamTrained ⟨n, x⟩) s = .next (rshErr n 0x1 s)) ∧
      (x ≠ .other → exec (.roshamTrained ⟨n, x⟩) s = .next (modRsh n (fun x => { x with trained := true }) s)))) ∧
  (∀ s fb lane, isTxFibre fb = true → (s.rsh (fibreOf fb).1).trained = true → (fibreMap s fb).switching = none →
    exec (.swap fb lane (fibreMap s fb).spare) s = .next (emit (.lane fb "MARK" lane (fibreMap s fb).spare)
      (modFibre fb (fun m => { m with switching := some lane, started := true }) s))) ∧
  (∀ s fb lane, (fibreMap s fb).switching = some lane →
    ((fibreMap s fb).started = false →
      exec (.mark fb lane) s = .next (switchDone fb lane (emit (.lane fb "DONE" lane (fibreMap s fb).spare) s))) ∧
    ((fibreMap s fb).started = true →
      exec (.done fb lane) s = .next (switchDone fb lane (emit (.lane fb "IDLE" lane (laneCh (fibreMap s fb) lane)) s)))) ∧
  (∀ s k, s.lk.laserIn.getLsbD k = true →
    let u := severeFault (0xF60 + k) { s with lk.laserIn := s.lk.laserIn &&& ~~~ (BitVec.ofNat 8 (2 ^ k)) }
    exec (.laserInputFault k) s = .next (setLsrEn (modRsrc (0xF60 + k) (fun q => { q with cause := !laserIdle u k }) u))) ∧
  (∀ s k, k < 8 → ∃ t, exec (.laserInputRestored k) s = .next t ∧ t.lk.laserIn.getLsbD k = true ∧
    (t.rsrc (0xF60 + k)).cause = false ∧ ∀ j, j ≠ k → t.lk.laserIn.getLsbD j = s.lk.laserIn.getLsbD j) ∧
  (∀ s, exec .lsrFlt s = .next { s with pin.lsrFlt := true }) ∧
  (∀ s c, clkNum c ∉ s.pin.refclkLost →
    let u := forAll (clkSources c) (fun x s => severeFault x (modRsrc x (fun q => { q with cause := true }) s))
      { s with pin.refclkLost := s.pin.refclkLost ++ [clkNum c] }
    (c ≠ .bringUp → exec (.refclkLoss c) s = .next u) ∧ (c = .bringUp → exec (.refclkLoss c) s = .next (buDown u))) ∧
  (∀ s c, ∃ t, exec (.refclkRestored c) s = .next t ∧ clkNum c ∉ t.pin.refclkLost ∧
    ∀ x ∈ clkSources c, (t.rsrc x).cause = false)

/-! ### Rennet, MRAM, supplies and time (R379 to R404, R478 to R488) -/

/-- SOURCE_EVENT of a source that exists is counted by Rennet's rules, but for a corrected error of an array whose bank has a spare
row, which takes the row. WINDOW_EXPIRY of a source below its threshold that is not severe clears its count, and of another changes
nothing. WRITE_GATE_CLOSED of a gate that is closing is recorded. LOG_RECORD_WRITE with a record to commit and none waiting commits it,
remapping a bad sector while a spare is left and losing the record without one, or lets it wait while MRAM writes are blocked;
MRAM_WRITE_WAIT_TIMEOUT fails the write that has waited longest; PORT_CONFIG_COMMIT of a changed configuration commits it or lets it
wait. TURN_DUE with turning on starts the test or is deferred; TURN_TEST_DONE ends the test that runs with its result;
PORT_CALIBRATION_DONE of a port that a CALIBRATE has to do commits its record, lets it wait, or records its failure. The model's own
readings in it: log entries 58, 59, 102, 103 and 105. -/
def Obligations.RennetEventsAreCounted : Prop :=
  (∀ s src unc alive lost, srcExists src = true →
    ((isSramSrc src = true → unc = false → 4 ≤ tabGet 0 s.sp.sramRows src) →
      exec (.sourceEvent src ⟨unc, lost⟩ alive) s = .next (rennetEvent src unc alive alive false lost s)) ∧
    (isSramSrc src = true → unc = false → tabGet 0 s.sp.sramRows src < 4 →
      exec (.sourceEvent src ⟨unc, lost⟩ alive) s =
        .next { s with sp.sramRows := tabSet s.sp.sramRows src (tabGet 0 s.sp.sramRows src + 1) })) ∧
  (∀ s src,
    ((s.rsrc src).severe = false → (s.rsrc src).count < threshOf s src →
      exec (.windowExpiry src) s = .next (modRsrc src (fun q => { q with count := 0 }) s)) ∧
    ((s.rsrc src).severe = true ∨ threshOf s src ≤ (s.rsrc src).count → exec (.windowExpiry src) s = .next s)) ∧
  (∀ s u, u ∈ s.rn.gates → u ∉ s.rn.gatesClosed →
    exec (.writeGateClosed u) s = .next { s with rn.gatesClosed := s.rn.gatesClosed ++ [u] }) ∧
  (∀ s r rest ok, s.st.logPending = r :: rest → MramJob.log ∉ s.st.mramWaits →
    (s.st.mramBlocked = true → exec (.logRecordWrite ok) s = .next { s with st.mramWaits := s.st.mramWaits ++ [.log] }) ∧
    (s.st.mramBlocked = false → ok = true → exec (.logRecordWrite ok) s = .next (logCommit s)) ∧
    (s.st.mramBlocked = false → ok = false → s.sp.mramSpare = 0 →
      exec (.logRecordWrite ok) s = .next (severeFault 0x0F3 (logLose s))) ∧
    (s.st.mramBlocked = false → ok = false → s.sp.mramSpare ≠ 0 → let u := countFault 0x0F3 (logCommit s)
      (u.sp.mramSpare = s.sp.mramSpare →
        exec (.logRecordWrite ok) s = .next { u with sp.mramSpare := u.sp.mramSpare - 1 }) ∧
      (u.sp.mramSpare ≠ s.sp.mramSpare → exec (.logRecordWrite ok) s = .next u)) ∧
    (logCommit s).st.logPending = rest ∧
    (s.st.log.length < 16384 → (logCommit s).st.log = s.st.log ++ [{ r with seq := (newestSeq s + 1) % 2 ^ 32 }])) ∧
  (∀ s j r, s.st.mramWaits = j :: r → exec .mramWriteWaitTimeout s = .next (mramFail j { s with st.mramWaits := r })) ∧
  (∀ s, s.st.cfgDirty = true → MramJob.cfg ∉ s.st.mramWaits →
    (s.st.mramBlocked = false →
      exec .portConfigCommit s = .next { s with st.portCfg := some (cfgNow s), st.cfgDirty := false }) ∧
    (s.st.mramBlocked = true → exec .portConfigCommit s = .next { s with st.mramWaits := s.st.mramWaits ++ [.cfg] })) ∧
  (∀ s kind q, s.sp.turnEn = true →
    (∀ k, s.sp.turn = none → turnUnit s kind q = some k → exec (.turnDue kind q) s = .next (runTurn kind q k s)) ∧
    (s.sp.turn ≠ none ∨ turnUnit s kind q = none → (kind, q) ∉ s.sp.deferred →
      exec (.turnDue kind q) s = .next { s with sp.deferred := s.sp.deferred ++ [(kind, q)] })) ∧
  (∀ s t, s.sp.turn = some t → exec (.turnTestDone true) s = .next (endTest t true s) ∧
    exec (.turnTestDone false) s = .next (endTest t false (failedTest (testSource s t) s))) ∧
  (∀ s n ms a all dst, calWork s n = some (a, all, dst) → (∀ m x, MramJob.cal m x ∈ s.st.mramWaits → m ≠ n) →
    (∀ result, result ≠ 0 → exec (.portCalibrationDone n result ms) s = .next (calDone n result ms s)) ∧
    (s.st.mramBlocked = false → exec (.portCalibrationDone n 0 ms) s = .next (calCommit n ms s)) ∧
    (s.st.mramBlocked = true →
      exec (.portCalibrationDone n 0 ms) s = .next { s with st.mramWaits := s.st.mramWaits ++ [.cal n ms] }))

/-- A rail that goes low, or the temperature trip, that stood not so before, sets its bit of state and makes its source severe with
CAUSE; its end clears both, and the 1.8 V rail's carries out the writes that waited. CORE_RAIL_LOSS resets the cold domain, but in Deep
Rest or on the way out of it; CAVE_POWER_LOSS loses DEVICE_TIME and the Cave registers. TIME_REALIGN, while DEVICE_TIME is known,
gives it to the islands' copies; POWER_WINDOW sets POWER_TELEM to the mean in whole watts; ENERGY_WINDOW paces above 2.17 mJ;
DRBG_RESEED restarts the generator's count; MIG_SESSION_EXPIRY spends an established session; JTAG_ACCESS shifts out bits and changes
no key and no memory. The model's own readings in it: log entries 5, 9, 100, 101 and 108. -/
def Obligations.SuppliesAndTimersTakeEffect : Prop :=
  (∀ s, s.st.logicLow = false → exec .logicRailLow s = .next (conditionOn 0x0F0 { s with st.logicLow := true })) ∧
  (∀ s, s.st.photLow = false → exec .photRailLow s = .next (conditionOn 0x0F1 { s with st.photLow := true })) ∧
  (∀ s, s.st.mramBlocked = false → exec .rail18Low s =
    .next (conditionOn 0x0F2 { s with st.mramBlocked := true, st.blocks := min 65535 (s.st.blocks + 1) })) ∧
  (∀ s, exec (.railRestored .logic) s = .next (conditionOff 0x0F0 { s with st.logicLow := false }) ∧
    exec (.railRestored .photonic) s = .next (conditionOff 0x0F1 { s with st.photLow := false }) ∧
    exec (.railRestored .r18) s =
      .next (forAll s.st.mramWaits mramDo (conditionOff 0x0F2 { s with st.mramBlocked := false, st.mramWaits := [] })) ∧
    exec .thermTripCleared s = .next (conditionOff 0x0F8 { s with pin.thermTrip := false }) ∧
    ∀ x, ((conditionOff x s).rsrc x).cause = false) ∧
  (∀ s, s.pin.thermTrip = false →
    exec .thermTrip s = .next (setLsrEn (conditionOn 0x0F8 { s with pin.thermTrip := true }))) ∧
  (∀ s, s.tm.boot ≠ .deepRest → s.tm.boot ≠ .deepWake → exec .coreRailLoss s = .next (coldDomain s)) ∧
  (∀ s, s.tm.boot = .deepRest ∨ s.tm.boot = .deepWake → exec .coreRailLoss s = .next s) ∧
  (∀ s, ∃ t, exec .cavePowerLoss s = .next t ∧ t.tm.deviceTime = 0 ∧ t.tm.timeKnown = false ∧ t.cv = {} ∧
    t.pin.undriven = true ∧ t.m = s.m) ∧
  (∀ s, s.tm.timeKnown = true → ∃ t, exec .timeRealign s = .next t ∧ ∀ i, i < 60 → (t.island i).time = s.tm.deviceTime) ∧
  (∀ s mw, exec (.powerWindow mw) s = .next { s with pin.watts := mw / 1000, pin.windows := s.pin.windows + 1 }) ∧
  (∀ s o a, exec (.energyWindow o a) s = .next { s with pin.paced := decide (21700000000 < 8 * o + 3 * a) }) ∧
  (∀ s, exec .drbgReseed s = .next { s with se.drbg := 0 }) ∧
  (∀ s m, m ∈ s.se.migs → m.established = true →
    ∃ t, exec (.migSessionExpiry m.num) s = .next t ∧ { m with spent := true } ∈ t.se.migs) ∧
  (∀ s n, let u := takeFree 1 (emit (.bits "tdo" (Config.freeNat s.m.free)) s)
    exec (.jtagAccess .reset) s = .next s ∧ exec (.jtagAccess (.shiftIr n)) s = .next u ∧
    exec (.jtagAccess (.shiftDr n)) s = .next u ∧ u.se = s.se ∧ u.m.mem = s.m.mem)

/-! ### Start and rest (R441 to R456, R478, R479) -/

/-- COLD_START starts the device with BOOT_COUNT one higher, and with DEVICE_TIME and the Cave registers kept where the time is known;
WARM_RESET of one that runs or rests starts it from a cold domain in reset. BU_RESET resets the bring-up function and its admin hoop;
BU_LINK_TRAINED of a device that is up, with its reference clock, brings the bring-up link up, and BU_LINK_DOWN takes it down.
VAT_STORE_REMIRROR of a single copy adds the lowest other port that is up. REST_ENTER and DEEP_REST_ENTER by the device manager in D0 of
a running device are accepted where nothing refuses them, and otherwise record the reason; REST_ENTRY_COMPLETE enters Rest, or Deep
Rest; an enabled cause wakes the device from Rest or from an entry in progress, and a fixed one starts the wake from Deep Rest, which
CORE_RAILS_READY completes. The model's own readings in it: log entries 106 to 111. -/
def Obligations.DeviceStartsAndRests : Prop :=
  (∀ s, ∃ t, exec .coldStart s = .next t ∧ t.tm.boot = .running ∧ t.tm.bootCount = s.tm.bootCount + 1 ∧
    t.tm.timeKnown = true ∧ (s.tm.timeKnown = true → t.tm.deviceTime = s.tm.deviceTime ∧ t.cv = s.cv) ∧
    (s.tm.timeKnown = false → t.tm.deviceTime = 0)) ∧
  (∀ s, s.tm.boot = .running ∨ s.tm.boot = .rest → exec .warmReset s = .next (startUp (coldDomain s)) ∧
    (coldDomain s).cv = s.cv ∧ (coldDomain s).tm.deviceTime = s.tm.deviceTime ∧
    (coldDomain s).tm.bootCount = s.tm.bootCount ∧ (coldDomain s).wk = {} ∧ (coldDomain s).xl = {}) ∧
  (∀ s, ∃ t, exec .buReset s = .next t ∧ t.fnS .bu = {} ∧ t.admin 16 = {} ∧ t.lk.buLinkUp = false) ∧
  (∀ s rate width, isUp s = true → clkNum .bringUp ∉ s.pin.refclkLost → exec (.buLinkTrained rate width) s =
    .next { s with lk.buLinkUp := true, lk.buRate := rate, lk.buWidth := width }) ∧
  (∀ s, exec .buLinkDown s = .next (buDown s)) ∧
  (∀ s q r, s.st.vatStore = [q] → (List.range 4).find? (fun r => r ≠ q && (s.acd r).up && !(s.acd r).safe) = some r →
    exec .vatStoreRemirror s = .next { s with st.vatStore := [q, r] }) ∧
  (∀ s f, tlpDropped s (pfOf f) none = false → (s.fnS f).dstate3 = false → isDevmgr s f = true → s.tm.boot = .running →
    s.tm.restEnter = false → ∀ c deep, (c = .restEnter f ∧ deep = false) ∨ (c = .deepRestEnter f ∧ deep = true) →
      (restRefusal deep s = 0 → exec c s = .next { s with tm.restDeep := deep, tm.restEnter := true }) ∧
      (restRefusal deep s ≠ 0 → exec c s = .next { s with tm.refused := restRefusal deep s })) ∧
  (∀ s, s.tm.restEnter = true → s.sp.turn = none →
    (s.tm.restDeep = false → watchedPending { s with tm.restEnter := false, tm.refused := 0, tm.boot := .rest } = [] →
      ∃ t, exec .restEntryComplete s = .next t ∧ t.tm.boot = .rest ∧ t.tm.refused = 0) ∧
    (s.tm.restDeep = true → ∃ t, exec .restEntryComplete s = .next t ∧ t.tm.boot = .deepRest ∧ t.pin.vcoreEn = false)) ∧
  (∀ s c, causeOn s c = true → s.tm.boot = .rest ∨ (s.tm.boot = .running ∧ s.tm.restEnter = true ∧ s.tm.restDeep = false) →
    exec (.restWake c) s = .next (wakeUp c s) ∧ (c = .waken → exec .wakenAssert s = .next (wakeUp c s)) ∧
      (c = .alarm → exec .caveAlarmMatch s = .next (wakeUp c s))) ∧
  (∀ s c, causeOn s c = true → isFixed c = true → s.tm.boot = .deepRest → s.tm.restEnter = false →
    let u := recordCause c { s with tm.boot := .deepWake, pin.vcoreEn := true }
    exec (.deepRestWake c) s = .next u ∧ (c = .waken → exec .wakenAssert s = .next u) ∧
      (c = .alarm → exec .caveAlarmMatch s = .next u)) ∧
  (∀ s, s.tm.boot = .deepWake → exec .coreRailsReady s = .next (sendMsix .bu 3 (startUp (coldDomain s))))

/-! ### Interrupts (R360 to R377) -/

/-- COALESCE_TIMEOUT of an armed, enabled event hoop signals it; MSIX_MESSAGE_SEND of one whose message is due, in D0 and with no record
held back, sends the messages of its vectors, a yield before them where fast messages pass it; MSIX_UNMASK sets its bit and releases
messages. By a function in D0 whose TLP no Insecure stream carries: CLAIM_READ answers the oldest event hoop on the vector's queue
and claims it, or the spurious value; INT_DONE, FAST_DONE and VF_INT_DONE complete a claimed event hoop of their bank, or set the bit of
the check that fails; MASK_SET, MASK_CLR, PEND_SET and PEND_CLR act on every source whose bit is written and that the bank reaches;
EVQ_ROUTE_WRITE by its owner writes the route; FAST_SRC_WRITE by a physical function writes the slot or sets SLOT_BAD. The model's
own readings in it: log entries 80 to 82 and 84. -/
def Obligations.InterruptCommandsTakeEffect : Prop :=
  (∀ s e, (s.evq e).ist = .armed → (s.evq e).en = true → exec (.coalesceTimeout e) s = .next (signalEvq e s)) ∧
  (∀ s e, (s.evq e).msgDue = true → (s.fnS (s.evq e).fn).dstate3 = false → (∀ r ∈ s.ev.heldRecs, r.1 ≠ e) →
    let p := pfOf (s.evq e).fn
    let u := when (fastAhead s e && p < 16) (yieldWheel (hcWheelOf s p) 4 0x06 p 0 5) s
    exec (.msixMessageSend e) s =
      .next (forAll (evqVectors s e) (sendMsix (s.evq e).fn) (modEvq e (fun x => { x with msgDue := false }) u))) ∧
  (∀ s f b, ∃ u, exec (.msixUnmask f (.enable b)) s = .next (releaseMsix f u) ∧ (u.fnS f).msixEn = b ∧ u.pin = s.pin) ∧
  (∀ s f b, ∃ u, exec (.msixUnmask f (.funcMask b)) s = .next (releaseMsix f u) ∧ (u.fnS f).funcMask = b ∧ u.pin = s.pin) ∧
  (∀ s f v b, v < vectorCount f → ∃ u, exec (.msixUnmask f (.vecMask v b)) s = .next (releaseMsix f u) ∧
    (tabGet {} (u.fnS f).msix v).mask = b ∧ (tabGet {} (u.fnS f).msix v).pba = (tabGet {} (s.fnS f).msix v).pba) ∧
  (∀ s f, tlpDropped s (pfOf f) none = false → (s.fnS f).dstate3 = false →
    (∀ v, isVf f = false ∨ v < 16 →
      (∀ e r, tabGet [] (s.fnS f).claimQ v = e :: r →
        ∃ t, exec (.claimRead f v) s = .next t ∧ (t.evq e).ist = .claimed ∧
          t.pin.out = s.pin.out ++ [.barData f (claimValue s e) false]) ∧
      (tabGet [] (s.fnS f).claimQ v = [] → exec (.claimRead f v) s = .next (emit (.barData f 0xFFFFFFFF false) s))) ∧
    (∀ (v : W64) c fast, (c = .intDone f v ∧ isVf f = false ∧ fast = false) ∨ (c = .vfIntDone f v ∧ isVf f = true ∧ fast = false) ∨
        (c = .fastDone f v ∧ isVf f = false ∧ f ≠ .bu ∧ fast = true) →
      let e := field v.toNat 27 16
      let named := (s.evq e).present && (s.evq e).fn = f && (s.evq e).ist = .claimed && isFastEvq e = fast
      let inRange := readInRange (s.evq e) (field v.toNat 15 0)
      (named = true → inRange = true → exec c s = .next (completeClaim e (field v.toNat 15 0) s)) ∧
      (named = true → inRange = false → exec c s =
        .next (modFnS f (fun q => if fast then { q with fReadBad := true } else { q with readBad := true }) s)) ∧
      (named = false → exec c s =
        .next (modFnS f (fun q => if fast then { q with fDoneBad := true } else { q with doneBad := true }) s))) ∧
    (∀ q (v : W64),
      let each (g : Nat → State → State) : State := forAll (bitsSet 64 v.toNat) (fun k t =>
        match bankSource t f (64 * q + k) with
        | some x => if (fastSlotOf t x).isNone then g x t else t
        | none => t) s
      exec (.maskSet f q v) s = .next (each maskSrc) ∧ exec (.maskClr f q v) s = .next (each unmaskSrc) ∧
        exec (.pendSet f q v) s = .next (each srcEvent) ∧ exec (.pendClr f q v) s = .next (each unpendSrc)) ∧
    (∀ e v, (s.evq e).present = true → (s.evq e).fn = f → exec (.evqRouteWrite f e v) s = .next (routeOf e v s)) ∧
    ∀ p k v, f = .pf p →
      (fastSrcOk s p k v = true → ∃ t, exec (.fastSrcWrite f k v) s = .next t ∧ (t.fast k).valid = v.msb ∧
        (t.fast k).source = field v.toNat 14 0 ∧ (t.fast k).by_ = p) ∧
      (fastSrcOk s p k v = false → ∃ t, exec (.fastSrcWrite f k v) s = .next t ∧ (t.fnS f).slotBad = true)) ∧
  (∀ s x, ((maskSrc x s).src x).mask = true ∧ ((unpendSrc x s).src x).pending = false)

/-! ### Enables and registers (R408, R462 to R473) -/

/-- HOOP_ENABLE of a page whose hoop is disabled, idle, without RING_FAULT and in a slice out of its safe state enables it and goes on
fetching. By a function in D0 whose TLP no Insecure stream carries: ADMIN_ENABLE of a stopped admin hoop without RING_FAULT starts it,
or sets CFG_ERR where its configuration is bad; ADMIN_DISABLE sets ENABLE to 0; SRC_STATUS_CLEAR and SRC_FORCE by the device manager
clear a source and count a forced event. By the device manager in D0 the enable and disable commands of ports, RETRAIN, ROUTE_WRITE and
HDM_WIN_WRITE take effect; by its manager a disabled group is enabled, and an enabled one ends at once or once its hoop is idle;
DEVMGR_WRITE by the bring-up function names a HOST port of the Cave wheel; REGISTER_WRITE follows the classes of access. The model's
own readings in it: log entries 65, 69, 87, 89, 95 and 113. -/
def Obligations.EnablesAndWritesTakeEffect : Prop :=
  (∀ s f n h, pageHoop s f n = some h → (s.hoop h).present = true → (s.hoop h).enabled = false → (s.hoop h).idle = true →
    (s.hoop h).ringFault = false → sliceSafe s (sliceOf h) = false →
    ∃ u, exec (.hoopEnable f n) s = .next (askRing h u) ∧ (u.hoop h).enabled = true ∧ (u.hoop h).idle = false) ∧
  (∀ s f, tlpDropped s (pfOf f) none = false → (s.fnS f).dstate3 = false →
    (∀ a, adminOf f = some a →
      ((s.admin a).enable = false → (s.admin a).running = false → (s.admin a).ringFault = false →
        (adminCfgOk a (s.admin a) = true → ∃ t, exec (.adminEnable f) s = .next t ∧ (t.admin a).enable = true ∧
          (t.admin a).running = true ∧ (t.admin a).head = 0 ∧ (t.admin a).tail = 0 ∧ (t.admin a).cfgErr = false) ∧
        (adminCfgOk a (s.admin a) = false → ∃ t, exec (.adminEnable f) s = .next t ∧ (t.admin a).enable = false ∧
          (t.admin a).cfgErr = true)) ∧
      ∃ t, exec (.adminDisable f) s = .next t ∧ (t.admin a).enable = false) ∧
    ∀ src, isDevmgr s f = true → srcExists src = true →
      exec (.srcStatusClear f src) s = .next (setLsrEn (clearSrc src s)) ∧
      exec (.srcForce f src) s = .next (rennetEvent src false true true true [] s)) ∧
  (∀ s f, mayManage s f = true →
    (∀ p, (s.hc p).linkEn = false → s.tm.recovery = false →
      ∃ t, exec (.hcLinkEnable f p) s = .next t ∧ (t.hc p).linkEn = true ∧ t.st.cfgDirty = true ∧
        (t.hc p).modeAct = (s.hc p).far ∧ (t.hc p).cxlAct = (s.hc p).cxlEn) ∧
    (∀ p, (s.hc p).linkEn = true →
      ∃ u, exec (.hcLinkDisable f p) s = .next (modRsh p (fun x => { x with trained := false })
        (when (s.hc p).linkUp (hcDown p) u)) ∧ (u.hc p).linkEn = false ∧ u.st.cfgDirty = true) ∧
    (∀ q, (s.acd q).linkEn = false → s.tm.recovery = false →
      ∃ t, exec (.acdLinkEnable f q) s = .next t ∧ (t.acd q).linkEn = true ∧ (t.acd q).training = !(s.acd q).safe) ∧
    (∀ q, (s.acd q).linkEn = true →
      ∃ t, exec (.acdLinkDisable f q) s = .next t ∧ (t.acd q).linkEn = false ∧ (t.acd q).training = false) ∧
    (∀ q, (s.acd q).linkEn = true → (s.acd q).safe = false →
      ∃ t, exec (.retrain f q) s = .next t ∧ (t.acd q).training = true ∧ (t.acd q).retrain = true) ∧
    (∀ p, (s.peerP p).en = false → s.tm.recovery = false →
      ∃ t, exec (.peerPortEnable f p) s = .next t ∧ (t.peerP p).en = true ∧ t.st.cfgDirty = true) ∧
    (∀ p, (s.peerP p).en = true →
      ∃ u, exec (.peerPortDisable f p) s = .next (peerDown p u) ∧ (u.peerP p).en = false) ∧
    (∀ n v, exec (.routeWrite f n v) s = .next (routeWrite n v s)) ∧
    (∀ p k v, exec (.hdmWinWrite f p k v) s = .next (hdmWinWrite p k v s))) ∧
  (∀ s f g (v : W64), (s.coll g).enable = false → collWriter s f g (v ||| 0x8000000000000000) = true →
    exec (.collGroupEnable f g v) s = .next (collWrite g (v ||| 0x8000000000000000) s) ∧
      ((collWrite g (v ||| 0x8000000000000000) s).coll g).enable = true) ∧
  (∀ s f g, (s.coll g).enable = true → collWriter s f g 0 = true →
    ((s.hoop (s.coll g).hoop).present = true → (s.hoop (s.coll g).hoop).idle = false →
      exec (.collGroupDisable f g) s = .next (modColl g (fun x => { x with ending := true }) s)) ∧
    ((s.hoop (s.coll g).hoop).present = false ∨ (s.hoop (s.coll g).hoop).idle = true →
      exec (.collGroupDisable f g) s = .next (endGroup g s))) ∧
  (∀ s (v : W64), field v.toNat 3 0 < 16 → hostMode s (field v.toNat 3 0) = true →
    hcWheelOf s (field v.toNat 3 0) = 0 →
    ∃ t, exec (.devmgrWrite .bu v) s = .next t ∧ t.wh.devmgr = some (field v.toNat 3 0) ∧
      (t.wheel 0).manager = field v.toNat 3 0) ∧
  (∀ s f off data, tlpDropped s (pfOf f) none = false →
    let l := enabledAt off data
    let write := exec (.registerWrite f off data false) s
    (pfOf f < 16 → exec (.registerWrite f off data true) s =
      .next (countFault (0xA00 + 8 * pfOf f + 2) (emit (.aer (pfOf f) 1) (hcErr (pfOf f) 0x2 s)))) ∧
    (16 ≤ pfOf f → exec (.registerWrite f off data true) s = .next s) ∧
    ((s.fnS f).dstate3 = true ∨ hitsForeign s f off data.length = true → write = .next (bar2Reject f s)) ∧
    ((s.fnS f).dstate3 = false → hitsForeign s f off data.length = false →
      (rungPages f l ≠ [] → write = .next (ringWrite f off data l (rungPages f l) s)) ∧
      (∀ a, rungPages f l = [] → badAdminTail f l = true → adminOf f = some a →
        write = .next (modAdmin a (fun x => { x with dbBadWidth := true }) s)) ∧
      (rungPages f l = [] → badAdminTail f l = false → (touched f l).all (wholeReg l) = true →
        write = .next (forAll (touched f l) (fun r => regWrite f r.1 (regValue off data r)) s))))

/-! ### The Affineur cores (R228 to R248) -/

/-- Each access of the core first lets lines that are due and a waiting barrier go on. A load behind no full barrier, whose lines
need not wait, gives the bytes of the store buffer, the cache or the home and fills its lines; a store behind no barrier stands in the
buffer, or is drained with it; a non-temporal one, with room in the combining buffer, enters it; a reserved load behind no full barrier
and no conditional store, whose granule need not wait, reads it and is reserved where its home answers and takes reservations; a
conditional store behind neither, with the earlier stores drained, fails without its reservation, is written with it, and on
compute-die memory goes to the die where the stack is not held and a tag is free. Behind those, or where it must wait, an access changes
nothing but what it asks for. BAR_LD changes nothing; BAR_ST and BAR_FULL drain what can drain, and end once nothing is left;
RESERVATION_TIMEOUT loses the first reservation on the granule at the home; NT_LINE_TIMEOUT lets the line leave. The model's own
readings in it: log entries 7, 77 to 79 and 139. -/
def Obligations.CoreAccessesComplete : Prop :=
  (∀ s addr len, affPlaced addr len = true → let g := coreGo s
    (g.af.barFull = true → exec (.affLoad addr len) s = .next g) ∧
    (g.af.barFull = false → let u := ntFlush addr len (fwInval addr len g)
      (affLoadWaits u addr len = false →
        exec (.affLoad addr len) s = .next (forAll (affLines addr len) affFill (affRead addr len u))) ∧
      (affLoadWaits u addr len = true → exec (.affLoad addr len) s =
        .next (askHosts .core ((affLines addr len).flatMap (fun l => affHits u .read l 64)) u)))) ∧
  (∀ s addr data, affPlaced addr data.length = true → let g := coreGo s
    (g.af.barSt = true → exec (.affStore addr data) s = .next g) ∧
    (g.af.barSt = false → let u := affPatch addr data g
      ∃ b, exec (.affStore addr data) s = .next (when b drainStores (takeFree 1
        { u with af.affBuf := g.af.affBuf ++ data.mapIdx (fun i b => (addr + i, b)) })))) ∧
  (∀ s addr data, affPlaced addr data.length = true → let g := coreGo s
    (g.af.barSt = true → exec (.affNtStore addr data) s = .next g) ∧
    (g.af.barSt = false → let u := ntRoom (ntNew g addr data.length) g
      (u.af.ntLines.length + ntNew u addr data.length ≤ 8 →
        exec (.affNtStore addr data) s = .next (ntBytes addr data (affInval addr data.length u))) ∧
      (8 < u.af.ntLines.length + ntNew u addr data.length → exec (.affNtStore addr data) s = .next u))) ∧
  (∀ s addr, affPlaced addr 1 = true → let g := coreGo s
    let a := granuleOf addr
    let n := granuleLen addr
    (g.af.barFull = true ∨ g.af.affCond ≠ none → exec (.affReservedLoad addr) s = .next g) ∧
    (g.af.barFull = false → g.af.affCond = none → let u := affInval a n (drainStores (ntFlush a n g))
      (affLoadWaits u a n = true ∨ u.af.affBuf ≠ [] → exec (.affReservedLoad addr) s =
        .next (askHosts .core ((affLines a n).flatMap (fun l => affHits u .read l 64)) u)) ∧
      (affLoadWaits u a n = false → u.af.affBuf = [] → let t := loseResv isCoreResv (affRead a n u)
        (∀ home, resvHome addr = some home → affReadable t a = true →
          exec (.affReservedLoad addr) s = .next (affReserve home addr t)) ∧
        (resvHome addr = none ∨ affReadable t a = false → exec (.affReservedLoad addr) s = .next t)))) ∧
  (∀ s addr off data, affPlaced addr 1 = true → let g := coreGo s
    let a := granuleOf addr + off
    (g.af.affCond ≠ none ∨ g.af.barSt = true → exec (.affConditionalStore addr off data) s = .next g) ∧
    (g.af.affCond = none → g.af.barSt = false → let u := drainStores (ntFlush a data.length g)
      u.af.affCond = none → u.af.barSt = false →
      (u.af.affBuf ≠ [] → exec (.affConditionalStore addr off data) s = .next u) ∧
      (u.af.affBuf = [] → (∀ l ∈ u.af.ntLines, overlap a data.length l.addr 64 = false) →
        (coreResv u addr = none →
          exec (.affConditionalStore addr off data) s = .next { u with af.affOk := false }) ∧
        (∀ r, coreResv u addr = some r → (∀ q, homeOf addr ≠ .acd q) → exec (.affConditionalStore addr off data) s =
          .next (affInval a data.length (loseResv isCoreResv (storeAt a data { u with af.affOk := true })))) ∧
        (∀ r q, coreResv u addr = some r → homeOf addr = .acd q → isHot u a = false → freeTag u (.acd q) ≠ none →
          ∃ t, exec (.affConditionalStore addr off data) s = .next t ∧ t.af.affCond = some (a, data) ∧ t.m = u.m)))) ∧
  (∀ s, exec .barLd s = .next s ∧ exec .barSt s = .next (coreGo { s with af.barSt := true }) ∧
    exec .barFull s = .next (coreGo { s with af.barSt := true, af.barFull := true })) ∧
  (∀ s, (∀ l ∈ s.af.ntLines, l.due = false) → (s.af.barSt = false → coreGo s = s) ∧
    (s.af.barSt = true → let u := drainAll s
      (u.af.affBuf = [] → u.af.ntLines = [] → u.af.affCond = none →
        coreGo s = { u with af.barSt := false, af.barFull := false }) ∧
      (u.af.affBuf ≠ [] ∨ u.af.ntLines ≠ [] ∨ u.af.affCond ≠ none → coreGo s = u))) ∧
  (∀ s home g y, s.wk.resvs.find? (fun x => x.1 = home && x.2.granule = g) = some y →
    exec (.reservationTimeout home g) s = .next (loseResv (fun x => decide (x = y)) s)) ∧
  (∀ s line l, s.af.ntLines.find? (fun l => l.addr = line) = some l → exec (.ntLineTimeout line) s = .next (ntLeave l s))

/-! ### Rules stated whole -/

/-- R62. A whole 64-byte write to push slot k is accepted only if k = T mod 4. It then has the effect of a doorbell with value
T + 1, and offers the written bytes as the content of entry T, kept where the buffer of R63 takes them. A write to any other
slot changes nothing but PUSH_MISMATCH, which sets. -/
def Obligations.PushActsAsADoorbell : Prop :=
  ∀ s f n k ws h, pageHoop s f n = some h →
    let T := (s.hoop h).tail
    let offered := modHoop h (fun x => { x with pushed := x.pushed ++ [(T, ws)] }) s
    (k = T.toNat % 4 →
      ∃ t u, exec (.push f n k ws) s = .next t ∧ exec (.doorbell f n ((T + 1).setWidth 64)) u = .next t ∧
        (u = s ∨ u = offered) ∧
        (dbTaken s h (T + 1) = true → (s.hoop h).pushed.length < 4 → (s.hoop h).migrating = false → u = offered)) ∧
    (k ≠ T.toNat % 4 →
      ∃ t, exec (.push f n k ws) s = .next t ∧ t = modHoop h (fun x => { x with pushMismatch := true }) s)

/-- R105. A started NOP changes nothing but its own entry, whose one segment it marks done: the entry goes to its end with OK and no
bytes done (in a collective group, by the agreement of its closing entry), and the translations of its slice are held anew for the
entries that remain. Assumed of the state: no cause of failure, overflow or stop is noted for the entry, no request serves it, and none
waits for a tag. -/
def Obligations.NopHasNoEffectAndCompletesWithOk : Prop :=
  ∀ s h i e, segLive s h i 0 = some (e, .todo) → e.opcode = 0x10 → e.segs = [.todo] → e.cause = none → e.flagged = false →
    e.stops = [] → (∀ r ∈ s.lk.reqs, r.owner ≠ .seg h i 0 ∧ r.tagged = true) →
    let u := modEntry h i (fun e => { e with segs := e.segs.set 0 .done, segDone := e.segDone.set 0 (segBytes s h e 0) }) s
    exec (.nop h i) s = .next (holdPages (sliceOf h) (finishEntry h i .ok false 0 u))

/-- R173. ABSMAX of a block: the canonical NaN if any element is NaN; otherwise +∞ if any is infinite; otherwise the largest
magnitude, as a positive value. -/
def Obligations.AbsmaxIsTheLargestMagnitude : Prop :=
  ∀ f g l, floatFmt f = some g → l ≠ [] → (∀ x ∈ l, x < 2 ^ widthOf f) →
    (∀ c k n a b d s, n.op = 0x29 → n.fmtA = f → laneList (widthOf f) (a.take n.count) = l →
      (runNode c k n a b d s).1.1 = [absMax f l] ∧ (runNode c k n a b d s).2 = s) ∧
    ((∃ x ∈ l, decodeVal f x = .nan) → g.nan = some (absMax f l)) ∧
    ((∀ x ∈ l, decodeVal f x ≠ .nan) → (∃ x ∈ l, ∃ neg, decodeVal f x = .inf neg) →
      decodeVal f (absMax f l) = .inf false) ∧
    ((∀ x ∈ l, ∃ neg m e, decodeVal f x = .fin neg m e) →
      ∃ x ∈ l, absMax f l = x % 2 ^ (widthOf f - 1) ∧
        ∀ y ∈ l, valLt (decodeVal f (absMax f l)) (decodeVal f (y % 2 ^ (widthOf f - 1))) = false)

/-- R174. FABS clears the sign bit of every lane, and of a NaN gives the canonical one. FMIN and FMAX give the canonical NaN if
either input is NaN, and order -0 below +0. -/
def Obligations.FabsFminAndFmaxOfALane : Prop :=
  ∀ f g, floatFmt f = some g →
    (∀ c k n a b d s, n.fmtA = f →
      (n.op = 0x25 → runNode c k n a b d s = ((map1 (widthOf f) (fabs f) a, []), s)) ∧
      (n.op = 0x23 → runNode c k n a b d s = ((map2 (widthOf f) (fmin f) a b, []), s)) ∧
      (n.op = 0x24 → runNode c k n a b d s = ((map2 (widthOf f) (fmax f) a b, []), s))) ∧
    ∀ x y, x < 2 ^ widthOf f → y < 2 ^ widthOf f →
      (fabs f x).testBit (widthOf f - 1) = false ∧
      (decodeVal f x = .nan → g.nan = some (fabs f x)) ∧
      (decodeVal f x ≠ .nan → ∀ i, i < widthOf f - 1 → (fabs f x).testBit i = x.testBit i) ∧
      (decodeVal f x = .nan ∨ decodeVal f y = .nan → g.nan = some (fmin f x y) ∧ g.nan = some (fmax f x y)) ∧
      (∀ e, decodeVal f x = .fin true 0 e → decodeVal f y = .fin false 0 e →
        fmin f x y = x ∧ fmin f y x = x ∧ fmax f x y = y ∧ fmax f y x = y)
end

