-- ==== Sys2Proof/Laws/Memory.lean ====
section
/-! SUPPORT. The memory: its operations keep the canonical form, and a read after a write. -/

namespace Sys2Proof.Machine

open Sys2Proof

theorem memSet_mem {m : List Host.Cell} {a : Nat} {b : Byte} {x : Host.Cell} (hx : x ∈ memSet m a b) :
    x ∈ m ∨ (x = (a, b) ∧ b ≠ 0) := by
  induction m with
  | nil => unfold memSet at hx; split at hx <;> simp_all
  | cons c r ih =>
    obtain ⟨k, c⟩ := c
    unfold memSet at hx
    repeat' split at hx
    all_goals simp only [List.mem_cons] at hx ⊢
    all_goals grind

theorem memSet_wf {m : List Host.Cell} (h : Memory.wf m) (a : Nat) (b : Byte) : Memory.wf (memSet m a b) := by
  obtain ⟨hp, hz⟩ := h
  refine ⟨?_, fun c hc => ?_⟩
  · induction m with
    | nil => unfold memSet; split <;> simp
    | cons c r ih =>
      obtain ⟨k, c⟩ := c
      have hr := ih (List.pairwise_cons.1 hp).2 (fun c hc => hz c (List.mem_cons_of_mem _ hc))
      have hk := (List.pairwise_cons.1 hp).1
      unfold memSet
      repeat' split
      all_goals first
        | exact hp
        | exact (List.pairwise_cons.1 hp).2
        | skip
      · refine List.pairwise_cons.2 ⟨fun y hy => ?_, hp⟩
        rcases List.mem_cons.1 hy with rfl | hy
        · assumption
        · exact Nat.lt_trans ‹a < k› (hk y hy)
      · subst_vars
        exact List.pairwise_cons.2 ⟨hk, (List.pairwise_cons.1 hp).2⟩
      · refine List.pairwise_cons.2 ⟨fun y hy => ?_, hr⟩
        rcases memSet_mem hy with hy | ⟨rfl, -⟩
        · exact hk y hy
        · simp only; omega
  · rcases memSet_mem hc with hc | ⟨rfl, hb⟩
    · exact hz c hc
    · exact hb

theorem memPut_wf {m : List Host.Cell} (h : Memory.wf m) (a : Nat) (bs : List Byte) : Memory.wf (memPut m a bs) := by
  induction bs generalizing m a with
  | nil => exact h
  | cons b r ih => exact ih (memSet_wf h a b) (a + 1)

theorem filter_wf {m : List Host.Cell} (h : Memory.wf m) (p : Host.Cell → Bool) : Memory.wf (m.filter p) :=
  ⟨h.1.filter p, fun c hc => h.2 c (List.mem_filter.1 hc).1⟩

/-- What a location holds after one byte is set. -/
theorem memByte_memSet (m : List Host.Cell) (h : Memory.wf m) (a : Nat) (b : Byte) (x : Nat) :
    memByte (memSet m a b) x = if x = a then b else memByte m x := by
  induction m with
  | nil =>
    unfold memSet; split
    · split <;> simp_all [memByte]
    · unfold memByte; by_cases e : x = a
      · simp [e]
      · simp [e, Ne.symm e, memByte]
  | cons c r ih =>
    obtain ⟨k, c⟩ := c
    have hw := h
    obtain ⟨hp, hz⟩ := h
    have hr : Memory.wf r := ⟨(List.pairwise_cons.1 hp).2, fun c hc => hz c (List.mem_cons_of_mem _ hc)⟩
    have low : ∀ y, y ≤ k → memByte r y = 0 := by
      have hk := (List.pairwise_cons.1 hp).1
      clear ih hp hz hw hr
      intro y hy
      induction r with
      | nil => rfl
      | cons d r ih => 
        obtain ⟨l, d⟩ := d
        have := hk (l, d) (List.mem_cons_self ..)
        simp only at this
        rw [memByte, if_neg (by omega)]
        exact ih (fun z hz => hk z (List.mem_cons_of_mem _ hz))
    have ih := ih hr
    unfold memSet
    repeat' split
    all_goals grind [memByte]

/-- What a location holds after a string of bytes is put. -/
theorem memByte_memPut (m : List Host.Cell) (h : Memory.wf m) (a : Nat) (bs : List Byte) (x : Nat) :
    memByte (memPut m a bs) x = if a ≤ x ∧ x < a + bs.length then bs.getD (x - a) 0 else memByte m x := by
  induction bs generalizing m a with
  | nil => rw [memPut, if_neg (by simp only [List.length_nil]; omega)]
  | cons b r ih =>
    rw [memPut, ih _ (memSet_wf h a b), memByte_memSet m h]
    simp only [List.length_cons]
    by_cases h1 : x = a
    · subst h1; rw [if_neg (by omega), if_pos rfl, if_pos (by omega)]; simp
    · by_cases h2 : a + 1 ≤ x ∧ x < a + 1 + r.length
      · rw [if_pos h2, if_pos (by omega)]
        have : x - a = (x - (a + 1)) + 1 := by omega
        rw [this]; rfl
      · rw [if_neg h2, if_neg h1, if_neg (by omega)]

theorem readBytes_put {t : State} {m : List Host.Cell} (h : Memory.wf m) (a : Nat) (bs : List Byte) (e : t.m.mem = memPut m a bs) :
    readBytes t a bs.length = bs := by
  unfold readBytes byteAt
  rw [e]
  apply List.ext_getElem
  · simp
  · intro i h1 h2
    simp [memByte_memPut m h, h2]

end Sys2Proof.Machine
end

