-- ==== Sys2Proof/Laws/Same.lean ====
section
/-! SUPPORT. What two states share when only named parts may differ, and the rules by which an operation is shown to change
no other part. -/

namespace Sys2Proof.Machine

open Sys2Proof

/-- Every part that a names, c names as well. -/
abbrev Sub (a c : Nat) : Prop := Nat.land a c = a

theorem Sub.trans {a b c : Nat} (h : Sub a b) (k : Sub b c) : Sub a c := by
  have h' : a &&& b = a := h
  have k' : b &&& c = b := k
  show a &&& c = a
  rw [← h', Nat.and_assoc, k']

theorem Sub.up {a b c : Nat} (k : Sub b c) (h : Sub a b) : Sub a c := Sub.trans h k

theorem Sub.bit {a c : Nat} (h : Sub a c) (i : Nat) (hi : a.testBit i = true) : c.testBit i = true := by
  have h' : a &&& c = a := h
  rw [← h', Nat.testBit_and] at hi
  exact (Bool.and_eq_true_iff.1 hi).2

/-- What t shares with s when only the parts that the bits of c name may differ: the queue, every other part, and the
canonical form of the memory. -/
def Same (c : Nat) (s t : State) : Prop :=
  t.pending = s.pending ∧ (Memory.wf s.m.mem → Memory.wf t.m.mem) ∧
  (c.testBit 0 = false → t.m.mem = s.m.mem ∧ t.m.poison = s.m.poison) ∧
  (c.testBit 1 = false → t.pin = s.pin) ∧
  (c.testBit 2 = false → t.tm = s.tm) ∧
  (c.testBit 3 = false → t.cv = s.cv) ∧
  (c.testBit 4 = false → t.wk = s.wk) ∧
  (c.testBit 5 = false → t.ev = s.ev) ∧
  (c.testBit 6 = false → t.rn = s.rn) ∧
  (c.testBit 7 = false → t.sp = s.sp) ∧
  (c.testBit 8 = false → t.st = s.st) ∧
  (c.testBit 9 = false → t.xl = s.xl) ∧
  (c.testBit 10 = false → t.lk = s.lk) ∧
  (c.testBit 11 = false → t.cx = s.cx) ∧
  (c.testBit 12 = false → t.pr = s.pr) ∧
  (c.testBit 13 = false → t.wh = s.wh) ∧
  (c.testBit 14 = false → t.se = s.se) ∧
  (c.testBit 15 = false → t.af = s.af)

theorem Same.refl {c : Nat} (s : State) : Same c s s := by simp [Same]

/-- An update of parts that c names. -/
theorem Same.upd {c : Nat} {s0 X : State} {v_m : MemS} {v_pin v_tm v_cv v_wk v_ev v_rn v_sp v_st v_xl v_lk v_cx v_pr v_wh v_se v_af} (h : Same c s0 X)
    (hm : v_m.mem = X.m.mem ∧ v_m.poison = X.m.poison)
    (h_pin : v_pin = X.pin ∨ Sub 2 c)
    (h_tm : v_tm = X.tm ∨ Sub 4 c)
    (h_cv : v_cv = X.cv ∨ Sub 8 c)
    (h_wk : v_wk = X.wk ∨ Sub 16 c)
    (h_ev : v_ev = X.ev ∨ Sub 32 c)
    (h_rn : v_rn = X.rn ∨ Sub 64 c)
    (h_sp : v_sp = X.sp ∨ Sub 128 c)
    (h_st : v_st = X.st ∨ Sub 256 c)
    (h_xl : v_xl = X.xl ∨ Sub 512 c)
    (h_lk : v_lk = X.lk ∨ Sub 1024 c)
    (h_cx : v_cx = X.cx ∨ Sub 2048 c)
    (h_pr : v_pr = X.pr ∨ Sub 4096 c)
    (h_wh : v_wh = X.wh ∨ Sub 8192 c)
    (h_se : v_se = X.se ∨ Sub 16384 c)
    (h_af : v_af = X.af ∨ Sub 32768 c)
    : Same c s0 (State.mk X.pending v_m v_pin v_tm v_cv v_wk v_ev v_rn v_sp v_st v_xl v_lk v_cx v_pr v_wh v_se v_af) := by
  obtain ⟨hp, hw, h0, g_pin, g_tm, g_cv, g_wk, g_ev, g_rn, g_sp, g_st, g_xl, g_lk, g_cx, g_pr, g_wh, g_se, g_af⟩ := h
  refine ⟨hp, fun q => hm.1 ▸ hw q, fun b => ⟨hm.1.trans (h0 b).1, hm.2.trans (h0 b).2⟩, fun b => ?_, fun b => ?_, fun b => ?_, fun b => ?_, fun b => ?_, fun b => ?_, fun b => ?_, fun b => ?_, fun b => ?_, fun b => ?_, fun b => ?_, fun b => ?_, fun b => ?_, fun b => ?_, fun b => ?_⟩
  · rcases h_pin with e | e
    · exact e.trans (g_pin b)
    · exact absurd (b.symm.trans (Sub.bit e 1 rfl)) (by decide)
  · rcases h_tm with e | e
    · exact e.trans (g_tm b)
    · exact absurd (b.symm.trans (Sub.bit e 2 rfl)) (by decide)
  · rcases h_cv with e | e
    · exact e.trans (g_cv b)
    · exact absurd (b.symm.trans (Sub.bit e 3 rfl)) (by decide)
  · rcases h_wk with e | e
    · exact e.trans (g_wk b)
    · exact absurd (b.symm.trans (Sub.bit e 4 rfl)) (by decide)
  · rcases h_ev with e | e
    · exact e.trans (g_ev b)
    · exact absurd (b.symm.trans (Sub.bit e 5 rfl)) (by decide)
  · rcases h_rn with e | e
    · exact e.trans (g_rn b)
    · exact absurd (b.symm.trans (Sub.bit e 6 rfl)) (by decide)
  · rcases h_sp with e | e
    · exact e.trans (g_sp b)
    · exact absurd (b.symm.trans (Sub.bit e 7 rfl)) (by decide)
  · rcases h_st with e | e
    · exact e.trans (g_st b)
    · exact absurd (b.symm.trans (Sub.bit e 8 rfl)) (by decide)
  · rcases h_xl with e | e
    · exact e.trans (g_xl b)
    · exact absurd (b.symm.trans (Sub.bit e 9 rfl)) (by decide)
  · rcases h_lk with e | e
    · exact e.trans (g_lk b)
    · exact absurd (b.symm.trans (Sub.bit e 10 rfl)) (by decide)
  · rcases h_cx with e | e
    · exact e.trans (g_cx b)
    · exact absurd (b.symm.trans (Sub.bit e 11 rfl)) (by decide)
  · rcases h_pr with e | e
    · exact e.trans (g_pr b)
    · exact absurd (b.symm.trans (Sub.bit e 12 rfl)) (by decide)
  · rcases h_wh with e | e
    · exact e.trans (g_wh b)
    · exact absurd (b.symm.trans (Sub.bit e 13 rfl)) (by decide)
  · rcases h_se with e | e
    · exact e.trans (g_se b)
    · exact absurd (b.symm.trans (Sub.bit e 14 rfl)) (by decide)
  · rcases h_af with e | e
    · exact e.trans (g_af b)
    · exact absurd (b.symm.trans (Sub.bit e 15 rfl)) (by decide)

theorem Same.ite {c : Nat} {s0 A B : State} {p : Prop} [Decidable p] (h : p → Same c s0 A) (k : ¬ p → Same c s0 B) :
    Same c s0 (if p then A else B) := by split <;> simp_all

theorem Same.ite2 {α : Type} {c : Nat} {s0 : State} {A B : α × State} {p : Prop} [Decidable p]
    (h : p → Same c s0 A.2) (k : ¬ p → Same c s0 B.2) : Same c s0 (if p then A else B).2 := by split <;> simp_all

theorem Same.ofEq {α : Type} {c : Nat} {s0 t : State} {p : α × State} {a : α} (h : p = (a, t)) (k : Same c s0 p.2) :
    Same c s0 t := by subst h; exact k

theorem forAll_same {α : Type} {c s0 s} {l : List α} {f : α → State → State} (h : Same c s0 s)
    (hf : ∀ x t, Same c s0 t → Same c s0 (f x t)) : Same c s0 (forAll l f s) := by
  unfold forAll
  induction l generalizing s with
  | nil => exact h
  | cons a r ih => exact ih (hf a s h)

theorem when_same {c s0 s} {b : Bool} {f : State → State} (h : Same c s0 s)
    (hf : ∀ t, Same c s0 t → Same c s0 (f t)) : Same c s0 (when b f s) := by
  unfold when; split
  · exact hf s h
  · exact h

theorem foldl_same {α : Type} {c s0 s} {l : List α} {f : State → α → State} (h : Same c s0 s)
    (hf : ∀ t x, Same c s0 t → Same c s0 (f t x)) : Same c s0 (l.foldl f s) := by
  induction l generalizing s with
  | nil => exact h
  | cons a r ih => exact ih (hf s a h)

theorem foldl2_same {α β : Type} {c s0} {s : β × State} {l : List α} {f : β × State → α → β × State}
    (h : Same c s0 s.2) (hf : ∀ t x, Same c s0 t.2 → Same c s0 (f t x).2) : Same c s0 (l.foldl f s).2 := by
  induction l generalizing s with
  | nil => exact h
  | cons a r ih => exact ih (hf s a h)

/-- A change of the memory alone. -/
theorem Same.mem {c : Nat} {s0 X : State} {M : MemS} (h : Same c s0 X) (hw : Memory.wf X.m.mem → Memory.wf M.mem)
    (hc : Sub 1 c) : Same c s0 { X with m := M } := by
  obtain ⟨hp, hw', -, g⟩ := h
  exact ⟨hp, fun q => hw (hw' q), fun b => absurd (b.symm.trans (Sub.bit hc 0 rfl)) (by decide), g⟩

theorem writeBytes_same {c s0 s} {a : Nat} {bs : List Byte} (h : Same c s0 s) (hc : Sub 1 c := by first | with_reducible assumption | exact Sub.up (by with_reducible assumption) (by decide)) :
    Same c s0 (writeBytes a bs s) := Same.mem h (fun q => memPut_wf q a bs) hc

theorem zeroRange_same {c s0 s} {a n : Nat} (h : Same c s0 s) (hc : Sub 1 c := by first | with_reducible assumption | exact Sub.up (by with_reducible assumption) (by decide)) :
    Same c s0 (zeroRange a n s) := Same.mem h (fun q => filter_wf q _) hc

/-- What an outcome shares with s: its next state, if it is one. -/
def SameOut (c : Nat) (s0 : State) (o : Host.Outcome State Fault Refusal) : Prop := ∀ t, o = .next t → Same c s0 t

theorem SameOut.next {c : Nat} {s0 t : State} (h : Same c s0 t) : SameOut c s0 (.next t) := by
  intro u e; cases e; exact h

theorem SameOut.fault {c : Nat} {s0 : State} (r : Fault) : SameOut c s0 (.fault r) := by
  intro u e; cases e

theorem SameOut.ite {c : Nat} {s0 : State} {A B : Host.Outcome State Fault Refusal} {p : Prop} [Decidable p]
    (h : p → SameOut c s0 A) (k : ¬ p → SameOut c s0 B) : SameOut c s0 (if p then A else B) := by split <;> simp_all

theorem writeNat_same {c s0 s} {a0 a1 a2} (h : Same c s0 s) (hc : Sub 1 c) : Same c s0 (writeNat a0 a1 a2 s) := by
  unfold writeNat
  repeat' (first | with_reducible assumption | with_reducible refine Same.ite ?_ ?_ | with_reducible refine Same.ite2 ?_ ?_ | with_reducible apply writeBytes_same)

/-- The bit that names a part in a mask of Same. -/
def Area.bit : Area → Nat
  | .memory => 0
  | .pins => 1
  | .time => 2
  | .cave => 3
  | .work => 4
  | .events => 5
  | .rennet => 6
  | .spares => 7
  | .store => 8
  | .xlat => 9
  | .links => 10
  | .coherent => 11
  | .peers => 12
  | .wheels => 13
  | .security => 14
  | .core => 15

theorem Same.part {c : Nat} {s t : State} (h : Same c s t) (p : Area) (hp : c.testBit (Area.bit p) = false) :
    Area.same p s t := by
  obtain ⟨-, -, h0, h1, h2, h3, h4, h5, h6, h7, h8, h9, h10, h11, h12, h13, h14, h15⟩ := h
  cases p <;> simp only [Area.bit] at hp <;> simp only [Area.same]
  · exact h0 hp
  · exact h1 hp
  · exact h2 hp
  · exact h3 hp
  · exact h4 hp
  · exact h5 hp
  · exact h6 hp
  · exact h7 hp
  · exact h8 hp
  · exact h9 hp
  · exact h10 hp
  · exact h11 hp
  · exact h12 hp
  · exact h13 hp
  · exact h14 hp
  · exact h15 hp

theorem Same.pending {c : Nat} {s t : State} (h : Same c s t) : t.pending = s.pending := h.1

theorem Same.wf {c : Nat} {s t : State} (h : Same c s t) : Memory.wf s.m.mem → Memory.wf t.m.mem := h.2.1

end Sys2Proof.Machine
end

