-- ==== Sys2Proof/Laws/SameOps.lean ====
section
/-! SUPPORT. The footprint of every operation that the meanings share: the parts that it may change. -/

set_option linter.unreachableTactic false
set_option linter.unusedTactic false
set_option Elab.async false

namespace Sys2Proof.Machine

open Sys2Proof

theorem poisonRange_same {c s0 s} {a0 a1} (h : Same c s0 s) (hc : Sub 1 c := by first | with_reducible assumption | exact Sub.up (by with_reducible assumption) (by decide)) : Same c s0 (poisonRange a0 a1 s) :=
  Same.mem h id hc

theorem takeFree_same {c s0 s} {a0} (h : Same c s0 s) : Same c s0 (takeFree a0 s) := by
  unfold takeFree
  repeat' (first | with_reducible assumption | with_reducible refine Same.ite ?_ ?_ | with_reducible refine Same.ite2 ?_ ?_ | with_reducible exact Sub.up (by with_reducible assumption) (by decide) | fail_if_no_progress (with_reducible apply Same.upd <;> try first | with_reducible exact ⟨rfl, rfl⟩ | with_reducible exact Or.inr (Sub.up (by with_reducible assumption) (by decide)) | with_reducible exact Or.inl rfl) | (intro _) | dsimp only | (with_reducible refine Same.ofEq (by with_reducible assumption) ?_) | split)

theorem modHoop_same {c s0 s} {a0 a1} (h : Same c s0 s) (hc : Sub 16 c := by first | with_reducible assumption | exact Sub.up (by with_reducible assumption) (by decide)) : Same c s0 (modHoop a0 a1 s) := by
  unfold modHoop
  repeat' (first | with_reducible assumption | with_reducible refine Same.ite ?_ ?_ | with_reducible refine Same.ite2 ?_ ?_ | with_reducible exact Sub.up (by with_reducible assumption) (by decide) | fail_if_no_progress (with_reducible apply Same.upd <;> try first | with_reducible exact ⟨rfl, rfl⟩ | with_reducible exact Or.inr (Sub.up (by with_reducible assumption) (by decide)) | with_reducible exact Or.inl rfl) | (intro _) | dsimp only | (with_reducible refine Same.ofEq (by with_reducible assumption) ?_) | split)

theorem modAdmin_same {c s0 s} {a0 a1} (h : Same c s0 s) (hc : Sub 16 c := by first | with_reducible assumption | exact Sub.up (by with_reducible assumption) (by decide)) : Same c s0 (modAdmin a0 a1 s) := by
  unfold modAdmin
  repeat' (first | with_reducible assumption | with_reducible refine Same.ite ?_ ?_ | with_reducible refine Same.ite2 ?_ ?_ | with_reducible exact Sub.up (by with_reducible assumption) (by decide) | fail_if_no_progress (with_reducible apply Same.upd <;> try first | with_reducible exact ⟨rfl, rfl⟩ | with_reducible exact Or.inr (Sub.up (by with_reducible assumption) (by decide)) | with_reducible exact Or.inl rfl) | (intro _) | dsimp only | (with_reducible refine Same.ofEq (by with_reducible assumption) ?_) | split)

theorem modVat_same {c s0 s} {a0 a1} (h : Same c s0 s) (hc : Sub 16 c := by first | with_reducible assumption | exact Sub.up (by with_reducible assumption) (by decide)) : Same c s0 (modVat a0 a1 s) := by
  unfold modVat
  repeat' (first | with_reducible assumption | with_reducible refine Same.ite ?_ ?_ | with_reducible refine Same.ite2 ?_ ?_ | with_reducible exact Sub.up (by with_reducible assumption) (by decide) | fail_if_no_progress (with_reducible apply Same.upd <;> try first | with_reducible exact ⟨rfl, rfl⟩ | with_reducible exact Or.inr (Sub.up (by with_reducible assumption) (by decide)) | with_reducible exact Or.inl rfl) | (intro _) | dsimp only | (with_reducible refine Same.ofEq (by with_reducible assumption) ?_) | split)

theorem modWatcher_same {c s0 s} {a0 a1} (h : Same c s0 s) (hc : Sub 16 c := by first | with_reducible assumption | exact Sub.up (by with_reducible assumption) (by decide)) : Same c s0 (modWatcher a0 a1 s) := by
  unfold modWatcher
  repeat' (first | with_reducible assumption | with_reducible refine Same.ite ?_ ?_ | with_reducible refine Same.ite2 ?_ ?_ | with_reducible exact Sub.up (by with_reducible assumption) (by decide) | fail_if_no_progress (with_reducible apply Same.upd <;> try first | with_reducible exact ⟨rfl, rfl⟩ | with_reducible exact Or.inr (Sub.up (by with_reducible assumption) (by decide)) | with_reducible exact Or.inl rfl) | (intro _) | dsimp only | (with_reducible refine Same.ofEq (by with_reducible assumption) ?_) | split)

theorem modPollWait_same {c s0 s} {a0 a1} (h : Same c s0 s) (hc : Sub 16 c := by first | with_reducible assumption | exact Sub.up (by with_reducible assumption) (by decide)) : Same c s0 (modPollWait a0 a1 s) := by
  unfold modPollWait
  repeat' (first | with_reducible assumption | with_reducible refine Same.ite ?_ ?_ | with_reducible refine Same.ite2 ?_ ?_ | with_reducible exact Sub.up (by with_reducible assumption) (by decide) | fail_if_no_progress (with_reducible apply Same.upd <;> try first | with_reducible exact ⟨rfl, rfl⟩ | with_reducible exact Or.inr (Sub.up (by with_reducible assumption) (by decide)) | with_reducible exact Or.inl rfl) | (intro _) | dsimp only | (with_reducible refine Same.ofEq (by with_reducible assumption) ?_) | split)

theorem modEvq_same {c s0 s} {a0 a1} (h : Same c s0 s) (hc : Sub 32 c := by first | with_reducible assumption | exact Sub.up (by with_reducible assumption) (by decide)) : Same c s0 (modEvq a0 a1 s) := by
  unfold modEvq
  repeat' (first | with_reducible assumption | with_reducible refine Same.ite ?_ ?_ | with_reducible refine Same.ite2 ?_ ?_ | with_reducible exact Sub.up (by with_reducible assumption) (by decide) | fail_if_no_progress (with_reducible apply Same.upd <;> try first | with_reducible exact ⟨rfl, rfl⟩ | with_reducible exact Or.inr (Sub.up (by with_reducible assumption) (by decide)) | with_reducible exact Or.inl rfl) | (intro _) | dsimp only | (with_reducible refine Same.ofEq (by with_reducible assumption) ?_) | split)

theorem modFnS_same {c s0 s} {a0 a1} (h : Same c s0 s) (hc : Sub 32 c := by first | with_reducible assumption | exact Sub.up (by with_reducible assumption) (by decide)) : Same c s0 (modFnS a0 a1 s) := by
  unfold modFnS
  repeat' (first | with_reducible assumption | with_reducible refine Same.ite ?_ ?_ | with_reducible refine Same.ite2 ?_ ?_ | with_reducible exact Sub.up (by with_reducible assumption) (by decide) | fail_if_no_progress (with_reducible apply Same.upd <;> try first | with_reducible exact ⟨rfl, rfl⟩ | with_reducible exact Or.inr (Sub.up (by with_reducible assumption) (by decide)) | with_reducible exact Or.inl rfl) | (intro _) | dsimp only | (with_reducible refine Same.ofEq (by with_reducible assumption) ?_) | split)

theorem modSrc_same {c s0 s} {a0 a1} (h : Same c s0 s) (hc : Sub 32 c := by first | with_reducible assumption | exact Sub.up (by with_reducible assumption) (by decide)) : Same c s0 (modSrc a0 a1 s) := by
  unfold modSrc
  repeat' (first | with_reducible assumption | with_reducible refine Same.ite ?_ ?_ | with_reducible refine Same.ite2 ?_ ?_ | with_reducible exact Sub.up (by with_reducible assumption) (by decide) | fail_if_no_progress (with_reducible apply Same.upd <;> try first | with_reducible exact ⟨rfl, rfl⟩ | with_reducible exact Or.inr (Sub.up (by with_reducible assumption) (by decide)) | with_reducible exact Or.inl rfl) | (intro _) | dsimp only | (with_reducible refine Same.ofEq (by with_reducible assumption) ?_) | split)

theorem modFast_same {c s0 s} {a0 a1} (h : Same c s0 s) (hc : Sub 32 c := by first | with_reducible assumption | exact Sub.up (by with_reducible assumption) (by decide)) : Same c s0 (modFast a0 a1 s) := by
  unfold modFast
  repeat' (first | with_reducible assumption | with_reducible refine Same.ite ?_ ?_ | with_reducible refine Same.ite2 ?_ ?_ | with_reducible exact Sub.up (by with_reducible assumption) (by decide) | fail_if_no_progress (with_reducible apply Same.upd <;> try first | with_reducible exact ⟨rfl, rfl⟩ | with_reducible exact Or.inr (Sub.up (by with_reducible assumption) (by decide)) | with_reducible exact Or.inl rfl) | (intro _) | dsimp only | (with_reducible refine Same.ofEq (by with_reducible assumption) ?_) | split)

theorem modRsrc_same {c s0 s} {a0 a1} (h : Same c s0 s) (hc : Sub 64 c := by first | with_reducible assumption | exact Sub.up (by with_reducible assumption) (by decide)) : Same c s0 (modRsrc a0 a1 s) := by
  unfold modRsrc
  repeat' (first | with_reducible assumption | with_reducible refine Same.ite ?_ ?_ | with_reducible refine Same.ite2 ?_ ?_ | with_reducible exact Sub.up (by with_reducible assumption) (by decide) | fail_if_no_progress (with_reducible apply Same.upd <;> try first | with_reducible exact ⟨rfl, rfl⟩ | with_reducible exact Or.inr (Sub.up (by with_reducible assumption) (by decide)) | with_reducible exact Or.inl rfl) | (intro _) | dsimp only | (with_reducible refine Same.ofEq (by with_reducible assumption) ?_) | split)

theorem modSpareQ_same {c s0 s} {a0 a1} (h : Same c s0 s) (hc : Sub 128 c := by first | with_reducible assumption | exact Sub.up (by with_reducible assumption) (by decide)) : Same c s0 (modSpareQ a0 a1 s) := by
  unfold modSpareQ
  repeat' (first | with_reducible assumption | with_reducible refine Same.ite ?_ ?_ | with_reducible refine Same.ite2 ?_ ?_ | with_reducible exact Sub.up (by with_reducible assumption) (by decide) | fail_if_no_progress (with_reducible apply Same.upd <;> try first | with_reducible exact ⟨rfl, rfl⟩ | with_reducible exact Or.inr (Sub.up (by with_reducible assumption) (by decide)) | with_reducible exact Or.inl rfl) | (intro _) | dsimp only | (with_reducible refine Same.ofEq (by with_reducible assumption) ?_) | split)

theorem modHc_same {c s0 s} {a0 a1} (h : Same c s0 s) (hc : Sub 1024 c := by first | with_reducible assumption | exact Sub.up (by with_reducible assumption) (by decide)) : Same c s0 (modHc a0 a1 s) := by
  unfold modHc
  repeat' (first | with_reducible assumption | with_reducible refine Same.ite ?_ ?_ | with_reducible refine Same.ite2 ?_ ?_ | with_reducible exact Sub.up (by with_reducible assumption) (by decide) | fail_if_no_progress (with_reducible apply Same.upd <;> try first | with_reducible exact ⟨rfl, rfl⟩ | with_reducible exact Or.inr (Sub.up (by with_reducible assumption) (by decide)) | with_reducible exact Or.inl rfl) | (intro _) | dsimp only | (with_reducible refine Same.ofEq (by with_reducible assumption) ?_) | split)

theorem modAcd_same {c s0 s} {a0 a1} (h : Same c s0 s) (hc : Sub 1024 c := by first | with_reducible assumption | exact Sub.up (by with_reducible assumption) (by decide)) : Same c s0 (modAcd a0 a1 s) := by
  unfold modAcd
  repeat' (first | with_reducible assumption | with_reducible refine Same.ite ?_ ?_ | with_reducible refine Same.ite2 ?_ ?_ | with_reducible exact Sub.up (by with_reducible assumption) (by decide) | fail_if_no_progress (with_reducible apply Same.upd <;> try first | with_reducible exact ⟨rfl, rfl⟩ | with_reducible exact Or.inr (Sub.up (by with_reducible assumption) (by decide)) | with_reducible exact Or.inl rfl) | (intro _) | dsimp only | (with_reducible refine Same.ofEq (by with_reducible assumption) ?_) | split)

theorem modPeerP_same {c s0 s} {a0 a1} (h : Same c s0 s) (hc : Sub 1024 c := by first | with_reducible assumption | exact Sub.up (by with_reducible assumption) (by decide)) : Same c s0 (modPeerP a0 a1 s) := by
  unfold modPeerP
  repeat' (first | with_reducible assumption | with_reducible refine Same.ite ?_ ?_ | with_reducible refine Same.ite2 ?_ ?_ | with_reducible exact Sub.up (by with_reducible assumption) (by decide) | fail_if_no_progress (with_reducible apply Same.upd <;> try first | with_reducible exact ⟨rfl, rfl⟩ | with_reducible exact Or.inr (Sub.up (by with_reducible assumption) (by decide)) | with_reducible exact Or.inl rfl) | (intro _) | dsimp only | (with_reducible refine Same.ofEq (by with_reducible assumption) ?_) | split)

theorem modRsh_same {c s0 s} {a0 a1} (h : Same c s0 s) (hc : Sub 1024 c := by first | with_reducible assumption | exact Sub.up (by with_reducible assumption) (by decide)) : Same c s0 (modRsh a0 a1 s) := by
  unfold modRsh
  repeat' (first | with_reducible assumption | with_reducible refine Same.ite ?_ ?_ | with_reducible refine Same.ite2 ?_ ?_ | with_reducible exact Sub.up (by with_reducible assumption) (by decide) | fail_if_no_progress (with_reducible apply Same.upd <;> try first | with_reducible exact ⟨rfl, rfl⟩ | with_reducible exact Or.inr (Sub.up (by with_reducible assumption) (by decide)) | with_reducible exact Or.inl rfl) | (intro _) | dsimp only | (with_reducible refine Same.ofEq (by with_reducible assumption) ?_) | split)

theorem modExp_same {c s0 s} {a0 a1} (h : Same c s0 s) (hc : Sub 4096 c := by first | with_reducible assumption | exact Sub.up (by with_reducible assumption) (by decide)) : Same c s0 (modExp a0 a1 s) := by
  unfold modExp
  repeat' (first | with_reducible assumption | with_reducible refine Same.ite ?_ ?_ | with_reducible refine Same.ite2 ?_ ?_ | with_reducible exact Sub.up (by with_reducible assumption) (by decide) | fail_if_no_progress (with_reducible apply Same.upd <;> try first | with_reducible exact ⟨rfl, rfl⟩ | with_reducible exact Or.inr (Sub.up (by with_reducible assumption) (by decide)) | with_reducible exact Or.inl rfl) | (intro _) | dsimp only | (with_reducible refine Same.ofEq (by with_reducible assumption) ?_) | split)

theorem modColl_same {c s0 s} {a0 a1} (h : Same c s0 s) (hc : Sub 4096 c := by first | with_reducible assumption | exact Sub.up (by with_reducible assumption) (by decide)) : Same c s0 (modColl a0 a1 s) := by
  unfold modColl
  repeat' (first | with_reducible assumption | with_reducible refine Same.ite ?_ ?_ | with_reducible refine Same.ite2 ?_ ?_ | with_reducible exact Sub.up (by with_reducible assumption) (by decide) | fail_if_no_progress (with_reducible apply Same.upd <;> try first | with_reducible exact ⟨rfl, rfl⟩ | with_reducible exact Or.inr (Sub.up (by with_reducible assumption) (by decide)) | with_reducible exact Or.inl rfl) | (intro _) | dsimp only | (with_reducible refine Same.ofEq (by with_reducible assumption) ?_) | split)

theorem modRoute_same {c s0 s} {a0 a1} (h : Same c s0 s) (hc : Sub 4096 c := by first | with_reducible assumption | exact Sub.up (by with_reducible assumption) (by decide)) : Same c s0 (modRoute a0 a1 s) := by
  unfold modRoute
  repeat' (first | with_reducible assumption | with_reducible refine Same.ite ?_ ?_ | with_reducible refine Same.ite2 ?_ ?_ | with_reducible exact Sub.up (by with_reducible assumption) (by decide) | fail_if_no_progress (with_reducible apply Same.upd <;> try first | with_reducible exact ⟨rfl, rfl⟩ | with_reducible exact Or.inr (Sub.up (by with_reducible assumption) (by decide)) | with_reducible exact Or.inl rfl) | (intro _) | dsimp only | (with_reducible refine Same.ofEq (by with_reducible assumption) ?_) | split)

theorem modWheel_same {c s0 s} {a0 a1} (h : Same c s0 s) (hc : Sub 8192 c := by first | with_reducible assumption | exact Sub.up (by with_reducible assumption) (by decide)) : Same c s0 (modWheel a0 a1 s) := by
  unfold modWheel
  repeat' (first | with_reducible assumption | with_reducible refine Same.ite ?_ ?_ | with_reducible refine Same.ite2 ?_ ?_ | with_reducible exact Sub.up (by with_reducible assumption) (by decide) | fail_if_no_progress (with_reducible apply Same.upd <;> try first | with_reducible exact ⟨rfl, rfl⟩ | with_reducible exact Or.inr (Sub.up (by with_reducible assumption) (by decide)) | with_reducible exact Or.inl rfl) | (intro _) | dsimp only | (with_reducible refine Same.ofEq (by with_reducible assumption) ?_) | split)

theorem modIsland_same {c s0 s} {a0 a1} (h : Same c s0 s) (hc : Sub 4 c := by first | with_reducible assumption | exact Sub.up (by with_reducible assumption) (by decide)) : Same c s0 (modIsland a0 a1 s) := by
  unfold modIsland
  repeat' (first | with_reducible assumption | with_reducible refine Same.ite ?_ ?_ | with_reducible refine Same.ite2 ?_ ?_ | with_reducible exact Sub.up (by with_reducible assumption) (by decide) | fail_if_no_progress (with_reducible apply Same.upd <;> try first | with_reducible exact ⟨rfl, rfl⟩ | with_reducible exact Or.inr (Sub.up (by with_reducible assumption) (by decide)) | with_reducible exact Or.inl rfl) | (intro _) | dsimp only | (with_reducible refine Same.ofEq (by with_reducible assumption) ?_) | split)

theorem modFwSlot_same {c s0 s} {a0 a1} (h : Same c s0 s) (hc : Sub 256 c := by first | with_reducible assumption | exact Sub.up (by with_reducible assumption) (by decide)) : Same c s0 (modFwSlot a0 a1 s) := by
  unfold modFwSlot
  repeat' (first | with_reducible assumption | with_reducible refine Same.ite ?_ ?_ | with_reducible refine Same.ite2 ?_ ?_ | with_reducible exact Sub.up (by with_reducible assumption) (by decide) | fail_if_no_progress (with_reducible apply Same.upd <;> try first | with_reducible exact ⟨rfl, rfl⟩ | with_reducible exact Or.inr (Sub.up (by with_reducible assumption) (by decide)) | with_reducible exact Or.inl rfl) | (intro _) | dsimp only | (with_reducible refine Same.ofEq (by with_reducible assumption) ?_) | split)

theorem emit_same {c s0 s} {a0} (h : Same c s0 s) (hc : Sub 2 c := by first | with_reducible assumption | exact Sub.up (by with_reducible assumption) (by decide)) : Same c s0 (emit a0 s) := by
  unfold emit
  repeat' (first | with_reducible assumption | with_reducible refine Same.ite ?_ ?_ | with_reducible refine Same.ite2 ?_ ?_ | with_reducible exact Sub.up (by with_reducible assumption) (by decide) | fail_if_no_progress (with_reducible apply Same.upd <;> try first | with_reducible exact ⟨rfl, rfl⟩ | with_reducible exact Or.inr (Sub.up (by with_reducible assumption) (by decide)) | with_reducible exact Or.inl rfl) | (intro _) | dsimp only | (with_reducible refine Same.ofEq (by with_reducible assumption) ?_) | split)

theorem sendAcd_same {c s0 s} {a0 a1 a2 a3 a4} (h : Same c s0 s) (hc : Sub 1026 c := by first | with_reducible assumption | exact Sub.up (by with_reducible assumption) (by decide)) : Same c s0 (sendAcd a0 a1 a2 a3 a4 s) := by
  unfold sendAcd
  repeat' (first | with_reducible assumption | with_reducible refine Same.ite ?_ ?_ | with_reducible refine Same.ite2 ?_ ?_ | with_reducible apply emit_same | with_reducible exact Sub.up (by with_reducible assumption) (by decide) | fail_if_no_progress (with_reducible apply Same.upd <;> try first | with_reducible exact ⟨rfl, rfl⟩ | with_reducible exact Or.inr (Sub.up (by with_reducible assumption) (by decide)) | with_reducible exact Or.inl rfl) | (intro _) | dsimp only | (with_reducible refine Same.ofEq (by with_reducible assumption) ?_) | split)

theorem putPacket_same {c s0 s} {a0 a1 a2} (h : Same c s0 s) (hc : Sub 1026 c := by first | with_reducible assumption | exact Sub.up (by with_reducible assumption) (by decide)) : Same c s0 (putPacket a0 a1 a2 s) := by
  unfold putPacket
  repeat' (first | with_reducible assumption | with_reducible refine Same.ite ?_ ?_ | with_reducible refine Same.ite2 ?_ ?_ | with_reducible apply emit_same | with_reducible exact Sub.up (by with_reducible assumption) (by decide) | fail_if_no_progress (with_reducible apply Same.upd <;> try first | with_reducible exact ⟨rfl, rfl⟩ | with_reducible exact Or.inr (Sub.up (by with_reducible assumption) (by decide)) | with_reducible exact Or.inl rfl) | (intro _) | dsimp only | (with_reducible refine Same.ofEq (by with_reducible assumption) ?_) | split)

theorem sendPacket_same {c s0 s} {a0 a1 a2} (h : Same c s0 s) (hc : Sub 1026 c := by first | with_reducible assumption | exact Sub.up (by with_reducible assumption) (by decide)) : Same c s0 (sendPacket a0 a1 a2 s) := by
  unfold sendPacket
  repeat' (first | with_reducible assumption | with_reducible refine Same.ite ?_ ?_ | with_reducible refine Same.ite2 ?_ ?_ | with_reducible apply putPacket_same | with_reducible exact Sub.up (by with_reducible assumption) (by decide) | fail_if_no_progress (with_reducible apply Same.upd <;> try first | with_reducible exact ⟨rfl, rfl⟩ | with_reducible exact Or.inr (Sub.up (by with_reducible assumption) (by decide)) | with_reducible exact Or.inl rfl) | (intro _) | dsimp only | (with_reducible refine Same.ofEq (by with_reducible assumption) ?_) | split)

theorem drainPackets_same {c s0 s} {a0 a1} (h : Same c s0 s) (hc : Sub 1026 c := by first | with_reducible assumption | exact Sub.up (by with_reducible assumption) (by decide)) : Same c s0 (drainPackets a0 a1 s) := by
  induction a1 generalizing s with
  | zero => exact h
  | succ n ih =>
    unfold drainPackets
    dsimp only
    split
    · exact h
    · refine ih (putPacket_same ?_)
      apply Same.upd h <;> first | exact ⟨rfl, rfl⟩ | exact Or.inr (Sub.up hc (by decide)) | exact Or.inl rfl

theorem tick_same {c s0 s} (h : Same c s0 s) (hc : Sub 44 c := by first | with_reducible assumption | exact Sub.up (by with_reducible assumption) (by decide)) : Same c s0 (tick s) := by
  unfold tick
  repeat' (first | with_reducible assumption | with_reducible refine Same.ite ?_ ?_ | with_reducible refine Same.ite2 ?_ ?_ | with_reducible exact Sub.up (by with_reducible assumption) (by decide) | fail_if_no_progress (with_reducible apply Same.upd <;> try first | with_reducible exact ⟨rfl, rfl⟩ | with_reducible exact Or.inr (Sub.up (by with_reducible assumption) (by decide)) | with_reducible exact Or.inl rfl) | (intro _) | dsimp only | (with_reducible refine Same.ofEq (by with_reducible assumption) ?_) | split)

theorem dropLost_same {c s0 s} (h : Same c s0 s) (hc : Sub 512 c := by first | with_reducible assumption | exact Sub.up (by with_reducible assumption) (by decide)) : Same c s0 (dropLost s) := by
  unfold dropLost
  repeat' (first | with_reducible assumption | with_reducible refine Same.ite ?_ ?_ | with_reducible refine Same.ite2 ?_ ?_ | with_reducible exact Sub.up (by with_reducible assumption) (by decide) | fail_if_no_progress (with_reducible apply Same.upd <;> try first | with_reducible exact ⟨rfl, rfl⟩ | with_reducible exact Or.inr (Sub.up (by with_reducible assumption) (by decide)) | with_reducible exact Or.inl rfl) | (intro _) | dsimp only | (with_reducible refine Same.ofEq (by with_reducible assumption) ?_) | split)

theorem trimAtc_same {c s0 s} {a0} (h : Same c s0 s) (hc : Sub 512 c := by first | with_reducible assumption | exact Sub.up (by with_reducible assumption) (by decide)) : Same c s0 (trimAtc a0 s) := by
  unfold trimAtc
  repeat' (first | with_reducible assumption | with_reducible refine Same.ite ?_ ?_ | with_reducible refine Same.ite2 ?_ ?_ | with_reducible exact Sub.up (by with_reducible assumption) (by decide) | fail_if_no_progress (with_reducible apply Same.upd <;> try first | with_reducible exact ⟨rfl, rfl⟩ | with_reducible exact Or.inr (Sub.up (by with_reducible assumption) (by decide)) | with_reducible exact Or.inl rfl) | (intro _) | dsimp only | (with_reducible refine Same.ofEq (by with_reducible assumption) ?_) | split)

theorem trimTlb_same {c s0 s} {a0} (h : Same c s0 s) (hc : Sub 512 c := by first | with_reducible assumption | exact Sub.up (by with_reducible assumption) (by decide)) : Same c s0 (trimTlb a0 s) := by
  unfold trimTlb
  repeat' (first | with_reducible assumption | with_reducible refine Same.ite ?_ ?_ | with_reducible refine Same.ite2 ?_ ?_ | with_reducible exact Sub.up (by with_reducible assumption) (by decide) | fail_if_no_progress (with_reducible apply Same.upd <;> try first | with_reducible exact ⟨rfl, rfl⟩ | with_reducible exact Or.inr (Sub.up (by with_reducible assumption) (by decide)) | with_reducible exact Or.inl rfl) | (intro _) | dsimp only | (with_reducible refine Same.ofEq (by with_reducible assumption) ?_) | split)

theorem fillTlb_same {c s0 s} {a0 a1} (h : Same c s0 s) (hc : Sub 512 c := by first | with_reducible assumption | exact Sub.up (by with_reducible assumption) (by decide)) : Same c s0 (fillTlb a0 a1 s) := by
  unfold fillTlb
  repeat' (first | with_reducible assumption | with_reducible refine Same.ite ?_ ?_ | with_reducible refine Same.ite2 ?_ ?_ | with_reducible apply trimTlb_same | with_reducible apply dropLost_same | with_reducible exact Sub.up (by with_reducible assumption) (by decide) | fail_if_no_progress (with_reducible apply Same.upd <;> try first | with_reducible exact ⟨rfl, rfl⟩ | with_reducible exact Or.inr (Sub.up (by with_reducible assumption) (by decide)) | with_reducible exact Or.inl rfl) | (intro _) | dsimp only | (with_reducible refine Same.ofEq (by with_reducible assumption) ?_) | split)

theorem addXlat_same {c s0 s} {a0 a1} (h : Same c s0 s) (hc : Sub 512 c := by first | with_reducible assumption | exact Sub.up (by with_reducible assumption) (by decide)) : Same c s0 (addXlat a0 a1 s) := by
  unfold addXlat
  repeat' (first | with_reducible assumption | with_reducible refine Same.ite ?_ ?_ | with_reducible refine Same.ite2 ?_ ?_ | with_reducible apply when_same | with_reducible apply trimAtc_same | with_reducible apply fillTlb_same | with_reducible exact Sub.up (by with_reducible assumption) (by decide) | fail_if_no_progress (with_reducible apply Same.upd <;> try first | with_reducible exact ⟨rfl, rfl⟩ | with_reducible exact Or.inr (Sub.up (by with_reducible assumption) (by decide)) | with_reducible exact Or.inl rfl) | (intro _) | dsimp only | (with_reducible refine Same.ofEq (by with_reducible assumption) ?_) | split)

theorem sendAts_same {c s0 s} {a0} (h : Same c s0 s) (hc : Sub 514 c := by first | with_reducible assumption | exact Sub.up (by with_reducible assumption) (by decide)) : Same c s0 (sendAts a0 s) := by
  unfold sendAts
  repeat' (first | with_reducible assumption | with_reducible refine Same.ite ?_ ?_ | with_reducible refine Same.ite2 ?_ ?_ | with_reducible apply emit_same | with_reducible exact Sub.up (by with_reducible assumption) (by decide) | fail_if_no_progress (with_reducible apply Same.upd <;> try first | with_reducible exact ⟨rfl, rfl⟩ | with_reducible exact Or.inr (Sub.up (by with_reducible assumption) (by decide)) | with_reducible exact Or.inl rfl) | (intro _) | dsimp only | (with_reducible refine Same.ofEq (by with_reducible assumption) ?_) | split)

theorem nextAts_same {c s0 s} {a0} (h : Same c s0 s) (hc : Sub 514 c := by first | with_reducible assumption | exact Sub.up (by with_reducible assumption) (by decide)) : Same c s0 (nextAts a0 s) := by
  unfold nextAts
  repeat' (first | with_reducible assumption | with_reducible refine Same.ite ?_ ?_ | with_reducible refine Same.ite2 ?_ ?_ | with_reducible apply sendAts_same | with_reducible exact Sub.up (by with_reducible assumption) (by decide) | fail_if_no_progress (with_reducible apply Same.upd <;> try first | with_reducible exact ⟨rfl, rfl⟩ | with_reducible exact Or.inr (Sub.up (by with_reducible assumption) (by decide)) | with_reducible exact Or.inl rfl) | (intro _) | dsimp only | (with_reducible refine Same.ofEq (by with_reducible assumption) ?_) | split)

theorem startXlate_same {c s0 s} {a0 a1 a2 a3} (h : Same c s0 s) (hc : Sub 514 c := by first | with_reducible assumption | exact Sub.up (by with_reducible assumption) (by decide)) : Same c s0 (startXlate a0 a1 a2 a3 s) := by
  unfold startXlate
  repeat' (first | with_reducible assumption | with_reducible refine Same.ite ?_ ?_ | with_reducible refine Same.ite2 ?_ ?_ | with_reducible apply fillTlb_same | with_reducible apply sendAts_same | with_reducible exact Sub.up (by with_reducible assumption) (by decide) | fail_if_no_progress (with_reducible apply Same.upd <;> try first | with_reducible exact ⟨rfl, rfl⟩ | with_reducible exact Or.inr (Sub.up (by with_reducible assumption) (by decide)) | with_reducible exact Or.inl rfl) | (intro _) | dsimp only | (with_reducible refine Same.ofEq (by with_reducible assumption) ?_) | split)

theorem askXlate_same {c s0 s} {a0 a1 a2 a3} (h : Same c s0 s) (hc : Sub 514 c := by first | with_reducible assumption | exact Sub.up (by with_reducible assumption) (by decide)) : Same c s0 (askXlate a0 a1 a2 a3 s) := by
  unfold askXlate
  repeat' (first | with_reducible assumption | with_reducible refine Same.ite ?_ ?_ | with_reducible refine Same.ite2 ?_ ?_ | with_reducible apply startXlate_same | with_reducible exact Sub.up (by with_reducible assumption) (by decide) | fail_if_no_progress (with_reducible apply Same.upd <;> try first | with_reducible exact ⟨rfl, rfl⟩ | with_reducible exact Or.inr (Sub.up (by with_reducible assumption) (by decide)) | with_reducible exact Or.inl rfl) | (intro _) | dsimp only | (with_reducible refine Same.ofEq (by with_reducible assumption) ?_) | split)

theorem startPages_same {c s0 s} {a0 a1 a2} (h : Same c s0 s) (hc : Sub 514 c := by first | with_reducible assumption | exact Sub.up (by with_reducible assumption) (by decide)) : Same c s0 (startPages a0 a1 a2 s) := by
  unfold startPages
  repeat' (first | with_reducible assumption | with_reducible refine Same.ite ?_ ?_ | with_reducible refine Same.ite2 ?_ ?_ | with_reducible apply forAll_same | with_reducible apply askXlate_same | with_reducible exact Sub.up (by with_reducible assumption) (by decide) | fail_if_no_progress (with_reducible apply Same.upd <;> try first | with_reducible exact ⟨rfl, rfl⟩ | with_reducible exact Or.inr (Sub.up (by with_reducible assumption) (by decide)) | with_reducible exact Or.inl rfl) | (intro _) | dsimp only | (with_reducible refine Same.ofEq (by with_reducible assumption) ?_) | split)

theorem vwrite_same {c s0 s} {a0 a1 a2 a3} (h : Same c s0 s) (hc : Sub 1 c := by first | with_reducible assumption | exact Sub.up (by with_reducible assumption) (by decide)) : Same c s0 (vwrite a0 a1 a2 a3 s) := by
  unfold vwrite
  repeat' (first | with_reducible assumption | with_reducible refine Same.ite ?_ ?_ | with_reducible refine Same.ite2 ?_ ?_ | with_reducible apply forAll_same | with_reducible apply writeBytes_same | with_reducible exact Sub.up (by with_reducible assumption) (by decide) | fail_if_no_progress (with_reducible apply Same.upd <;> try first | with_reducible exact ⟨rfl, rfl⟩ | with_reducible exact Or.inr (Sub.up (by with_reducible assumption) (by decide)) | with_reducible exact Or.inl rfl) | (intro _) | dsimp only | (with_reducible refine Same.ofEq (by with_reducible assumption) ?_) | split)

theorem putReq_same {c s0 s} {a0 a1} (h : Same c s0 s) (hc : Sub 1026 c := by first | with_reducible assumption | exact Sub.up (by with_reducible assumption) (by decide)) : Same c s0 (putReq a0 a1 s) := by
  unfold putReq
  repeat' (first | with_reducible assumption | with_reducible refine Same.ite ?_ ?_ | with_reducible refine Same.ite2 ?_ ?_ | with_reducible apply emit_same | with_reducible apply sendPacket_same | with_reducible exact Sub.up (by with_reducible assumption) (by decide) | fail_if_no_progress (with_reducible apply Same.upd <;> try first | with_reducible exact ⟨rfl, rfl⟩ | with_reducible exact Or.inr (Sub.up (by with_reducible assumption) (by decide)) | with_reducible exact Or.inl rfl) | (intro _) | dsimp only | (with_reducible refine Same.ofEq (by with_reducible assumption) ?_) | split)

theorem recordReq_same {c s0 s} {a0} (h : Same c s0 s) (hc : Sub 1026 c := by first | with_reducible assumption | exact Sub.up (by with_reducible assumption) (by decide)) : Same c s0 (recordReq a0 s) := by
  unfold recordReq
  repeat' (first | with_reducible assumption | with_reducible refine Same.ite ?_ ?_ | with_reducible refine Same.ite2 ?_ ?_ | with_reducible apply putReq_same | with_reducible exact Sub.up (by with_reducible assumption) (by decide) | fail_if_no_progress (with_reducible apply Same.upd <;> try first | with_reducible exact ⟨rfl, rfl⟩ | with_reducible exact Or.inr (Sub.up (by with_reducible assumption) (by decide)) | with_reducible exact Or.inl rfl) | (intro _) | dsimp only | (with_reducible refine Same.ofEq (by with_reducible assumption) ?_) | split)

theorem giveTags_same {c s0 s} (h : Same c s0 s) (hc : Sub 1026 c := by first | with_reducible assumption | exact Sub.up (by with_reducible assumption) (by decide)) : Same c s0 (giveTags s) := by
  unfold giveTags
  repeat' (first | with_reducible assumption | with_reducible refine Same.ite ?_ ?_ | with_reducible refine Same.ite2 ?_ ?_ | with_reducible apply forAll_same | with_reducible apply putReq_same | with_reducible exact Sub.up (by with_reducible assumption) (by decide) | fail_if_no_progress (with_reducible apply Same.upd <;> try first | with_reducible exact ⟨rfl, rfl⟩ | with_reducible exact Or.inr (Sub.up (by with_reducible assumption) (by decide)) | with_reducible exact Or.inl rfl) | (intro _) | dsimp only | (with_reducible refine Same.ofEq (by with_reducible assumption) ?_) | split)

theorem dropReqs_same {c s0 s} {a0} (h : Same c s0 s) (hc : Sub 1026 c := by first | with_reducible assumption | exact Sub.up (by with_reducible assumption) (by decide)) : Same c s0 (dropReqs a0 s) := by
  unfold dropReqs
  repeat' (first | with_reducible assumption | with_reducible refine Same.ite ?_ ?_ | with_reducible refine Same.ite2 ?_ ?_ | with_reducible apply giveTags_same | with_reducible exact Sub.up (by with_reducible assumption) (by decide) | fail_if_no_progress (with_reducible apply Same.upd <;> try first | with_reducible exact ⟨rfl, rfl⟩ | with_reducible exact Or.inr (Sub.up (by with_reducible assumption) (by decide)) | with_reducible exact Or.inl rfl) | (intro _) | dsimp only | (with_reducible refine Same.ofEq (by with_reducible assumption) ?_) | split)

theorem addReq_same {c s0 s} {a0 a1 a2 a3 a4 a5} (h : Same c s0 s) (hc : Sub 1026 c := by first | with_reducible assumption | exact Sub.up (by with_reducible assumption) (by decide)) : Same c s0 (addReq a0 a1 a2 a3 a4 a5 s) := by
  unfold addReq
  repeat' (first | with_reducible assumption | with_reducible refine Same.ite ?_ ?_ | with_reducible refine Same.ite2 ?_ ?_ | with_reducible apply forAll_same | with_reducible apply recordReq_same | with_reducible exact Sub.up (by with_reducible assumption) (by decide) | fail_if_no_progress (with_reducible apply Same.upd <;> try first | with_reducible exact ⟨rfl, rfl⟩ | with_reducible exact Or.inr (Sub.up (by with_reducible assumption) (by decide)) | with_reducible exact Or.inl rfl) | (intro _) | dsimp only | (with_reducible refine Same.ofEq (by with_reducible assumption) ?_) | split)

theorem dropOwner_same {c s0 s} {a0} (h : Same c s0 s) (hc : Sub 1026 c := by first | with_reducible assumption | exact Sub.up (by with_reducible assumption) (by decide)) : Same c s0 (dropOwner a0 s) := by
  unfold dropOwner
  repeat' (first | with_reducible assumption | with_reducible refine Same.ite ?_ ?_ | with_reducible refine Same.ite2 ?_ ?_ | with_reducible apply dropReqs_same | with_reducible exact Sub.up (by with_reducible assumption) (by decide) | fail_if_no_progress (with_reducible apply Same.upd <;> try first | with_reducible exact ⟨rfl, rfl⟩ | with_reducible exact Or.inr (Sub.up (by with_reducible assumption) (by decide)) | with_reducible exact Or.inl rfl) | (intro _) | dsimp only | (with_reducible refine Same.ofEq (by with_reducible assumption) ?_) | split)

theorem sendPeer_same {c s0 s} {a0 a1 a2 a3 a4 a5 a6 a7 a8 a9 a10} (h : Same c s0 s) (hc : Sub 1026 c := by first | with_reducible assumption | exact Sub.up (by with_reducible assumption) (by decide)) : Same c s0 (sendPeer a0 a1 a2 a3 a4 a5 a6 a7 a8 a9 a10 s) := by
  unfold sendPeer
  repeat' (first | with_reducible assumption | with_reducible refine Same.ite ?_ ?_ | with_reducible refine Same.ite2 ?_ ?_ | with_reducible apply recordReq_same | with_reducible exact Sub.up (by with_reducible assumption) (by decide) | fail_if_no_progress (with_reducible apply Same.upd <;> try first | with_reducible exact ⟨rfl, rfl⟩ | with_reducible exact Or.inr (Sub.up (by with_reducible assumption) (by decide)) | with_reducible exact Or.inl rfl) | (intro _) | dsimp only | (with_reducible refine Same.ofEq (by with_reducible assumption) ?_) | split)

theorem fromHost_same {c s0 s} {a0 a1} (h : Same c s0 s) (a1_ok : ∀ t, Same c s0 t → Same c s0 (a1 t)) : Same c s0 (fromHost a0 a1 s) := by
  unfold fromHost
  repeat' (first | with_reducible assumption | with_reducible refine Same.ite ?_ ?_ | with_reducible refine Same.ite2 ?_ ?_ | with_reducible apply a1_ok | with_reducible exact Sub.up (by with_reducible assumption) (by decide) | fail_if_no_progress (with_reducible apply Same.upd <;> try first | with_reducible exact ⟨rfl, rfl⟩ | with_reducible exact Or.inr (Sub.up (by with_reducible assumption) (by decide)) | with_reducible exact Or.inl rfl) | (intro _) | dsimp only | (with_reducible refine Same.ofEq (by with_reducible assumption) ?_) | split)

theorem freeWatch_same {c s0 s} {a0} (h : Same c s0 s) (hc : Sub 1026 c := by first | with_reducible assumption | exact Sub.up (by with_reducible assumption) (by decide)) : Same c s0 (freeWatch a0 s) := by
  unfold freeWatch
  repeat' (first | with_reducible assumption | with_reducible refine Same.ite ?_ ?_ | with_reducible refine Same.ite2 ?_ ?_ | with_reducible apply modAcd_same | with_reducible apply when_same | with_reducible apply sendAcd_same | with_reducible exact Sub.up (by with_reducible assumption) (by decide) | fail_if_no_progress (with_reducible apply Same.upd <;> try first | with_reducible exact ⟨rfl, rfl⟩ | with_reducible exact Or.inr (Sub.up (by with_reducible assumption) (by decide)) | with_reducible exact Or.inl rfl) | (intro _) | dsimp only | (with_reducible refine Same.ofEq (by with_reducible assumption) ?_) | split)

theorem loseResv_same {c s0 s} {a0} (h : Same c s0 s) (hc : Sub 1042 c := by first | with_reducible assumption | exact Sub.up (by with_reducible assumption) (by decide)) : Same c s0 (loseResv a0 s) := by
  unfold loseResv
  repeat' (first | with_reducible assumption | with_reducible refine Same.ite ?_ ?_ | with_reducible refine Same.ite2 ?_ ?_ | with_reducible apply freeWatch_same | with_reducible apply foldl_same | with_reducible apply foldl2_same | with_reducible exact Sub.up (by with_reducible assumption) (by decide) | fail_if_no_progress (with_reducible apply Same.upd <;> try first | with_reducible exact ⟨rfl, rfl⟩ | with_reducible exact Or.inr (Sub.up (by with_reducible assumption) (by decide)) | with_reducible exact Or.inl rfl) | (intro _) | dsimp only | (with_reducible refine Same.ofEq (by with_reducible assumption) ?_) | split)

theorem breakResv_same {c s0 s} {a0 a1} (h : Same c s0 s) (hc : Sub 1042 c := by first | with_reducible assumption | exact Sub.up (by with_reducible assumption) (by decide)) : Same c s0 (breakResv a0 a1 s) := by
  unfold breakResv
  repeat' (first | with_reducible assumption | with_reducible refine Same.ite ?_ ?_ | with_reducible refine Same.ite2 ?_ ?_ | with_reducible apply loseResv_same | with_reducible exact Sub.up (by with_reducible assumption) (by decide) | fail_if_no_progress (with_reducible apply Same.upd <;> try first | with_reducible exact ⟨rfl, rfl⟩ | with_reducible exact Or.inr (Sub.up (by with_reducible assumption) (by decide)) | with_reducible exact Or.inl rfl) | (intro _) | dsimp only | (with_reducible refine Same.ofEq (by with_reducible assumption) ?_) | split)

theorem touchLines_same {c s0 s} {a0 a1} (h : Same c s0 s) (hc : Sub 2048 c := by first | with_reducible assumption | exact Sub.up (by with_reducible assumption) (by decide)) : Same c s0 (touchLines a0 a1 s) := by
  unfold touchLines
  repeat' (first | with_reducible assumption | with_reducible refine Same.ite ?_ ?_ | with_reducible refine Same.ite2 ?_ ?_ | with_reducible exact Sub.up (by with_reducible assumption) (by decide) | fail_if_no_progress (with_reducible apply Same.upd <;> try first | with_reducible exact ⟨rfl, rfl⟩ | with_reducible exact Or.inr (Sub.up (by with_reducible assumption) (by decide)) | with_reducible exact Or.inl rfl) | (intro _) | dsimp only | (with_reducible refine Same.ofEq (by with_reducible assumption) ?_) | split)

theorem storeAt_same {c s0 s} {a0 a1} (h : Same c s0 s) (hc : Sub 3091 c := by first | with_reducible assumption | exact Sub.up (by with_reducible assumption) (by decide)) : Same c s0 (storeAt a0 a1 s) := by
  unfold storeAt
  repeat' (first | with_reducible assumption | with_reducible refine Same.ite ?_ ?_ | with_reducible refine Same.ite2 ?_ ?_ | with_reducible apply writeBytes_same | with_reducible apply breakResv_same | with_reducible apply touchLines_same | with_reducible exact Sub.up (by with_reducible assumption) (by decide) | fail_if_no_progress (with_reducible apply Same.upd <;> try first | with_reducible exact ⟨rfl, rfl⟩ | with_reducible exact Or.inr (Sub.up (by with_reducible assumption) (by decide)) | with_reducible exact Or.inl rfl) | (intro _) | dsimp only | (with_reducible refine Same.ofEq (by with_reducible assumption) ?_) | split)

theorem askHosts_same {c s0 s} {a0 a1} (h : Same c s0 s) (hc : Sub 2050 c := by first | with_reducible assumption | exact Sub.up (by with_reducible assumption) (by decide)) : Same c s0 (askHosts a0 a1 s) := by
  unfold askHosts
  repeat' (first | with_reducible assumption | with_reducible refine Same.ite ?_ ?_ | with_reducible refine Same.ite2 ?_ ?_ | with_reducible apply when_same | with_reducible apply emit_same | with_reducible apply foldl_same | with_reducible apply foldl2_same | with_reducible exact Sub.up (by with_reducible assumption) (by decide) | fail_if_no_progress (with_reducible apply Same.upd <;> try first | with_reducible exact ⟨rfl, rfl⟩ | with_reducible exact Or.inr (Sub.up (by with_reducible assumption) (by decide)) | with_reducible exact Or.inl rfl) | (intro _) | dsimp only | (with_reducible refine Same.ofEq (by with_reducible assumption) ?_) | split)

theorem evictLine_same {c s0 s} {a0} (h : Same c s0 s) (hc : Sub 2050 c := by first | with_reducible assumption | exact Sub.up (by with_reducible assumption) (by decide)) : Same c s0 (evictLine a0 s) := by
  unfold evictLine
  repeat' (first | with_reducible assumption | with_reducible refine Same.ite ?_ ?_ | with_reducible refine Same.ite2 ?_ ?_ | with_reducible apply emit_same | with_reducible exact Sub.up (by with_reducible assumption) (by decide) | fail_if_no_progress (with_reducible apply Same.upd <;> try first | with_reducible exact ⟨rfl, rfl⟩ | with_reducible exact Or.inr (Sub.up (by with_reducible assumption) (by decide)) | with_reducible exact Or.inl rfl) | (intro _) | dsimp only | (with_reducible refine Same.ofEq (by with_reducible assumption) ?_) | split)

theorem makeRoom_same {c s0 s} {a0} (h : Same c s0 s) (hc : Sub 2050 c := by first | with_reducible assumption | exact Sub.up (by with_reducible assumption) (by decide)) : Same c s0 (makeRoom a0 s).2 := by
  unfold makeRoom
  repeat' (first | with_reducible assumption | with_reducible refine Same.ite ?_ ?_ | with_reducible refine Same.ite2 ?_ ?_ | with_reducible apply evictLine_same | with_reducible exact Sub.up (by with_reducible assumption) (by decide) | fail_if_no_progress (with_reducible apply Same.upd <;> try first | with_reducible exact ⟨rfl, rfl⟩ | with_reducible exact Or.inr (Sub.up (by with_reducible assumption) (by decide)) | with_reducible exact Or.inl rfl) | (intro _) | dsimp only | (with_reducible refine Same.ofEq (by with_reducible assumption) ?_) | split)

theorem fillLine_same {c s0 s} {a0 a1 a2} (h : Same c s0 s) (hc : Sub 2050 c := by first | with_reducible assumption | exact Sub.up (by with_reducible assumption) (by decide)) : Same c s0 (fillLine a0 a1 a2 s) := by
  unfold fillLine
  repeat' (first | with_reducible assumption | with_reducible refine Same.ite ?_ ?_ | with_reducible refine Same.ite2 ?_ ?_ | with_reducible apply makeRoom_same | with_reducible apply emit_same | with_reducible exact Sub.up (by with_reducible assumption) (by decide) | fail_if_no_progress (with_reducible apply Same.upd <;> try first | with_reducible exact ⟨rfl, rfl⟩ | with_reducible exact Or.inr (Sub.up (by with_reducible assumption) (by decide)) | with_reducible exact Or.inl rfl) | (intro _) | dsimp only | (with_reducible refine Same.ofEq (by with_reducible assumption) ?_) | split)

theorem askLines_same {c s0 s} {a0} (h : Same c s0 s) (hc : Sub 2050 c := by first | with_reducible assumption | exact Sub.up (by with_reducible assumption) (by decide)) : Same c s0 (askLines a0 s) := by
  unfold askLines
  repeat' (first | with_reducible assumption | with_reducible refine Same.ite ?_ ?_ | with_reducible refine Same.ite2 ?_ ?_ | with_reducible apply fillLine_same | with_reducible apply foldl_same | with_reducible apply foldl2_same | with_reducible exact Sub.up (by with_reducible assumption) (by decide) | fail_if_no_progress (with_reducible apply Same.upd <;> try first | with_reducible exact ⟨rfl, rfl⟩ | with_reducible exact Or.inr (Sub.up (by with_reducible assumption) (by decide)) | with_reducible exact Or.inl rfl) | (intro _) | dsimp only | (with_reducible refine Same.ofEq (by with_reducible assumption) ?_) | split)

theorem itoM_same {c s0 s} {a0 a1} (h : Same c s0 s) (hc : Sub 2050 c := by first | with_reducible assumption | exact Sub.up (by with_reducible assumption) (by decide)) : Same c s0 (itoM a0 a1 s) := by
  unfold itoM
  repeat' (first | with_reducible assumption | with_reducible refine Same.ite ?_ ?_ | with_reducible refine Same.ite2 ?_ ?_ | with_reducible apply emit_same | with_reducible apply foldl_same | with_reducible apply foldl2_same | with_reducible exact Sub.up (by with_reducible assumption) (by decide) | fail_if_no_progress (with_reducible apply Same.upd <;> try first | with_reducible exact ⟨rfl, rfl⟩ | with_reducible exact Or.inr (Sub.up (by with_reducible assumption) (by decide)) | with_reducible exact Or.inl rfl) | (intro _) | dsimp only | (with_reducible refine Same.ofEq (by with_reducible assumption) ?_) | split)

theorem hostPut_same {c s0 s} {a0 a1 a2 a3} (h : Same c s0 s) (hc : Sub 2 c := by first | with_reducible assumption | exact Sub.up (by with_reducible assumption) (by decide)) : Same c s0 (hostPut a0 a1 a2 a3 s) := by
  unfold hostPut
  repeat' (first | with_reducible assumption | with_reducible refine Same.ite ?_ ?_ | with_reducible refine Same.ite2 ?_ ?_ | with_reducible apply forAll_same | with_reducible apply emit_same | with_reducible exact Sub.up (by with_reducible assumption) (by decide) | fail_if_no_progress (with_reducible apply Same.upd <;> try first | with_reducible exact ⟨rfl, rfl⟩ | with_reducible exact Or.inr (Sub.up (by with_reducible assumption) (by decide)) | with_reducible exact Or.inl rfl) | (intro _) | dsimp only | (with_reducible refine Same.ofEq (by with_reducible assumption) ?_) | split)

theorem ownedGate_same {c s0 s} {a0 a1 a2 a3 a4} (h : Same c s0 s) (hc : Sub 2050 c := by first | with_reducible assumption | exact Sub.up (by with_reducible assumption) (by decide)) : Same c s0 (ownedGate a0 a1 a2 a3 a4 s).2 := by
  unfold ownedGate
  repeat' (first | with_reducible assumption | with_reducible refine Same.ite ?_ ?_ | with_reducible refine Same.ite2 ?_ ?_ | with_reducible apply askHosts_same | with_reducible apply askLines_same | with_reducible exact Sub.up (by with_reducible assumption) (by decide) | fail_if_no_progress (with_reducible apply Same.upd <;> try first | with_reducible exact ⟨rfl, rfl⟩ | with_reducible exact Or.inr (Sub.up (by with_reducible assumption) (by decide)) | with_reducible exact Or.inl rfl) | (intro _) | dsimp only | (with_reducible refine Same.ofEq (by with_reducible assumption) ?_) | split)

theorem ctrlWrite_same {c s0 s} {a0 a1 a2 a3 a4 a5} (h : Same c s0 s) (hc : Sub 3091 c := by first | with_reducible assumption | exact Sub.up (by with_reducible assumption) (by decide)) : Same c s0 (ctrlWrite a0 a1 a2 a3 a4 a5 s) := by
  unfold ctrlWrite
  repeat' (first | with_reducible assumption | with_reducible refine Same.ite ?_ ?_ | with_reducible refine Same.ite2 ?_ ?_ | with_reducible apply storeAt_same | with_reducible apply hostPut_same | with_reducible apply sendPeer_same | with_reducible apply addReq_same | with_reducible exact Sub.up (by with_reducible assumption) (by decide) | fail_if_no_progress (with_reducible apply Same.upd <;> try first | with_reducible exact ⟨rfl, rfl⟩ | with_reducible exact Or.inr (Sub.up (by with_reducible assumption) (by decide)) | with_reducible exact Or.inl rfl) | (intro _) | dsimp only | (with_reducible refine Same.ofEq (by with_reducible assumption) ?_) | split)

theorem sendMsix_same {c s0 s} {a0 a1} (h : Same c s0 s) (hc : Sub 34 c := by first | with_reducible assumption | exact Sub.up (by with_reducible assumption) (by decide)) : Same c s0 (sendMsix a0 a1 s) := by
  unfold sendMsix
  repeat' (first | with_reducible assumption | with_reducible refine Same.ite ?_ ?_ | with_reducible refine Same.ite2 ?_ ?_ | with_reducible apply emit_same | with_reducible apply modFnS_same | with_reducible exact Sub.up (by with_reducible assumption) (by decide) | fail_if_no_progress (with_reducible apply Same.upd <;> try first | with_reducible exact ⟨rfl, rfl⟩ | with_reducible exact Or.inr (Sub.up (by with_reducible assumption) (by decide)) | with_reducible exact Or.inl rfl) | (intro _) | dsimp only | (with_reducible refine Same.ofEq (by with_reducible assumption) ?_) | split)

theorem signalEvq_same {c s0 s} {a0} (h : Same c s0 s) (hc : Sub 34 c := by first | with_reducible assumption | exact Sub.up (by with_reducible assumption) (by decide)) : Same c s0 (signalEvq a0 s) := by
  unfold signalEvq
  repeat' (first | with_reducible assumption | with_reducible refine Same.ite ?_ ?_ | with_reducible refine Same.ite2 ?_ ?_ | with_reducible apply modEvq_same | with_reducible apply modFnS_same | with_reducible apply when_same | with_reducible apply emit_same | with_reducible apply foldl_same | with_reducible apply foldl2_same | with_reducible exact Sub.up (by with_reducible assumption) (by decide) | fail_if_no_progress (with_reducible apply Same.upd <;> try first | with_reducible exact ⟨rfl, rfl⟩ | with_reducible exact Or.inr (Sub.up (by with_reducible assumption) (by decide)) | with_reducible exact Or.inl rfl) | (intro _) | dsimp only | (with_reducible refine Same.ofEq (by with_reducible assumption) ?_) | split)

theorem checkSignal_same {c s0 s} {a0} (h : Same c s0 s) (hc : Sub 34 c := by first | with_reducible assumption | exact Sub.up (by with_reducible assumption) (by decide)) : Same c s0 (checkSignal a0 s) := by
  unfold checkSignal
  repeat' (first | with_reducible assumption | with_reducible refine Same.ite ?_ ?_ | with_reducible refine Same.ite2 ?_ ?_ | with_reducible apply signalEvq_same | with_reducible exact Sub.up (by with_reducible assumption) (by decide) | fail_if_no_progress (with_reducible apply Same.upd <;> try first | with_reducible exact ⟨rfl, rfl⟩ | with_reducible exact Or.inr (Sub.up (by with_reducible assumption) (by decide)) | with_reducible exact Or.inl rfl) | (intro _) | dsimp only | (with_reducible refine Same.ofEq (by with_reducible assumption) ?_) | split)

theorem countEvent_same {c s0 s} {a0} (h : Same c s0 s) (hc : Sub 34 c := by first | with_reducible assumption | exact Sub.up (by with_reducible assumption) (by decide)) : Same c s0 (countEvent a0 s) := by
  unfold countEvent
  repeat' (first | with_reducible assumption | with_reducible refine Same.ite ?_ ?_ | with_reducible refine Same.ite2 ?_ ?_ | with_reducible apply modEvq_same | with_reducible apply checkSignal_same | with_reducible exact Sub.up (by with_reducible assumption) (by decide) | fail_if_no_progress (with_reducible apply Same.upd <;> try first | with_reducible exact ⟨rfl, rfl⟩ | with_reducible exact Or.inr (Sub.up (by with_reducible assumption) (by decide)) | with_reducible exact Or.inl rfl) | (intro _) | dsimp only | (with_reducible refine Same.ofEq (by with_reducible assumption) ?_) | split)

theorem unclaim_same {c s0 s} {a0} (h : Same c s0 s) (hc : Sub 32 c := by first | with_reducible assumption | exact Sub.up (by with_reducible assumption) (by decide)) : Same c s0 (unclaim a0 s) := by
  unfold unclaim
  repeat' (first | with_reducible assumption | with_reducible refine Same.ite ?_ ?_ | with_reducible refine Same.ite2 ?_ ?_ | with_reducible apply modFnS_same | with_reducible exact Sub.up (by with_reducible assumption) (by decide) | fail_if_no_progress (with_reducible apply Same.upd <;> try first | with_reducible exact ⟨rfl, rfl⟩ | with_reducible exact Or.inr (Sub.up (by with_reducible assumption) (by decide)) | with_reducible exact Or.inl rfl) | (intro _) | dsimp only | (with_reducible refine Same.ofEq (by with_reducible assumption) ?_) | split)

theorem dropRec_same {c s0 s} {a0} (h : Same c s0 s) (hc : Sub 32 c := by first | with_reducible assumption | exact Sub.up (by with_reducible assumption) (by decide)) : Same c s0 (dropRec a0 s) := by
  unfold dropRec
  repeat' (first | with_reducible assumption | with_reducible refine Same.ite ?_ ?_ | with_reducible refine Same.ite2 ?_ ?_ | with_reducible apply modEvq_same | with_reducible exact Sub.up (by with_reducible assumption) (by decide) | fail_if_no_progress (with_reducible apply Same.upd <;> try first | with_reducible exact ⟨rfl, rfl⟩ | with_reducible exact Or.inr (Sub.up (by with_reducible assumption) (by decide)) | with_reducible exact Or.inl rfl) | (intro _) | dsimp only | (with_reducible refine Same.ofEq (by with_reducible assumption) ?_) | split)

theorem putRec_same {c s0 s} {a0 a1 a2} (h : Same c s0 s) (hc : Sub 3123 c := by first | with_reducible assumption | exact Sub.up (by with_reducible assumption) (by decide)) : Same c s0 (putRec a0 a1 a2 s) := by
  unfold putRec
  repeat' (first | with_reducible assumption | with_reducible refine Same.ite ?_ ?_ | with_reducible refine Same.ite2 ?_ ?_ | with_reducible apply ctrlWrite_same | with_reducible apply modEvq_same | with_reducible exact Sub.up (by with_reducible assumption) (by decide) | fail_if_no_progress (with_reducible apply Same.upd <;> try first | with_reducible exact ⟨rfl, rfl⟩ | with_reducible exact Or.inr (Sub.up (by with_reducible assumption) (by decide)) | with_reducible exact Or.inl rfl) | (intro _) | dsimp only | (with_reducible refine Same.ofEq (by with_reducible assumption) ?_) | split)

theorem deliverSrc_same {c s0 s} {a0} (h : Same c s0 s) (hc : Sub 34 c := by first | with_reducible assumption | exact Sub.up (by with_reducible assumption) (by decide)) : Same c s0 (deliverSrc a0 s) := by
  unfold deliverSrc
  repeat' (first | with_reducible assumption | with_reducible refine Same.ite ?_ ?_ | with_reducible refine Same.ite2 ?_ ?_ | with_reducible apply modSrc_same | with_reducible apply countEvent_same | with_reducible exact Sub.up (by with_reducible assumption) (by decide) | fail_if_no_progress (with_reducible apply Same.upd <;> try first | with_reducible exact ⟨rfl, rfl⟩ | with_reducible exact Or.inr (Sub.up (by with_reducible assumption) (by decide)) | with_reducible exact Or.inl rfl) | (intro _) | dsimp only | (with_reducible refine Same.ofEq (by with_reducible assumption) ?_) | split)

theorem recordEvent_same {c s0 s} {a0} (h : Same c s0 s) (hc : Sub 34 c := by first | with_reducible assumption | exact Sub.up (by with_reducible assumption) (by decide)) : Same c s0 (recordEvent a0 s) := by
  unfold recordEvent
  repeat' (first | with_reducible assumption | with_reducible refine Same.ite ?_ ?_ | with_reducible refine Same.ite2 ?_ ?_ | with_reducible apply modSrc_same | with_reducible apply deliverSrc_same | with_reducible exact Sub.up (by with_reducible assumption) (by decide) | fail_if_no_progress (with_reducible apply Same.upd <;> try first | with_reducible exact ⟨rfl, rfl⟩ | with_reducible exact Or.inr (Sub.up (by with_reducible assumption) (by decide)) | with_reducible exact Or.inl rfl) | (intro _) | dsimp only | (with_reducible refine Same.ofEq (by with_reducible assumption) ?_) | split)

theorem pulse_same {c s0 s} {a0 a1} (h : Same c s0 s) (hc : Sub 34 c := by first | with_reducible assumption | exact Sub.up (by with_reducible assumption) (by decide)) : Same c s0 (pulse a0 a1 s) := by
  unfold pulse
  repeat' (first | with_reducible assumption | with_reducible refine Same.ite ?_ ?_ | with_reducible refine Same.ite2 ?_ ?_ | with_reducible apply modSrc_same | with_reducible apply recordEvent_same | with_reducible exact Sub.up (by with_reducible assumption) (by decide) | fail_if_no_progress (with_reducible apply Same.upd <;> try first | with_reducible exact ⟨rfl, rfl⟩ | with_reducible exact Or.inr (Sub.up (by with_reducible assumption) (by decide)) | with_reducible exact Or.inl rfl) | (intro _) | dsimp only | (with_reducible refine Same.ofEq (by with_reducible assumption) ?_) | split)

theorem pulseOf_same {c s0 s} {a0 a1} (h : Same c s0 s) (hc : Sub 34 c := by first | with_reducible assumption | exact Sub.up (by with_reducible assumption) (by decide)) : Same c s0 (pulseOf a0 a1 s) := by
  unfold pulseOf
  repeat' (first | with_reducible assumption | with_reducible refine Same.ite ?_ ?_ | with_reducible refine Same.ite2 ?_ ?_ | with_reducible apply pulse_same | with_reducible exact Sub.up (by with_reducible assumption) (by decide) | fail_if_no_progress (with_reducible apply Same.upd <;> try first | with_reducible exact ⟨rfl, rfl⟩ | with_reducible exact Or.inr (Sub.up (by with_reducible assumption) (by decide)) | with_reducible exact Or.inl rfl) | (intro _) | dsimp only | (with_reducible refine Same.ofEq (by with_reducible assumption) ?_) | split)

theorem setVatBit_same {c s0 s} {a0 a1 a2 a3} (h : Same c s0 s) (hc : Sub 16 c := by first | with_reducible assumption | exact Sub.up (by with_reducible assumption) (by decide)) : Same c s0 (setVatBit a0 a1 a2 a3 s) := by
  unfold setVatBit
  repeat' (first | with_reducible assumption | with_reducible refine Same.ite ?_ ?_ | with_reducible refine Same.ite2 ?_ ?_ | with_reducible apply modVat_same | with_reducible exact Sub.up (by with_reducible assumption) (by decide) | fail_if_no_progress (with_reducible apply Same.upd <;> try first | with_reducible exact ⟨rfl, rfl⟩ | with_reducible exact Or.inr (Sub.up (by with_reducible assumption) (by decide)) | with_reducible exact Or.inl rfl) | (intro _) | dsimp only | (with_reducible refine Same.ofEq (by with_reducible assumption) ?_) | split)

theorem postN_same {c s0 s} {a0 a1 a2} (h : Same c s0 s) (hc : Sub 3635 c := by first | with_reducible assumption | exact Sub.up (by with_reducible assumption) (by decide)) : Same c s0 (postN a0 a1 a2 s) := by
  induction a0 generalizing s a1 a2 with
  | zero => exact h
  | succ n ih =>
    have held : ∀ {t}, Same c s0 t → Same c s0 { t with ev.heldRecs := t.ev.heldRecs ++ [(a1, a2)] } := by
      intro t ht
      apply Same.upd ht <;> first | exact ⟨rfl, rfl⟩ | exact Or.inr (Sub.up hc (by decide)) | exact Or.inl rfl
    unfold postN
    dsimp only
    split
    · exact h
    split
    · exact pulseOf_same (dropRec_same h)
    split
    · exact startXlate_same (held h)
    · split
      · exact pulseOf_same (dropRec_same h)
      · have g : ∀ {b t} {k : Nat → Bool × State}, (∀ v, Same c s0 (k v).2) → (s.evq a1).vat.elim (true, s) k = (b, t) →
            Same c s0 t := by
          intro b t k hk e
          cases hv : (s.evq a1).vat with
          | none => rw [hv] at e; cases e; exact h
          | some v => rw [hv] at e; exact Same.ofEq e (hk v)
        split <;> rename_i e
        · exact pulseOf_same (putRec_same (g (fun v => ownedGate_same h) e))
        · exact held (g (fun v => ownedGate_same h) e)
    · split
      · exact ih (setVatBit_same (pulseOf_same (dropRec_same h)))
      · exact setVatBit_same (pulseOf_same (dropRec_same h))

theorem postRec_same {c s0 s} {a0 a1} (h : Same c s0 s) (hc : Sub 3635 c := by first | with_reducible assumption | exact Sub.up (by with_reducible assumption) (by decide)) : Same c s0 (postRec a0 a1 s) := by
  unfold postRec
  repeat' (first | with_reducible assumption | with_reducible refine Same.ite ?_ ?_ | with_reducible refine Same.ite2 ?_ ?_ | with_reducible apply postN_same | with_reducible exact Sub.up (by with_reducible assumption) (by decide) | fail_if_no_progress (with_reducible apply Same.upd <;> try first | with_reducible exact ⟨rfl, rfl⟩ | with_reducible exact Or.inr (Sub.up (by with_reducible assumption) (by decide)) | with_reducible exact Or.inl rfl) | (intro _) | dsimp only | (with_reducible refine Same.ofEq (by with_reducible assumption) ?_) | split)

theorem flushRecs_same {c s0 s} (h : Same c s0 s) (hc : Sub 3635 c := by first | with_reducible assumption | exact Sub.up (by with_reducible assumption) (by decide)) : Same c s0 (flushRecs s) := by
  unfold flushRecs
  repeat' (first | with_reducible assumption | with_reducible refine Same.ite ?_ ?_ | with_reducible refine Same.ite2 ?_ ?_ | with_reducible apply forAll_same | with_reducible apply postRec_same | with_reducible exact Sub.up (by with_reducible assumption) (by decide) | fail_if_no_progress (with_reducible apply Same.upd <;> try first | with_reducible exact ⟨rfl, rfl⟩ | with_reducible exact Or.inr (Sub.up (by with_reducible assumption) (by decide)) | with_reducible exact Or.inl rfl) | (intro _) | dsimp only | (with_reducible refine Same.ofEq (by with_reducible assumption) ?_) | split)

theorem vatFault_same {c s0 s} {a0 a1 a2 a3} (h : Same c s0 s) (hc : Sub 3635 c := by first | with_reducible assumption | exact Sub.up (by with_reducible assumption) (by decide)) : Same c s0 (vatFault a0 a1 a2 a3 s) := by
  unfold vatFault
  repeat' (first | with_reducible assumption | with_reducible refine Same.ite ?_ ?_ | with_reducible refine Same.ite2 ?_ ?_ | with_reducible apply setVatBit_same | with_reducible apply postRec_same | with_reducible exact Sub.up (by with_reducible assumption) (by decide) | fail_if_no_progress (with_reducible apply Same.upd <;> try first | with_reducible exact ⟨rfl, rfl⟩ | with_reducible exact Or.inr (Sub.up (by with_reducible assumption) (by decide)) | with_reducible exact Or.inl rfl) | (intro _) | dsimp only | (with_reducible refine Same.ofEq (by with_reducible assumption) ?_) | split)

theorem postYield_same {c s0 s} {a0 a1 a2 a3 a4 a5 a6} (h : Same c s0 s) (hc : Sub 11827 c := by first | with_reducible assumption | exact Sub.up (by with_reducible assumption) (by decide)) : Same c s0 (postYield a0 a1 a2 a3 a4 a5 a6 s) := by
  unfold postYield
  repeat' (first | with_reducible assumption | with_reducible refine Same.ite ?_ ?_ | with_reducible refine Same.ite2 ?_ ?_ | with_reducible apply modWheel_same | with_reducible apply when_same | with_reducible apply postRec_same | with_reducible exact Sub.up (by with_reducible assumption) (by decide) | fail_if_no_progress (with_reducible apply Same.upd <;> try first | with_reducible exact ⟨rfl, rfl⟩ | with_reducible exact Or.inr (Sub.up (by with_reducible assumption) (by decide)) | with_reducible exact Or.inl rfl) | (intro _) | dsimp only | (with_reducible refine Same.ofEq (by with_reducible assumption) ?_) | split)

theorem yieldWheel_same {c s0 s} {a0 a1 a2 a3 a4 a5} (h : Same c s0 s) (hc : Sub 11827 c := by first | with_reducible assumption | exact Sub.up (by with_reducible assumption) (by decide)) : Same c s0 (yieldWheel a0 a1 a2 a3 a4 a5 s) := by
  unfold yieldWheel
  repeat' (first | with_reducible assumption | with_reducible refine Same.ite ?_ ?_ | with_reducible refine Same.ite2 ?_ ?_ | with_reducible apply postYield_same | with_reducible exact Sub.up (by with_reducible assumption) (by decide) | fail_if_no_progress (with_reducible apply Same.upd <;> try first | with_reducible exact ⟨rfl, rfl⟩ | with_reducible exact Or.inr (Sub.up (by with_reducible assumption) (by decide)) | with_reducible exact Or.inl rfl) | (intro _) | dsimp only | (with_reducible refine Same.ofEq (by with_reducible assumption) ?_) | split)

theorem deliverSummary_same {c s0 s} {a0} (h : Same c s0 s) (hc : Sub 3635 c := by first | with_reducible assumption | exact Sub.up (by with_reducible assumption) (by decide)) : Same c s0 (deliverSummary a0 s) := by
  unfold deliverSummary
  repeat' (first | with_reducible assumption | with_reducible refine Same.ite ?_ ?_ | with_reducible refine Same.ite2 ?_ ?_ | with_reducible apply modSrc_same | with_reducible apply postRec_same | with_reducible apply countEvent_same | with_reducible exact Sub.up (by with_reducible assumption) (by decide) | fail_if_no_progress (with_reducible apply Same.upd <;> try first | with_reducible exact ⟨rfl, rfl⟩ | with_reducible exact Or.inr (Sub.up (by with_reducible assumption) (by decide)) | with_reducible exact Or.inl rfl) | (intro _) | dsimp only | (with_reducible refine Same.ofEq (by with_reducible assumption) ?_) | split)

theorem summaryEvent_same {c s0 s} {a0} (h : Same c s0 s) (hc : Sub 3635 c := by first | with_reducible assumption | exact Sub.up (by with_reducible assumption) (by decide)) : Same c s0 (summaryEvent a0 s) := by
  unfold summaryEvent
  repeat' (first | with_reducible assumption | with_reducible refine Same.ite ?_ ?_ | with_reducible refine Same.ite2 ?_ ?_ | with_reducible apply modSrc_same | with_reducible apply deliverSummary_same | with_reducible exact Sub.up (by with_reducible assumption) (by decide) | fail_if_no_progress (with_reducible apply Same.upd <;> try first | with_reducible exact ⟨rfl, rfl⟩ | with_reducible exact Or.inr (Sub.up (by with_reducible assumption) (by decide)) | with_reducible exact Or.inl rfl) | (intro _) | dsimp only | (with_reducible refine Same.ofEq (by with_reducible assumption) ?_) | split)

theorem summaryInput_same {c s0 s} {a0} (h : Same c s0 s) (hc : Sub 3635 c := by first | with_reducible assumption | exact Sub.up (by with_reducible assumption) (by decide)) : Same c s0 (summaryInput a0 s) := by
  unfold summaryInput
  repeat' (first | with_reducible assumption | with_reducible refine Same.ite ?_ ?_ | with_reducible refine Same.ite2 ?_ ?_ | with_reducible apply modSrc_same | with_reducible apply summaryEvent_same | with_reducible exact Sub.up (by with_reducible assumption) (by decide) | fail_if_no_progress (with_reducible apply Same.upd <;> try first | with_reducible exact ⟨rfl, rfl⟩ | with_reducible exact Or.inr (Sub.up (by with_reducible assumption) (by decide)) | with_reducible exact Or.inl rfl) | (intro _) | dsimp only | (with_reducible refine Same.ofEq (by with_reducible assumption) ?_) | split)

theorem srcEvent_same {c s0 s} {a0} (h : Same c s0 s) (hc : Sub 3635 c := by first | with_reducible assumption | exact Sub.up (by with_reducible assumption) (by decide)) : Same c s0 (srcEvent a0 s) := by
  unfold srcEvent
  repeat' (first | with_reducible assumption | with_reducible refine Same.ite ?_ ?_ | with_reducible refine Same.ite2 ?_ ?_ | with_reducible apply summaryEvent_same | with_reducible apply recordEvent_same | with_reducible exact Sub.up (by with_reducible assumption) (by decide) | fail_if_no_progress (with_reducible apply Same.upd <;> try first | with_reducible exact ⟨rfl, rfl⟩ | with_reducible exact Or.inr (Sub.up (by with_reducible assumption) (by decide)) | with_reducible exact Or.inl rfl) | (intro _) | dsimp only | (with_reducible refine Same.ofEq (by with_reducible assumption) ?_) | split)

theorem deliverPending_same {c s0 s} {a0} (h : Same c s0 s) (hc : Sub 3635 c := by first | with_reducible assumption | exact Sub.up (by with_reducible assumption) (by decide)) : Same c s0 (deliverPending a0 s) := by
  unfold deliverPending
  repeat' (first | with_reducible assumption | with_reducible refine Same.ite ?_ ?_ | with_reducible refine Same.ite2 ?_ ?_ | with_reducible apply deliverSummary_same | with_reducible apply deliverSrc_same | with_reducible exact Sub.up (by with_reducible assumption) (by decide) | fail_if_no_progress (with_reducible apply Same.upd <;> try first | with_reducible exact ⟨rfl, rfl⟩ | with_reducible exact Or.inr (Sub.up (by with_reducible assumption) (by decide)) | with_reducible exact Or.inl rfl) | (intro _) | dsimp only | (with_reducible refine Same.ofEq (by with_reducible assumption) ?_) | split)

theorem resample_same {c s0 s} {a0 a1} (h : Same c s0 s) (hc : Sub 3635 c := by first | with_reducible assumption | exact Sub.up (by with_reducible assumption) (by decide)) : Same c s0 (resample a0 a1 s) := by
  unfold resample
  repeat' (first | with_reducible assumption | with_reducible refine Same.ite ?_ ?_ | with_reducible refine Same.ite2 ?_ ?_ | with_reducible apply modSrc_same | with_reducible apply summaryEvent_same | with_reducible apply recordEvent_same | with_reducible exact Sub.up (by with_reducible assumption) (by decide) | fail_if_no_progress (with_reducible apply Same.upd <;> try first | with_reducible exact ⟨rfl, rfl⟩ | with_reducible exact Or.inr (Sub.up (by with_reducible assumption) (by decide)) | with_reducible exact Or.inl rfl) | (intro _) | dsimp only | (with_reducible refine Same.ofEq (by with_reducible assumption) ?_) | split)

theorem completeClaim_same {c s0 s} {a0 a1} (h : Same c s0 s) (hc : Sub 3635 c := by first | with_reducible assumption | exact Sub.up (by with_reducible assumption) (by decide)) : Same c s0 (completeClaim a0 a1 s) := by
  unfold completeClaim
  repeat' (first | with_reducible assumption | with_reducible refine Same.ite ?_ ?_ | with_reducible refine Same.ite2 ?_ ?_ | with_reducible apply modEvq_same | with_reducible apply forAll_same | with_reducible apply resample_same | with_reducible apply checkSignal_same | with_reducible exact Sub.up (by with_reducible assumption) (by decide) | fail_if_no_progress (with_reducible apply Same.upd <;> try first | with_reducible exact ⟨rfl, rfl⟩ | with_reducible exact Or.inr (Sub.up (by with_reducible assumption) (by decide)) | with_reducible exact Or.inl rfl) | (intro _) | dsimp only | (with_reducible refine Same.ofEq (by with_reducible assumption) ?_) | split)

theorem cachePtrs_same {c s0 s} {a0} (h : Same c s0 s) (hc : Sub 512 c := by first | with_reducible assumption | exact Sub.up (by with_reducible assumption) (by decide)) : Same c s0 (cachePtrs a0 s) := by
  unfold cachePtrs
  repeat' (first | with_reducible assumption | with_reducible refine Same.ite ?_ ?_ | with_reducible refine Same.ite2 ?_ ?_ | with_reducible exact Sub.up (by with_reducible assumption) (by decide) | fail_if_no_progress (with_reducible apply Same.upd <;> try first | with_reducible exact ⟨rfl, rfl⟩ | with_reducible exact Or.inr (Sub.up (by with_reducible assumption) (by decide)) | with_reducible exact Or.inl rfl) | (intro _) | dsimp only | (with_reducible refine Same.ofEq (by with_reducible assumption) ?_) | split)

theorem dropRange_same {c s0 s} {a0 a1 a2} (h : Same c s0 s) (hc : Sub 512 c := by first | with_reducible assumption | exact Sub.up (by with_reducible assumption) (by decide)) : Same c s0 (dropRange a0 a1 a2 s) := by
  unfold dropRange
  repeat' (first | with_reducible assumption | with_reducible refine Same.ite ?_ ?_ | with_reducible refine Same.ite2 ?_ ?_ | with_reducible exact Sub.up (by with_reducible assumption) (by decide) | fail_if_no_progress (with_reducible apply Same.upd <;> try first | with_reducible exact ⟨rfl, rfl⟩ | with_reducible exact Or.inr (Sub.up (by with_reducible assumption) (by decide)) | with_reducible exact Or.inl rfl) | (intro _) | dsimp only | (with_reducible refine Same.ofEq (by with_reducible assumption) ?_) | split)

theorem dropAsid_same {c s0 s} {a0} (h : Same c s0 s) (hc : Sub 512 c := by first | with_reducible assumption | exact Sub.up (by with_reducible assumption) (by decide)) : Same c s0 (dropAsid a0 s) := by
  unfold dropAsid
  repeat' (first | with_reducible assumption | with_reducible refine Same.ite ?_ ?_ | with_reducible refine Same.ite2 ?_ ?_ | with_reducible exact Sub.up (by with_reducible assumption) (by decide) | fail_if_no_progress (with_reducible apply Same.upd <;> try first | with_reducible exact ⟨rfl, rfl⟩ | with_reducible exact Or.inr (Sub.up (by with_reducible assumption) (by decide)) | with_reducible exact Or.inl rfl) | (intro _) | dsimp only | (with_reducible refine Same.ofEq (by with_reducible assumption) ?_) | split)

theorem checkOn_same {c s0 s} {a0 a1 a2 a3 a4} (h : Same c s0 s) (hc : Sub 514 c := by first | with_reducible assumption | exact Sub.up (by with_reducible assumption) (by decide)) : Same c s0 (checkOn a0 a1 a2 a3 a4 s).2 := by
  induction a3 generalizing s a4 with
  | nil => exact h
  | cons p r ih =>
    unfold checkOn
    split
    · exact h
    · dsimp only
      split
      · exact ih (askXlate_same h)
      · exact startPages_same (askXlate_same h)
      · exact askXlate_same h

theorem takeHolds_same {c s0 s} {a0} (h : Same c s0 s) (hc : Sub 512 c := by first | with_reducible assumption | exact Sub.up (by with_reducible assumption) (by decide)) : Same c s0 (takeHolds a0 s) := by
  unfold takeHolds
  repeat' (first | with_reducible assumption | with_reducible refine Same.ite ?_ ?_ | with_reducible refine Same.ite2 ?_ ?_ | with_reducible exact Sub.up (by with_reducible assumption) (by decide) | fail_if_no_progress (with_reducible apply Same.upd <;> try first | with_reducible exact ⟨rfl, rfl⟩ | with_reducible exact Or.inr (Sub.up (by with_reducible assumption) (by decide)) | with_reducible exact Or.inl rfl) | (intro _) | dsimp only | (with_reducible refine Same.ofEq (by with_reducible assumption) ?_) | split)

theorem holdPages_same {c s0 s} {a0} (h : Same c s0 s) (hc : Sub 514 c := by first | with_reducible assumption | exact Sub.up (by with_reducible assumption) (by decide)) : Same c s0 (holdPages a0 s) := by
  unfold holdPages
  repeat' (first | with_reducible assumption | with_reducible refine Same.ite ?_ ?_ | with_reducible refine Same.ite2 ?_ ?_ | with_reducible apply takeHolds_same | with_reducible apply forAll_same | with_reducible apply askXlate_same | with_reducible exact Sub.up (by with_reducible assumption) (by decide) | fail_if_no_progress (with_reducible apply Same.upd <;> try first | with_reducible exact ⟨rfl, rfl⟩ | with_reducible exact Or.inr (Sub.up (by with_reducible assumption) (by decide)) | with_reducible exact Or.inl rfl) | (intro _) | dsimp only | (with_reducible refine Same.ofEq (by with_reducible assumption) ?_) | split)

theorem modEntry_same {c s0 s} {a0 a1 a2} (h : Same c s0 s) (hc : Sub 16 c := by first | with_reducible assumption | exact Sub.up (by with_reducible assumption) (by decide)) : Same c s0 (modEntry a0 a1 a2 s) := by
  unfold modEntry
  repeat' (first | with_reducible assumption | with_reducible refine Same.ite ?_ ?_ | with_reducible refine Same.ite2 ?_ ?_ | with_reducible apply modHoop_same | with_reducible exact Sub.up (by with_reducible assumption) (by decide) | fail_if_no_progress (with_reducible apply Same.upd <;> try first | with_reducible exact ⟨rfl, rfl⟩ | with_reducible exact Or.inr (Sub.up (by with_reducible assumption) (by decide)) | with_reducible exact Or.inl rfl) | (intro _) | dsimp only | (with_reducible refine Same.ofEq (by with_reducible assumption) ?_) | split)

theorem stopHoop_same {c s0 s} {a0} (h : Same c s0 s) (hc : Sub 16 c := by first | with_reducible assumption | exact Sub.up (by with_reducible assumption) (by decide)) : Same c s0 (stopHoop a0 s) := by
  unfold stopHoop
  repeat' (first | with_reducible assumption | with_reducible refine Same.ite ?_ ?_ | with_reducible refine Same.ite2 ?_ ?_ | with_reducible apply modHoop_same | with_reducible exact Sub.up (by with_reducible assumption) (by decide) | fail_if_no_progress (with_reducible apply Same.upd <;> try first | with_reducible exact ⟨rfl, rfl⟩ | with_reducible exact Or.inr (Sub.up (by with_reducible assumption) (by decide)) | with_reducible exact Or.inl rfl) | (intro _) | dsimp only | (with_reducible refine Same.ofEq (by with_reducible assumption) ?_) | split)

theorem stopOnXlate_same {c s0 s} {a0 a1 a2} (h : Same c s0 s) (hc : Sub 3635 c := by first | with_reducible assumption | exact Sub.up (by with_reducible assumption) (by decide)) : Same c s0 (stopOnXlate a0 a1 a2 s) := by
  unfold stopOnXlate
  repeat' (first | with_reducible assumption | with_reducible refine Same.ite ?_ ?_ | with_reducible refine Same.ite2 ?_ ?_ | with_reducible apply stopHoop_same | with_reducible apply vatFault_same | with_reducible exact Sub.up (by with_reducible assumption) (by decide) | fail_if_no_progress (with_reducible apply Same.upd <;> try first | with_reducible exact ⟨rfl, rfl⟩ | with_reducible exact Or.inr (Sub.up (by with_reducible assumption) (by decide)) | with_reducible exact Or.inl rfl) | (intro _) | dsimp only | (with_reducible refine Same.ofEq (by with_reducible assumption) ?_) | split)

theorem hostWord_same {c s0 s} {a0 a1 a2} (h : Same c s0 s) (hc : Sub 3091 c := by first | with_reducible assumption | exact Sub.up (by with_reducible assumption) (by decide)) : Same c s0 (hostWord a0 a1 a2 s) := by
  unfold hostWord
  repeat' (first | with_reducible assumption | with_reducible refine Same.ite ?_ ?_ | with_reducible refine Same.ite2 ?_ ?_ | with_reducible apply storeAt_same | with_reducible apply hostPut_same | with_reducible exact Sub.up (by with_reducible assumption) (by decide) | fail_if_no_progress (with_reducible apply Same.upd <;> try first | with_reducible exact ⟨rfl, rfl⟩ | with_reducible exact Or.inr (Sub.up (by with_reducible assumption) (by decide)) | with_reducible exact Or.inl rfl) | (intro _) | dsimp only | (with_reducible refine Same.ofEq (by with_reducible assumption) ?_) | split)

theorem adminWrite_same {c s0 s} {a0 a1 a2 a3 a4} (h : Same c s0 s) (hc : Sub 3635 c := by first | with_reducible assumption | exact Sub.up (by with_reducible assumption) (by decide)) : Same c s0 (adminWrite a0 a1 a2 a3 a4 s) := by
  unfold adminWrite
  repeat' (first | with_reducible assumption | with_reducible refine Same.ite ?_ ?_ | with_reducible refine Same.ite2 ?_ ?_ | with_reducible apply when_same | with_reducible apply hostWord_same | with_reducible apply modAdmin_same | with_reducible apply sendMsix_same | with_reducible apply postRec_same | with_reducible exact Sub.up (by with_reducible assumption) (by decide) | fail_if_no_progress (with_reducible apply Same.upd <;> try first | with_reducible exact ⟨rfl, rfl⟩ | with_reducible exact Or.inr (Sub.up (by with_reducible assumption) (by decide)) | with_reducible exact Or.inl rfl) | (intro _) | dsimp only | (with_reducible refine Same.ofEq (by with_reducible assumption) ?_) | split)

theorem adminDrain_same {c s0 s} {a0 a1} (h : Same c s0 s) (hc : Sub 3635 c := by first | with_reducible assumption | exact Sub.up (by with_reducible assumption) (by decide)) : Same c s0 (adminDrain a0 a1 s) := by
  induction a1 generalizing s with
  | zero => exact h
  | succ n ih =>
    unfold adminDrain
    repeat' (first | with_reducible exact Sub.up (by with_reducible assumption) (by decide) | with_reducible assumption | with_reducible refine Same.ite ?_ ?_ | with_reducible apply ih | with_reducible apply adminWrite_same | (intro _) | split)

theorem adminFinish_same {c s0 s} {a0 a1 a2 a3} (h : Same c s0 s) (hc : Sub 3635 c := by first | with_reducible assumption | exact Sub.up (by with_reducible assumption) (by decide)) : Same c s0 (adminFinish a0 a1 a2 a3 s) := by
  unfold adminFinish
  repeat' (first | with_reducible assumption | with_reducible refine Same.ite ?_ ?_ | with_reducible refine Same.ite2 ?_ ?_ | with_reducible apply adminWrite_same | with_reducible apply dropReqs_same | with_reducible apply adminDrain_same | with_reducible exact Sub.up (by with_reducible assumption) (by decide) | fail_if_no_progress (with_reducible apply Same.upd <;> try first | with_reducible exact ⟨rfl, rfl⟩ | with_reducible exact Or.inr (Sub.up (by with_reducible assumption) (by decide)) | with_reducible exact Or.inl rfl) | (intro _) | dsimp only | (with_reducible refine Same.ofEq (by with_reducible assumption) ?_) | split)

theorem adminEnd_same {c s0 s} {a0 a1} (h : Same c s0 s) (hc : Sub 3635 c := by first | with_reducible assumption | exact Sub.up (by with_reducible assumption) (by decide)) : Same c s0 (adminEnd a0 a1 s) := by
  unfold adminEnd
  repeat' (first | with_reducible assumption | with_reducible refine Same.ite ?_ ?_ | with_reducible refine Same.ite2 ?_ ?_ | with_reducible apply adminFinish_same | with_reducible exact Sub.up (by with_reducible assumption) (by decide) | fail_if_no_progress (with_reducible apply Same.upd <;> try first | with_reducible exact ⟨rfl, rfl⟩ | with_reducible exact Or.inr (Sub.up (by with_reducible assumption) (by decide)) | with_reducible exact Or.inl rfl) | (intro _) | dsimp only | (with_reducible refine Same.ofEq (by with_reducible assumption) ?_) | split)

theorem endGroup_same {c s0 s} {a0} (h : Same c s0 s) (hc : Sub 4096 c := by first | with_reducible assumption | exact Sub.up (by with_reducible assumption) (by decide)) : Same c s0 (endGroup a0 s) := by
  unfold endGroup
  repeat' (first | with_reducible assumption | with_reducible refine Same.ite ?_ ?_ | with_reducible refine Same.ite2 ?_ ?_ | with_reducible apply modColl_same | with_reducible exact Sub.up (by with_reducible assumption) (by decide) | fail_if_no_progress (with_reducible apply Same.upd <;> try first | with_reducible exact ⟨rfl, rfl⟩ | with_reducible exact Or.inr (Sub.up (by with_reducible assumption) (by decide)) | with_reducible exact Or.inl rfl) | (intro _) | dsimp only | (with_reducible refine Same.ofEq (by with_reducible assumption) ?_) | split)

theorem endGroups_same {c s0 s} {a0} (h : Same c s0 s) (hc : Sub 4096 c := by first | with_reducible assumption | exact Sub.up (by with_reducible assumption) (by decide)) : Same c s0 (endGroups a0 s) := by
  unfold endGroups
  repeat' (first | with_reducible assumption | with_reducible refine Same.ite ?_ ?_ | with_reducible refine Same.ite2 ?_ ?_ | with_reducible apply forAll_same | with_reducible apply endGroup_same | with_reducible exact Sub.up (by with_reducible assumption) (by decide) | fail_if_no_progress (with_reducible apply Same.upd <;> try first | with_reducible exact ⟨rfl, rfl⟩ | with_reducible exact Or.inr (Sub.up (by with_reducible assumption) (by decide)) | with_reducible exact Or.inl rfl) | (intro _) | dsimp only | (with_reducible refine Same.ofEq (by with_reducible assumption) ?_) | split)

theorem tryIdle_same {c s0 s} {a0} (h : Same c s0 s) (hc : Sub 7731 c := by first | with_reducible assumption | exact Sub.up (by with_reducible assumption) (by decide)) : Same c s0 (tryIdle a0 s) := by
  unfold tryIdle
  repeat' (first | with_reducible assumption | with_reducible refine Same.ite ?_ ?_ | with_reducible refine Same.ite2 ?_ ?_ | with_reducible apply modHoop_same | with_reducible apply endGroups_same | with_reducible apply adminEnd_same | with_reducible exact Sub.up (by with_reducible assumption) (by decide) | fail_if_no_progress (with_reducible apply Same.upd <;> try first | with_reducible exact ⟨rfl, rfl⟩ | with_reducible exact Or.inr (Sub.up (by with_reducible assumption) (by decide)) | with_reducible exact Or.inl rfl) | (intro _) | dsimp only | (with_reducible refine Same.ofEq (by with_reducible assumption) ?_) | split)

theorem postDue_same {c s0 s} {a0} (h : Same c s0 s) (hc : Sub 3635 c := by first | with_reducible assumption | exact Sub.up (by with_reducible assumption) (by decide)) : Same c s0 (postDue a0 s) := by
  unfold postDue
  repeat' (first | with_reducible assumption | with_reducible refine Same.ite ?_ ?_ | with_reducible refine Same.ite2 ?_ ?_ | with_reducible apply modHoop_same | with_reducible apply forAll_same | with_reducible apply postRec_same | with_reducible exact Sub.up (by with_reducible assumption) (by decide) | fail_if_no_progress (with_reducible apply Same.upd <;> try first | with_reducible exact ⟨rfl, rfl⟩ | with_reducible exact Or.inr (Sub.up (by with_reducible assumption) (by decide)) | with_reducible exact Or.inl rfl) | (intro _) | dsimp only | (with_reducible refine Same.ofEq (by with_reducible assumption) ?_) | split)

theorem headOver_same {c s0 s} {a0} (h : Same c s0 s) (hc : Sub 7731 c := by first | with_reducible assumption | exact Sub.up (by with_reducible assumption) (by decide)) : Same c s0 (headOver a0 s) := by
  unfold headOver
  repeat' (first | with_reducible assumption | with_reducible refine Same.ite ?_ ?_ | with_reducible refine Same.ite2 ?_ ?_ | with_reducible apply postDue_same | with_reducible apply tryIdle_same | with_reducible exact Sub.up (by with_reducible assumption) (by decide) | fail_if_no_progress (with_reducible apply Same.upd <;> try first | with_reducible exact ⟨rfl, rfl⟩ | with_reducible exact Or.inr (Sub.up (by with_reducible assumption) (by decide)) | with_reducible exact Or.inl rfl) | (intro _) | dsimp only | (with_reducible refine Same.ofEq (by with_reducible assumption) ?_) | split)

theorem headFails_same {c s0 s} {a0} (h : Same c s0 s) (hc : Sub 16 c := by first | with_reducible assumption | exact Sub.up (by with_reducible assumption) (by decide)) : Same c s0 (headFails a0 s) := by
  unfold headFails
  repeat' (first | with_reducible assumption | with_reducible refine Same.ite ?_ ?_ | with_reducible refine Same.ite2 ?_ ?_ | with_reducible apply modHoop_same | with_reducible apply stopHoop_same | with_reducible exact Sub.up (by with_reducible assumption) (by decide) | fail_if_no_progress (with_reducible apply Same.upd <;> try first | with_reducible exact ⟨rfl, rfl⟩ | with_reducible exact Or.inr (Sub.up (by with_reducible assumption) (by decide)) | with_reducible exact Or.inl rfl) | (intro _) | dsimp only | (with_reducible refine Same.ofEq (by with_reducible assumption) ?_) | split)

theorem publishHead_same {c s0 s} {a0} (h : Same c s0 s) (hc : Sub 7731 c := by first | with_reducible assumption | exact Sub.up (by with_reducible assumption) (by decide)) : Same c s0 (publishHead a0 s) := by
  unfold publishHead
  repeat' (first | with_reducible assumption | with_reducible refine Same.ite ?_ ?_ | with_reducible refine Same.ite2 ?_ ?_ | with_reducible apply modHoop_same | with_reducible apply headOver_same | with_reducible apply askXlate_same | with_reducible apply stopOnXlate_same | with_reducible apply headFails_same | with_reducible apply ownedGate_same | with_reducible apply ctrlWrite_same | with_reducible exact Sub.up (by with_reducible assumption) (by decide) | fail_if_no_progress (with_reducible apply Same.upd <;> try first | with_reducible exact ⟨rfl, rfl⟩ | with_reducible exact Or.inr (Sub.up (by with_reducible assumption) (by decide)) | with_reducible exact Or.inl rfl) | (intro _) | dsimp only | (with_reducible refine Same.ofEq (by with_reducible assumption) ?_) | split)

theorem evict_same {c s0 s} {a0} (h : Same c s0 s) (hc : Sub 16 c := by first | with_reducible assumption | exact Sub.up (by with_reducible assumption) (by decide)) : Same c s0 (evict a0 s) := by
  unfold evict
  repeat' (first | with_reducible assumption | with_reducible refine Same.ite ?_ ?_ | with_reducible refine Same.ite2 ?_ ?_ | with_reducible apply modVat_same | with_reducible exact Sub.up (by with_reducible assumption) (by decide) | fail_if_no_progress (with_reducible apply Same.upd <;> try first | with_reducible exact ⟨rfl, rfl⟩ | with_reducible exact Or.inr (Sub.up (by with_reducible assumption) (by decide)) | with_reducible exact Or.inl rfl) | (intro _) | dsimp only | (with_reducible refine Same.ofEq (by with_reducible assumption) ?_) | split)

theorem tryEvict_same {c s0 s} (h : Same c s0 s) (hc : Sub 16 c := by first | with_reducible assumption | exact Sub.up (by with_reducible assumption) (by decide)) : Same c s0 (tryEvict s) := by
  unfold tryEvict
  repeat' (first | with_reducible assumption | with_reducible refine Same.ite ?_ ?_ | with_reducible refine Same.ite2 ?_ ?_ | with_reducible apply evict_same | with_reducible exact Sub.up (by with_reducible assumption) (by decide) | fail_if_no_progress (with_reducible apply Same.upd <;> try first | with_reducible exact ⟨rfl, rfl⟩ | with_reducible exact Or.inr (Sub.up (by with_reducible assumption) (by decide)) | with_reducible exact Or.inl rfl) | (intro _) | dsimp only | (with_reducible refine Same.ofEq (by with_reducible assumption) ?_) | split)

theorem leaveWait_same {c s0 s} {a0} (h : Same c s0 s) (hc : Sub 16 c := by first | with_reducible assumption | exact Sub.up (by with_reducible assumption) (by decide)) : Same c s0 (leaveWait a0 s) := by
  unfold leaveWait
  repeat' (first | with_reducible assumption | with_reducible refine Same.ite ?_ ?_ | with_reducible refine Same.ite2 ?_ ?_ | with_reducible exact Sub.up (by with_reducible assumption) (by decide) | fail_if_no_progress (with_reducible apply Same.upd <;> try first | with_reducible exact ⟨rfl, rfl⟩ | with_reducible exact Or.inr (Sub.up (by with_reducible assumption) (by decide)) | with_reducible exact Or.inl rfl) | (intro _) | dsimp only | (with_reducible refine Same.ofEq (by with_reducible assumption) ?_) | split)

theorem needSlot_same {c s0 s} {a0} (h : Same c s0 s) (hc : Sub 16 c := by first | with_reducible assumption | exact Sub.up (by with_reducible assumption) (by decide)) : Same c s0 (needSlot a0 s) := by
  unfold needSlot
  repeat' (first | with_reducible assumption | with_reducible refine Same.ite ?_ ?_ | with_reducible refine Same.ite2 ?_ ?_ | with_reducible apply tryEvict_same | with_reducible exact Sub.up (by with_reducible assumption) (by decide) | fail_if_no_progress (with_reducible apply Same.upd <;> try first | with_reducible exact ⟨rfl, rfl⟩ | with_reducible exact Or.inr (Sub.up (by with_reducible assumption) (by decide)) | with_reducible exact Or.inl rfl) | (intro _) | dsimp only | (with_reducible refine Same.ofEq (by with_reducible assumption) ?_) | split)

theorem tryFrozen_same {c s0 s} {a0} (h : Same c s0 s) (hc : Sub 7731 c := by first | with_reducible assumption | exact Sub.up (by with_reducible assumption) (by decide)) : Same c s0 (tryFrozen a0 s) := by
  unfold tryFrozen
  repeat' (first | with_reducible assumption | with_reducible refine Same.ite ?_ ?_ | with_reducible refine Same.ite2 ?_ ?_ | with_reducible apply forAll_same | with_reducible apply publishHead_same | with_reducible apply modFnS_same | with_reducible apply adminEnd_same | with_reducible exact Sub.up (by with_reducible assumption) (by decide) | fail_if_no_progress (with_reducible apply Same.upd <;> try first | with_reducible exact ⟨rfl, rfl⟩ | with_reducible exact Or.inr (Sub.up (by with_reducible assumption) (by decide)) | with_reducible exact Or.inl rfl) | (intro _) | dsimp only | (with_reducible refine Same.ofEq (by with_reducible assumption) ?_) | split)

theorem pageGone_same {c s0 s} {a0} (h : Same c s0 s) (hc : Sub 16 c := by first | with_reducible assumption | exact Sub.up (by with_reducible assumption) (by decide)) : Same c s0 (pageGone a0 s) := by
  unfold pageGone
  repeat' (first | with_reducible assumption | with_reducible refine Same.ite ?_ ?_ | with_reducible refine Same.ite2 ?_ ?_ | with_reducible apply modVat_same | with_reducible exact Sub.up (by with_reducible assumption) (by decide) | fail_if_no_progress (with_reducible apply Same.upd <;> try first | with_reducible exact ⟨rfl, rfl⟩ | with_reducible exact Or.inr (Sub.up (by with_reducible assumption) (by decide)) | with_reducible exact Or.inl rfl) | (intro _) | dsimp only | (with_reducible refine Same.ofEq (by with_reducible assumption) ?_) | split)

theorem cancelPages_same {c s0 s} {a0} (h : Same c s0 s) (hc : Sub 528 c := by first | with_reducible assumption | exact Sub.up (by with_reducible assumption) (by decide)) : Same c s0 (cancelPages a0 s) := by
  unfold cancelPages
  repeat' (first | with_reducible assumption | with_reducible refine Same.ite ?_ ?_ | with_reducible refine Same.ite2 ?_ ?_ | with_reducible apply forAll_same | with_reducible apply pageGone_same | with_reducible exact Sub.up (by with_reducible assumption) (by decide) | fail_if_no_progress (with_reducible apply Same.upd <;> try first | with_reducible exact ⟨rfl, rfl⟩ | with_reducible exact Or.inr (Sub.up (by with_reducible assumption) (by decide)) | with_reducible exact Or.inl rfl) | (intro _) | dsimp only | (with_reducible refine Same.ofEq (by with_reducible assumption) ?_) | split)

theorem trimPages_same {c s0 s} (h : Same c s0 s) (hc : Sub 528 c := by first | with_reducible assumption | exact Sub.up (by with_reducible assumption) (by decide)) : Same c s0 (trimPages s) := by
  unfold trimPages
  repeat' (first | with_reducible assumption | with_reducible refine Same.ite ?_ ?_ | with_reducible refine Same.ite2 ?_ ?_ | with_reducible apply cancelPages_same | with_reducible exact Sub.up (by with_reducible assumption) (by decide) | fail_if_no_progress (with_reducible apply Same.upd <;> try first | with_reducible exact ⟨rfl, rfl⟩ | with_reducible exact Or.inr (Sub.up (by with_reducible assumption) (by decide)) | with_reducible exact Or.inl rfl) | (intro _) | dsimp only | (with_reducible refine Same.ofEq (by with_reducible assumption) ?_) | split)

theorem tryUnload_same {c s0 s} {a0} (h : Same c s0 s) (hc : Sub 3635 c := by first | with_reducible assumption | exact Sub.up (by with_reducible assumption) (by decide)) : Same c s0 (tryUnload a0 s) := by
  unfold tryUnload
  repeat' (first | with_reducible assumption | with_reducible refine Same.ite ?_ ?_ | with_reducible refine Same.ite2 ?_ ?_ | with_reducible apply adminEnd_same | with_reducible exact Sub.up (by with_reducible assumption) (by decide) | fail_if_no_progress (with_reducible apply Same.upd <;> try first | with_reducible exact ⟨rfl, rfl⟩ | with_reducible exact Or.inr (Sub.up (by with_reducible assumption) (by decide)) | with_reducible exact Or.inl rfl) | (intro _) | dsimp only | (with_reducible refine Same.ofEq (by with_reducible assumption) ?_) | split)

theorem retireEntry_same {c s0 s} {a0 a1} (h : Same c s0 s) (hc : Sub 15923 c := by first | with_reducible assumption | exact Sub.up (by with_reducible assumption) (by decide)) : Same c s0 (retireEntry a0 a1 s) := by
  unfold retireEntry
  repeat' (first | with_reducible assumption | with_reducible refine Same.ite ?_ ?_ | with_reducible refine Same.ite2 ?_ ?_ | with_reducible apply modHoop_same | with_reducible apply dropReqs_same | with_reducible apply modFnS_same | with_reducible apply modWheel_same | with_reducible apply when_same | with_reducible apply vatFault_same | with_reducible apply publishHead_same | with_reducible apply forAll_same | with_reducible apply postRec_same | with_reducible apply trimPages_same | with_reducible apply tryEvict_same | with_reducible apply tryFrozen_same | with_reducible apply tryUnload_same | with_reducible apply tryIdle_same | with_reducible exact Sub.up (by with_reducible assumption) (by decide) | fail_if_no_progress (with_reducible apply Same.upd <;> try first | with_reducible exact ⟨rfl, rfl⟩ | with_reducible exact Or.inr (Sub.up (by with_reducible assumption) (by decide)) | with_reducible exact Or.inl rfl) | (intro _) | dsimp only | (with_reducible refine Same.ofEq (by with_reducible assumption) ?_) | split)

theorem toWhey_same {c s0 s} {a0} (h : Same c s0 s) (hc : Sub 16 c := by first | with_reducible assumption | exact Sub.up (by with_reducible assumption) (by decide)) : Same c s0 (toWhey a0 s) := by
  unfold toWhey
  repeat' (first | with_reducible assumption | with_reducible refine Same.ite ?_ ?_ | with_reducible refine Same.ite2 ?_ ?_ | with_reducible apply modHoop_same | with_reducible exact Sub.up (by with_reducible assumption) (by decide) | fail_if_no_progress (with_reducible apply Same.upd <;> try first | with_reducible exact ⟨rfl, rfl⟩ | with_reducible exact Or.inr (Sub.up (by with_reducible assumption) (by decide)) | with_reducible exact Or.inl rfl) | (intro _) | dsimp only | (with_reducible refine Same.ofEq (by with_reducible assumption) ?_) | split)

theorem writeStatus_same {c s0 s} {a0 a1 a2} (h : Same c s0 s) (hc : Sub 3091 c := by first | with_reducible assumption | exact Sub.up (by with_reducible assumption) (by decide)) : Same c s0 (writeStatus a0 a1 a2 s) := by
  unfold writeStatus
  repeat' (first | with_reducible assumption | with_reducible refine Same.ite ?_ ?_ | with_reducible refine Same.ite2 ?_ ?_ | with_reducible apply ctrlWrite_same | with_reducible apply when_same | with_reducible exact Sub.up (by with_reducible assumption) (by decide) | fail_if_no_progress (with_reducible apply Same.upd <;> try first | with_reducible exact ⟨rfl, rfl⟩ | with_reducible exact Or.inr (Sub.up (by with_reducible assumption) (by decide)) | with_reducible exact Or.inl rfl) | (intro _) | dsimp only | (with_reducible refine Same.ofEq (by with_reducible assumption) ?_) | split)

theorem tryFinish_same {c s0 s} {a0 a1} (h : Same c s0 s) (hc : Sub 15923 c := by first | with_reducible assumption | exact Sub.up (by with_reducible assumption) (by decide)) : Same c s0 (tryFinish a0 a1 s) := by
  unfold tryFinish
  repeat' (first | with_reducible assumption | with_reducible refine Same.ite ?_ ?_ | with_reducible refine Same.ite2 ?_ ?_ | with_reducible apply modEntry_same | with_reducible apply toWhey_same | with_reducible apply askXlate_same | with_reducible apply stopOnXlate_same | with_reducible apply retireEntry_same | with_reducible apply stopHoop_same | with_reducible apply ownedGate_same | with_reducible apply writeStatus_same | with_reducible exact Sub.up (by with_reducible assumption) (by decide) | fail_if_no_progress (with_reducible apply Same.upd <;> try first | with_reducible exact ⟨rfl, rfl⟩ | with_reducible exact Or.inr (Sub.up (by with_reducible assumption) (by decide)) | with_reducible exact Or.inl rfl) | (intro _) | dsimp only | (with_reducible refine Same.ofEq (by with_reducible assumption) ?_) | split)

theorem statusAnswered_same {c s0 s} {a0 a1} (h : Same c s0 s) (hc : Sub 15923 c := by first | with_reducible assumption | exact Sub.up (by with_reducible assumption) (by decide)) : Same c s0 (statusAnswered a0 a1 s) := by
  unfold statusAnswered
  repeat' (first | with_reducible assumption | with_reducible refine Same.ite ?_ ?_ | with_reducible refine Same.ite2 ?_ ?_ | with_reducible apply retireEntry_same | with_reducible exact Sub.up (by with_reducible assumption) (by decide) | fail_if_no_progress (with_reducible apply Same.upd <;> try first | with_reducible exact ⟨rfl, rfl⟩ | with_reducible exact Or.inr (Sub.up (by with_reducible assumption) (by decide)) | with_reducible exact Or.inl rfl) | (intro _) | dsimp only | (with_reducible refine Same.ofEq (by with_reducible assumption) ?_) | split)

theorem statusFails_same {c s0 s} {a0 a1} (h : Same c s0 s) (hc : Sub 15923 c := by first | with_reducible assumption | exact Sub.up (by with_reducible assumption) (by decide)) : Same c s0 (statusFails a0 a1 s) := by
  unfold statusFails
  repeat' (first | with_reducible assumption | with_reducible refine Same.ite ?_ ?_ | with_reducible refine Same.ite2 ?_ ?_ | with_reducible apply stopHoop_same | with_reducible apply dropOwner_same | with_reducible apply statusAnswered_same | with_reducible exact Sub.up (by with_reducible assumption) (by decide) | fail_if_no_progress (with_reducible apply Same.upd <;> try first | with_reducible exact ⟨rfl, rfl⟩ | with_reducible exact Or.inr (Sub.up (by with_reducible assumption) (by decide)) | with_reducible exact Or.inl rfl) | (intro _) | dsimp only | (with_reducible refine Same.ofEq (by with_reducible assumption) ?_) | split)

theorem headAnswered_same {c s0 s} {a0} (h : Same c s0 s) (hc : Sub 7731 c := by first | with_reducible assumption | exact Sub.up (by with_reducible assumption) (by decide)) : Same c s0 (headAnswered a0 s) := by
  unfold headAnswered
  repeat' (first | with_reducible assumption | with_reducible refine Same.ite ?_ ?_ | with_reducible refine Same.ite2 ?_ ?_ | with_reducible apply publishHead_same | with_reducible apply headOver_same | with_reducible apply tryFrozen_same | with_reducible exact Sub.up (by with_reducible assumption) (by decide) | fail_if_no_progress (with_reducible apply Same.upd <;> try first | with_reducible exact ⟨rfl, rfl⟩ | with_reducible exact Or.inr (Sub.up (by with_reducible assumption) (by decide)) | with_reducible exact Or.inl rfl) | (intro _) | dsimp only | (with_reducible refine Same.ofEq (by with_reducible assumption) ?_) | split)

theorem decideEntry_same {c s0 s} {a0 a1 a2 a3 a4} (h : Same c s0 s) (hc : Sub 15923 c := by first | with_reducible assumption | exact Sub.up (by with_reducible assumption) (by decide)) : Same c s0 (decideEntry a0 a1 a2 a3 a4 s) := by
  unfold decideEntry
  repeat' (first | with_reducible assumption | with_reducible refine Same.ite ?_ ?_ | with_reducible refine Same.ite2 ?_ ?_ | with_reducible apply modEntry_same | with_reducible apply forAll_same | with_reducible apply addReq_same | with_reducible apply tryFinish_same | with_reducible exact Sub.up (by with_reducible assumption) (by decide) | fail_if_no_progress (with_reducible apply Same.upd <;> try first | with_reducible exact ⟨rfl, rfl⟩ | with_reducible exact Or.inr (Sub.up (by with_reducible assumption) (by decide)) | with_reducible exact Or.inl rfl) | (intro _) | dsimp only | (with_reducible refine Same.ofEq (by with_reducible assumption) ?_) | split)

theorem sendColl_same {c s0 s} {a0 a1 a2 a3 a4} (h : Same c s0 s) (hc : Sub 1026 c := by first | with_reducible assumption | exact Sub.up (by with_reducible assumption) (by decide)) : Same c s0 (sendColl a0 a1 a2 a3 a4 s) := by
  unfold sendColl
  repeat' (first | with_reducible assumption | with_reducible refine Same.ite ?_ ?_ | with_reducible refine Same.ite2 ?_ ?_ | with_reducible apply sendPacket_same | with_reducible exact Sub.up (by with_reducible assumption) (by decide) | fail_if_no_progress (with_reducible apply Same.upd <;> try first | with_reducible exact ⟨rfl, rfl⟩ | with_reducible exact Or.inr (Sub.up (by with_reducible assumption) (by decide)) | with_reducible exact Or.inl rfl) | (intro _) | dsimp only | (with_reducible refine Same.ofEq (by with_reducible assumption) ?_) | split)

theorem closeInstance_same {c s0 s} {a0 a1} (h : Same c s0 s) (hc : Sub 15923 c := by first | with_reducible assumption | exact Sub.up (by with_reducible assumption) (by decide)) : Same c s0 (closeInstance a0 a1 s) := by
  unfold closeInstance
  repeat' (first | with_reducible assumption | with_reducible refine Same.ite ?_ ?_ | with_reducible refine Same.ite2 ?_ ?_ | with_reducible apply modColl_same | with_reducible apply decideEntry_same | with_reducible exact Sub.up (by with_reducible assumption) (by decide) | fail_if_no_progress (with_reducible apply Same.upd <;> try first | with_reducible exact ⟨rfl, rfl⟩ | with_reducible exact Or.inr (Sub.up (by with_reducible assumption) (by decide)) | with_reducible exact Or.inl rfl) | (intro _) | dsimp only | (with_reducible refine Same.ofEq (by with_reducible assumption) ?_) | split)

theorem collProgress_same {c s0 s} {a0} (h : Same c s0 s) (hc : Sub 15923 c := by first | with_reducible assumption | exact Sub.up (by with_reducible assumption) (by decide)) : Same c s0 (collProgress a0 s) := by
  unfold collProgress
  repeat' (first | with_reducible assumption | with_reducible refine Same.ite ?_ ?_ | with_reducible refine Same.ite2 ?_ ?_ | with_reducible apply closeInstance_same | with_reducible apply forAll_same | with_reducible apply sendColl_same | with_reducible apply modColl_same | with_reducible exact Sub.up (by with_reducible assumption) (by decide) | fail_if_no_progress (with_reducible apply Same.upd <;> try first | with_reducible exact ⟨rfl, rfl⟩ | with_reducible exact Or.inr (Sub.up (by with_reducible assumption) (by decide)) | with_reducible exact Or.inl rfl) | (intro _) | dsimp only | (with_reducible refine Same.ofEq (by with_reducible assumption) ?_) | split)

theorem ownReport_same {c s0 s} {a0 a1} (h : Same c s0 s) (hc : Sub 4096 c := by first | with_reducible assumption | exact Sub.up (by with_reducible assumption) (by decide)) : Same c s0 (ownReport a0 a1 s) := by
  unfold ownReport
  repeat' (first | with_reducible assumption | with_reducible refine Same.ite ?_ ?_ | with_reducible refine Same.ite2 ?_ ?_ | with_reducible apply modColl_same | with_reducible exact Sub.up (by with_reducible assumption) (by decide) | fail_if_no_progress (with_reducible apply Same.upd <;> try first | with_reducible exact ⟨rfl, rfl⟩ | with_reducible exact Or.inr (Sub.up (by with_reducible assumption) (by decide)) | with_reducible exact Or.inl rfl) | (intro _) | dsimp only | (with_reducible refine Same.ofEq (by with_reducible assumption) ?_) | split)

theorem finishEntry_same {c s0 s} {a0 a1 a2 a3 a4} (h : Same c s0 s) (hc : Sub 15923 c := by first | with_reducible assumption | exact Sub.up (by with_reducible assumption) (by decide)) : Same c s0 (finishEntry a0 a1 a2 a3 a4 s) := by
  unfold finishEntry
  repeat' (first | with_reducible assumption | with_reducible refine Same.ite ?_ ?_ | with_reducible refine Same.ite2 ?_ ?_ | with_reducible apply modEntry_same | with_reducible apply modColl_same | with_reducible apply ownReport_same | with_reducible apply collProgress_same | with_reducible apply when_same | with_reducible apply decideEntry_same | with_reducible exact Sub.up (by with_reducible assumption) (by decide) | fail_if_no_progress (with_reducible apply Same.upd <;> try first | with_reducible exact ⟨rfl, rfl⟩ | with_reducible exact Or.inr (Sub.up (by with_reducible assumption) (by decide)) | with_reducible exact Or.inl rfl) | (intro _) | dsimp only | (with_reducible refine Same.ofEq (by with_reducible assumption) ?_) | split)

theorem failEntry_same {c s0 s} {a0 a1 a2 a3} (h : Same c s0 s) (hc : Sub 15923 c := by first | with_reducible assumption | exact Sub.up (by with_reducible assumption) (by decide)) : Same c s0 (failEntry a0 a1 a2 a3 s) := by
  unfold failEntry
  repeat' (first | with_reducible assumption | with_reducible refine Same.ite ?_ ?_ | with_reducible refine Same.ite2 ?_ ?_ | with_reducible apply modEntry_same | with_reducible apply decideEntry_same | with_reducible exact Sub.up (by with_reducible assumption) (by decide) | fail_if_no_progress (with_reducible apply Same.upd <;> try first | with_reducible exact ⟨rfl, rfl⟩ | with_reducible exact Or.inr (Sub.up (by with_reducible assumption) (by decide)) | with_reducible exact Or.inl rfl) | (intro _) | dsimp only | (with_reducible refine Same.ofEq (by with_reducible assumption) ?_) | split)

theorem failInput_same {c s0 s} {a0 a1 a2} (h : Same c s0 s) (hc : Sub 15923 c := by first | with_reducible assumption | exact Sub.up (by with_reducible assumption) (by decide)) : Same c s0 (failInput a0 a1 a2 s) := by
  unfold failInput
  repeat' (first | with_reducible assumption | with_reducible refine Same.ite ?_ ?_ | with_reducible refine Same.ite2 ?_ ?_ | with_reducible apply when_same | with_reducible apply modEntry_same | with_reducible apply failEntry_same | with_reducible exact Sub.up (by with_reducible assumption) (by decide) | fail_if_no_progress (with_reducible apply Same.upd <;> try first | with_reducible exact ⟨rfl, rfl⟩ | with_reducible exact Or.inr (Sub.up (by with_reducible assumption) (by decide)) | with_reducible exact Or.inl rfl) | (intro _) | dsimp only | (with_reducible refine Same.ofEq (by with_reducible assumption) ?_) | split)

theorem checkFinal_same {c s0 s} {a0 a1} (h : Same c s0 s) (hc : Sub 15923 c := by first | with_reducible assumption | exact Sub.up (by with_reducible assumption) (by decide)) : Same c s0 (checkFinal a0 a1 s) := by
  unfold checkFinal
  repeat' (first | with_reducible assumption | with_reducible refine Same.ite ?_ ?_ | with_reducible refine Same.ite2 ?_ ?_ | with_reducible apply failEntry_same | with_reducible apply modEntry_same | with_reducible apply takeHolds_same | with_reducible apply needSlot_same | with_reducible exact Sub.up (by with_reducible assumption) (by decide) | fail_if_no_progress (with_reducible apply Same.upd <;> try first | with_reducible exact ⟨rfl, rfl⟩ | with_reducible exact Or.inr (Sub.up (by with_reducible assumption) (by decide)) | with_reducible exact Or.inl rfl) | (intro _) | dsimp only | (with_reducible refine Same.ofEq (by with_reducible assumption) ?_) | split)

theorem checkPages_same {c s0 s} {a0 a1 a2} (h : Same c s0 s) (a2_ok : ∀ t, Same c s0 t → Same c s0 (a2 t)) (hc : Sub 15923 c := by first | with_reducible assumption | exact Sub.up (by with_reducible assumption) (by decide)) : Same c s0 (checkPages a0 a1 a2 s) := by
  unfold checkPages
  repeat' (first | with_reducible assumption | with_reducible refine Same.ite ?_ ?_ | with_reducible refine Same.ite2 ?_ ?_ | with_reducible apply a2_ok | with_reducible apply vatFault_same | with_reducible apply failEntry_same | with_reducible apply takeHolds_same | with_reducible apply checkOn_same | with_reducible apply modEntry_same | with_reducible exact Sub.up (by with_reducible assumption) (by decide) | fail_if_no_progress (with_reducible apply Same.upd <;> try first | with_reducible exact ⟨rfl, rfl⟩ | with_reducible exact Or.inr (Sub.up (by with_reducible assumption) (by decide)) | with_reducible exact Or.inl rfl) | (intro _) | dsimp only | (with_reducible refine Same.ofEq (by with_reducible assumption) ?_) | split)

theorem readInputs_same {c s0 s} {a0 a1} (h : Same c s0 s) (hc : Sub 15923 c := by first | with_reducible assumption | exact Sub.up (by with_reducible assumption) (by decide)) : Same c s0 (readInputs a0 a1 s) := by
  unfold readInputs
  repeat' (first | with_reducible assumption | with_reducible refine Same.ite ?_ ?_ | with_reducible refine Same.ite2 ?_ ?_ | with_reducible apply failInput_same | with_reducible apply modEntry_same | with_reducible apply failEntry_same | with_reducible apply checkPages_same | with_reducible apply checkFinal_same | with_reducible exact Sub.up (by with_reducible assumption) (by decide) | fail_if_no_progress (with_reducible apply Same.upd <;> try first | with_reducible exact ⟨rfl, rfl⟩ | with_reducible exact Or.inr (Sub.up (by with_reducible assumption) (by decide)) | with_reducible exact Or.inl rfl) | (intro _) | dsimp only | (with_reducible refine Same.ofEq (by with_reducible assumption) ?_) | split)

theorem askInputs_same {c s0 s} {a0 a1 a2} (h : Same c s0 s) (hc : Sub 1026 c := by first | with_reducible assumption | exact Sub.up (by with_reducible assumption) (by decide)) : Same c s0 (askInputs a0 a1 a2 s) := by
  unfold askInputs
  repeat' (first | with_reducible assumption | with_reducible refine Same.ite ?_ ?_ | with_reducible refine Same.ite2 ?_ ?_ | with_reducible apply forAll_same | with_reducible apply sendPeer_same | with_reducible apply addReq_same | with_reducible exact Sub.up (by with_reducible assumption) (by decide) | fail_if_no_progress (with_reducible apply Same.upd <;> try first | with_reducible exact ⟨rfl, rfl⟩ | with_reducible exact Or.inr (Sub.up (by with_reducible assumption) (by decide)) | with_reducible exact Or.inl rfl) | (intro _) | dsimp only | (with_reducible refine Same.ofEq (by with_reducible assumption) ?_) | split)

theorem checkEntry_same {c s0 s} {a0 a1} (h : Same c s0 s) (hc : Sub 15923 c := by first | with_reducible assumption | exact Sub.up (by with_reducible assumption) (by decide)) : Same c s0 (checkEntry a0 a1 s) := by
  unfold checkEntry
  repeat' (first | with_reducible assumption | with_reducible refine Same.ite ?_ ?_ | with_reducible refine Same.ite2 ?_ ?_ | with_reducible apply checkPages_same | with_reducible apply checkFinal_same | with_reducible apply readInputs_same | with_reducible apply modEntry_same | with_reducible apply askInputs_same | with_reducible exact Sub.up (by with_reducible assumption) (by decide) | fail_if_no_progress (with_reducible apply Same.upd <;> try first | with_reducible exact ⟨rfl, rfl⟩ | with_reducible exact Or.inr (Sub.up (by with_reducible assumption) (by decide)) | with_reducible exact Or.inl rfl) | (intro _) | dsimp only | (with_reducible refine Same.ofEq (by with_reducible assumption) ?_) | split)

theorem validate_same {c s0 s} {a0 a1} (h : Same c s0 s) (hc : Sub 15923 c := by first | with_reducible assumption | exact Sub.up (by with_reducible assumption) (by decide)) : Same c s0 (validate a0 a1 s) := by
  unfold validate
  repeat' (first | with_reducible assumption | with_reducible refine Same.ite ?_ ?_ | with_reducible refine Same.ite2 ?_ ?_ | with_reducible apply failEntry_same | with_reducible apply modEntry_same | with_reducible apply checkEntry_same | with_reducible exact Sub.up (by with_reducible assumption) (by decide) | fail_if_no_progress (with_reducible apply Same.upd <;> try first | with_reducible exact ⟨rfl, rfl⟩ | with_reducible exact Or.inr (Sub.up (by with_reducible assumption) (by decide)) | with_reducible exact Or.inl rfl) | (intro _) | dsimp only | (with_reducible refine Same.ofEq (by with_reducible assumption) ?_) | split)

theorem takeTurn_same {c s0 s} {a0} (h : Same c s0 s) (hc : Sub 16 c := by first | with_reducible assumption | exact Sub.up (by with_reducible assumption) (by decide)) : Same c s0 (takeTurn a0 s) := by
  unfold takeTurn
  repeat' (first | with_reducible assumption | with_reducible refine Same.ite ?_ ?_ | with_reducible refine Same.ite2 ?_ ?_ | with_reducible apply forAll_same | with_reducible apply modHoop_same | with_reducible exact Sub.up (by with_reducible assumption) (by decide) | fail_if_no_progress (with_reducible apply Same.upd <;> try first | with_reducible exact ⟨rfl, rfl⟩ | with_reducible exact Or.inr (Sub.up (by with_reducible assumption) (by decide)) | with_reducible exact Or.inl rfl) | (intro _) | dsimp only | (with_reducible refine Same.ofEq (by with_reducible assumption) ?_) | split)

theorem reportHold_same {c s0 s} {a0} (h : Same c s0 s) (hc : Sub 15923 c := by first | with_reducible assumption | exact Sub.up (by with_reducible assumption) (by decide)) : Same c s0 (reportHold a0 s) := by
  unfold reportHold
  repeat' (first | with_reducible assumption | with_reducible refine Same.ite ?_ ?_ | with_reducible refine Same.ite2 ?_ ?_ | with_reducible apply ownReport_same | with_reducible apply collProgress_same | with_reducible exact Sub.up (by with_reducible assumption) (by decide) | fail_if_no_progress (with_reducible apply Same.upd <;> try first | with_reducible exact ⟨rfl, rfl⟩ | with_reducible exact Or.inr (Sub.up (by with_reducible assumption) (by decide)) | with_reducible exact Or.inl rfl) | (intro _) | dsimp only | (with_reducible refine Same.ofEq (by with_reducible assumption) ?_) | split)

theorem startEntry_same {c s0 s} {a0 a1} (h : Same c s0 s) (hc : Sub 15923 c := by first | with_reducible assumption | exact Sub.up (by with_reducible assumption) (by decide)) : Same c s0 (startEntry a0 a1 s) := by
  unfold startEntry
  repeat' (first | with_reducible assumption | with_reducible refine Same.ite ?_ ?_ | with_reducible refine Same.ite2 ?_ ?_ | with_reducible apply takeTurn_same | with_reducible apply modVat_same | with_reducible apply modEntry_same | with_reducible apply when_same | with_reducible apply modColl_same | with_reducible apply reportHold_same | with_reducible apply ownReport_same | with_reducible apply collProgress_same | with_reducible apply finishEntry_same | with_reducible apply holdPages_same | with_reducible exact Sub.up (by with_reducible assumption) (by decide) | fail_if_no_progress (with_reducible apply Same.upd <;> try first | with_reducible exact ⟨rfl, rfl⟩ | with_reducible exact Or.inr (Sub.up (by with_reducible assumption) (by decide)) | with_reducible exact Or.inl rfl) | (intro _) | dsimp only | (with_reducible refine Same.ofEq (by with_reducible assumption) ?_) | split)

theorem ringStops_same {c s0 s} {a0} (h : Same c s0 s) (hc : Sub 16 c := by first | with_reducible assumption | exact Sub.up (by with_reducible assumption) (by decide)) : Same c s0 (ringStops a0 s) := by
  unfold ringStops
  repeat' (first | with_reducible assumption | with_reducible refine Same.ite ?_ ?_ | with_reducible refine Same.ite2 ?_ ?_ | with_reducible apply stopHoop_same | with_reducible apply modHoop_same | with_reducible exact Sub.up (by with_reducible assumption) (by decide) | fail_if_no_progress (with_reducible apply Same.upd <;> try first | with_reducible exact ⟨rfl, rfl⟩ | with_reducible exact Or.inr (Sub.up (by with_reducible assumption) (by decide)) | with_reducible exact Or.inl rfl) | (intro _) | dsimp only | (with_reducible refine Same.ofEq (by with_reducible assumption) ?_) | split)

theorem ringXlateFails_same {c s0 s} {a0 a1 a2} (h : Same c s0 s) (hc : Sub 7731 c := by first | with_reducible assumption | exact Sub.up (by with_reducible assumption) (by decide)) : Same c s0 (ringXlateFails a0 a1 a2 s) := by
  unfold ringXlateFails
  repeat' (first | with_reducible assumption | with_reducible refine Same.ite ?_ ?_ | with_reducible refine Same.ite2 ?_ ?_ | with_reducible apply modHoop_same | with_reducible apply stopOnXlate_same | with_reducible apply tryIdle_same | with_reducible exact Sub.up (by with_reducible assumption) (by decide) | fail_if_no_progress (with_reducible apply Same.upd <;> try first | with_reducible exact ⟨rfl, rfl⟩ | with_reducible exact Or.inr (Sub.up (by with_reducible assumption) (by decide)) | with_reducible exact Or.inl rfl) | (intro _) | dsimp only | (with_reducible refine Same.ofEq (by with_reducible assumption) ?_) | split)

theorem askRing_same {c s0 s} {a0} (h : Same c s0 s) (hc : Sub 7731 c := by first | with_reducible assumption | exact Sub.up (by with_reducible assumption) (by decide)) : Same c s0 (askRing a0 s) := by
  unfold askRing
  repeat' (first | with_reducible assumption | with_reducible refine Same.ite ?_ ?_ | with_reducible refine Same.ite2 ?_ ?_ | with_reducible apply askXlate_same | with_reducible apply ringXlateFails_same | with_reducible apply sendPeer_same | with_reducible apply addReq_same | with_reducible exact Sub.up (by with_reducible assumption) (by decide) | fail_if_no_progress (with_reducible apply Same.upd <;> try first | with_reducible exact ⟨rfl, rfl⟩ | with_reducible exact Or.inr (Sub.up (by with_reducible assumption) (by decide)) | with_reducible exact Or.inl rfl) | (intro _) | dsimp only | (with_reducible refine Same.ofEq (by with_reducible assumption) ?_) | split)

theorem ringTail_same {c s0 s} {a0 a1} (h : Same c s0 s) (hc : Sub 7731 c := by first | with_reducible assumption | exact Sub.up (by with_reducible assumption) (by decide)) : Same c s0 (ringTail a0 a1 s) := by
  unfold ringTail
  repeat' (first | with_reducible assumption | with_reducible refine Same.ite ?_ ?_ | with_reducible refine Same.ite2 ?_ ?_ | with_reducible apply modHoop_same | with_reducible apply askRing_same | with_reducible exact Sub.up (by with_reducible assumption) (by decide) | fail_if_no_progress (with_reducible apply Same.upd <;> try first | with_reducible exact ⟨rfl, rfl⟩ | with_reducible exact Or.inr (Sub.up (by with_reducible assumption) (by decide)) | with_reducible exact Or.inl rfl) | (intro _) | dsimp only | (with_reducible refine Same.ofEq (by with_reducible assumption) ?_) | split)

theorem pushEntry_same {c s0 s} {a0 a1 a2} (h : Same c s0 s) (hc : Sub 7731 c := by first | with_reducible assumption | exact Sub.up (by with_reducible assumption) (by decide)) : Same c s0 (pushEntry a0 a1 a2 s) := by
  unfold pushEntry
  repeat' (first | with_reducible assumption | with_reducible refine Same.ite ?_ ?_ | with_reducible refine Same.ite2 ?_ ?_ | with_reducible apply modHoop_same | with_reducible apply when_same | with_reducible apply ringTail_same | with_reducible exact Sub.up (by with_reducible assumption) (by decide) | fail_if_no_progress (with_reducible apply Same.upd <;> try first | with_reducible exact ⟨rfl, rfl⟩ | with_reducible exact Or.inr (Sub.up (by with_reducible assumption) (by decide)) | with_reducible exact Or.inl rfl) | (intro _) | dsimp only | (with_reducible refine Same.ofEq (by with_reducible assumption) ?_) | split)

theorem takeWords_same {c s0 s} {a0 a1} (h : Same c s0 s) (hc : Sub 15923 c := by first | with_reducible assumption | exact Sub.up (by with_reducible assumption) (by decide)) : Same c s0 (takeWords a0 a1 s) := by
  unfold takeWords
  repeat' (first | with_reducible assumption | with_reducible refine Same.ite ?_ ?_ | with_reducible refine Same.ite2 ?_ ?_ | with_reducible apply modHoop_same | with_reducible apply when_same | with_reducible apply validate_same | with_reducible exact Sub.up (by with_reducible assumption) (by decide) | fail_if_no_progress (with_reducible apply Same.upd <;> try first | with_reducible exact ⟨rfl, rfl⟩ | with_reducible exact Or.inr (Sub.up (by with_reducible assumption) (by decide)) | with_reducible exact Or.inl rfl) | (intro _) | dsimp only | (with_reducible refine Same.ofEq (by with_reducible assumption) ?_) | split)

theorem fetchEntries_same {c s0 s} {a0 a1} (h : Same c s0 s) (hc : Sub 15923 c := by first | with_reducible assumption | exact Sub.up (by with_reducible assumption) (by decide)) : Same c s0 (fetchEntries a0 a1 s) := by
  induction a1 generalizing s with
  | zero => exact h
  | succ n ih =>
    unfold fetchEntries
    dsimp only
    split
    · exact h
    split
    · exact ih (modHoop_same h)
    split
    · exact ih (takeWords_same h)
    split
    · exact askXlate_same h
    · exact ringXlateFails_same (askXlate_same h)
    · split
      · exact tryIdle_same (ringStops_same (askXlate_same h))
      · exact ih (takeWords_same (askXlate_same h))

theorem takePushed_same {c s0 s} {a0 a1} (h : Same c s0 s) (hc : Sub 15923 c := by first | with_reducible assumption | exact Sub.up (by with_reducible assumption) (by decide)) : Same c s0 (takePushed a0 a1 s) := by
  induction a1 generalizing s with
  | zero => exact h
  | succ n ih =>
    unfold takePushed
    repeat' (first | with_reducible exact Sub.up (by with_reducible assumption) (by decide) | with_reducible assumption | with_reducible refine Same.ite ?_ ?_ | with_reducible apply ih | with_reducible apply takeWords_same | (intro _) | dsimp only | split)

theorem ringFailed_same {c s0 s} {a0} (h : Same c s0 s) (hc : Sub 7731 c := by first | with_reducible assumption | exact Sub.up (by with_reducible assumption) (by decide)) : Same c s0 (ringFailed a0 s) := by
  unfold ringFailed
  repeat' (first | with_reducible assumption | with_reducible refine Same.ite ?_ ?_ | with_reducible refine Same.ite2 ?_ ?_ | with_reducible apply dropOwner_same | with_reducible apply ringStops_same | with_reducible apply tryIdle_same | with_reducible exact Sub.up (by with_reducible assumption) (by decide) | fail_if_no_progress (with_reducible apply Same.upd <;> try first | with_reducible exact ⟨rfl, rfl⟩ | with_reducible exact Or.inr (Sub.up (by with_reducible assumption) (by decide)) | with_reducible exact Or.inl rfl) | (intro _) | dsimp only | (with_reducible refine Same.ofEq (by with_reducible assumption) ?_) | split)

theorem rereadEntry_same {c s0 s} {a0 a1} (h : Same c s0 s) (hc : Sub 15923 c := by first | with_reducible assumption | exact Sub.up (by with_reducible assumption) (by decide)) : Same c s0 (rereadEntry a0 a1 s) := by
  unfold rereadEntry
  dsimp only
  split
  · exact askXlate_same h
  · exact ringXlateFails_same (askXlate_same h)
  split
  · exact tryIdle_same (ringStops_same (askXlate_same h))
  split
  · exact validate_same (modEntry_same (askXlate_same h))
  split
  · exact failEntry_same (modHoop_same (askXlate_same h))
  · exact modEntry_same (askXlate_same h)

theorem disarmHoop_same {c s0 s} {a0} (h : Same c s0 s) (hc : Sub 16 c := by first | with_reducible assumption | exact Sub.up (by with_reducible assumption) (by decide)) : Same c s0 (disarmHoop a0 s) := by
  unfold disarmHoop
  repeat' (first | with_reducible assumption | with_reducible refine Same.ite ?_ ?_ | with_reducible refine Same.ite2 ?_ ?_ | with_reducible exact Sub.up (by with_reducible assumption) (by decide) | fail_if_no_progress (with_reducible apply Same.upd <;> try first | with_reducible exact ⟨rfl, rfl⟩ | with_reducible exact Or.inr (Sub.up (by with_reducible assumption) (by decide)) | with_reducible exact Or.inl rfl) | (intro _) | dsimp only | (with_reducible refine Same.ofEq (by with_reducible assumption) ?_) | split)

theorem moveHoop_same {c s0 s} {a0 a1} (h : Same c s0 s) (hc : Sub 16 c := by first | with_reducible assumption | exact Sub.up (by with_reducible assumption) (by decide)) : Same c s0 (moveHoop a0 a1 s) := by
  unfold moveHoop
  repeat' (first | with_reducible assumption | with_reducible refine Same.ite ?_ ?_ | with_reducible refine Same.ite2 ?_ ?_ | with_reducible apply modHoop_same | with_reducible exact Sub.up (by with_reducible assumption) (by decide) | fail_if_no_progress (with_reducible apply Same.upd <;> try first | with_reducible exact ⟨rfl, rfl⟩ | with_reducible exact Or.inr (Sub.up (by with_reducible assumption) (by decide)) | with_reducible exact Or.inl rfl) | (intro _) | dsimp only | (with_reducible refine Same.ofEq (by with_reducible assumption) ?_) | split)

theorem resumeHoop_same {c s0 s} {a0 a1} (h : Same c s0 s) (hc : Sub 7731 c := by first | with_reducible assumption | exact Sub.up (by with_reducible assumption) (by decide)) : Same c s0 (resumeHoop a0 a1 s) := by
  unfold resumeHoop
  repeat' (first | with_reducible assumption | with_reducible refine Same.ite ?_ ?_ | with_reducible refine Same.ite2 ?_ ?_ | with_reducible apply dropReqs_same | with_reducible apply disarmHoop_same | with_reducible apply dropOwner_same | with_reducible apply modHoop_same | with_reducible apply modColl_same | with_reducible apply askRing_same | with_reducible apply foldl_same | with_reducible apply foldl2_same | with_reducible exact Sub.up (by with_reducible assumption) (by decide) | fail_if_no_progress (with_reducible apply Same.upd <;> try first | with_reducible exact ⟨rfl, rfl⟩ | with_reducible exact Or.inr (Sub.up (by with_reducible assumption) (by decide)) | with_reducible exact Or.inl rfl) | (intro _) | dsimp only | (with_reducible refine Same.ofEq (by with_reducible assumption) ?_) | split)

theorem thawFn_same {c s0 s} {a0} (h : Same c s0 s) (hc : Sub 7731 c := by first | with_reducible assumption | exact Sub.up (by with_reducible assumption) (by decide)) : Same c s0 (thawFn a0 s) := by
  unfold thawFn
  repeat' (first | with_reducible assumption | with_reducible refine Same.ite ?_ ?_ | with_reducible refine Same.ite2 ?_ ?_ | with_reducible apply modFnS_same | with_reducible apply forAll_same | with_reducible apply resumeHoop_same | with_reducible exact Sub.up (by with_reducible assumption) (by decide) | fail_if_no_progress (with_reducible apply Same.upd <;> try first | with_reducible exact ⟨rfl, rfl⟩ | with_reducible exact Or.inr (Sub.up (by with_reducible assumption) (by decide)) | with_reducible exact Or.inl rfl) | (intro _) | dsimp only | (with_reducible refine Same.ofEq (by with_reducible assumption) ?_) | split)

theorem bar2Reject_same {c s0 s} {a0} (h : Same c s0 s) (hc : Sub 2 c := by first | with_reducible assumption | exact Sub.up (by with_reducible assumption) (by decide)) : Same c s0 (bar2Reject a0 s) := by
  unfold bar2Reject
  repeat' (first | with_reducible assumption | with_reducible refine Same.ite ?_ ?_ | with_reducible refine Same.ite2 ?_ ?_ | with_reducible apply emit_same | with_reducible apply when_same | with_reducible exact Sub.up (by with_reducible assumption) (by decide) | fail_if_no_progress (with_reducible apply Same.upd <;> try first | with_reducible exact ⟨rfl, rfl⟩ | with_reducible exact Or.inr (Sub.up (by with_reducible assumption) (by decide)) | with_reducible exact Or.inl rfl) | (intro _) | dsimp only | (with_reducible refine Same.ofEq (by with_reducible assumption) ?_) | split)

theorem inD0_same {c s0 s} {a0 a1} (h : Same c s0 s) (a1_ok : ∀ t, Same c s0 t → Same c s0 (a1 t)) (hc : Sub 2 c := by first | with_reducible assumption | exact Sub.up (by with_reducible assumption) (by decide)) : Same c s0 (inD0 a0 a1 s) := by
  unfold inD0
  repeat' (first | with_reducible assumption | with_reducible refine Same.ite ?_ ?_ | with_reducible refine Same.ite2 ?_ ?_ | with_reducible apply a1_ok | with_reducible apply fromHost_same | with_reducible apply bar2Reject_same | with_reducible exact Sub.up (by with_reducible assumption) (by decide) | fail_if_no_progress (with_reducible apply Same.upd <;> try first | with_reducible exact ⟨rfl, rfl⟩ | with_reducible exact Or.inr (Sub.up (by with_reducible assumption) (by decide)) | with_reducible exact Or.inl rfl) | (intro _) | dsimp only | (with_reducible refine Same.ofEq (by with_reducible assumption) ?_) | split)

theorem adminValidate_same {c s0 s} {a0 a1} (h : Same c s0 s) (hc : Sub 3635 c := by first | with_reducible assumption | exact Sub.up (by with_reducible assumption) (by decide)) : Same c s0 (adminValidate a0 a1 s) := by
  unfold adminValidate
  repeat' (first | with_reducible assumption | with_reducible refine Same.ite ?_ ?_ | with_reducible refine Same.ite2 ?_ ?_ | with_reducible apply modAdmin_same | with_reducible apply adminDrain_same | with_reducible exact Sub.up (by with_reducible assumption) (by decide) | fail_if_no_progress (with_reducible apply Same.upd <;> try first | with_reducible exact ⟨rfl, rfl⟩ | with_reducible exact Or.inr (Sub.up (by with_reducible assumption) (by decide)) | with_reducible exact Or.inl rfl) | (intro _) | dsimp only | (with_reducible refine Same.ofEq (by with_reducible assumption) ?_) | split)

theorem adminStop_same {c s0 s} {a0} (h : Same c s0 s) (hc : Sub 1042 c := by first | with_reducible assumption | exact Sub.up (by with_reducible assumption) (by decide)) : Same c s0 (adminStop a0 s) := by
  unfold adminStop
  repeat' (first | with_reducible assumption | with_reducible refine Same.ite ?_ ?_ | with_reducible refine Same.ite2 ?_ ?_ | with_reducible apply dropOwner_same | with_reducible apply modAdmin_same | with_reducible exact Sub.up (by with_reducible assumption) (by decide) | fail_if_no_progress (with_reducible apply Same.upd <;> try first | with_reducible exact ⟨rfl, rfl⟩ | with_reducible exact Or.inr (Sub.up (by with_reducible assumption) (by decide)) | with_reducible exact Or.inl rfl) | (intro _) | dsimp only | (with_reducible refine Same.ofEq (by with_reducible assumption) ?_) | split)

theorem askAdmin_same {c s0 s} {a0} (h : Same c s0 s) (hc : Sub 1026 c := by first | with_reducible assumption | exact Sub.up (by with_reducible assumption) (by decide)) : Same c s0 (askAdmin a0 s) := by
  unfold askAdmin
  repeat' (first | with_reducible assumption | with_reducible refine Same.ite ?_ ?_ | with_reducible refine Same.ite2 ?_ ?_ | with_reducible apply addReq_same | with_reducible exact Sub.up (by with_reducible assumption) (by decide) | fail_if_no_progress (with_reducible apply Same.upd <;> try first | with_reducible exact ⟨rfl, rfl⟩ | with_reducible exact Or.inr (Sub.up (by with_reducible assumption) (by decide)) | with_reducible exact Or.inl rfl) | (intro _) | dsimp only | (with_reducible refine Same.ofEq (by with_reducible assumption) ?_) | split)

theorem adminTail_same {c s0 s} {a0 a1} (h : Same c s0 s) (hc : Sub 1042 c := by first | with_reducible assumption | exact Sub.up (by with_reducible assumption) (by decide)) : Same c s0 (adminTail a0 a1 s) := by
  unfold adminTail
  repeat' (first | with_reducible assumption | with_reducible refine Same.ite ?_ ?_ | with_reducible refine Same.ite2 ?_ ?_ | with_reducible apply modAdmin_same | with_reducible apply askAdmin_same | with_reducible exact Sub.up (by with_reducible assumption) (by decide) | fail_if_no_progress (with_reducible apply Same.upd <;> try first | with_reducible exact ⟨rfl, rfl⟩ | with_reducible exact Or.inr (Sub.up (by with_reducible assumption) (by decide)) | with_reducible exact Or.inl rfl) | (intro _) | dsimp only | (with_reducible refine Same.ofEq (by with_reducible assumption) ?_) | split)

theorem fetchAdmin_same {c s0 s} {a0 a1} (h : Same c s0 s) (hc : Sub 3635 c := by first | with_reducible assumption | exact Sub.up (by with_reducible assumption) (by decide)) : Same c s0 (fetchAdmin a0 a1 s) := by
  induction a1 generalizing s with
  | zero => exact h
  | succ n ih =>
    unfold fetchAdmin
    repeat' (first | with_reducible exact Sub.up (by with_reducible assumption) (by decide) | with_reducible assumption | with_reducible refine Same.ite ?_ ?_ | with_reducible apply ih | with_reducible apply adminStop_same | with_reducible apply when_same | with_reducible apply modAdmin_same | with_reducible apply adminValidate_same | (intro _))

theorem rereadAdmin_same {c s0 s} {a0 a1} (h : Same c s0 s) (hc : Sub 3635 c := by first | with_reducible assumption | exact Sub.up (by with_reducible assumption) (by decide)) : Same c s0 (rereadAdmin a0 a1 s) := by
  unfold rereadAdmin
  repeat' (first | with_reducible assumption | with_reducible refine Same.ite ?_ ?_ | with_reducible refine Same.ite2 ?_ ?_ | with_reducible apply adminStop_same | with_reducible apply modAdmin_same | with_reducible apply adminValidate_same | with_reducible apply adminDrain_same | with_reducible exact Sub.up (by with_reducible assumption) (by decide) | fail_if_no_progress (with_reducible apply Same.upd <;> try first | with_reducible exact ⟨rfl, rfl⟩ | with_reducible exact Or.inr (Sub.up (by with_reducible assumption) (by decide)) | with_reducible exact Or.inl rfl) | (intro _) | dsimp only | (with_reducible refine Same.ofEq (by with_reducible assumption) ?_) | split)

theorem startAdmin_same {c s0 s} {a0 a1} (h : Same c s0 s) (hc : Sub 1042 c := by first | with_reducible assumption | exact Sub.up (by with_reducible assumption) (by decide)) : Same c s0 (startAdmin a0 a1 s) := by
  unfold startAdmin
  repeat' (first | with_reducible assumption | with_reducible refine Same.ite ?_ ?_ | with_reducible refine Same.ite2 ?_ ?_ | with_reducible apply modAdmin_same | with_reducible apply addReq_same | with_reducible exact Sub.up (by with_reducible assumption) (by decide) | fail_if_no_progress (with_reducible apply Same.upd <;> try first | with_reducible exact ⟨rfl, rfl⟩ | with_reducible exact Or.inr (Sub.up (by with_reducible assumption) (by decide)) | with_reducible exact Or.inl rfl) | (intro _) | dsimp only | (with_reducible refine Same.ofEq (by with_reducible assumption) ?_) | split)

theorem vstore_same {c s0 s} {a0 a1 a2 a3} (h : Same c s0 s) (hc : Sub 3091 c := by first | with_reducible assumption | exact Sub.up (by with_reducible assumption) (by decide)) : Same c s0 (vstore a0 a1 a2 a3 s) := by
  unfold vstore
  repeat' (first | with_reducible assumption | with_reducible refine Same.ite ?_ ?_ | with_reducible refine Same.ite2 ?_ ?_ | with_reducible apply forAll_same | with_reducible apply storeAt_same | with_reducible exact Sub.up (by with_reducible assumption) (by decide) | fail_if_no_progress (with_reducible apply Same.upd <;> try first | with_reducible exact ⟨rfl, rfl⟩ | with_reducible exact Or.inr (Sub.up (by with_reducible assumption) (by decide)) | with_reducible exact Or.inl rfl) | (intro _) | dsimp only | (with_reducible refine Same.ofEq (by with_reducible assumption) ?_) | split)

theorem vstoreAll_same {c s0 s} {a0 a1 a2 a3} (h : Same c s0 s) (hc : Sub 3091 c := by first | with_reducible assumption | exact Sub.up (by with_reducible assumption) (by decide)) : Same c s0 (vstoreAll a0 a1 a2 a3 s) := by
  induction a2 generalizing s a3 with
  | nil => exact h
  | cons r l ih => exact ih (vstore_same h)

theorem addHeld_same {c s0 s} {a0 a1} (h : Same c s0 s) (hc : Sub 1024 c := by first | with_reducible assumption | exact Sub.up (by with_reducible assumption) (by decide)) : Same c s0 (addHeld a0 a1 s) := by
  unfold addHeld
  repeat' (first | with_reducible assumption | with_reducible refine Same.ite ?_ ?_ | with_reducible refine Same.ite2 ?_ ?_ | with_reducible apply modAcd_same | with_reducible exact Sub.up (by with_reducible assumption) (by decide) | fail_if_no_progress (with_reducible apply Same.upd <;> try first | with_reducible exact ⟨rfl, rfl⟩ | with_reducible exact Or.inr (Sub.up (by with_reducible assumption) (by decide)) | with_reducible exact Or.inl rfl) | (intro _) | dsimp only | (with_reducible refine Same.ofEq (by with_reducible assumption) ?_) | split)

theorem yieldCoherence_same {c s0 s} {a0 a1} (h : Same c s0 s) (hc : Sub 11827 c := by first | with_reducible assumption | exact Sub.up (by with_reducible assumption) (by decide)) : Same c s0 (yieldCoherence a0 a1 s) := by
  unfold yieldCoherence
  repeat' (first | with_reducible assumption | with_reducible refine Same.ite ?_ ?_ | with_reducible refine Same.ite2 ?_ ?_ | with_reducible apply forAll_same | with_reducible apply yieldWheel_same | with_reducible exact Sub.up (by with_reducible assumption) (by decide) | fail_if_no_progress (with_reducible apply Same.upd <;> try first | with_reducible exact ⟨rfl, rfl⟩ | with_reducible exact Or.inr (Sub.up (by with_reducible assumption) (by decide)) | with_reducible exact Or.inl rfl) | (intro _) | dsimp only | (with_reducible refine Same.ofEq (by with_reducible assumption) ?_) | split)

theorem gateSeg_same {c s0 s} {a0 a1 a2} (h : Same c s0 s) (hc : Sub 11827 c := by first | with_reducible assumption | exact Sub.up (by with_reducible assumption) (by decide)) : Same c s0 (gateSeg a0 a1 a2 s).2 := by
  unfold gateSeg
  repeat' (first | with_reducible assumption | with_reducible refine Same.ite ?_ ?_ | with_reducible refine Same.ite2 ?_ ?_ | with_reducible apply takeHolds_same | with_reducible apply startPages_same | with_reducible apply vatFault_same | with_reducible apply askHosts_same | with_reducible apply yieldCoherence_same | with_reducible apply askLines_same | with_reducible exact Sub.up (by with_reducible assumption) (by decide) | fail_if_no_progress (with_reducible apply Same.upd <;> try first | with_reducible exact ⟨rfl, rfl⟩ | with_reducible exact Or.inr (Sub.up (by with_reducible assumption) (by decide)) | with_reducible exact Or.inl rfl) | (intro _) | dsimp only | (with_reducible refine Same.ofEq (by with_reducible assumption) ?_) | split)

theorem clobber_same {c s0 s} {a0 a1 a2} (h : Same c s0 s) (hc : Sub 3091 c := by first | with_reducible assumption | exact Sub.up (by with_reducible assumption) (by decide)) : Same c s0 (clobber a0 a1 a2 s) := by
  unfold clobber
  repeat' (first | with_reducible assumption | with_reducible refine Same.ite ?_ ?_ | with_reducible refine Same.ite2 ?_ ?_ | with_reducible apply takeFree_same | with_reducible apply vstore_same | with_reducible exact Sub.up (by with_reducible assumption) (by decide) | fail_if_no_progress (with_reducible apply Same.upd <;> try first | with_reducible exact ⟨rfl, rfl⟩ | with_reducible exact Or.inr (Sub.up (by with_reducible assumption) (by decide)) | with_reducible exact Or.inl rfl) | (intro _) | dsimp only | (with_reducible refine Same.ofEq (by with_reducible assumption) ?_) | split)

theorem clobberEntry_same {c s0 s} {a0 a1} (h : Same c s0 s) (hc : Sub 3091 c := by first | with_reducible assumption | exact Sub.up (by with_reducible assumption) (by decide)) : Same c s0 (clobberEntry a0 a1 s) := by
  unfold clobberEntry
  repeat' (first | with_reducible assumption | with_reducible refine Same.ite ?_ ?_ | with_reducible refine Same.ite2 ?_ ?_ | with_reducible apply forAll_same | with_reducible apply clobber_same | with_reducible exact Sub.up (by with_reducible assumption) (by decide) | fail_if_no_progress (with_reducible apply Same.upd <;> try first | with_reducible exact ⟨rfl, rfl⟩ | with_reducible exact Or.inr (Sub.up (by with_reducible assumption) (by decide)) | with_reducible exact Or.inl rfl) | (intro _) | dsimp only | (with_reducible refine Same.ofEq (by with_reducible assumption) ?_) | split)

theorem settle_same {c s0 s} {a0 a1} (h : Same c s0 s) (hc : Sub 15923 c := by first | with_reducible assumption | exact Sub.up (by with_reducible assumption) (by decide)) : Same c s0 (settle a0 a1 s) := by
  unfold settle
  repeat' (first | with_reducible assumption | with_reducible refine Same.ite ?_ ?_ | with_reducible refine Same.ite2 ?_ ?_ | with_reducible apply when_same | with_reducible apply clobberEntry_same | with_reducible apply finishEntry_same | with_reducible exact Sub.up (by with_reducible assumption) (by decide) | fail_if_no_progress (with_reducible apply Same.upd <;> try first | with_reducible exact ⟨rfl, rfl⟩ | with_reducible exact Or.inr (Sub.up (by with_reducible assumption) (by decide)) | with_reducible exact Or.inl rfl) | (intro _) | dsimp only | (with_reducible refine Same.ofEq (by with_reducible assumption) ?_) | split)

theorem failSeg_same {c s0 s} {a0 a1 a2 a3 a4} (h : Same c s0 s) (hc : Sub 15923 c := by first | with_reducible assumption | exact Sub.up (by with_reducible assumption) (by decide)) : Same c s0 (failSeg a0 a1 a2 a3 a4 s) := by
  unfold failSeg
  repeat' (first | with_reducible assumption | with_reducible refine Same.ite ?_ ?_ | with_reducible refine Same.ite2 ?_ ?_ | with_reducible apply modEntry_same | with_reducible apply dropOwner_same | with_reducible apply settle_same | with_reducible apply holdPages_same | with_reducible exact Sub.up (by with_reducible assumption) (by decide) | fail_if_no_progress (with_reducible apply Same.upd <;> try first | with_reducible exact ⟨rfl, rfl⟩ | with_reducible exact Or.inr (Sub.up (by with_reducible assumption) (by decide)) | with_reducible exact Or.inl rfl) | (intro _) | dsimp only | (with_reducible refine Same.ofEq (by with_reducible assumption) ?_) | split)

theorem doneSeg_same {c s0 s} {a0 a1 a2} (h : Same c s0 s) (hc : Sub 15923 c := by first | with_reducible assumption | exact Sub.up (by with_reducible assumption) (by decide)) : Same c s0 (doneSeg a0 a1 a2 s) := by
  unfold doneSeg
  repeat' (first | with_reducible assumption | with_reducible refine Same.ite ?_ ?_ | with_reducible refine Same.ite2 ?_ ?_ | with_reducible apply modEntry_same | with_reducible apply failSeg_same | with_reducible apply dropOwner_same | with_reducible apply settle_same | with_reducible apply holdPages_same | with_reducible exact Sub.up (by with_reducible assumption) (by decide) | fail_if_no_progress (with_reducible apply Same.upd <;> try first | with_reducible exact ⟨rfl, rfl⟩ | with_reducible exact Or.inr (Sub.up (by with_reducible assumption) (by decide)) | with_reducible exact Or.inl rfl) | (intro _) | dsimp only | (with_reducible refine Same.ofEq (by with_reducible assumption) ?_) | split)

theorem countBytes_same {c s0 s} {a0 a1} (h : Same c s0 s) (hc : Sub 8224 c := by first | with_reducible assumption | exact Sub.up (by with_reducible assumption) (by decide)) : Same c s0 (countBytes a0 a1 s) := by
  unfold countBytes
  repeat' (first | with_reducible assumption | with_reducible refine Same.ite ?_ ?_ | with_reducible refine Same.ite2 ?_ ?_ | with_reducible apply modFnS_same | with_reducible apply modWheel_same | with_reducible exact Sub.up (by with_reducible assumption) (by decide) | fail_if_no_progress (with_reducible apply Same.upd <;> try first | with_reducible exact ⟨rfl, rfl⟩ | with_reducible exact Or.inr (Sub.up (by with_reducible assumption) (by decide)) | with_reducible exact Or.inl rfl) | (intro _) | dsimp only | (with_reducible refine Same.ofEq (by with_reducible assumption) ?_) | split)

theorem askPeers_same {c s0 s} {a0 a1 a2 a3} (h : Same c s0 s) (hc : Sub 1042 c := by first | with_reducible assumption | exact Sub.up (by with_reducible assumption) (by decide)) : Same c s0 (askPeers a0 a1 a2 a3 s) := by
  unfold askPeers
  repeat' (first | with_reducible assumption | with_reducible refine Same.ite ?_ ?_ | with_reducible refine Same.ite2 ?_ ?_ | with_reducible apply modEntry_same | with_reducible apply forAll_same | with_reducible apply sendPeer_same | with_reducible exact Sub.up (by with_reducible assumption) (by decide) | fail_if_no_progress (with_reducible apply Same.upd <;> try first | with_reducible exact ⟨rfl, rfl⟩ | with_reducible exact Or.inr (Sub.up (by with_reducible assumption) (by decide)) | with_reducible exact Or.inl rfl) | (intro _) | dsimp only | (with_reducible refine Same.ofEq (by with_reducible assumption) ?_) | split)

theorem issueParts_same {c s0 s} {a0 a1 a2 a3 a4} (h : Same c s0 s) (hc : Sub 1026 c := by first | with_reducible assumption | exact Sub.up (by with_reducible assumption) (by decide)) : Same c s0 (issueParts a0 a1 a2 a3 a4 s) := by
  unfold issueParts
  repeat' (first | with_reducible assumption | with_reducible refine Same.ite ?_ ?_ | with_reducible refine Same.ite2 ?_ ?_ | with_reducible apply forAll_same | with_reducible apply hostPut_same | with_reducible apply sendPeer_same | with_reducible apply addReq_same | with_reducible apply addHeld_same | with_reducible exact Sub.up (by with_reducible assumption) (by decide) | fail_if_no_progress (with_reducible apply Same.upd <;> try first | with_reducible exact ⟨rfl, rfl⟩ | with_reducible exact Or.inr (Sub.up (by with_reducible assumption) (by decide)) | with_reducible exact Or.inl rfl) | (intro _) | dsimp only | (with_reducible refine Same.ofEq (by with_reducible assumption) ?_) | split)

theorem busySeg_same {c s0 s} {a0 a1 a2 a3} (h : Same c s0 s) (hc : Sub 9266 c := by first | with_reducible assumption | exact Sub.up (by with_reducible assumption) (by decide)) : Same c s0 (busySeg a0 a1 a2 a3 s) := by
  unfold busySeg
  repeat' (first | with_reducible assumption | with_reducible refine Same.ite ?_ ?_ | with_reducible refine Same.ite2 ?_ ?_ | with_reducible apply modEntry_same | with_reducible apply issueParts_same | with_reducible apply countBytes_same | with_reducible exact Sub.up (by with_reducible assumption) (by decide) | fail_if_no_progress (with_reducible apply Same.upd <;> try first | with_reducible exact ⟨rfl, rfl⟩ | with_reducible exact Or.inr (Sub.up (by with_reducible assumption) (by decide)) | with_reducible exact Or.inl rfl) | (intro _) | dsimp only | (with_reducible refine Same.ofEq (by with_reducible assumption) ?_) | split)

theorem disarmWait_same {c s0 s} {a0 a1} (h : Same c s0 s) (hc : Sub 16 c := by first | with_reducible assumption | exact Sub.up (by with_reducible assumption) (by decide)) : Same c s0 (disarmWait a0 a1 s) := by
  unfold disarmWait
  repeat' (first | with_reducible assumption | with_reducible refine Same.ite ?_ ?_ | with_reducible refine Same.ite2 ?_ ?_ | with_reducible exact Sub.up (by with_reducible assumption) (by decide) | fail_if_no_progress (with_reducible apply Same.upd <;> try first | with_reducible exact ⟨rfl, rfl⟩ | with_reducible exact Or.inr (Sub.up (by with_reducible assumption) (by decide)) | with_reducible exact Or.inl rfl) | (intro _) | dsimp only | (with_reducible refine Same.ofEq (by with_reducible assumption) ?_) | split)

theorem endWait_same {c s0 s} {a0 a1 a2} (h : Same c s0 s) (hc : Sub 15923 c := by first | with_reducible assumption | exact Sub.up (by with_reducible assumption) (by decide)) : Same c s0 (endWait a0 a1 a2 s) := by
  unfold endWait
  repeat' (first | with_reducible assumption | with_reducible refine Same.ite ?_ ?_ | with_reducible refine Same.ite2 ?_ ?_ | with_reducible apply disarmWait_same | with_reducible apply finishEntry_same | with_reducible exact Sub.up (by with_reducible assumption) (by decide) | fail_if_no_progress (with_reducible apply Same.upd <;> try first | with_reducible exact ⟨rfl, rfl⟩ | with_reducible exact Or.inr (Sub.up (by with_reducible assumption) (by decide)) | with_reducible exact Or.inl rfl) | (intro _) | dsimp only | (with_reducible refine Same.ofEq (by with_reducible assumption) ?_) | split)

theorem signalWait_same {c s0 s} {a0 a1 a2} (h : Same c s0 s) (hc : Sub 15923 c := by first | with_reducible assumption | exact Sub.up (by with_reducible assumption) (by decide)) : Same c s0 (signalWait a0 a1 a2 s) := by
  unfold signalWait
  repeat' (first | with_reducible assumption | with_reducible refine Same.ite ?_ ?_ | with_reducible refine Same.ite2 ?_ ?_ | with_reducible apply disarmWait_same | with_reducible apply modEntry_same | with_reducible apply finishEntry_same | with_reducible exact Sub.up (by with_reducible assumption) (by decide) | fail_if_no_progress (with_reducible apply Same.upd <;> try first | with_reducible exact ⟨rfl, rfl⟩ | with_reducible exact Or.inr (Sub.up (by with_reducible assumption) (by decide)) | with_reducible exact Or.inl rfl) | (intro _) | dsimp only | (with_reducible refine Same.ofEq (by with_reducible assumption) ?_) | split)

theorem fenceSeen_same {c s0 s} {a0 a1 a2} (h : Same c s0 s) (hc : Sub 15923 c := by first | with_reducible assumption | exact Sub.up (by with_reducible assumption) (by decide)) : Same c s0 (fenceSeen a0 a1 a2 s) := by
  unfold fenceSeen
  repeat' (first | with_reducible assumption | with_reducible refine Same.ite ?_ ?_ | with_reducible refine Same.ite2 ?_ ?_ | with_reducible apply forAll_same | with_reducible apply signalWait_same | with_reducible exact Sub.up (by with_reducible assumption) (by decide) | fail_if_no_progress (with_reducible apply Same.upd <;> try first | with_reducible exact ⟨rfl, rfl⟩ | with_reducible exact Or.inr (Sub.up (by with_reducible assumption) (by decide)) | with_reducible exact Or.inl rfl) | (intro _) | dsimp only | (with_reducible refine Same.ofEq (by with_reducible assumption) ?_) | split)

theorem askFence_same {c s0 s} {a0 a1 a2} (h : Same c s0 s) (hc : Sub 1026 c := by first | with_reducible assumption | exact Sub.up (by with_reducible assumption) (by decide)) : Same c s0 (askFence a0 a1 a2 s) := by
  unfold askFence
  repeat' (first | with_reducible assumption | with_reducible refine Same.ite ?_ ?_ | with_reducible refine Same.ite2 ?_ ?_ | with_reducible apply sendPeer_same | with_reducible apply addReq_same | with_reducible exact Sub.up (by with_reducible assumption) (by decide) | fail_if_no_progress (with_reducible apply Same.upd <;> try first | with_reducible exact ⟨rfl, rfl⟩ | with_reducible exact Or.inr (Sub.up (by with_reducible assumption) (by decide)) | with_reducible exact Or.inl rfl) | (intro _) | dsimp only | (with_reducible refine Same.ofEq (by with_reducible assumption) ?_) | split)

theorem readFence_same {c s0 s} {a0 a1 a2 a3 a4} (h : Same c s0 s) (a4_ok : ∀ x0 t, Same c s0 t → Same c s0 (a4 x0 t)) (hc : Sub 15923 c := by first | with_reducible assumption | exact Sub.up (by with_reducible assumption) (by decide)) : Same c s0 (readFence a0 a1 a2 a3 a4 s) := by
  unfold readFence
  repeat' (first | with_reducible assumption | with_reducible refine Same.ite ?_ ?_ | with_reducible refine Same.ite2 ?_ ?_ | with_reducible apply a4_ok | with_reducible apply askXlate_same | with_reducible apply forAll_same | with_reducible apply endWait_same | with_reducible apply vatFault_same | with_reducible apply dropOwner_same | with_reducible apply askHosts_same | with_reducible apply askLines_same | with_reducible apply askFence_same | with_reducible apply fenceSeen_same | with_reducible exact Sub.up (by with_reducible assumption) (by decide) | fail_if_no_progress (with_reducible apply Same.upd <;> try first | with_reducible exact ⟨rfl, rfl⟩ | with_reducible exact Or.inr (Sub.up (by with_reducible assumption) (by decide)) | with_reducible exact Or.inl rfl) | (intro _) | dsimp only | (with_reducible refine Same.ofEq (by with_reducible assumption) ?_) | split)

theorem watcherReads_same {c s0 s} {a0 a1} (h : Same c s0 s) (hc : Sub 15923 c := by first | with_reducible assumption | exact Sub.up (by with_reducible assumption) (by decide)) : Same c s0 (watcherReads a0 a1 s) := by
  unfold watcherReads
  repeat' (first | with_reducible assumption | with_reducible refine Same.ite ?_ ?_ | with_reducible refine Same.ite2 ?_ ?_ | with_reducible apply readFence_same | with_reducible apply modWatcher_same | with_reducible exact Sub.up (by with_reducible assumption) (by decide) | fail_if_no_progress (with_reducible apply Same.upd <;> try first | with_reducible exact ⟨rfl, rfl⟩ | with_reducible exact Or.inr (Sub.up (by with_reducible assumption) (by decide)) | with_reducible exact Or.inl rfl) | (intro _) | dsimp only | (with_reducible refine Same.ofEq (by with_reducible assumption) ?_) | split)

theorem readWatcher_same {c s0 s} {a0} (h : Same c s0 s) (hc : Sub 15923 c := by first | with_reducible assumption | exact Sub.up (by with_reducible assumption) (by decide)) : Same c s0 (readWatcher a0 s) := by
  unfold readWatcher
  repeat' (first | with_reducible assumption | with_reducible refine Same.ite ?_ ?_ | with_reducible refine Same.ite2 ?_ ?_ | with_reducible apply watcherReads_same | with_reducible exact Sub.up (by with_reducible assumption) (by decide) | fail_if_no_progress (with_reducible apply Same.upd <;> try first | with_reducible exact ⟨rfl, rfl⟩ | with_reducible exact Or.inr (Sub.up (by with_reducible assumption) (by decide)) | with_reducible exact Or.inl rfl) | (intro _) | dsimp only | (with_reducible refine Same.ofEq (by with_reducible assumption) ?_) | split)

theorem pollReads_same {c s0 s} {a0 a1} (h : Same c s0 s) (hc : Sub 15923 c := by first | with_reducible assumption | exact Sub.up (by with_reducible assumption) (by decide)) : Same c s0 (pollReads a0 a1 s) := by
  unfold pollReads
  repeat' (first | with_reducible assumption | with_reducible refine Same.ite ?_ ?_ | with_reducible refine Same.ite2 ?_ ?_ | with_reducible apply readFence_same | with_reducible apply modPollWait_same | with_reducible exact Sub.up (by with_reducible assumption) (by decide) | fail_if_no_progress (with_reducible apply Same.upd <;> try first | with_reducible exact ⟨rfl, rfl⟩ | with_reducible exact Or.inr (Sub.up (by with_reducible assumption) (by decide)) | with_reducible exact Or.inl rfl) | (intro _) | dsimp only | (with_reducible refine Same.ofEq (by with_reducible assumption) ?_) | split)

theorem readPoll_same {c s0 s} {a0} (h : Same c s0 s) (hc : Sub 15923 c := by first | with_reducible assumption | exact Sub.up (by with_reducible assumption) (by decide)) : Same c s0 (readPoll a0 s) := by
  unfold readPoll
  repeat' (first | with_reducible assumption | with_reducible refine Same.ite ?_ ?_ | with_reducible refine Same.ite2 ?_ ?_ | with_reducible apply pollReads_same | with_reducible exact Sub.up (by with_reducible assumption) (by decide) | fail_if_no_progress (with_reducible apply Same.upd <;> try first | with_reducible exact ⟨rfl, rfl⟩ | with_reducible exact Or.inr (Sub.up (by with_reducible assumption) (by decide)) | with_reducible exact Or.inl rfl) | (intro _) | dsimp only | (with_reducible refine Same.ofEq (by with_reducible assumption) ?_) | split)

theorem armWait_same {c s0 s} {a0 a1 a2} (h : Same c s0 s) (hc : Sub 15923 c := by first | with_reducible assumption | exact Sub.up (by with_reducible assumption) (by decide)) : Same c s0 (armWait a0 a1 a2 s) := by
  unfold armWait
  repeat' (first | with_reducible assumption | with_reducible refine Same.ite ?_ ?_ | with_reducible refine Same.ite2 ?_ ?_ | with_reducible apply modWatcher_same | with_reducible apply readWatcher_same | with_reducible apply modPollWait_same | with_reducible apply readPoll_same | with_reducible apply foldl_same | with_reducible apply foldl2_same | with_reducible exact Sub.up (by with_reducible assumption) (by decide) | fail_if_no_progress (with_reducible apply Same.upd <;> try first | with_reducible exact ⟨rfl, rfl⟩ | with_reducible exact Or.inr (Sub.up (by with_reducible assumption) (by decide)) | with_reducible exact Or.inl rfl) | (intro _) | dsimp only | (with_reducible refine Same.ofEq (by with_reducible assumption) ?_) | split)

theorem failWaits_same {c s0 s} {a0 a1} (h : Same c s0 s) (hc : Sub 15923 c := by first | with_reducible assumption | exact Sub.up (by with_reducible assumption) (by decide)) : Same c s0 (failWaits a0 a1 s) := by
  unfold failWaits
  repeat' (first | with_reducible assumption | with_reducible refine Same.ite ?_ ?_ | with_reducible refine Same.ite2 ?_ ?_ | with_reducible apply forAll_same | with_reducible apply endWait_same | with_reducible exact Sub.up (by with_reducible assumption) (by decide) | fail_if_no_progress (with_reducible apply Same.upd <;> try first | with_reducible exact ⟨rfl, rfl⟩ | with_reducible exact Or.inr (Sub.up (by with_reducible assumption) (by decide)) | with_reducible exact Or.inl rfl) | (intro _) | dsimp only | (with_reducible refine Same.ofEq (by with_reducible assumption) ?_) | split)

theorem revokeWaits_same {c s0 s} (h : Same c s0 s) (hc : Sub 15923 c := by first | with_reducible assumption | exact Sub.up (by with_reducible assumption) (by decide)) : Same c s0 (revokeWaits s) := by
  unfold revokeWaits
  repeat' (first | with_reducible assumption | with_reducible refine Same.ite ?_ ?_ | with_reducible refine Same.ite2 ?_ ?_ | with_reducible apply forAll_same | with_reducible apply readWatcher_same | with_reducible apply readPoll_same | with_reducible exact Sub.up (by with_reducible assumption) (by decide) | fail_if_no_progress (with_reducible apply Same.upd <;> try first | with_reducible exact ⟨rfl, rfl⟩ | with_reducible exact Or.inr (Sub.up (by with_reducible assumption) (by decide)) | with_reducible exact Or.inl rfl) | (intro _) | dsimp only | (with_reducible refine Same.ofEq (by with_reducible assumption) ?_) | split)

theorem answerPkt_same {c s0 s} {a0 a1 a2 a3} (h : Same c s0 s) (hc : Sub 1026 c := by first | with_reducible assumption | exact Sub.up (by with_reducible assumption) (by decide)) : Same c s0 (answerPkt a0 a1 a2 a3 s) := by
  unfold answerPkt
  repeat' (first | with_reducible assumption | with_reducible refine Same.ite ?_ ?_ | with_reducible refine Same.ite2 ?_ ?_ | with_reducible apply sendPacket_same | with_reducible exact Sub.up (by with_reducible assumption) (by decide) | fail_if_no_progress (with_reducible apply Same.upd <;> try first | with_reducible exact ⟨rfl, rfl⟩ | with_reducible exact Or.inr (Sub.up (by with_reducible assumption) (by decide)) | with_reducible exact Or.inl rfl) | (intro _) | dsimp only | (with_reducible refine Same.ofEq (by with_reducible assumption) ?_) | split)

theorem nakPkt_same {c s0 s} {a0 a1} (h : Same c s0 s) (hc : Sub 1026 c := by first | with_reducible assumption | exact Sub.up (by with_reducible assumption) (by decide)) : Same c s0 (nakPkt a0 a1 s) := by
  unfold nakPkt
  repeat' (first | with_reducible assumption | with_reducible refine Same.ite ?_ ?_ | with_reducible refine Same.ite2 ?_ ?_ | with_reducible apply answerPkt_same | with_reducible exact Sub.up (by with_reducible assumption) (by decide) | fail_if_no_progress (with_reducible apply Same.upd <;> try first | with_reducible exact ⟨rfl, rfl⟩ | with_reducible exact Or.inr (Sub.up (by with_reducible assumption) (by decide)) | with_reducible exact Or.inl rfl) | (intro _) | dsimp only | (with_reducible refine Same.ofEq (by with_reducible assumption) ?_) | split)

theorem applyAtomic_same {c s0 s} {a0 a1 a2 a3 a4} (h : Same c s0 s) (hc : Sub 3091 c := by first | with_reducible assumption | exact Sub.up (by with_reducible assumption) (by decide)) : Same c s0 (applyAtomic a0 a1 a2 a3 a4 s).2 := by
  unfold applyAtomic
  repeat' (first | with_reducible assumption | with_reducible refine Same.ite ?_ ?_ | with_reducible refine Same.ite2 ?_ ?_ | with_reducible apply storeAt_same | with_reducible exact Sub.up (by with_reducible assumption) (by decide) | fail_if_no_progress (with_reducible apply Same.upd <;> try first | with_reducible exact ⟨rfl, rfl⟩ | with_reducible exact Or.inr (Sub.up (by with_reducible assumption) (by decide)) | with_reducible exact Or.inl rfl) | (intro _) | dsimp only | (with_reducible refine Same.ofEq (by with_reducible assumption) ?_) | split)

theorem setPeerMark_same {c s0 s} {a0 a1} (h : Same c s0 s) (hc : Sub 16 c := by first | with_reducible assumption | exact Sub.up (by with_reducible assumption) (by decide)) : Same c s0 (setPeerMark a0 a1 s) := by
  unfold setPeerMark
  repeat' (first | with_reducible assumption | with_reducible refine Same.ite ?_ ?_ | with_reducible refine Same.ite2 ?_ ?_ | with_reducible exact Sub.up (by with_reducible assumption) (by decide) | fail_if_no_progress (with_reducible apply Same.upd <;> try first | with_reducible exact ⟨rfl, rfl⟩ | with_reducible exact Or.inr (Sub.up (by with_reducible assumption) (by decide)) | with_reducible exact Or.inl rfl) | (intro _) | dsimp only | (with_reducible refine Same.ofEq (by with_reducible assumption) ?_) | split)

theorem atApply_same {c s0 s} {a0 a1 a2} (h : Same c s0 s) (hc : Sub 3091 c := by first | with_reducible assumption | exact Sub.up (by with_reducible assumption) (by decide)) : Same c s0 (atApply a0 a1 a2 s).2 := by
  unfold atApply
  repeat' (first | with_reducible assumption | with_reducible refine Same.ite ?_ ?_ | with_reducible refine Same.ite2 ?_ ?_ | with_reducible apply takeFree_same | with_reducible apply applyAtomic_same | with_reducible apply setPeerMark_same | with_reducible apply foldl_same | with_reducible apply foldl2_same | with_reducible exact Sub.up (by with_reducible assumption) (by decide) | fail_if_no_progress (with_reducible apply Same.upd <;> try first | with_reducible exact ⟨rfl, rfl⟩ | with_reducible exact Or.inr (Sub.up (by with_reducible assumption) (by decide)) | with_reducible exact Or.inl rfl) | (intro _) | dsimp only | (with_reducible refine Same.ofEq (by with_reducible assumption) ?_) | split)

theorem serveRead_same {c s0 s} {a0 a1} (h : Same c s0 s) (hc : Sub 1026 c := by first | with_reducible assumption | exact Sub.up (by with_reducible assumption) (by decide)) : Same c s0 (serveRead a0 a1 s).2 := by
  unfold serveRead
  repeat' (first | with_reducible assumption | with_reducible refine Same.ite ?_ ?_ | with_reducible refine Same.ite2 ?_ ?_ | with_reducible apply answerPkt_same | with_reducible exact Sub.up (by with_reducible assumption) (by decide) | fail_if_no_progress (with_reducible apply Same.upd <;> try first | with_reducible exact ⟨rfl, rfl⟩ | with_reducible exact Or.inr (Sub.up (by with_reducible assumption) (by decide)) | with_reducible exact Or.inl rfl) | (intro _) | dsimp only | (with_reducible refine Same.ofEq (by with_reducible assumption) ?_) | split)

theorem serveWrite_same {c s0 s} {a0 a1} (h : Same c s0 s) (hc : Sub 3091 c := by first | with_reducible assumption | exact Sub.up (by with_reducible assumption) (by decide)) : Same c s0 (serveWrite a0 a1 s).2 := by
  unfold serveWrite
  repeat' (first | with_reducible assumption | with_reducible refine Same.ite ?_ ?_ | with_reducible refine Same.ite2 ?_ ?_ | with_reducible apply storeAt_same | with_reducible apply answerPkt_same | with_reducible apply addHeld_same | with_reducible apply nakPkt_same | with_reducible exact Sub.up (by with_reducible assumption) (by decide) | fail_if_no_progress (with_reducible apply Same.upd <;> try first | with_reducible exact ⟨rfl, rfl⟩ | with_reducible exact Or.inr (Sub.up (by with_reducible assumption) (by decide)) | with_reducible exact Or.inl rfl) | (intro _) | dsimp only | (with_reducible refine Same.ofEq (by with_reducible assumption) ?_) | split)

theorem serveAtomic_same {c s0 s} {a0 a1} (h : Same c s0 s) (hc : Sub 3091 c := by first | with_reducible assumption | exact Sub.up (by with_reducible assumption) (by decide)) : Same c s0 (serveAtomic a0 a1 s).2 := by
  unfold serveAtomic
  repeat' (first | with_reducible assumption | with_reducible refine Same.ite ?_ ?_ | with_reducible refine Same.ite2 ?_ ?_ | with_reducible apply nakPkt_same | with_reducible apply atApply_same | with_reducible apply answerPkt_same | with_reducible exact Sub.up (by with_reducible assumption) (by decide) | fail_if_no_progress (with_reducible apply Same.upd <;> try first | with_reducible exact ⟨rfl, rfl⟩ | with_reducible exact Or.inr (Sub.up (by with_reducible assumption) (by decide)) | with_reducible exact Or.inl rfl) | (intro _) | dsimp only | (with_reducible refine Same.ofEq (by with_reducible assumption) ?_) | split)

theorem tryServe_same {c s0 s} {a0 a1} (h : Same c s0 s) (hc : Sub 3091 c := by first | with_reducible assumption | exact Sub.up (by with_reducible assumption) (by decide)) : Same c s0 (tryServe a0 a1 s).2 := by
  unfold tryServe
  repeat' (first | with_reducible assumption | with_reducible refine Same.ite ?_ ?_ | with_reducible refine Same.ite2 ?_ ?_ | with_reducible apply nakPkt_same | with_reducible apply askHosts_same | with_reducible apply serveRead_same | with_reducible apply serveWrite_same | with_reducible apply serveAtomic_same | with_reducible exact Sub.up (by with_reducible assumption) (by decide) | fail_if_no_progress (with_reducible apply Same.upd <;> try first | with_reducible exact ⟨rfl, rfl⟩ | with_reducible exact Or.inr (Sub.up (by with_reducible assumption) (by decide)) | with_reducible exact Or.inl rfl) | (intro _) | dsimp only | (with_reducible refine Same.ofEq (by with_reducible assumption) ?_) | split)

theorem peerServe_same {c s0 s} {a0 a1} (h : Same c s0 s) (hc : Sub 7187 c := by first | with_reducible assumption | exact Sub.up (by with_reducible assumption) (by decide)) : Same c s0 (peerServe a0 a1 s) := by
  unfold peerServe
  repeat' (first | with_reducible assumption | with_reducible refine Same.ite ?_ ?_ | with_reducible refine Same.ite2 ?_ ?_ | with_reducible apply tryServe_same | with_reducible exact Sub.up (by with_reducible assumption) (by decide) | fail_if_no_progress (with_reducible apply Same.upd <;> try first | with_reducible exact ⟨rfl, rfl⟩ | with_reducible exact Or.inr (Sub.up (by with_reducible assumption) (by decide)) | with_reducible exact Or.inl rfl) | (intro _) | dsimp only | (with_reducible refine Same.ofEq (by with_reducible assumption) ?_) | split)

theorem serveAgain_same {c s0 s} (h : Same c s0 s) (hc : Sub 7187 c := by first | with_reducible assumption | exact Sub.up (by with_reducible assumption) (by decide)) : Same c s0 (serveAgain s) := by
  unfold serveAgain
  repeat' (first | with_reducible assumption | with_reducible refine Same.ite ?_ ?_ | with_reducible refine Same.ite2 ?_ ?_ | with_reducible apply forAll_same | with_reducible apply peerServe_same | with_reducible exact Sub.up (by with_reducible assumption) (by decide) | fail_if_no_progress (with_reducible apply Same.upd <;> try first | with_reducible exact ⟨rfl, rfl⟩ | with_reducible exact Or.inr (Sub.up (by with_reducible assumption) (by decide)) | with_reducible exact Or.inl rfl) | (intro _) | dsimp only | (with_reducible refine Same.ofEq (by with_reducible assumption) ?_) | split)

theorem failServed_same {c s0 s} {a0 a1} (h : Same c s0 s) (hc : Sub 7187 c := by first | with_reducible assumption | exact Sub.up (by with_reducible assumption) (by decide)) : Same c s0 (failServed a0 a1 s) := by
  unfold failServed
  repeat' (first | with_reducible assumption | with_reducible refine Same.ite ?_ ?_ | with_reducible refine Same.ite2 ?_ ?_ | with_reducible apply forAll_same | with_reducible apply nakPkt_same | with_reducible apply serveAgain_same | with_reducible exact Sub.up (by with_reducible assumption) (by decide) | fail_if_no_progress (with_reducible apply Same.upd <;> try first | with_reducible exact ⟨rfl, rfl⟩ | with_reducible exact Or.inr (Sub.up (by with_reducible assumption) (by decide)) | with_reducible exact Or.inl rfl) | (intro _) | dsimp only | (with_reducible refine Same.ofEq (by with_reducible assumption) ?_) | split)

theorem claimGo_same {c s0 s} {a0 a1 a2} (h : Same c s0 s) (hc : Sub 1026 c := by first | with_reducible assumption | exact Sub.up (by with_reducible assumption) (by decide)) : Same c s0 (claimGo a0 a1 a2 s) := by
  unfold claimGo
  repeat' (first | with_reducible assumption | with_reducible refine Same.ite ?_ ?_ | with_reducible refine Same.ite2 ?_ ?_ | with_reducible apply sendAcd_same | with_reducible apply modAcd_same | with_reducible exact Sub.up (by with_reducible assumption) (by decide) | fail_if_no_progress (with_reducible apply Same.upd <;> try first | with_reducible exact ⟨rfl, rfl⟩ | with_reducible exact Or.inr (Sub.up (by with_reducible assumption) (by decide)) | with_reducible exact Or.inl rfl) | (intro _) | dsimp only | (with_reducible refine Same.ofEq (by with_reducible assumption) ?_) | split)

theorem tryClaim_same {c s0 s} {a0 a1} (h : Same c s0 s) (hc : Sub 3074 c := by first | with_reducible assumption | exact Sub.up (by with_reducible assumption) (by decide)) : Same c s0 (tryClaim a0 a1 s) := by
  unfold tryClaim
  repeat' (first | with_reducible assumption | with_reducible refine Same.ite ?_ ?_ | with_reducible refine Same.ite2 ?_ ?_ | with_reducible apply claimGo_same | with_reducible apply askHosts_same | with_reducible exact Sub.up (by with_reducible assumption) (by decide) | fail_if_no_progress (with_reducible apply Same.upd <;> try first | with_reducible exact ⟨rfl, rfl⟩ | with_reducible exact Or.inr (Sub.up (by with_reducible assumption) (by decide)) | with_reducible exact Or.inl rfl) | (intro _) | dsimp only | (with_reducible refine Same.ofEq (by with_reducible assumption) ?_) | split)

theorem releaseWaiter_same {c s0 s} {a0} (h : Same c s0 s) (hc : Sub 15923 c := by first | with_reducible assumption | exact Sub.up (by with_reducible assumption) (by decide)) : Same c s0 (releaseWaiter a0 s) := by
  unfold releaseWaiter
  repeat' (first | with_reducible assumption | with_reducible refine Same.ite ?_ ?_ | with_reducible refine Same.ite2 ?_ ?_ | with_reducible apply tryClaim_same | with_reducible apply readWatcher_same | with_reducible apply readPoll_same | with_reducible apply serveAgain_same | with_reducible exact Sub.up (by with_reducible assumption) (by decide) | fail_if_no_progress (with_reducible apply Same.upd <;> try first | with_reducible exact ⟨rfl, rfl⟩ | with_reducible exact Or.inr (Sub.up (by with_reducible assumption) (by decide)) | with_reducible exact Or.inl rfl) | (intro _) | dsimp only | (with_reducible refine Same.ofEq (by with_reducible assumption) ?_) | split)

theorem dropFilter_same {c s0 s} {a0} (h : Same c s0 s) (hc : Sub 15923 c := by first | with_reducible assumption | exact Sub.up (by with_reducible assumption) (by decide)) : Same c s0 (dropFilter a0 s) := by
  unfold dropFilter
  repeat' (first | with_reducible assumption | with_reducible refine Same.ite ?_ ?_ | with_reducible refine Same.ite2 ?_ ?_ | with_reducible apply forAll_same | with_reducible apply releaseWaiter_same | with_reducible exact Sub.up (by with_reducible assumption) (by decide) | fail_if_no_progress (with_reducible apply Same.upd <;> try first | with_reducible exact ⟨rfl, rfl⟩ | with_reducible exact Or.inr (Sub.up (by with_reducible assumption) (by decide)) | with_reducible exact Or.inl rfl) | (intro _) | dsimp only | (with_reducible refine Same.ofEq (by with_reducible assumption) ?_) | split)

theorem failLive_same {c s0 s} {a0 a1 a2 a3} (h : Same c s0 s) (hc : Sub 15923 c := by first | with_reducible assumption | exact Sub.up (by with_reducible assumption) (by decide)) : Same c s0 (failLive a0 a1 a2 a3 s) := by
  unfold failLive
  repeat' (first | with_reducible assumption | with_reducible refine Same.ite ?_ ?_ | with_reducible refine Same.ite2 ?_ ?_ | with_reducible apply toWhey_same | with_reducible apply failSeg_same | with_reducible exact Sub.up (by with_reducible assumption) (by decide) | fail_if_no_progress (with_reducible apply Same.upd <;> try first | with_reducible exact ⟨rfl, rfl⟩ | with_reducible exact Or.inr (Sub.up (by with_reducible assumption) (by decide)) | with_reducible exact Or.inl rfl) | (intro _) | dsimp only | (with_reducible refine Same.ofEq (by with_reducible assumption) ?_) | split)

theorem fwAbandon_same {c s0 s} (h : Same c s0 s) (hc : Sub 256 c := by first | with_reducible assumption | exact Sub.up (by with_reducible assumption) (by decide)) : Same c s0 (fwAbandon s) := by
  unfold fwAbandon
  repeat' (first | with_reducible assumption | with_reducible refine Same.ite ?_ ?_ | with_reducible refine Same.ite2 ?_ ?_ | with_reducible apply modFwSlot_same | with_reducible exact Sub.up (by with_reducible assumption) (by decide) | fail_if_no_progress (with_reducible apply Same.upd <;> try first | with_reducible exact ⟨rfl, rfl⟩ | with_reducible exact Or.inr (Sub.up (by with_reducible assumption) (by decide)) | with_reducible exact Or.inl rfl) | (intro _) | dsimp only | (with_reducible refine Same.ofEq (by with_reducible assumption) ?_) | split)

theorem adminReadFails_same {c s0 s} {a0 a1} (h : Same c s0 s) (hc : Sub 3891 c := by first | with_reducible assumption | exact Sub.up (by with_reducible assumption) (by decide)) : Same c s0 (adminReadFails a0 a1 s) := by
  unfold adminReadFails
  repeat' (first | with_reducible assumption | with_reducible refine Same.ite ?_ ?_ | with_reducible refine Same.ite2 ?_ ?_ | with_reducible apply when_same | with_reducible apply fwAbandon_same | with_reducible apply adminEnd_same | with_reducible apply adminFinish_same | with_reducible exact Sub.up (by with_reducible assumption) (by decide) | fail_if_no_progress (with_reducible apply Same.upd <;> try first | with_reducible exact ⟨rfl, rfl⟩ | with_reducible exact Or.inr (Sub.up (by with_reducible assumption) (by decide)) | with_reducible exact Or.inl rfl) | (intro _) | dsimp only | (with_reducible refine Same.ofEq (by with_reducible assumption) ?_) | split)

theorem headErr_same {c s0 s} {a0} (h : Same c s0 s) (hc : Sub 7731 c := by first | with_reducible assumption | exact Sub.up (by with_reducible assumption) (by decide)) : Same c s0 (headErr a0 s) := by
  unfold headErr
  repeat' (first | with_reducible assumption | with_reducible refine Same.ite ?_ ?_ | with_reducible refine Same.ite2 ?_ ?_ | with_reducible apply dropOwner_same | with_reducible apply headFails_same | with_reducible apply headOver_same | with_reducible apply tryFrozen_same | with_reducible exact Sub.up (by with_reducible assumption) (by decide) | fail_if_no_progress (with_reducible apply Same.upd <;> try first | with_reducible exact ⟨rfl, rfl⟩ | with_reducible exact Or.inr (Sub.up (by with_reducible assumption) (by decide)) | with_reducible exact Or.inl rfl) | (intro _) | dsimp only | (with_reducible refine Same.ofEq (by with_reducible assumption) ?_) | split)

theorem ownerFails_same {c s0 s} {a0 a1} (h : Same c s0 s) (hc : Sub 16179 c := by first | with_reducible assumption | exact Sub.up (by with_reducible assumption) (by decide)) : Same c s0 (ownerFails a0 a1 s) := by
  unfold ownerFails
  repeat' (first | with_reducible assumption | with_reducible refine Same.ite ?_ ?_ | with_reducible refine Same.ite2 ?_ ?_ | with_reducible apply failLive_same | with_reducible apply ringFailed_same | with_reducible apply adminStop_same | with_reducible apply statusFails_same | with_reducible apply headErr_same | with_reducible apply dropOwner_same | with_reducible apply failInput_same | with_reducible apply tryFinish_same | with_reducible apply adminReadFails_same | with_reducible apply failWaits_same | with_reducible apply claimGo_same | with_reducible apply dropRec_same | with_reducible apply failServed_same | with_reducible apply emit_same | with_reducible exact Sub.up (by with_reducible assumption) (by decide) | fail_if_no_progress (with_reducible apply Same.upd <;> try first | with_reducible exact ⟨rfl, rfl⟩ | with_reducible exact Or.inr (Sub.up (by with_reducible assumption) (by decide)) | with_reducible exact Or.inl rfl) | (intro _) | dsimp only | (with_reducible refine Same.ofEq (by with_reducible assumption) ?_) | split)

theorem ownerAnswered_same {c s0 s} {a0} (h : Same c s0 s) (hc : Sub 15923 c := by first | with_reducible assumption | exact Sub.up (by with_reducible assumption) (by decide)) : Same c s0 (ownerAnswered a0 s) := by
  unfold ownerAnswered
  repeat' (first | with_reducible assumption | with_reducible refine Same.ite ?_ ?_ | with_reducible refine Same.ite2 ?_ ?_ | with_reducible apply checkEntry_same | with_reducible apply tryFinish_same | with_reducible apply statusAnswered_same | with_reducible apply headAnswered_same | with_reducible apply watcherReads_same | with_reducible apply pollReads_same | with_reducible exact Sub.up (by with_reducible assumption) (by decide) | fail_if_no_progress (with_reducible apply Same.upd <;> try first | with_reducible exact ⟨rfl, rfl⟩ | with_reducible exact Or.inr (Sub.up (by with_reducible assumption) (by decide)) | with_reducible exact Or.inl rfl) | (intro _) | dsimp only | (with_reducible refine Same.ofEq (by with_reducible assumption) ?_) | split)

theorem failReqs_same {c s0 s} {a0 a1} (h : Same c s0 s) (hc : Sub 16179 c := by first | with_reducible assumption | exact Sub.up (by with_reducible assumption) (by decide)) : Same c s0 (failReqs a0 a1 s) := by
  unfold failReqs
  repeat' (first | with_reducible assumption | with_reducible refine Same.ite ?_ ?_ | with_reducible refine Same.ite2 ?_ ?_ | with_reducible apply forAll_same | with_reducible apply ownerFails_same | with_reducible apply dropReqs_same | with_reducible exact Sub.up (by with_reducible assumption) (by decide) | fail_if_no_progress (with_reducible apply Same.upd <;> try first | with_reducible exact ⟨rfl, rfl⟩ | with_reducible exact Or.inr (Sub.up (by with_reducible assumption) (by decide)) | with_reducible exact Or.inl rfl) | (intro _) | dsimp only | (with_reducible refine Same.ofEq (by with_reducible assumption) ?_) | split)

theorem endLaunch_same {c s0 s} {a0 a1 a2} (h : Same c s0 s) (hc : Sub 15923 c := by first | with_reducible assumption | exact Sub.up (by with_reducible assumption) (by decide)) : Same c s0 (endLaunch a0 a1 a2 s) := by
  unfold endLaunch
  repeat' (first | with_reducible assumption | with_reducible refine Same.ite ?_ ?_ | with_reducible refine Same.ite2 ?_ ?_ | with_reducible apply modAcd_same | with_reducible apply when_same | with_reducible apply modEntry_same | with_reducible apply finishEntry_same | with_reducible exact Sub.up (by with_reducible assumption) (by decide) | fail_if_no_progress (with_reducible apply Same.upd <;> try first | with_reducible exact ⟨rfl, rfl⟩ | with_reducible exact Or.inr (Sub.up (by with_reducible assumption) (by decide)) | with_reducible exact Or.inl rfl) | (intro _) | dsimp only | (with_reducible refine Same.ofEq (by with_reducible assumption) ?_) | split)

theorem endCond_same {c s0 s} (h : Same c s0 s) (hc : Sub 32768 c := by first | with_reducible assumption | exact Sub.up (by with_reducible assumption) (by decide)) : Same c s0 (endCond s) := by
  unfold endCond
  repeat' (first | with_reducible assumption | with_reducible refine Same.ite ?_ ?_ | with_reducible refine Same.ite2 ?_ ?_ | with_reducible exact Sub.up (by with_reducible assumption) (by decide) | fail_if_no_progress (with_reducible apply Same.upd <;> try first | with_reducible exact ⟨rfl, rfl⟩ | with_reducible exact Or.inr (Sub.up (by with_reducible assumption) (by decide)) | with_reducible exact Or.inl rfl) | (intro _) | dsimp only | (with_reducible refine Same.ofEq (by with_reducible assumption) ?_) | split)

theorem acdDrop_same {c s0 s} {a0} (h : Same c s0 s) (hc : Sub 48947 c := by first | with_reducible assumption | exact Sub.up (by with_reducible assumption) (by decide)) : Same c s0 (acdDrop a0 s) := by
  unfold acdDrop
  repeat' (first | with_reducible assumption | with_reducible refine Same.ite ?_ ?_ | with_reducible refine Same.ite2 ?_ ?_ | with_reducible apply modAcd_same | with_reducible apply failReqs_same | with_reducible apply endCond_same | with_reducible apply forAll_same | with_reducible apply endLaunch_same | with_reducible apply loseResv_same | with_reducible exact Sub.up (by with_reducible assumption) (by decide) | fail_if_no_progress (with_reducible apply Same.upd <;> try first | with_reducible exact ⟨rfl, rfl⟩ | with_reducible exact Or.inr (Sub.up (by with_reducible assumption) (by decide)) | with_reducible exact Or.inl rfl) | (intro _) | dsimp only | (with_reducible refine Same.ofEq (by with_reducible assumption) ?_) | split)

theorem dropStore_same {c s0 s} {a0} (h : Same c s0 s) (hc : Sub 256 c := by first | with_reducible assumption | exact Sub.up (by with_reducible assumption) (by decide)) : Same c s0 (dropStore a0 s) := by
  unfold dropStore
  repeat' (first | with_reducible assumption | with_reducible refine Same.ite ?_ ?_ | with_reducible refine Same.ite2 ?_ ?_ | with_reducible exact Sub.up (by with_reducible assumption) (by decide) | fail_if_no_progress (with_reducible apply Same.upd <;> try first | with_reducible exact ⟨rfl, rfl⟩ | with_reducible exact Or.inr (Sub.up (by with_reducible assumption) (by decide)) | with_reducible exact Or.inl rfl) | (intro _) | dsimp only | (with_reducible refine Same.ofEq (by with_reducible assumption) ?_) | split)

theorem acdSafe_same {c s0 s} {a0} (h : Same c s0 s) (hc : Sub 48947 c := by first | with_reducible assumption | exact Sub.up (by with_reducible assumption) (by decide)) : Same c s0 (acdSafe a0 s) := by
  unfold acdSafe
  repeat' (first | with_reducible assumption | with_reducible refine Same.ite ?_ ?_ | with_reducible refine Same.ite2 ?_ ?_ | with_reducible apply acdDrop_same | with_reducible apply dropStore_same | with_reducible apply modAcd_same | with_reducible exact Sub.up (by with_reducible assumption) (by decide) | fail_if_no_progress (with_reducible apply Same.upd <;> try first | with_reducible exact ⟨rfl, rfl⟩ | with_reducible exact Or.inr (Sub.up (by with_reducible assumption) (by decide)) | with_reducible exact Or.inl rfl) | (intro _) | dsimp only | (with_reducible refine Same.ofEq (by with_reducible assumption) ?_) | split)

theorem loseNode_same {c s0 s} {a0} (h : Same c s0 s) (hc : Sub 16179 c := by first | with_reducible assumption | exact Sub.up (by with_reducible assumption) (by decide)) : Same c s0 (loseNode a0 s) := by
  unfold loseNode
  repeat' (first | with_reducible assumption | with_reducible refine Same.ite ?_ ?_ | with_reducible refine Same.ite2 ?_ ?_ | with_reducible apply modRoute_same | with_reducible apply failReqs_same | with_reducible exact Sub.up (by with_reducible assumption) (by decide) | fail_if_no_progress (with_reducible apply Same.upd <;> try first | with_reducible exact ⟨rfl, rfl⟩ | with_reducible exact Or.inr (Sub.up (by with_reducible assumption) (by decide)) | with_reducible exact Or.inl rfl) | (intro _) | dsimp only | (with_reducible refine Same.ofEq (by with_reducible assumption) ?_) | split)

theorem peerDown_same {c s0 s} {a0} (h : Same c s0 s) (hc : Sub 16179 c := by first | with_reducible assumption | exact Sub.up (by with_reducible assumption) (by decide)) : Same c s0 (peerDown a0 s) := by
  unfold peerDown
  repeat' (first | with_reducible assumption | with_reducible refine Same.ite ?_ ?_ | with_reducible refine Same.ite2 ?_ ?_ | with_reducible apply modPeerP_same | with_reducible apply modRsh_same | with_reducible apply forAll_same | with_reducible apply loseNode_same | with_reducible exact Sub.up (by with_reducible assumption) (by decide) | fail_if_no_progress (with_reducible apply Same.upd <;> try first | with_reducible exact ⟨rfl, rfl⟩ | with_reducible exact Or.inr (Sub.up (by with_reducible assumption) (by decide)) | with_reducible exact Or.inl rfl) | (intro _) | dsimp only | (with_reducible refine Same.ofEq (by with_reducible assumption) ?_) | split)

theorem killHoop_same {c s0 s} {a0} (h : Same c s0 s) (hc : Sub 5138 c := by first | with_reducible assumption | exact Sub.up (by with_reducible assumption) (by decide)) : Same c s0 (killHoop a0 s) := by
  unfold killHoop
  repeat' (first | with_reducible assumption | with_reducible refine Same.ite ?_ ?_ | with_reducible refine Same.ite2 ?_ ?_ | with_reducible apply disarmHoop_same | with_reducible apply endGroups_same | with_reducible apply dropReqs_same | with_reducible exact Sub.up (by with_reducible assumption) (by decide) | fail_if_no_progress (with_reducible apply Same.upd <;> try first | with_reducible exact ⟨rfl, rfl⟩ | with_reducible exact Or.inr (Sub.up (by with_reducible assumption) (by decide)) | with_reducible exact Or.inl rfl) | (intro _) | dsimp only | (with_reducible refine Same.ofEq (by with_reducible assumption) ?_) | split)

theorem killEvq_same {c s0 s} {a0} (h : Same c s0 s) (hc : Sub 32 c := by first | with_reducible assumption | exact Sub.up (by with_reducible assumption) (by decide)) : Same c s0 (killEvq a0 s) := by
  unfold killEvq
  repeat' (first | with_reducible assumption | with_reducible refine Same.ite ?_ ?_ | with_reducible refine Same.ite2 ?_ ?_ | with_reducible apply unclaim_same | with_reducible exact Sub.up (by with_reducible assumption) (by decide) | fail_if_no_progress (with_reducible apply Same.upd <;> try first | with_reducible exact ⟨rfl, rfl⟩ | with_reducible exact Or.inr (Sub.up (by with_reducible assumption) (by decide)) | with_reducible exact Or.inl rfl) | (intro _) | dsimp only | (with_reducible refine Same.ofEq (by with_reducible assumption) ?_) | split)

theorem purgeVat_same {c s0 s} {a0} (h : Same c s0 s) (hc : Sub 512 c := by first | with_reducible assumption | exact Sub.up (by with_reducible assumption) (by decide)) : Same c s0 (purgeVat a0 s) := by
  unfold purgeVat
  repeat' (first | with_reducible assumption | with_reducible refine Same.ite ?_ ?_ | with_reducible refine Same.ite2 ?_ ?_ | with_reducible exact Sub.up (by with_reducible assumption) (by decide) | fail_if_no_progress (with_reducible apply Same.upd <;> try first | with_reducible exact ⟨rfl, rfl⟩ | with_reducible exact Or.inr (Sub.up (by with_reducible assumption) (by decide)) | with_reducible exact Or.inl rfl) | (intro _) | dsimp only | (with_reducible refine Same.ofEq (by with_reducible assumption) ?_) | split)

theorem killVat_same {c s0 s} {a0} (h : Same c s0 s) (hc : Sub 5650 c := by first | with_reducible assumption | exact Sub.up (by with_reducible assumption) (by decide)) : Same c s0 (killVat a0 s) := by
  unfold killVat
  repeat' (first | with_reducible assumption | with_reducible refine Same.ite ?_ ?_ | with_reducible refine Same.ite2 ?_ ?_ | with_reducible apply forAll_same | with_reducible apply killHoop_same | with_reducible apply cancelPages_same | with_reducible apply emit_same | with_reducible apply purgeVat_same | with_reducible apply leaveWait_same | with_reducible exact Sub.up (by with_reducible assumption) (by decide) | fail_if_no_progress (with_reducible apply Same.upd <;> try first | with_reducible exact ⟨rfl, rfl⟩ | with_reducible exact Or.inr (Sub.up (by with_reducible assumption) (by decide)) | with_reducible exact Or.inl rfl) | (intro _) | dsimp only | (with_reducible refine Same.ofEq (by with_reducible assumption) ?_) | split)

theorem startTear_same {c s0 s} {a0 a1 a2} (h : Same c s0 s) (hc : Sub 528 c := by first | with_reducible assumption | exact Sub.up (by with_reducible assumption) (by decide)) : Same c s0 (startTear a0 a1 a2 s) := by
  unfold startTear
  repeat' (first | with_reducible assumption | with_reducible refine Same.ite ?_ ?_ | with_reducible refine Same.ite2 ?_ ?_ | with_reducible apply modVat_same | with_reducible apply leaveWait_same | with_reducible exact Sub.up (by with_reducible assumption) (by decide) | fail_if_no_progress (with_reducible apply Same.upd <;> try first | with_reducible exact ⟨rfl, rfl⟩ | with_reducible exact Or.inr (Sub.up (by with_reducible assumption) (by decide)) | with_reducible exact Or.inl rfl) | (intro _) | dsimp only | (with_reducible refine Same.ofEq (by with_reducible assumption) ?_) | split)

theorem putWord_same {c s0 s} {a0 a1 a2} (h : Same c s0 s) (hc : Sub 1 c := by first | with_reducible assumption | exact Sub.up (by with_reducible assumption) (by decide)) : Same c s0 (putWord a0 a1 a2 s) := by
  unfold putWord
  repeat' (first | with_reducible assumption | with_reducible refine Same.ite ?_ ?_ | with_reducible refine Same.ite2 ?_ ?_ | with_reducible apply writeNat_same | with_reducible exact Sub.up (by with_reducible assumption) (by decide) | fail_if_no_progress (with_reducible apply Same.upd <;> try first | with_reducible exact ⟨rfl, rfl⟩ | with_reducible exact Or.inr (Sub.up (by with_reducible assumption) (by decide)) | with_reducible exact Or.inl rfl) | (intro _) | dsimp only | (with_reducible refine Same.ofEq (by with_reducible assumption) ?_) | split)

theorem abortEntry_same {c s0 s} {a0 a1} (h : Same c s0 s) (hc : Sub 3091 c := by first | with_reducible assumption | exact Sub.up (by with_reducible assumption) (by decide)) : Same c s0 (abortEntry a0 a1 s) := by
  unfold abortEntry
  repeat' (first | with_reducible assumption | with_reducible refine Same.ite ?_ ?_ | with_reducible refine Same.ite2 ?_ ?_ | with_reducible apply putWord_same | with_reducible apply when_same | with_reducible apply clobberEntry_same | with_reducible exact Sub.up (by with_reducible assumption) (by decide) | fail_if_no_progress (with_reducible apply Same.upd <;> try first | with_reducible exact ⟨rfl, rfl⟩ | with_reducible exact Or.inr (Sub.up (by with_reducible assumption) (by decide)) | with_reducible exact Or.inl rfl) | (intro _) | dsimp only | (with_reducible refine Same.ofEq (by with_reducible assumption) ?_) | split)

theorem abortHoop_same {c s0 s} {a0} (h : Same c s0 s) (hc : Sub 11315 c := by first | with_reducible assumption | exact Sub.up (by with_reducible assumption) (by decide)) : Same c s0 (abortHoop a0 s) := by
  unfold abortHoop
  repeat' (first | with_reducible assumption | with_reducible refine Same.ite ?_ ?_ | with_reducible refine Same.ite2 ?_ ?_ | with_reducible apply forAll_same | with_reducible apply abortEntry_same | with_reducible apply when_same | with_reducible apply modFnS_same | with_reducible apply modWheel_same | with_reducible apply modHoop_same | with_reducible apply putWord_same | with_reducible exact Sub.up (by with_reducible assumption) (by decide) | fail_if_no_progress (with_reducible apply Same.upd <;> try first | with_reducible exact ⟨rfl, rfl⟩ | with_reducible exact Or.inr (Sub.up (by with_reducible assumption) (by decide)) | with_reducible exact Or.inl rfl) | (intro _) | dsimp only | (with_reducible refine Same.ofEq (by with_reducible assumption) ?_) | split)

theorem landWritten_same {c s0 s} {a0} (h : Same c s0 s) (hc : Sub 15923 c := by first | with_reducible assumption | exact Sub.up (by with_reducible assumption) (by decide)) : Same c s0 (landWritten a0 s) := by
  unfold landWritten
  repeat' (first | with_reducible assumption | with_reducible refine Same.ite ?_ ?_ | with_reducible refine Same.ite2 ?_ ?_ | with_reducible apply forAll_same | with_reducible apply dropOwner_same | with_reducible apply retireEntry_same | with_reducible exact Sub.up (by with_reducible assumption) (by decide) | fail_if_no_progress (with_reducible apply Same.upd <;> try first | with_reducible exact ⟨rfl, rfl⟩ | with_reducible exact Or.inr (Sub.up (by with_reducible assumption) (by decide)) | with_reducible exact Or.inl rfl) | (intro _) | dsimp only | (with_reducible refine Same.ofEq (by with_reducible assumption) ?_) | split)

theorem finishTear_same {c s0 s} {a0} (h : Same c s0 s) (hc : Sub 15923 c := by first | with_reducible assumption | exact Sub.up (by with_reducible assumption) (by decide)) : Same c s0 (finishTear a0 s) := by
  unfold finishTear
  repeat' (first | with_reducible assumption | with_reducible refine Same.ite ?_ ?_ | with_reducible refine Same.ite2 ?_ ?_ | with_reducible apply forAll_same | with_reducible apply landWritten_same | with_reducible apply startPages_same | with_reducible apply abortHoop_same | with_reducible apply when_same | with_reducible apply postRec_same | with_reducible apply killVat_same | with_reducible apply tryEvict_same | with_reducible apply adminEnd_same | with_reducible exact Sub.up (by with_reducible assumption) (by decide) | fail_if_no_progress (with_reducible apply Same.upd <;> try first | with_reducible exact ⟨rfl, rfl⟩ | with_reducible exact Or.inr (Sub.up (by with_reducible assumption) (by decide)) | with_reducible exact Or.inl rfl) | (intro _) | dsimp only | (with_reducible refine Same.ofEq (by with_reducible assumption) ?_) | split)

theorem clearMsix_same {c s0 s} {a0} (h : Same c s0 s) (hc : Sub 32 c := by first | with_reducible assumption | exact Sub.up (by with_reducible assumption) (by decide)) : Same c s0 (clearMsix a0 s) := by
  unfold clearMsix
  repeat' (first | with_reducible assumption | with_reducible refine Same.ite ?_ ?_ | with_reducible refine Same.ite2 ?_ ?_ | with_reducible apply modFnS_same | with_reducible exact Sub.up (by with_reducible assumption) (by decide) | fail_if_no_progress (with_reducible apply Same.upd <;> try first | with_reducible exact ⟨rfl, rfl⟩ | with_reducible exact Or.inr (Sub.up (by with_reducible assumption) (by decide)) | with_reducible exact Or.inl rfl) | (intro _) | dsimp only | (with_reducible refine Same.ofEq (by with_reducible assumption) ?_) | split)

theorem stopSeg_same {c s0 s} {a0 a1 a2} (h : Same c s0 s) (hc : Sub 15923 c := by first | with_reducible assumption | exact Sub.up (by with_reducible assumption) (by decide)) : Same c s0 (stopSeg a0 a1 a2 s) := by
  unfold stopSeg
  repeat' (first | with_reducible assumption | with_reducible refine Same.ite ?_ ?_ | with_reducible refine Same.ite2 ?_ ?_ | with_reducible apply vatFault_same | with_reducible apply failSeg_same | with_reducible apply modEntry_same | with_reducible exact Sub.up (by with_reducible assumption) (by decide) | fail_if_no_progress (with_reducible apply Same.upd <;> try first | with_reducible exact ⟨rfl, rfl⟩ | with_reducible exact Or.inr (Sub.up (by with_reducible assumption) (by decide)) | with_reducible exact Or.inl rfl) | (intro _) | dsimp only | (with_reducible refine Same.ofEq (by with_reducible assumption) ?_) | split)

theorem revokeSegs_same {c s0 s} (h : Same c s0 s) (hc : Sub 15923 c := by first | with_reducible assumption | exact Sub.up (by with_reducible assumption) (by decide)) : Same c s0 (revokeSegs s) := by
  unfold revokeSegs
  repeat' (first | with_reducible assumption | with_reducible refine Same.ite ?_ ?_ | with_reducible refine Same.ite2 ?_ ?_ | with_reducible apply forAll_same | with_reducible apply stopSeg_same | with_reducible exact Sub.up (by with_reducible assumption) (by decide) | fail_if_no_progress (with_reducible apply Same.upd <;> try first | with_reducible exact ⟨rfl, rfl⟩ | with_reducible exact Or.inr (Sub.up (by with_reducible assumption) (by decide)) | with_reducible exact Or.inl rfl) | (intro _) | dsimp only | (with_reducible refine Same.ofEq (by with_reducible assumption) ?_) | split)

theorem rescan_same {c s0 s} (h : Same c s0 s) (hc : Sub 15923 c := by first | with_reducible assumption | exact Sub.up (by with_reducible assumption) (by decide)) : Same c s0 (rescan s) := by
  unfold rescan
  repeat' (first | with_reducible assumption | with_reducible refine Same.ite ?_ ?_ | with_reducible refine Same.ite2 ?_ ?_ | with_reducible apply forAll_same | with_reducible apply checkEntry_same | with_reducible apply tryFinish_same | with_reducible apply when_same | with_reducible apply publishHead_same | with_reducible apply askRing_same | with_reducible apply revokeSegs_same | with_reducible apply revokeWaits_same | with_reducible apply flushRecs_same | with_reducible apply trimPages_same | with_reducible apply tryFrozen_same | with_reducible apply holdPages_same | with_reducible apply serveAgain_same | with_reducible exact Sub.up (by with_reducible assumption) (by decide) | fail_if_no_progress (with_reducible apply Same.upd <;> try first | with_reducible exact ⟨rfl, rfl⟩ | with_reducible exact Or.inr (Sub.up (by with_reducible assumption) (by decide)) | with_reducible exact Or.inl rfl) | (intro _) | dsimp only | (with_reducible refine Same.ofEq (by with_reducible assumption) ?_) | split)

theorem dropAdminRefs_same {c s0 s} {a0} (h : Same c s0 s) (hc : Sub 48 c := by first | with_reducible assumption | exact Sub.up (by with_reducible assumption) (by decide)) : Same c s0 (dropAdminRefs a0 s) := by
  unfold dropAdminRefs
  repeat' (first | with_reducible assumption | with_reducible refine Same.ite ?_ ?_ | with_reducible refine Same.ite2 ?_ ?_ | with_reducible exact Sub.up (by with_reducible assumption) (by decide) | fail_if_no_progress (with_reducible apply Same.upd <;> try first | with_reducible exact ⟨rfl, rfl⟩ | with_reducible exact Or.inr (Sub.up (by with_reducible assumption) (by decide)) | with_reducible exact Or.inl rfl) | (intro _) | dsimp only | (with_reducible refine Same.ofEq (by with_reducible assumption) ?_) | split)

theorem killAdmin_same {c s0 s} {a0} (h : Same c s0 s) (hc : Sub 1074 c := by first | with_reducible assumption | exact Sub.up (by with_reducible assumption) (by decide)) : Same c s0 (killAdmin a0 s) := by
  unfold killAdmin
  repeat' (first | with_reducible assumption | with_reducible refine Same.ite ?_ ?_ | with_reducible refine Same.ite2 ?_ ?_ | with_reducible apply modAdmin_same | with_reducible apply dropReqs_same | with_reducible apply dropAdminRefs_same | with_reducible exact Sub.up (by with_reducible assumption) (by decide) | fail_if_no_progress (with_reducible apply Same.upd <;> try first | with_reducible exact ⟨rfl, rfl⟩ | with_reducible exact Or.inr (Sub.up (by with_reducible assumption) (by decide)) | with_reducible exact Or.inl rfl) | (intro _) | dsimp only | (with_reducible refine Same.ofEq (by with_reducible assumption) ?_) | split)

theorem returnVfs_same {c s0 s} {a0} (h : Same c s0 s) (hc : Sub 1056 c := by first | with_reducible assumption | exact Sub.up (by with_reducible assumption) (by decide)) : Same c s0 (returnVfs a0 s) := by
  unfold returnVfs
  repeat' (first | with_reducible assumption | with_reducible refine Same.ite ?_ ?_ | with_reducible refine Same.ite2 ?_ ?_ | with_reducible apply modHc_same | with_reducible exact Sub.up (by with_reducible assumption) (by decide) | fail_if_no_progress (with_reducible apply Same.upd <;> try first | with_reducible exact ⟨rfl, rfl⟩ | with_reducible exact Or.inr (Sub.up (by with_reducible assumption) (by decide)) | with_reducible exact Or.inl rfl) | (intro _) | dsimp only | (with_reducible refine Same.ofEq (by with_reducible assumption) ?_) | split)

theorem hostLoss_same {c s0 s} {a0} (h : Same c s0 s) (hc : Sub 32563 c := by first | with_reducible assumption | exact Sub.up (by with_reducible assumption) (by decide)) : Same c s0 (hostLoss a0 s) := by
  unfold hostLoss
  repeat' (first | with_reducible assumption | with_reducible refine Same.ite ?_ ?_ | with_reducible refine Same.ite2 ?_ ?_ | with_reducible apply modHc_same | with_reducible apply killAdmin_same | with_reducible apply forAll_same | with_reducible apply startTear_same | with_reducible apply killEvq_same | with_reducible apply clearMsix_same | with_reducible apply cancelPages_same | with_reducible apply dropFilter_same | with_reducible apply failReqs_same | with_reducible apply failLive_same | with_reducible apply returnVfs_same | with_reducible apply rescan_same | with_reducible exact Sub.up (by with_reducible assumption) (by decide) | fail_if_no_progress (with_reducible apply Same.upd <;> try first | with_reducible exact ⟨rfl, rfl⟩ | with_reducible exact Or.inr (Sub.up (by with_reducible assumption) (by decide)) | with_reducible exact Or.inl rfl) | (intro _) | dsimp only | (with_reducible refine Same.ofEq (by with_reducible assumption) ?_) | split)

theorem tryFound_same {c s0 s} {a0} (h : Same c s0 s) (hc : Sub 1024 c := by first | with_reducible assumption | exact Sub.up (by with_reducible assumption) (by decide)) : Same c s0 (tryFound a0 s) := by
  unfold tryFound
  repeat' (first | with_reducible assumption | with_reducible refine Same.ite ?_ ?_ | with_reducible refine Same.ite2 ?_ ?_ | with_reducible apply modHc_same | with_reducible exact Sub.up (by with_reducible assumption) (by decide) | fail_if_no_progress (with_reducible apply Same.upd <;> try first | with_reducible exact ⟨rfl, rfl⟩ | with_reducible exact Or.inr (Sub.up (by with_reducible assumption) (by decide)) | with_reducible exact Or.inl rfl) | (intro _) | dsimp only | (with_reducible refine Same.ofEq (by with_reducible assumption) ?_) | split)

theorem dropFarXlats_same {c s0 s} {a0} (h : Same c s0 s) (hc : Sub 512 c := by first | with_reducible assumption | exact Sub.up (by with_reducible assumption) (by decide)) : Same c s0 (dropFarXlats a0 s) := by
  unfold dropFarXlats
  repeat' (first | with_reducible assumption | with_reducible refine Same.ite ?_ ?_ | with_reducible refine Same.ite2 ?_ ?_ | with_reducible exact Sub.up (by with_reducible assumption) (by decide) | fail_if_no_progress (with_reducible apply Same.upd <;> try first | with_reducible exact ⟨rfl, rfl⟩ | with_reducible exact Or.inr (Sub.up (by with_reducible assumption) (by decide)) | with_reducible exact Or.inl rfl) | (intro _) | dsimp only | (with_reducible refine Same.ofEq (by with_reducible assumption) ?_) | split)

theorem farLoss_same {c s0 s} {a0} (h : Same c s0 s) (hc : Sub 16179 c := by first | with_reducible assumption | exact Sub.up (by with_reducible assumption) (by decide)) : Same c s0 (farLoss a0 s) := by
  unfold farLoss
  repeat' (first | with_reducible assumption | with_reducible refine Same.ite ?_ ?_ | with_reducible refine Same.ite2 ?_ ?_ | with_reducible apply modHc_same | with_reducible apply failReqs_same | with_reducible apply zeroRange_same | with_reducible apply dropFarXlats_same | with_reducible apply rescan_same | with_reducible exact Sub.up (by with_reducible assumption) (by decide) | fail_if_no_progress (with_reducible apply Same.upd <;> try first | with_reducible exact ⟨rfl, rfl⟩ | with_reducible exact Or.inr (Sub.up (by with_reducible assumption) (by decide)) | with_reducible exact Or.inl rfl) | (intro _) | dsimp only | (with_reducible refine Same.ofEq (by with_reducible assumption) ?_) | split)

theorem hcDown_same {c s0 s} {a0} (h : Same c s0 s) (hc : Sub 32563 c := by first | with_reducible assumption | exact Sub.up (by with_reducible assumption) (by decide)) : Same c s0 (hcDown a0 s) := by
  unfold hcDown
  repeat' (first | with_reducible assumption | with_reducible refine Same.ite ?_ ?_ | with_reducible refine Same.ite2 ?_ ?_ | with_reducible apply modHc_same | with_reducible apply modRsh_same | with_reducible apply farLoss_same | with_reducible apply hostLoss_same | with_reducible exact Sub.up (by with_reducible assumption) (by decide) | fail_if_no_progress (with_reducible apply Same.upd <;> try first | with_reducible exact ⟨rfl, rfl⟩ | with_reducible exact Or.inr (Sub.up (by with_reducible assumption) (by decide)) | with_reducible exact Or.inl rfl) | (intro _) | dsimp only | (with_reducible refine Same.ofEq (by with_reducible assumption) ?_) | split)

theorem partEntry_same {c s0 s} {a0 a1} (h : Same c s0 s) (hc : Sub 15923 c := by first | with_reducible assumption | exact Sub.up (by with_reducible assumption) (by decide)) : Same c s0 (partEntry a0 a1 s) := by
  unfold partEntry
  repeat' (first | with_reducible assumption | with_reducible refine Same.ite ?_ ?_ | with_reducible refine Same.ite2 ?_ ?_ | with_reducible apply modEntry_same | with_reducible apply clobberEntry_same | with_reducible apply decideEntry_same | with_reducible exact Sub.up (by with_reducible assumption) (by decide) | fail_if_no_progress (with_reducible apply Same.upd <;> try first | with_reducible exact ⟨rfl, rfl⟩ | with_reducible exact Or.inr (Sub.up (by with_reducible assumption) (by decide)) | with_reducible exact Or.inl rfl) | (intro _) | dsimp only | (with_reducible refine Same.ofEq (by with_reducible assumption) ?_) | split)

theorem partHoop_same {c s0 s} {a0} (h : Same c s0 s) (hc : Sub 15923 c := by first | with_reducible assumption | exact Sub.up (by with_reducible assumption) (by decide)) : Same c s0 (partHoop a0 s) := by
  unfold partHoop
  repeat' (first | with_reducible assumption | with_reducible refine Same.ite ?_ ?_ | with_reducible refine Same.ite2 ?_ ?_ | with_reducible apply disarmHoop_same | with_reducible apply dropOwner_same | with_reducible apply modHoop_same | with_reducible apply forAll_same | with_reducible apply partEntry_same | with_reducible apply publishHead_same | with_reducible apply tryIdle_same | with_reducible exact Sub.up (by with_reducible assumption) (by decide) | fail_if_no_progress (with_reducible apply Same.upd <;> try first | with_reducible exact ⟨rfl, rfl⟩ | with_reducible exact Or.inr (Sub.up (by with_reducible assumption) (by decide)) | with_reducible exact Or.inl rfl) | (intro _) | dsimp only | (with_reducible refine Same.ofEq (by with_reducible assumption) ?_) | split)

theorem loseReplicas_same {c s0 s} {a0} (h : Same c s0 s) (hc : Sub 16 c := by first | with_reducible assumption | exact Sub.up (by with_reducible assumption) (by decide)) : Same c s0 (loseReplicas a0 s) := by
  unfold loseReplicas
  repeat' (first | with_reducible assumption | with_reducible refine Same.ite ?_ ?_ | with_reducible refine Same.ite2 ?_ ?_ | with_reducible exact Sub.up (by with_reducible assumption) (by decide) | fail_if_no_progress (with_reducible apply Same.upd <;> try first | with_reducible exact ⟨rfl, rfl⟩ | with_reducible exact Or.inr (Sub.up (by with_reducible assumption) (by decide)) | with_reducible exact Or.inl rfl) | (intro _) | dsimp only | (with_reducible refine Same.ofEq (by with_reducible assumption) ?_) | split)

theorem sliceDown_same {c s0 s} {a0} (h : Same c s0 s) (hc : Sub 15987 c := by first | with_reducible assumption | exact Sub.up (by with_reducible assumption) (by decide)) : Same c s0 (sliceDown a0 s) := by
  unfold sliceDown
  repeat' (first | with_reducible assumption | with_reducible refine Same.ite ?_ ?_ | with_reducible refine Same.ite2 ?_ ?_ | with_reducible apply loseReplicas_same | with_reducible apply loseResv_same | with_reducible apply forAll_same | with_reducible apply failLive_same | with_reducible apply partHoop_same | with_reducible exact Sub.up (by with_reducible assumption) (by decide) | fail_if_no_progress (with_reducible apply Same.upd <;> try first | with_reducible exact ⟨rfl, rfl⟩ | with_reducible exact Or.inr (Sub.up (by with_reducible assumption) (by decide)) | with_reducible exact Or.inl rfl) | (intro _) | dsimp only | (with_reducible refine Same.ofEq (by with_reducible assumption) ?_) | split)

theorem loadVat_same {c s0 s} {a0 a1} (h : Same c s0 s) (hc : Sub 16 c := by first | with_reducible assumption | exact Sub.up (by with_reducible assumption) (by decide)) : Same c s0 (loadVat a0 a1 s) := by
  unfold loadVat
  repeat' (first | with_reducible assumption | with_reducible refine Same.ite ?_ ?_ | with_reducible refine Same.ite2 ?_ ?_ | with_reducible apply modVat_same | with_reducible apply leaveWait_same | with_reducible apply tryEvict_same | with_reducible exact Sub.up (by with_reducible assumption) (by decide) | fail_if_no_progress (with_reducible apply Same.upd <;> try first | with_reducible exact ⟨rfl, rfl⟩ | with_reducible exact Or.inr (Sub.up (by with_reducible assumption) (by decide)) | with_reducible exact Or.inl rfl) | (intro _) | dsimp only | (with_reducible refine Same.ofEq (by with_reducible assumption) ?_) | split)

theorem adminUnread_same {c s0 s} {a0} (h : Same c s0 s) (hc : Sub 3635 c := by first | with_reducible assumption | exact Sub.up (by with_reducible assumption) (by decide)) : Same c s0 (adminUnread a0 s) := by
  unfold adminUnread
  repeat' (first | with_reducible assumption | with_reducible refine Same.ite ?_ ?_ | with_reducible refine Same.ite2 ?_ ?_ | with_reducible apply adminFinish_same | with_reducible exact Sub.up (by with_reducible assumption) (by decide) | fail_if_no_progress (with_reducible apply Same.upd <;> try first | with_reducible exact ⟨rfl, rfl⟩ | with_reducible exact Or.inr (Sub.up (by with_reducible assumption) (by decide)) | with_reducible exact Or.inl rfl) | (intro _) | dsimp only | (with_reducible refine Same.ofEq (by with_reducible assumption) ?_) | split)

theorem adminRun_same {c s0 s} {a0 a1 a2 a3} (h : Same c s0 s) (a3_ok : ∀ x0 x1 t, Same c s0 t → Same c s0 (a3 x0 x1 t)) (hc : Sub 3635 c := by first | with_reducible assumption | exact Sub.up (by with_reducible assumption) (by decide)) : Same c s0 (adminRun a0 a1 a2 a3 s) := by
  unfold adminRun
  repeat' (first | with_reducible assumption | with_reducible refine Same.ite ?_ ?_ | with_reducible refine Same.ite2 ?_ ?_ | with_reducible apply a3_ok | with_reducible apply adminUnread_same | with_reducible apply dropOwner_same | with_reducible exact Sub.up (by with_reducible assumption) (by decide) | fail_if_no_progress (with_reducible apply Same.upd <;> try first | with_reducible exact ⟨rfl, rfl⟩ | with_reducible exact Or.inr (Sub.up (by with_reducible assumption) (by decide)) | with_reducible exact Or.inl rfl) | (intro _) | dsimp only | (with_reducible refine Same.ofEq (by with_reducible assumption) ?_) | split)

theorem adminHold_same {c s0 s} {a0 a1 a2 a3} (h : Same c s0 s) (hc : Sub 16 c := by first | with_reducible assumption | exact Sub.up (by with_reducible assumption) (by decide)) : Same c s0 (adminHold a0 a1 a2 a3 s) := by
  unfold adminHold
  repeat' (first | with_reducible assumption | with_reducible refine Same.ite ?_ ?_ | with_reducible refine Same.ite2 ?_ ?_ | with_reducible apply modAdmin_same | with_reducible exact Sub.up (by with_reducible assumption) (by decide) | fail_if_no_progress (with_reducible apply Same.upd <;> try first | with_reducible exact ⟨rfl, rfl⟩ | with_reducible exact Or.inr (Sub.up (by with_reducible assumption) (by decide)) | with_reducible exact Or.inl rfl) | (intro _) | dsimp only | (with_reducible refine Same.ofEq (by with_reducible assumption) ?_) | split)

theorem adminOut_same {c s0 s} {a0 a1 a2} (h : Same c s0 s) (hc : Sub 3 c := by first | with_reducible assumption | exact Sub.up (by with_reducible assumption) (by decide)) : Same c s0 (adminOut a0 a1 a2 s) := by
  unfold adminOut
  repeat' (first | with_reducible assumption | with_reducible refine Same.ite ?_ ?_ | with_reducible refine Same.ite2 ?_ ?_ | with_reducible apply writeBytes_same | with_reducible apply hostPut_same | with_reducible exact Sub.up (by with_reducible assumption) (by decide) | fail_if_no_progress (with_reducible apply Same.upd <;> try first | with_reducible exact ⟨rfl, rfl⟩ | with_reducible exact Or.inr (Sub.up (by with_reducible assumption) (by decide)) | with_reducible exact Or.inl rfl) | (intro _) | dsimp only | (with_reducible refine Same.ofEq (by with_reducible assumption) ?_) | split)

theorem forgetFaults_same {c s0 s} {a0} (h : Same c s0 s) (hc : Sub 512 c := by first | with_reducible assumption | exact Sub.up (by with_reducible assumption) (by decide)) : Same c s0 (forgetFaults a0 s) := by
  unfold forgetFaults
  repeat' (first | with_reducible assumption | with_reducible refine Same.ite ?_ ?_ | with_reducible refine Same.ite2 ?_ ?_ | with_reducible exact Sub.up (by with_reducible assumption) (by decide) | fail_if_no_progress (with_reducible apply Same.upd <;> try first | with_reducible exact ⟨rfl, rfl⟩ | with_reducible exact Or.inr (Sub.up (by with_reducible assumption) (by decide)) | with_reducible exact Or.inl rfl) | (intro _) | dsimp only | (with_reducible refine Same.ofEq (by with_reducible assumption) ?_) | split)

theorem adminPages_same {c s0 s} {a0 a1 a2 a3} (h : Same c s0 s) (a3_ok : ∀ t, Same c s0 t → Same c s0 (a3 t)) (hc : Sub 3635 c := by first | with_reducible assumption | exact Sub.up (by with_reducible assumption) (by decide)) : Same c s0 (adminPages a0 a1 a2 a3 s) := by
  unfold adminPages
  repeat' (first | with_reducible assumption | with_reducible refine Same.ite ?_ ?_ | with_reducible refine Same.ite2 ?_ ?_ | with_reducible apply a3_ok | with_reducible apply startPages_same | with_reducible apply adminEnd_same | with_reducible apply forgetFaults_same | with_reducible exact Sub.up (by with_reducible assumption) (by decide) | fail_if_no_progress (with_reducible apply Same.upd <;> try first | with_reducible exact ⟨rfl, rfl⟩ | with_reducible exact Or.inr (Sub.up (by with_reducible assumption) (by decide)) | with_reducible exact Or.inl rfl) | (intro _) | dsimp only | (with_reducible refine Same.ofEq (by with_reducible assumption) ?_) | split)

theorem pinSlot_same {c s0 s} {a0} (h : Same c s0 s) (hc : Sub 16 c := by first | with_reducible assumption | exact Sub.up (by with_reducible assumption) (by decide)) : Same c s0 (pinSlot a0 s) := by
  unfold pinSlot
  repeat' (first | with_reducible assumption | with_reducible refine Same.ite ?_ ?_ | with_reducible refine Same.ite2 ?_ ?_ | with_reducible apply loadVat_same | with_reducible apply needSlot_same | with_reducible exact Sub.up (by with_reducible assumption) (by decide) | fail_if_no_progress (with_reducible apply Same.upd <;> try first | with_reducible exact ⟨rfl, rfl⟩ | with_reducible exact Or.inr (Sub.up (by with_reducible assumption) (by decide)) | with_reducible exact Or.inl rfl) | (intro _) | dsimp only | (with_reducible refine Same.ofEq (by with_reducible assumption) ?_) | split)

theorem lrFail_same {c s0 s} {a0 a1 a2 a3 a4 a5} (h : Same c s0 s) (hc : Sub 3635 c := by first | with_reducible assumption | exact Sub.up (by with_reducible assumption) (by decide)) : Same c s0 (lrFail a0 a1 a2 a3 a4 a5 s) := by
  unfold lrFail
  repeat' (first | with_reducible assumption | with_reducible refine Same.ite ?_ ?_ | with_reducible refine Same.ite2 ?_ ?_ | with_reducible apply when_same | with_reducible apply adminOut_same | with_reducible apply adminEnd_same | with_reducible exact Sub.up (by with_reducible assumption) (by decide) | fail_if_no_progress (with_reducible apply Same.upd <;> try first | with_reducible exact ⟨rfl, rfl⟩ | with_reducible exact Or.inr (Sub.up (by with_reducible assumption) (by decide)) | with_reducible exact Or.inl rfl) | (intro _) | dsimp only | (with_reducible refine Same.ofEq (by with_reducible assumption) ?_) | split)

theorem closeGate_same {c s0 s} {a0} (h : Same c s0 s) (hc : Sub 64 c := by first | with_reducible assumption | exact Sub.up (by with_reducible assumption) (by decide)) : Same c s0 (closeGate a0 s) := by
  unfold closeGate
  repeat' (first | with_reducible assumption | with_reducible refine Same.ite ?_ ?_ | with_reducible refine Same.ite2 ?_ ?_ | with_reducible exact Sub.up (by with_reducible assumption) (by decide) | fail_if_no_progress (with_reducible apply Same.upd <;> try first | with_reducible exact ⟨rfl, rfl⟩ | with_reducible exact Or.inr (Sub.up (by with_reducible assumption) (by decide)) | with_reducible exact Or.inl rfl) | (intro _) | dsimp only | (with_reducible refine Same.ofEq (by with_reducible assumption) ?_) | split)

theorem unitSafe_same {c s0 s} {a0} (h : Same c s0 s) (hc : Sub 65395 c := by first | with_reducible assumption | exact Sub.up (by with_reducible assumption) (by decide)) : Same c s0 (unitSafe a0 s) := by
  unfold unitSafe
  repeat' (first | with_reducible assumption | with_reducible refine Same.ite ?_ ?_ | with_reducible refine Same.ite2 ?_ ?_ | with_reducible apply when_same | with_reducible apply hcDown_same | with_reducible apply modHc_same | with_reducible apply closeGate_same | with_reducible apply peerDown_same | with_reducible apply modPeerP_same | with_reducible apply acdSafe_same | with_reducible apply sliceDown_same | with_reducible apply forAll_same | with_reducible exact Sub.up (by with_reducible assumption) (by decide) | fail_if_no_progress (with_reducible apply Same.upd <;> try first | with_reducible exact ⟨rfl, rfl⟩ | with_reducible exact Or.inr (Sub.up (by with_reducible assumption) (by decide)) | with_reducible exact Or.inl rfl) | (intro _) | dsimp only | (with_reducible refine Same.ofEq (by with_reducible assumption) ?_) | split)

theorem yieldSafe_same {c s0 s} {a0 a1 a2 a3} (h : Same c s0 s) (hc : Sub 11827 c := by first | with_reducible assumption | exact Sub.up (by with_reducible assumption) (by decide)) : Same c s0 (yieldSafe a0 a1 a2 a3 s) := by
  unfold yieldSafe
  repeat' (first | with_reducible assumption | with_reducible refine Same.ite ?_ ?_ | with_reducible refine Same.ite2 ?_ ?_ | with_reducible apply forAll_same | with_reducible apply yieldWheel_same | with_reducible exact Sub.up (by with_reducible assumption) (by decide) | fail_if_no_progress (with_reducible apply Same.upd <;> try first | with_reducible exact ⟨rfl, rfl⟩ | with_reducible exact Or.inr (Sub.up (by with_reducible assumption) (by decide)) | with_reducible exact Or.inl rfl) | (intro _) | dsimp only | (with_reducible refine Same.ofEq (by with_reducible assumption) ?_) | split)

theorem storeGone_same {c s0 s} {a0} (h : Same c s0 s) (hc : Sub 65395 c := by first | with_reducible assumption | exact Sub.up (by with_reducible assumption) (by decide)) : Same c s0 (storeGone a0 s) := by
  unfold storeGone
  repeat' (first | with_reducible assumption | with_reducible refine Same.ite ?_ ?_ | with_reducible refine Same.ite2 ?_ ?_ | with_reducible apply when_same | with_reducible apply sendMsix_same | with_reducible apply forAll_same | with_reducible apply unitSafe_same | with_reducible apply yieldSafe_same | with_reducible exact Sub.up (by with_reducible assumption) (by decide) | fail_if_no_progress (with_reducible apply Same.upd <;> try first | with_reducible exact ⟨rfl, rfl⟩ | with_reducible exact Or.inr (Sub.up (by with_reducible assumption) (by decide)) | with_reducible exact Or.inl rfl) | (intro _) | dsimp only | (with_reducible refine Same.ofEq (by with_reducible assumption) ?_) | split)

theorem rshErr_same {c s0 s} {a0 a1} (h : Same c s0 s) (hc : Sub 1024 c := by first | with_reducible assumption | exact Sub.up (by with_reducible assumption) (by decide)) : Same c s0 (rshErr a0 a1 s) := by
  unfold rshErr
  repeat' (first | with_reducible assumption | with_reducible refine Same.ite ?_ ?_ | with_reducible refine Same.ite2 ?_ ?_ | with_reducible apply modRsh_same | with_reducible exact Sub.up (by with_reducible assumption) (by decide) | fail_if_no_progress (with_reducible apply Same.upd <;> try first | with_reducible exact ⟨rfl, rfl⟩ | with_reducible exact Or.inr (Sub.up (by with_reducible assumption) (by decide)) | with_reducible exact Or.inl rfl) | (intro _) | dsimp only | (with_reducible refine Same.ofEq (by with_reducible assumption) ?_) | split)

theorem laserErr_same {c s0 s} {a0} (h : Same c s0 s) (hc : Sub 1024 c := by first | with_reducible assumption | exact Sub.up (by with_reducible assumption) (by decide)) : Same c s0 (laserErr a0 s) := by
  unfold laserErr
  repeat' (first | with_reducible assumption | with_reducible refine Same.ite ?_ ?_ | with_reducible refine Same.ite2 ?_ ?_ | with_reducible apply forAll_same | with_reducible apply rshErr_same | with_reducible exact Sub.up (by with_reducible assumption) (by decide) | fail_if_no_progress (with_reducible apply Same.upd <;> try first | with_reducible exact ⟨rfl, rfl⟩ | with_reducible exact Or.inr (Sub.up (by with_reducible assumption) (by decide)) | with_reducible exact Or.inl rfl) | (intro _) | dsimp only | (with_reducible refine Same.ofEq (by with_reducible assumption) ?_) | split)

theorem driveSafe_same {c s0 s} {a0} (h : Same c s0 s) (hc : Sub 65395 c := by first | with_reducible assumption | exact Sub.up (by with_reducible assumption) (by decide)) : Same c s0 (driveSafe a0 s) := by
  unfold driveSafe
  repeat' (first | with_reducible assumption | with_reducible refine Same.ite ?_ ?_ | with_reducible refine Same.ite2 ?_ ?_ | with_reducible apply when_same | with_reducible apply sendMsix_same | with_reducible apply laserErr_same | with_reducible apply forAll_same | with_reducible apply rshErr_same | with_reducible apply unitSafe_same | with_reducible apply storeGone_same | with_reducible apply modRsrc_same | with_reducible apply modWheel_same | with_reducible apply yieldSafe_same | with_reducible exact Sub.up (by with_reducible assumption) (by decide) | fail_if_no_progress (with_reducible apply Same.upd <;> try first | with_reducible exact ⟨rfl, rfl⟩ | with_reducible exact Or.inr (Sub.up (by with_reducible assumption) (by decide)) | with_reducible exact Or.inl rfl) | (intro _) | dsimp only | (with_reducible refine Same.ofEq (by with_reducible assumption) ?_) | split)

theorem swapLadle_same {c s0 s} {a0 a1 a2} (h : Same c s0 s) (hc : Sub 144 c := by first | with_reducible assumption | exact Sub.up (by with_reducible assumption) (by decide)) : Same c s0 (swapLadle a0 a1 a2 s) := by
  unfold swapLadle
  repeat' (first | with_reducible assumption | with_reducible refine Same.ite ?_ ?_ | with_reducible refine Same.ite2 ?_ ?_ | with_reducible apply modSpareQ_same | with_reducible apply forAll_same | with_reducible apply moveHoop_same | with_reducible apply foldl_same | with_reducible apply foldl2_same | with_reducible exact Sub.up (by with_reducible assumption) (by decide) | fail_if_no_progress (with_reducible apply Same.upd <;> try first | with_reducible exact ⟨rfl, rfl⟩ | with_reducible exact Or.inr (Sub.up (by with_reducible assumption) (by decide)) | with_reducible exact Or.inl rfl) | (intro _) | dsimp only | (with_reducible refine Same.ofEq (by with_reducible assumption) ?_) | split)

theorem swapEngine_same {c s0 s} {a0 a1 a2} (h : Same c s0 s) (hc : Sub 144 c := by first | with_reducible assumption | exact Sub.up (by with_reducible assumption) (by decide)) : Same c s0 (swapEngine a0 a1 a2 s) := by
  unfold swapEngine
  repeat' (first | with_reducible assumption | with_reducible refine Same.ite ?_ ?_ | with_reducible refine Same.ite2 ?_ ?_ | with_reducible apply modSpareQ_same | with_reducible apply forAll_same | with_reducible apply moveHoop_same | with_reducible apply foldl_same | with_reducible apply foldl2_same | with_reducible exact Sub.up (by with_reducible assumption) (by decide) | fail_if_no_progress (with_reducible apply Same.upd <;> try first | with_reducible exact ⟨rfl, rfl⟩ | with_reducible exact Or.inr (Sub.up (by with_reducible assumption) (by decide)) | with_reducible exact Or.inl rfl) | (intro _) | dsimp only | (with_reducible refine Same.ofEq (by with_reducible assumption) ?_) | split)

theorem dropCellResv_same {c s0 s} {a0} (h : Same c s0 s) (hc : Sub 1042 c := by first | with_reducible assumption | exact Sub.up (by with_reducible assumption) (by decide)) : Same c s0 (dropCellResv a0 s) := by
  unfold dropCellResv
  repeat' (first | with_reducible assumption | with_reducible refine Same.ite ?_ ?_ | with_reducible refine Same.ite2 ?_ ?_ | with_reducible apply loseResv_same | with_reducible exact Sub.up (by with_reducible assumption) (by decide) | fail_if_no_progress (with_reducible apply Same.upd <;> try first | with_reducible exact ⟨rfl, rfl⟩ | with_reducible exact Or.inr (Sub.up (by with_reducible assumption) (by decide)) | with_reducible exact Or.inl rfl) | (intro _) | dsimp only | (with_reducible refine Same.ofEq (by with_reducible assumption) ?_) | split)

theorem zeroSlice_same {c s0 s} {a0} (h : Same c s0 s) (hc : Sub 1 c := by first | with_reducible assumption | exact Sub.up (by with_reducible assumption) (by decide)) : Same c s0 (zeroSlice a0 s) := by
  unfold zeroSlice
  repeat' (first | with_reducible assumption | with_reducible refine Same.ite ?_ ?_ | with_reducible refine Same.ite2 ?_ ?_ | with_reducible apply zeroRange_same | with_reducible apply forAll_same | with_reducible apply poisonRange_same | with_reducible exact Sub.up (by with_reducible assumption) (by decide) | fail_if_no_progress (with_reducible apply Same.upd <;> try first | with_reducible exact ⟨rfl, rfl⟩ | with_reducible exact Or.inr (Sub.up (by with_reducible assumption) (by decide)) | with_reducible exact Or.inl rfl) | (intro _) | dsimp only | (with_reducible refine Same.ofEq (by with_reducible assumption) ?_) | split)

theorem cellDead_same {c s0 s} {a0} (h : Same c s0 s) (hc : Sub 16051 c := by first | with_reducible assumption | exact Sub.up (by with_reducible assumption) (by decide)) : Same c s0 (cellDead a0 s) := by
  unfold cellDead
  repeat' (first | with_reducible assumption | with_reducible refine Same.ite ?_ ?_ | with_reducible refine Same.ite2 ?_ ?_ | with_reducible apply modSpareQ_same | with_reducible apply dropCellResv_same | with_reducible apply loseReplicas_same | with_reducible apply forAll_same | with_reducible apply failLive_same | with_reducible apply poisonRange_same | with_reducible exact Sub.up (by with_reducible assumption) (by decide) | fail_if_no_progress (with_reducible apply Same.upd <;> try first | with_reducible exact ⟨rfl, rfl⟩ | with_reducible exact Or.inr (Sub.up (by with_reducible assumption) (by decide)) | with_reducible exact Or.inl rfl) | (intro _) | dsimp only | (with_reducible refine Same.ofEq (by with_reducible assumption) ?_) | split)

theorem modFibre_same {c s0 s} {a0 a1} (h : Same c s0 s) (hc : Sub 1024 c := by first | with_reducible assumption | exact Sub.up (by with_reducible assumption) (by decide)) : Same c s0 (modFibre a0 a1 s) := by
  unfold modFibre
  repeat' (first | with_reducible assumption | with_reducible refine Same.ite ?_ ?_ | with_reducible refine Same.ite2 ?_ ?_ | with_reducible apply modRsh_same | with_reducible exact Sub.up (by with_reducible assumption) (by decide) | fail_if_no_progress (with_reducible apply Same.upd <;> try first | with_reducible exact ⟨rfl, rfl⟩ | with_reducible exact Or.inr (Sub.up (by with_reducible assumption) (by decide)) | with_reducible exact Or.inl rfl) | (intro _) | dsimp only | (with_reducible refine Same.ofEq (by with_reducible assumption) ?_) | split)

theorem dropLane_same {c s0 s} {a0 a1 a2} (h : Same c s0 s) (hc : Sub 16179 c := by first | with_reducible assumption | exact Sub.up (by with_reducible assumption) (by decide)) : Same c s0 (dropLane a0 a1 a2 s) := by
  unfold dropLane
  repeat' (first | with_reducible assumption | with_reducible refine Same.ite ?_ ?_ | with_reducible refine Same.ite2 ?_ ?_ | with_reducible apply modRsh_same | with_reducible apply rshErr_same | with_reducible apply peerDown_same | with_reducible exact Sub.up (by with_reducible assumption) (by decide) | fail_if_no_progress (with_reducible apply Same.upd <;> try first | with_reducible exact ⟨rfl, rfl⟩ | with_reducible exact Or.inr (Sub.up (by with_reducible assumption) (by decide)) | with_reducible exact Or.inl rfl) | (intro _) | dsimp only | (with_reducible refine Same.ofEq (by with_reducible assumption) ?_) | split)

theorem setLsrEn_same {c s0 s} (h : Same c s0 s) (hc : Sub 2 c := by first | with_reducible assumption | exact Sub.up (by with_reducible assumption) (by decide)) : Same c s0 (setLsrEn s) := by
  unfold setLsrEn
  repeat' (first | with_reducible assumption | with_reducible refine Same.ite ?_ ?_ | with_reducible refine Same.ite2 ?_ ?_ | with_reducible exact Sub.up (by with_reducible assumption) (by decide) | fail_if_no_progress (with_reducible apply Same.upd <;> try first | with_reducible exact ⟨rfl, rfl⟩ | with_reducible exact Or.inr (Sub.up (by with_reducible assumption) (by decide)) | with_reducible exact Or.inl rfl) | (intro _) | dsimp only | (with_reducible refine Same.ofEq (by with_reducible assumption) ?_) | split)

theorem outOfService_same {c s0 s} {a0} (h : Same c s0 s) (hc : Sub 16311 c := by first | with_reducible assumption | exact Sub.up (by with_reducible assumption) (by decide)) : Same c s0 (outOfService a0 s) := by
  unfold outOfService
  repeat' (first | with_reducible assumption | with_reducible refine Same.ite ?_ ?_ | with_reducible refine Same.ite2 ?_ ?_ | with_reducible apply modIsland_same | with_reducible apply cellDead_same | with_reducible apply modSpareQ_same | with_reducible apply modFibre_same | with_reducible apply dropLane_same | with_reducible exact Sub.up (by with_reducible assumption) (by decide) | fail_if_no_progress (with_reducible apply Same.upd <;> try first | with_reducible exact ⟨rfl, rfl⟩ | with_reducible exact Or.inr (Sub.up (by with_reducible assumption) (by decide)) | with_reducible exact Or.inl rfl) | (intro _) | dsimp only | (with_reducible refine Same.ofEq (by with_reducible assumption) ?_) | split)

theorem affWrite_same {c s0 s} {a0 a1} (h : Same c s0 s) (hc : Sub 3091 c := by first | with_reducible assumption | exact Sub.up (by with_reducible assumption) (by decide)) : Same c s0 (affWrite a0 a1 s) := by
  unfold affWrite
  repeat' (first | with_reducible assumption | with_reducible refine Same.ite ?_ ?_ | with_reducible refine Same.ite2 ?_ ?_ | with_reducible apply when_same | with_reducible apply writeBytes_same | with_reducible apply loseResv_same | with_reducible apply storeAt_same | with_reducible exact Sub.up (by with_reducible assumption) (by decide) | fail_if_no_progress (with_reducible apply Same.upd <;> try first | with_reducible exact ⟨rfl, rfl⟩ | with_reducible exact Or.inr (Sub.up (by with_reducible assumption) (by decide)) | with_reducible exact Or.inl rfl) | (intro _) | dsimp only | (with_reducible refine Same.ofEq (by with_reducible assumption) ?_) | split)

theorem switchCore_same {c s0 s} (h : Same c s0 s) (hc : Sub 35859 c := by first | with_reducible assumption | exact Sub.up (by with_reducible assumption) (by decide)) : Same c s0 (switchCore s) := by
  unfold switchCore
  repeat' (first | with_reducible assumption | with_reducible refine Same.ite ?_ ?_ | with_reducible refine Same.ite2 ?_ ?_ | with_reducible apply forAll_same | with_reducible apply affWrite_same | with_reducible apply loseResv_same | with_reducible exact Sub.up (by with_reducible assumption) (by decide) | fail_if_no_progress (with_reducible apply Same.upd <;> try first | with_reducible exact ⟨rfl, rfl⟩ | with_reducible exact Or.inr (Sub.up (by with_reducible assumption) (by decide)) | with_reducible exact Or.inl rfl) | (intro _) | dsimp only | (with_reducible refine Same.ofEq (by with_reducible assumption) ?_) | split)

theorem substitute_same {c s0 s} {a0 a1 a2 a3} (h : Same c s0 s) (hc : Sub 36055 c := by first | with_reducible assumption | exact Sub.up (by with_reducible assumption) (by decide)) : Same c s0 (substitute a0 a1 a2 a3 s) := by
  unfold substitute
  repeat' (first | with_reducible assumption | with_reducible refine Same.ite ?_ ?_ | with_reducible refine Same.ite2 ?_ ?_ | with_reducible apply modIsland_same | with_reducible apply switchCore_same | with_reducible apply when_same | with_reducible apply closeGate_same | with_reducible apply modSpareQ_same | with_reducible apply dropCellResv_same | with_reducible apply forAll_same | with_reducible apply poisonRange_same | with_reducible apply swapLadle_same | with_reducible apply swapEngine_same | with_reducible apply modFibre_same | with_reducible apply emit_same | with_reducible apply laserErr_same | with_reducible apply setLsrEn_same | with_reducible apply foldl_same | with_reducible apply foldl2_same | with_reducible exact Sub.up (by with_reducible assumption) (by decide) | fail_if_no_progress (with_reducible apply Same.upd <;> try first | with_reducible exact ⟨rfl, rfl⟩ | with_reducible exact Or.inr (Sub.up (by with_reducible assumption) (by decide)) | with_reducible exact Or.inl rfl) | (intro _) | dsimp only | (with_reducible refine Same.ofEq (by with_reducible assumption) ?_) | split)

theorem startTest_same {c s0 s} {a0 a1 a2 a3 a4} (h : Same c s0 s) (hc : Sub 1170 c := by first | with_reducible assumption | exact Sub.up (by with_reducible assumption) (by decide)) : Same c s0 (startTest a0 a1 a2 a3 a4 s) := by
  unfold startTest
  repeat' (first | with_reducible assumption | with_reducible refine Same.ite ?_ ?_ | with_reducible refine Same.ite2 ?_ ?_ | with_reducible apply dropCellResv_same | with_reducible apply modSpareQ_same | with_reducible apply swapLadle_same | with_reducible apply swapEngine_same | with_reducible exact Sub.up (by with_reducible assumption) (by decide) | fail_if_no_progress (with_reducible apply Same.upd <;> try first | with_reducible exact ⟨rfl, rfl⟩ | with_reducible exact Or.inr (Sub.up (by with_reducible assumption) (by decide)) | with_reducible exact Or.inl rfl) | (intro _) | dsimp only | (with_reducible refine Same.ofEq (by with_reducible assumption) ?_) | split)

theorem runTurn_same {c s0 s} {a0 a1 a2} (h : Same c s0 s) (hc : Sub 1170 c := by first | with_reducible assumption | exact Sub.up (by with_reducible assumption) (by decide)) : Same c s0 (runTurn a0 a1 a2 s) := by
  unfold runTurn
  repeat' (first | with_reducible assumption | with_reducible refine Same.ite ?_ ?_ | with_reducible refine Same.ite2 ?_ ?_ | with_reducible apply modSpareQ_same | with_reducible apply startTest_same | with_reducible exact Sub.up (by with_reducible assumption) (by decide) | fail_if_no_progress (with_reducible apply Same.upd <;> try first | with_reducible exact ⟨rfl, rfl⟩ | with_reducible exact Or.inr (Sub.up (by with_reducible assumption) (by decide)) | with_reducible exact Or.inl rfl) | (intro _) | dsimp only | (with_reducible refine Same.ofEq (by with_reducible assumption) ?_) | split)

theorem runDeferred_same {c s0 s} (h : Same c s0 s) (hc : Sub 1170 c := by first | with_reducible assumption | exact Sub.up (by with_reducible assumption) (by decide)) : Same c s0 (runDeferred s) := by
  unfold runDeferred
  repeat' (first | with_reducible assumption | with_reducible refine Same.ite ?_ ?_ | with_reducible refine Same.ite2 ?_ ?_ | with_reducible apply runTurn_same | with_reducible exact Sub.up (by with_reducible assumption) (by decide) | fail_if_no_progress (with_reducible apply Same.upd <;> try first | with_reducible exact ⟨rfl, rfl⟩ | with_reducible exact Or.inr (Sub.up (by with_reducible assumption) (by decide)) | with_reducible exact Or.inl rfl) | (intro _) | dsimp only | (with_reducible refine Same.ofEq (by with_reducible assumption) ?_) | split)

theorem endSelftest_same {c s0 s} {a0 a1} (h : Same c s0 s) (hc : Sub 3635 c := by first | with_reducible assumption | exact Sub.up (by with_reducible assumption) (by decide)) : Same c s0 (endSelftest a0 a1 s) := by
  unfold endSelftest
  repeat' (first | with_reducible assumption | with_reducible refine Same.ite ?_ ?_ | with_reducible refine Same.ite2 ?_ ?_ | with_reducible apply when_same | with_reducible apply writeBytes_same | with_reducible apply takeFree_same | with_reducible apply adminEnd_same | with_reducible exact Sub.up (by with_reducible assumption) (by decide) | fail_if_no_progress (with_reducible apply Same.upd <;> try first | with_reducible exact ⟨rfl, rfl⟩ | with_reducible exact Or.inr (Sub.up (by with_reducible assumption) (by decide)) | with_reducible exact Or.inl rfl) | (intro _) | dsimp only | (with_reducible refine Same.ofEq (by with_reducible assumption) ?_) | split)

theorem endTurnFor_same {c s0 s} {a0} (h : Same c s0 s) (hc : Sub 3763 c := by first | with_reducible assumption | exact Sub.up (by with_reducible assumption) (by decide)) : Same c s0 (endTurnFor a0 s) := by
  unfold endTurnFor
  repeat' (first | with_reducible assumption | with_reducible refine Same.ite ?_ ?_ | with_reducible refine Same.ite2 ?_ ?_ | with_reducible apply endSelftest_same | with_reducible exact Sub.up (by with_reducible assumption) (by decide) | fail_if_no_progress (with_reducible apply Same.upd <;> try first | with_reducible exact ⟨rfl, rfl⟩ | with_reducible exact Or.inr (Sub.up (by with_reducible assumption) (by decide)) | with_reducible exact Or.inl rfl) | (intro _) | dsimp only | (with_reducible refine Same.ofEq (by with_reducible assumption) ?_) | split)

theorem logSevere_same {c s0 s} {a0 a1 a2} (h : Same c s0 s) (hc : Sub 256 c := by first | with_reducible assumption | exact Sub.up (by with_reducible assumption) (by decide)) : Same c s0 (logSevere a0 a1 a2 s) := by
  unfold logSevere
  repeat' (first | with_reducible assumption | with_reducible refine Same.ite ?_ ?_ | with_reducible refine Same.ite2 ?_ ?_ | with_reducible exact Sub.up (by with_reducible assumption) (by decide) | fail_if_no_progress (with_reducible apply Same.upd <;> try first | with_reducible exact ⟨rfl, rfl⟩ | with_reducible exact Or.inr (Sub.up (by with_reducible assumption) (by decide)) | with_reducible exact Or.inl rfl) | (intro _) | dsimp only | (with_reducible refine Same.ofEq (by with_reducible assumption) ?_) | split)

theorem unitDead_same {c s0 s} {a0} (h : Same c s0 s) (hc : Sub 192 c := by first | with_reducible assumption | exact Sub.up (by with_reducible assumption) (by decide)) : Same c s0 (unitDead a0 s) := by
  unfold unitDead
  repeat' (first | with_reducible assumption | with_reducible refine Same.ite ?_ ?_ | with_reducible refine Same.ite2 ?_ ?_ | with_reducible apply modSpareQ_same | with_reducible apply modRsrc_same | with_reducible exact Sub.up (by with_reducible assumption) (by decide) | fail_if_no_progress (with_reducible apply Same.upd <;> try first | with_reducible exact ⟨rfl, rfl⟩ | with_reducible exact Or.inr (Sub.up (by with_reducible assumption) (by decide)) | with_reducible exact Or.inl rfl) | (intro _) | dsimp only | (with_reducible refine Same.ofEq (by with_reducible assumption) ?_) | split)

theorem unitPassed_same {c s0 s} {a0} (h : Same c s0 s) (hc : Sub 1152 c := by first | with_reducible assumption | exact Sub.up (by with_reducible assumption) (by decide)) : Same c s0 (unitPassed a0 s) := by
  unfold unitPassed
  repeat' (first | with_reducible assumption | with_reducible refine Same.ite ?_ ?_ | with_reducible refine Same.ite2 ?_ ?_ | with_reducible apply modSpareQ_same | with_reducible apply modFibre_same | with_reducible exact Sub.up (by with_reducible assumption) (by decide) | fail_if_no_progress (with_reducible apply Same.upd <;> try first | with_reducible exact ⟨rfl, rfl⟩ | with_reducible exact Or.inr (Sub.up (by with_reducible assumption) (by decide)) | with_reducible exact Or.inl rfl) | (intro _) | dsimp only | (with_reducible refine Same.ofEq (by with_reducible assumption) ?_) | split)

theorem unitFailed_same {c s0 s} {a0} (h : Same c s0 s) (hc : Sub 65527 c := by first | with_reducible assumption | exact Sub.up (by with_reducible assumption) (by decide)) : Same c s0 (unitFailed a0 s) := by
  unfold unitFailed
  repeat' (first | with_reducible assumption | with_reducible refine Same.ite ?_ ?_ | with_reducible refine Same.ite2 ?_ ?_ | with_reducible apply cellDead_same | with_reducible apply modSpareQ_same | with_reducible apply driveSafe_same | with_reducible apply unitDead_same | with_reducible apply modFibre_same | with_reducible apply modIsland_same | with_reducible exact Sub.up (by with_reducible assumption) (by decide) | fail_if_no_progress (with_reducible apply Same.upd <;> try first | with_reducible exact ⟨rfl, rfl⟩ | with_reducible exact Or.inr (Sub.up (by with_reducible assumption) (by decide)) | with_reducible exact Or.inl rfl) | (intro _) | dsimp only | (with_reducible refine Same.ofEq (by with_reducible assumption) ?_) | split)

theorem endTest_same {c s0 s} {a0 a1} (h : Same c s0 s) (hc : Sub 65527 c := by first | with_reducible assumption | exact Sub.up (by with_reducible assumption) (by decide)) : Same c s0 (endTest a0 a1 s) := by
  unfold endTest
  repeat' (first | with_reducible assumption | with_reducible refine Same.ite ?_ ?_ | with_reducible refine Same.ite2 ?_ ?_ | with_reducible apply unitPassed_same | with_reducible apply unitFailed_same | with_reducible apply endSelftest_same | with_reducible apply runDeferred_same | with_reducible exact Sub.up (by with_reducible assumption) (by decide) | fail_if_no_progress (with_reducible apply Same.upd <;> try first | with_reducible exact ⟨rfl, rfl⟩ | with_reducible exact Or.inr (Sub.up (by with_reducible assumption) (by decide)) | with_reducible exact Or.inl rfl) | (intro _) | dsimp only | (with_reducible refine Same.ofEq (by with_reducible assumption) ?_) | split)

theorem react_same {c s0 s} {a0 a1 a2 a3} (h : Same c s0 s) (hc : Sub 65527 c := by first | with_reducible assumption | exact Sub.up (by with_reducible assumption) (by decide)) : Same c s0 (react a0 a1 a2 a3 s) := by
  have fin : ∀ {k y t}, Same c s0 t → Same c s0 (logSevere a0 k y (modRsrc a0 (fun q => { q with reaction := k }) t)) :=
    fun ht => logSevere_same (modRsrc_same ht)
  unfold react
  dsimp only
  split
  · cases underTest s a0 with
    | none => exact h
    | some t => exact endTest_same (fin h)
  split
  · exact fin h
  split
  · exact fin (outOfService_same h)
  · exact runDeferred_same (forAll_same (fin (substitute_same (endTurnFor_same h))) fun _ _ ht => yieldWheel_same ht)
  · split
    · exact fin (outOfService_same h)
    · exact fin (unitDead_same (driveSafe_same h))
  · split
    · exact fin h
    · exact fin (driveSafe_same h)

theorem rennetEvent_same {c s0 s} {a0 a1 a2 a3 a4 a5} (h : Same c s0 s) (hc : Sub 65527 c := by first | with_reducible assumption | exact Sub.up (by with_reducible assumption) (by decide)) : Same c s0 (rennetEvent a0 a1 a2 a3 a4 a5 s) := by
  unfold rennetEvent
  repeat' (first | with_reducible assumption | with_reducible refine Same.ite ?_ ?_ | with_reducible refine Same.ite2 ?_ ?_ | with_reducible apply modRsrc_same | with_reducible apply when_same | with_reducible apply react_same | with_reducible apply sendMsix_same | with_reducible apply summaryInput_same | with_reducible exact Sub.up (by with_reducible assumption) (by decide) | fail_if_no_progress (with_reducible apply Same.upd <;> try first | with_reducible exact ⟨rfl, rfl⟩ | with_reducible exact Or.inr (Sub.up (by with_reducible assumption) (by decide)) | with_reducible exact Or.inl rfl) | (intro _) | dsimp only | (with_reducible refine Same.ofEq (by with_reducible assumption) ?_) | split)

theorem countFault_same {c s0 s} {a0} (h : Same c s0 s) (hc : Sub 65527 c := by first | with_reducible assumption | exact Sub.up (by with_reducible assumption) (by decide)) : Same c s0 (countFault a0 s) := by
  unfold countFault
  repeat' (first | with_reducible assumption | with_reducible refine Same.ite ?_ ?_ | with_reducible refine Same.ite2 ?_ ?_ | with_reducible apply rennetEvent_same | with_reducible exact Sub.up (by with_reducible assumption) (by decide) | fail_if_no_progress (with_reducible apply Same.upd <;> try first | with_reducible exact ⟨rfl, rfl⟩ | with_reducible exact Or.inr (Sub.up (by with_reducible assumption) (by decide)) | with_reducible exact Or.inl rfl) | (intro _) | dsimp only | (with_reducible refine Same.ofEq (by with_reducible assumption) ?_) | split)

theorem severeFault_same {c s0 s} {a0} (h : Same c s0 s) (hc : Sub 65527 c := by first | with_reducible assumption | exact Sub.up (by with_reducible assumption) (by decide)) : Same c s0 (severeFault a0 s) := by
  unfold severeFault
  repeat' (first | with_reducible assumption | with_reducible refine Same.ite ?_ ?_ | with_reducible refine Same.ite2 ?_ ?_ | with_reducible apply rennetEvent_same | with_reducible exact Sub.up (by with_reducible assumption) (by decide) | fail_if_no_progress (with_reducible apply Same.upd <;> try first | with_reducible exact ⟨rfl, rfl⟩ | with_reducible exact Or.inr (Sub.up (by with_reducible assumption) (by decide)) | with_reducible exact Or.inl rfl) | (intro _) | dsimp only | (with_reducible refine Same.ofEq (by with_reducible assumption) ?_) | split)

theorem openGate_same {c s0 s} {a0} (h : Same c s0 s) (hc : Sub 64 c := by first | with_reducible assumption | exact Sub.up (by with_reducible assumption) (by decide)) : Same c s0 (openGate a0 s) := by
  unfold openGate
  repeat' (first | with_reducible assumption | with_reducible refine Same.ite ?_ ?_ | with_reducible refine Same.ite2 ?_ ?_ | with_reducible exact Sub.up (by with_reducible assumption) (by decide) | fail_if_no_progress (with_reducible apply Same.upd <;> try first | with_reducible exact ⟨rfl, rfl⟩ | with_reducible exact Or.inr (Sub.up (by with_reducible assumption) (by decide)) | with_reducible exact Or.inl rfl) | (intro _) | dsimp only | (with_reducible refine Same.ofEq (by with_reducible assumption) ?_) | split)

theorem unitBack_same {c s0 s} {a0} (h : Same c s0 s) (hc : Sub 1089 c := by first | with_reducible assumption | exact Sub.up (by with_reducible assumption) (by decide)) : Same c s0 (unitBack a0 s) := by
  unfold unitBack
  repeat' (first | with_reducible assumption | with_reducible refine Same.ite ?_ ?_ | with_reducible refine Same.ite2 ?_ ?_ | with_reducible apply modHc_same | with_reducible apply openGate_same | with_reducible apply modPeerP_same | with_reducible apply modAcd_same | with_reducible apply zeroSlice_same | with_reducible apply forAll_same | with_reducible exact Sub.up (by with_reducible assumption) (by decide) | fail_if_no_progress (with_reducible apply Same.upd <;> try first | with_reducible exact ⟨rfl, rfl⟩ | with_reducible exact Or.inr (Sub.up (by with_reducible assumption) (by decide)) | with_reducible exact Or.inl rfl) | (intro _) | dsimp only | (with_reducible refine Same.ofEq (by with_reducible assumption) ?_) | split)

theorem leaveSafe_same {c s0 s} {a0} (h : Same c s0 s) (hc : Sub 9283 c := by first | with_reducible assumption | exact Sub.up (by with_reducible assumption) (by decide)) : Same c s0 (leaveSafe a0 s) := by
  unfold leaveSafe
  repeat' (first | with_reducible assumption | with_reducible refine Same.ite ?_ ?_ | with_reducible refine Same.ite2 ?_ ?_ | with_reducible apply when_same | with_reducible apply modWheel_same | with_reducible apply forAll_same | with_reducible apply unitBack_same | with_reducible exact Sub.up (by with_reducible assumption) (by decide) | fail_if_no_progress (with_reducible apply Same.upd <;> try first | with_reducible exact ⟨rfl, rfl⟩ | with_reducible exact Or.inr (Sub.up (by with_reducible assumption) (by decide)) | with_reducible exact Or.inl rfl) | (intro _) | dsimp only | (with_reducible refine Same.ofEq (by with_reducible assumption) ?_) | split)

theorem clearSrc_same {c s0 s} {a0} (h : Same c s0 s) (hc : Sub 65527 c := by first | with_reducible assumption | exact Sub.up (by with_reducible assumption) (by decide)) : Same c s0 (clearSrc a0 s) := by
  unfold clearSrc
  repeat' (first | with_reducible assumption | with_reducible refine Same.ite ?_ ?_ | with_reducible refine Same.ite2 ?_ ?_ | with_reducible apply modRsrc_same | with_reducible apply rennetEvent_same | with_reducible apply summaryInput_same | with_reducible apply when_same | with_reducible apply leaveSafe_same | with_reducible exact Sub.up (by with_reducible assumption) (by decide) | fail_if_no_progress (with_reducible apply Same.upd <;> try first | with_reducible exact ⟨rfl, rfl⟩ | with_reducible exact Or.inr (Sub.up (by with_reducible assumption) (by decide)) | with_reducible exact Or.inl rfl) | (intro _) | dsimp only | (with_reducible refine Same.ofEq (by with_reducible assumption) ?_) | split)

theorem clearWheelEntries_same {c s0 s} {a0} (h : Same c s0 s) (hc : Sub 4096 c := by first | with_reducible assumption | exact Sub.up (by with_reducible assumption) (by decide)) : Same c s0 (clearWheelEntries a0 s) := by
  unfold clearWheelEntries
  repeat' (first | with_reducible assumption | with_reducible refine Same.ite ?_ ?_ | with_reducible refine Same.ite2 ?_ ?_ | with_reducible exact Sub.up (by with_reducible assumption) (by decide) | fail_if_no_progress (with_reducible apply Same.upd <;> try first | with_reducible exact ⟨rfl, rfl⟩ | with_reducible exact Or.inr (Sub.up (by with_reducible assumption) (by decide)) | with_reducible exact Or.inl rfl) | (intro _) | dsimp only | (with_reducible refine Same.ofEq (by with_reducible assumption) ?_) | split)

theorem makeWheel_same {c s0 s} {a0 a1} (h : Same c s0 s) (hc : Sub 8192 c := by first | with_reducible assumption | exact Sub.up (by with_reducible assumption) (by decide)) : Same c s0 (makeWheel a0 a1 s) := by
  unfold makeWheel
  repeat' (first | with_reducible assumption | with_reducible refine Same.ite ?_ ?_ | with_reducible refine Same.ite2 ?_ ?_ | with_reducible apply modWheel_same | with_reducible exact Sub.up (by with_reducible assumption) (by decide) | fail_if_no_progress (with_reducible apply Same.upd <;> try first | with_reducible exact ⟨rfl, rfl⟩ | with_reducible exact Or.inr (Sub.up (by with_reducible assumption) (by decide)) | with_reducible exact Or.inl rfl) | (intro _) | dsimp only | (with_reducible refine Same.ofEq (by with_reducible assumption) ?_) | split)

theorem dropWheel_same {c s0 s} {a0} (h : Same c s0 s) (hc : Sub 12288 c := by first | with_reducible assumption | exact Sub.up (by with_reducible assumption) (by decide)) : Same c s0 (dropWheel a0 s) := by
  unfold dropWheel
  repeat' (first | with_reducible assumption | with_reducible refine Same.ite ?_ ?_ | with_reducible refine Same.ite2 ?_ ?_ | with_reducible apply clearWheelEntries_same | with_reducible exact Sub.up (by with_reducible assumption) (by decide) | fail_if_no_progress (with_reducible apply Same.upd <;> try first | with_reducible exact ⟨rfl, rfl⟩ | with_reducible exact Or.inr (Sub.up (by with_reducible assumption) (by decide)) | with_reducible exact Or.inl rfl) | (intro _) | dsimp only | (with_reducible refine Same.ofEq (by with_reducible assumption) ?_) | split)

theorem bumpCaps_same {c s0 s} {a0} (h : Same c s0 s) (hc : Sub 32 c := by first | with_reducible assumption | exact Sub.up (by with_reducible assumption) (by decide)) : Same c s0 (bumpCaps a0 s) := by
  unfold bumpCaps
  repeat' (first | with_reducible assumption | with_reducible refine Same.ite ?_ ?_ | with_reducible refine Same.ite2 ?_ ?_ | with_reducible apply modFnS_same | with_reducible exact Sub.up (by with_reducible assumption) (by decide) | fail_if_no_progress (with_reducible apply Same.upd <;> try first | with_reducible exact ⟨rfl, rfl⟩ | with_reducible exact Or.inr (Sub.up (by with_reducible assumption) (by decide)) | with_reducible exact Or.inl rfl) | (intro _) | dsimp only | (with_reducible refine Same.ofEq (by with_reducible assumption) ?_) | split)

theorem purgeWheel_same {c s0 s} {a0} (h : Same c s0 s) (hc : Sub 512 c := by first | with_reducible assumption | exact Sub.up (by with_reducible assumption) (by decide)) : Same c s0 (purgeWheel a0 s) := by
  unfold purgeWheel
  repeat' (first | with_reducible assumption | with_reducible refine Same.ite ?_ ?_ | with_reducible refine Same.ite2 ?_ ?_ | with_reducible exact Sub.up (by with_reducible assumption) (by decide) | fail_if_no_progress (with_reducible apply Same.upd <;> try first | with_reducible exact ⟨rfl, rfl⟩ | with_reducible exact Or.inr (Sub.up (by with_reducible assumption) (by decide)) | with_reducible exact Or.inl rfl) | (intro _) | dsimp only | (with_reducible refine Same.ofEq (by with_reducible assumption) ?_) | split)

theorem bindMoveEffect_same {c s0 s} {a0} (h : Same c s0 s) (hc : Sub 11827 c := by first | with_reducible assumption | exact Sub.up (by with_reducible assumption) (by decide)) : Same c s0 (bindMoveEffect a0 s) := by
  unfold bindMoveEffect
  repeat' (first | with_reducible assumption | with_reducible refine Same.ite ?_ ?_ | with_reducible refine Same.ite2 ?_ ?_ | with_reducible apply purgeWheel_same | with_reducible apply forAll_same | with_reducible apply loseResv_same | with_reducible apply zeroSlice_same | with_reducible apply bumpCaps_same | with_reducible apply yieldWheel_same | with_reducible exact Sub.up (by with_reducible assumption) (by decide) | fail_if_no_progress (with_reducible apply Same.upd <;> try first | with_reducible exact ⟨rfl, rfl⟩ | with_reducible exact Or.inr (Sub.up (by with_reducible assumption) (by decide)) | with_reducible exact Or.inl rfl) | (intro _) | dsimp only | (with_reducible refine Same.ofEq (by with_reducible assumption) ?_) | split)

theorem bindVatsEffect_same {c s0 s} {a0} (h : Same c s0 s) (hc : Sub 8704 c := by first | with_reducible assumption | exact Sub.up (by with_reducible assumption) (by decide)) : Same c s0 (bindVatsEffect a0 s) := by
  unfold bindVatsEffect
  repeat' (first | with_reducible assumption | with_reducible refine Same.ite ?_ ?_ | with_reducible refine Same.ite2 ?_ ?_ | with_reducible apply purgeWheel_same | with_reducible exact Sub.up (by with_reducible assumption) (by decide) | fail_if_no_progress (with_reducible apply Same.upd <;> try first | with_reducible exact ⟨rfl, rfl⟩ | with_reducible exact Or.inr (Sub.up (by with_reducible assumption) (by decide)) | with_reducible exact Or.inl rfl) | (intro _) | dsimp only | (with_reducible refine Same.ofEq (by with_reducible assumption) ?_) | split)

theorem bindEvqsEffect_same {c s0 s} {a0} (h : Same c s0 s) (hc : Sub 8704 c := by first | with_reducible assumption | exact Sub.up (by with_reducible assumption) (by decide)) : Same c s0 (bindEvqsEffect a0 s) := by
  unfold bindEvqsEffect
  repeat' (first | with_reducible assumption | with_reducible refine Same.ite ?_ ?_ | with_reducible refine Same.ite2 ?_ ?_ | with_reducible apply purgeWheel_same | with_reducible exact Sub.up (by with_reducible assumption) (by decide) | fail_if_no_progress (with_reducible apply Same.upd <;> try first | with_reducible exact ⟨rfl, rfl⟩ | with_reducible exact Or.inr (Sub.up (by with_reducible assumption) (by decide)) | with_reducible exact Or.inl rfl) | (intro _) | dsimp only | (with_reducible refine Same.ofEq (by with_reducible assumption) ?_) | split)

theorem bindShareEffect_same {c s0 s} {a0} (h : Same c s0 s) (hc : Sub 8192 c := by first | with_reducible assumption | exact Sub.up (by with_reducible assumption) (by decide)) : Same c s0 (bindShareEffect a0 s) := by
  unfold bindShareEffect
  repeat' (first | with_reducible assumption | with_reducible refine Same.ite ?_ ?_ | with_reducible refine Same.ite2 ?_ ?_ | with_reducible apply modWheel_same | with_reducible exact Sub.up (by with_reducible assumption) (by decide) | fail_if_no_progress (with_reducible apply Same.upd <;> try first | with_reducible exact ⟨rfl, rfl⟩ | with_reducible exact Or.inr (Sub.up (by with_reducible assumption) (by decide)) | with_reducible exact Or.inl rfl) | (intro _) | dsimp only | (with_reducible refine Same.ofEq (by with_reducible assumption) ?_) | split)

theorem vfGrantEffect_same {c s0 s} {a0 a1} (h : Same c s0 s) (hc : Sub 32 c := by first | with_reducible assumption | exact Sub.up (by with_reducible assumption) (by decide)) : Same c s0 (vfGrantEffect a0 a1 s) := by
  unfold vfGrantEffect
  repeat' (first | with_reducible assumption | with_reducible refine Same.ite ?_ ?_ | with_reducible refine Same.ite2 ?_ ?_ | with_reducible apply modFnS_same | with_reducible apply when_same | with_reducible apply bumpCaps_same | with_reducible exact Sub.up (by with_reducible assumption) (by decide) | fail_if_no_progress (with_reducible apply Same.upd <;> try first | with_reducible exact ⟨rfl, rfl⟩ | with_reducible exact Or.inr (Sub.up (by with_reducible assumption) (by decide)) | with_reducible exact Or.inl rfl) | (intro _) | dsimp only | (with_reducible refine Same.ofEq (by with_reducible assumption) ?_) | split)

theorem tearVats_same {c s0 s} {a0} (h : Same c s0 s) (hc : Sub 15923 c := by first | with_reducible assumption | exact Sub.up (by with_reducible assumption) (by decide)) : Same c s0 (tearVats a0 s) := by
  unfold tearVats
  repeat' (first | with_reducible assumption | with_reducible refine Same.ite ?_ ?_ | with_reducible refine Same.ite2 ?_ ?_ | with_reducible apply forAll_same | with_reducible apply startTear_same | with_reducible apply finishTear_same | with_reducible exact Sub.up (by with_reducible assumption) (by decide) | fail_if_no_progress (with_reducible apply Same.upd <;> try first | with_reducible exact ⟨rfl, rfl⟩ | with_reducible exact Or.inr (Sub.up (by with_reducible assumption) (by decide)) | with_reducible exact Or.inl rfl) | (intro _) | dsimp only | (with_reducible refine Same.ofEq (by with_reducible assumption) ?_) | split)

theorem clearVf_same {c s0 s} {a0} (h : Same c s0 s) (hc : Sub 32 c := by first | with_reducible assumption | exact Sub.up (by with_reducible assumption) (by decide)) : Same c s0 (clearVf a0 s) := by
  unfold clearVf
  repeat' (first | with_reducible assumption | with_reducible refine Same.ite ?_ ?_ | with_reducible refine Same.ite2 ?_ ?_ | with_reducible apply forAll_same | with_reducible apply killEvq_same | with_reducible apply clearMsix_same | with_reducible apply modFnS_same | with_reducible exact Sub.up (by with_reducible assumption) (by decide) | fail_if_no_progress (with_reducible apply Same.upd <;> try first | with_reducible exact ⟨rfl, rfl⟩ | with_reducible exact Or.inr (Sub.up (by with_reducible assumption) (by decide)) | with_reducible exact Or.inl rfl) | (intro _) | dsimp only | (with_reducible refine Same.ofEq (by with_reducible assumption) ?_) | split)

theorem clearFlr_same {c s0 s} {a0} (h : Same c s0 s) (hc : Sub 1024 c := by first | with_reducible assumption | exact Sub.up (by with_reducible assumption) (by decide)) : Same c s0 (clearFlr a0 s) := by
  unfold clearFlr
  repeat' (first | with_reducible assumption | with_reducible refine Same.ite ?_ ?_ | with_reducible refine Same.ite2 ?_ ?_ | with_reducible apply modHc_same | with_reducible exact Sub.up (by with_reducible assumption) (by decide) | fail_if_no_progress (with_reducible apply Same.upd <;> try first | with_reducible exact ⟨rfl, rfl⟩ | with_reducible exact Or.inr (Sub.up (by with_reducible assumption) (by decide)) | with_reducible exact Or.inl rfl) | (intro _) | dsimp only | (with_reducible refine Same.ofEq (by with_reducible assumption) ?_) | split)

theorem dropRecipes_same {c s0 s} {a0} (h : Same c s0 s) (hc : Sub 3635 c := by first | with_reducible assumption | exact Sub.up (by with_reducible assumption) (by decide)) : Same c s0 (dropRecipes a0 s) := by
  unfold dropRecipes
  repeat' (first | with_reducible assumption | with_reducible refine Same.ite ?_ ?_ | with_reducible refine Same.ite2 ?_ ?_ | with_reducible apply forAll_same | with_reducible apply adminEnd_same | with_reducible exact Sub.up (by with_reducible assumption) (by decide) | fail_if_no_progress (with_reducible apply Same.upd <;> try first | with_reducible exact ⟨rfl, rfl⟩ | with_reducible exact Or.inr (Sub.up (by with_reducible assumption) (by decide)) | with_reducible exact Or.inl rfl) | (intro _) | dsimp only | (with_reducible refine Same.ofEq (by with_reducible assumption) ?_) | split)

theorem endFreeze_same {c s0 s} {a0} (h : Same c s0 s) (hc : Sub 3635 c := by first | with_reducible assumption | exact Sub.up (by with_reducible assumption) (by decide)) : Same c s0 (endFreeze a0 s) := by
  unfold endFreeze
  repeat' (first | with_reducible assumption | with_reducible refine Same.ite ?_ ?_ | with_reducible refine Same.ite2 ?_ ?_ | with_reducible apply modFnS_same | with_reducible apply adminEnd_same | with_reducible exact Sub.up (by with_reducible assumption) (by decide) | fail_if_no_progress (with_reducible apply Same.upd <;> try first | with_reducible exact ⟨rfl, rfl⟩ | with_reducible exact Or.inr (Sub.up (by with_reducible assumption) (by decide)) | with_reducible exact Or.inl rfl) | (intro _) | dsimp only | (with_reducible refine Same.ofEq (by with_reducible assumption) ?_) | split)

theorem wheelResetEffect_same {c s0 s} {a0} (h : Same c s0 s) (hc : Sub 15923 c := by first | with_reducible assumption | exact Sub.up (by with_reducible assumption) (by decide)) : Same c s0 (wheelResetEffect a0 s) := by
  unfold wheelResetEffect
  repeat' (first | with_reducible assumption | with_reducible refine Same.ite ?_ ?_ | with_reducible refine Same.ite2 ?_ ?_ | with_reducible apply forAll_same | with_reducible apply killEvq_same | with_reducible apply endFreeze_same | with_reducible apply clearVf_same | with_reducible apply dropRecipes_same | with_reducible apply clearWheelEntries_same | with_reducible apply loseResv_same | with_reducible apply zeroSlice_same | with_reducible apply modWheel_same | with_reducible exact Sub.up (by with_reducible assumption) (by decide) | fail_if_no_progress (with_reducible apply Same.upd <;> try first | with_reducible exact ⟨rfl, rfl⟩ | with_reducible exact Or.inr (Sub.up (by with_reducible assumption) (by decide)) | with_reducible exact Or.inl rfl) | (intro _) | dsimp only | (with_reducible refine Same.ofEq (by with_reducible assumption) ?_) | split)

theorem bindEnd_same {c s0 s} {a0 a1} (h : Same c s0 s) (hc : Sub 11827 c := by first | with_reducible assumption | exact Sub.up (by with_reducible assumption) (by decide)) : Same c s0 (bindEnd a0 a1 s) := by
  unfold bindEnd
  repeat' (first | with_reducible assumption | with_reducible refine Same.ite ?_ ?_ | with_reducible refine Same.ite2 ?_ ?_ | with_reducible apply adminEnd_same | with_reducible exact Sub.up (by with_reducible assumption) (by decide) | fail_if_no_progress (with_reducible apply Same.upd <;> try first | with_reducible exact ⟨rfl, rfl⟩ | with_reducible exact Or.inr (Sub.up (by with_reducible assumption) (by decide)) | with_reducible exact Or.inl rfl) | (intro _) | dsimp only | (with_reducible refine Same.ofEq (by with_reducible assumption) ?_) | split)

theorem finishBind_same {c s0 s} {a0 a1} (h : Same c s0 s) (hc : Sub 15923 c := by first | with_reducible assumption | exact Sub.up (by with_reducible assumption) (by decide)) : Same c s0 (finishBind a0 a1 s) := by
  unfold finishBind
  repeat' (first | with_reducible assumption | with_reducible refine Same.ite ?_ ?_ | with_reducible refine Same.ite2 ?_ ?_ | with_reducible apply bindEnd_same | with_reducible apply bindMoveEffect_same | with_reducible apply bindVatsEffect_same | with_reducible apply bindEvqsEffect_same | with_reducible apply bindShareEffect_same | with_reducible apply vfGrantEffect_same | with_reducible apply rescan_same | with_reducible exact Sub.up (by with_reducible assumption) (by decide) | fail_if_no_progress (with_reducible apply Same.upd <;> try first | with_reducible exact ⟨rfl, rfl⟩ | with_reducible exact Or.inr (Sub.up (by with_reducible assumption) (by decide)) | with_reducible exact Or.inl rfl) | (intro _) | dsimp only | (with_reducible refine Same.ofEq (by with_reducible assumption) ?_) | split)

theorem finishFuncReset_same {c s0 s} {a0 a1} (h : Same c s0 s) (hc : Sub 15923 c := by first | with_reducible assumption | exact Sub.up (by with_reducible assumption) (by decide)) : Same c s0 (finishFuncReset a0 a1 s) := by
  unfold finishFuncReset
  repeat' (first | with_reducible assumption | with_reducible refine Same.ite ?_ ?_ | with_reducible refine Same.ite2 ?_ ?_ | with_reducible apply forAll_same | with_reducible apply finishTear_same | with_reducible apply clearVf_same | with_reducible apply clearFlr_same | with_reducible apply bindEnd_same | with_reducible exact Sub.up (by with_reducible assumption) (by decide) | fail_if_no_progress (with_reducible apply Same.upd <;> try first | with_reducible exact ⟨rfl, rfl⟩ | with_reducible exact Or.inr (Sub.up (by with_reducible assumption) (by decide)) | with_reducible exact Or.inl rfl) | (intro _) | dsimp only | (with_reducible refine Same.ofEq (by with_reducible assumption) ?_) | split)

theorem finishWheelReset_same {c s0 s} {a0 a1} (h : Same c s0 s) (hc : Sub 15923 c := by first | with_reducible assumption | exact Sub.up (by with_reducible assumption) (by decide)) : Same c s0 (finishWheelReset a0 a1 s) := by
  unfold finishWheelReset
  repeat' (first | with_reducible assumption | with_reducible refine Same.ite ?_ ?_ | with_reducible refine Same.ite2 ?_ ?_ | with_reducible apply forAll_same | with_reducible apply finishTear_same | with_reducible apply wheelResetEffect_same | with_reducible apply bindEnd_same | with_reducible exact Sub.up (by with_reducible assumption) (by decide) | fail_if_no_progress (with_reducible apply Same.upd <;> try first | with_reducible exact ⟨rfl, rfl⟩ | with_reducible exact Or.inr (Sub.up (by with_reducible assumption) (by decide)) | with_reducible exact Or.inl rfl) | (intro _) | dsimp only | (with_reducible refine Same.ofEq (by with_reducible assumption) ?_) | split)

theorem bindAccept_same {c s0 s} {a0 a1 a2} (h : Same c s0 s) (hc : Sub 8208 c := by first | with_reducible assumption | exact Sub.up (by with_reducible assumption) (by decide)) : Same c s0 (bindAccept a0 a1 a2 s) := by
  unfold bindAccept
  repeat' (first | with_reducible assumption | with_reducible refine Same.ite ?_ ?_ | with_reducible refine Same.ite2 ?_ ?_ | with_reducible apply adminHold_same | with_reducible exact Sub.up (by with_reducible assumption) (by decide) | fail_if_no_progress (with_reducible apply Same.upd <;> try first | with_reducible exact ⟨rfl, rfl⟩ | with_reducible exact Or.inr (Sub.up (by with_reducible assumption) (by decide)) | with_reducible exact Or.inl rfl) | (intro _) | dsimp only | (with_reducible refine Same.ofEq (by with_reducible assumption) ?_) | split)

theorem bindRun_same {c s0 s} {a0 a1 a2} (h : Same c s0 s) (a2_ok : ∀ x0 t, Same c s0 t → Same c s0 (a2 x0 t)) (hc : Sub 3635 c := by first | with_reducible assumption | exact Sub.up (by with_reducible assumption) (by decide)) : Same c s0 (bindRun a0 a1 a2 s) := by
  unfold bindRun
  repeat' (first | with_reducible assumption | with_reducible refine Same.ite ?_ ?_ | with_reducible refine Same.ite2 ?_ ?_ | with_reducible apply a2_ok | with_reducible apply adminRun_same | with_reducible apply adminEnd_same | with_reducible exact Sub.up (by with_reducible assumption) (by decide) | fail_if_no_progress (with_reducible apply Same.upd <;> try first | with_reducible exact ⟨rfl, rfl⟩ | with_reducible exact Or.inr (Sub.up (by with_reducible assumption) (by decide)) | with_reducible exact Or.inl rfl) | (intro _) | dsimp only | (with_reducible refine Same.ofEq (by with_reducible assumption) ?_) | split)

theorem sendPage_same {c s0 s} {a0} (h : Same c s0 s) (hc : Sub 3635 c := by first | with_reducible assumption | exact Sub.up (by with_reducible assumption) (by decide)) : Same c s0 (sendPage a0 s) := by
  unfold sendPage
  repeat' (first | with_reducible assumption | with_reducible refine Same.ite ?_ ?_ | with_reducible refine Same.ite2 ?_ ?_ | with_reducible apply modVat_same | with_reducible apply vatFault_same | with_reducible apply emit_same | with_reducible exact Sub.up (by with_reducible assumption) (by decide) | fail_if_no_progress (with_reducible apply Same.upd <;> try first | with_reducible exact ⟨rfl, rfl⟩ | with_reducible exact Or.inr (Sub.up (by with_reducible assumption) (by decide)) | with_reducible exact Or.inl rfl) | (intro _) | dsimp only | (with_reducible refine Same.ofEq (by with_reducible assumption) ?_) | split)

theorem nextPage_same {c s0 s} {a0} (h : Same c s0 s) (hc : Sub 3635 c := by first | with_reducible assumption | exact Sub.up (by with_reducible assumption) (by decide)) : Same c s0 (nextPage a0 s) := by
  unfold nextPage
  repeat' (first | with_reducible assumption | with_reducible refine Same.ite ?_ ?_ | with_reducible refine Same.ite2 ?_ ?_ | with_reducible apply sendPage_same | with_reducible exact Sub.up (by with_reducible assumption) (by decide) | fail_if_no_progress (with_reducible apply Same.upd <;> try first | with_reducible exact ⟨rfl, rfl⟩ | with_reducible exact Or.inr (Sub.up (by with_reducible assumption) (by decide)) | with_reducible exact Or.inl rfl) | (intro _) | dsimp only | (with_reducible refine Same.ofEq (by with_reducible assumption) ?_) | split)

theorem addFault_same {c s0 s} {a0 a1 a2 a3} (h : Same c s0 s) (hc : Sub 512 c := by first | with_reducible assumption | exact Sub.up (by with_reducible assumption) (by decide)) : Same c s0 (addFault a0 a1 a2 a3 s) := by
  unfold addFault
  repeat' (first | with_reducible assumption | with_reducible refine Same.ite ?_ ?_ | with_reducible refine Same.ite2 ?_ ?_ | with_reducible exact Sub.up (by with_reducible assumption) (by decide) | fail_if_no_progress (with_reducible apply Same.upd <;> try first | with_reducible exact ⟨rfl, rfl⟩ | with_reducible exact Or.inr (Sub.up (by with_reducible assumption) (by decide)) | with_reducible exact Or.inl rfl) | (intro _) | dsimp only | (with_reducible refine Same.ofEq (by with_reducible assumption) ?_) | split)

theorem stopPages_same {c s0 s} {a0} (h : Same c s0 s) (hc : Sub 512 c := by first | with_reducible assumption | exact Sub.up (by with_reducible assumption) (by decide)) : Same c s0 (stopPages a0 s) := by
  unfold stopPages
  repeat' (first | with_reducible assumption | with_reducible refine Same.ite ?_ ?_ | with_reducible refine Same.ite2 ?_ ?_ | with_reducible apply forAll_same | with_reducible apply addFault_same | with_reducible exact Sub.up (by with_reducible assumption) (by decide) | fail_if_no_progress (with_reducible apply Same.upd <;> try first | with_reducible exact ⟨rfl, rfl⟩ | with_reducible exact Or.inr (Sub.up (by with_reducible assumption) (by decide)) | with_reducible exact Or.inl rfl) | (intro _) | dsimp only | (with_reducible refine Same.ofEq (by with_reducible assumption) ?_) | split)

theorem takeGrant_same {c s0 s} {a0 a1 a2 a3 a4 a5} (h : Same c s0 s) (hc : Sub 512 c := by first | with_reducible assumption | exact Sub.up (by with_reducible assumption) (by decide)) : Same c s0 (takeGrant a0 a1 a2 a3 a4 a5 s) := by
  unfold takeGrant
  repeat' (first | with_reducible assumption | with_reducible refine Same.ite ?_ ?_ | with_reducible refine Same.ite2 ?_ ?_ | with_reducible apply addXlat_same | with_reducible exact Sub.up (by with_reducible assumption) (by decide) | fail_if_no_progress (with_reducible apply Same.upd <;> try first | with_reducible exact ⟨rfl, rfl⟩ | with_reducible exact Or.inr (Sub.up (by with_reducible assumption) (by decide)) | with_reducible exact Or.inl rfl) | (intro _) | dsimp only | (with_reducible refine Same.ofEq (by with_reducible assumption) ?_) | split)

theorem shortGrant_same {c s0 s} {a0 a1} (h : Same c s0 s) (hc : Sub 3635 c := by first | with_reducible assumption | exact Sub.up (by with_reducible assumption) (by decide)) : Same c s0 (shortGrant a0 a1 s) := by
  unfold shortGrant
  repeat' (first | with_reducible assumption | with_reducible refine Same.ite ?_ ?_ | with_reducible refine Same.ite2 ?_ ?_ | with_reducible apply sendPage_same | with_reducible apply addFault_same | with_reducible exact Sub.up (by with_reducible assumption) (by decide) | fail_if_no_progress (with_reducible apply Same.upd <;> try first | with_reducible exact ⟨rfl, rfl⟩ | with_reducible exact Or.inr (Sub.up (by with_reducible assumption) (by decide)) | with_reducible exact Or.inl rfl) | (intro _) | dsimp only | (with_reducible refine Same.ofEq (by with_reducible assumption) ?_) | split)

theorem takeCompletion_same {c s0 s} {a0 a1} (h : Same c s0 s) (hc : Sub 3635 c := by first | with_reducible assumption | exact Sub.up (by with_reducible assumption) (by decide)) : Same c s0 (takeCompletion a0 a1 s) := by
  unfold takeCompletion
  repeat' (first | with_reducible assumption | with_reducible refine Same.ite ?_ ?_ | with_reducible refine Same.ite2 ?_ ?_ | with_reducible apply sendAts_same | with_reducible apply addFault_same | with_reducible apply when_same | with_reducible apply takeGrant_same | with_reducible apply shortGrant_same | with_reducible exact Sub.up (by with_reducible assumption) (by decide) | fail_if_no_progress (with_reducible apply Same.upd <;> try first | with_reducible exact ⟨rfl, rfl⟩ | with_reducible exact Or.inr (Sub.up (by with_reducible assumption) (by decide)) | with_reducible exact Or.inl rfl) | (intro _) | dsimp only | (with_reducible refine Same.ofEq (by with_reducible assumption) ?_) | split)

theorem freeIndex_same {c s0 s} {a0 a1} (h : Same c s0 s) (hc : Sub 3635 c := by first | with_reducible assumption | exact Sub.up (by with_reducible assumption) (by decide)) : Same c s0 (freeIndex a0 a1 s) := by
  unfold freeIndex
  repeat' (first | with_reducible assumption | with_reducible refine Same.ite ?_ ?_ | with_reducible refine Same.ite2 ?_ ?_ | with_reducible apply nextPage_same | with_reducible exact Sub.up (by with_reducible assumption) (by decide) | fail_if_no_progress (with_reducible apply Same.upd <;> try first | with_reducible exact ⟨rfl, rfl⟩ | with_reducible exact Or.inr (Sub.up (by with_reducible assumption) (by decide)) | with_reducible exact Or.inl rfl) | (intro _) | dsimp only | (with_reducible refine Same.ofEq (by with_reducible assumption) ?_) | split)

theorem takePrg_same {c s0 s} {a0 a1} (h : Same c s0 s) (hc : Sub 530 c := by first | with_reducible assumption | exact Sub.up (by with_reducible assumption) (by decide)) : Same c s0 (takePrg a0 a1 s) := by
  unfold takePrg
  repeat' (first | with_reducible assumption | with_reducible refine Same.ite ?_ ?_ | with_reducible refine Same.ite2 ?_ ?_ | with_reducible apply pageGone_same | with_reducible apply sendAts_same | with_reducible apply addFault_same | with_reducible apply stopPages_same | with_reducible exact Sub.up (by with_reducible assumption) (by decide) | fail_if_no_progress (with_reducible apply Same.upd <;> try first | with_reducible exact ⟨rfl, rfl⟩ | with_reducible exact Or.inr (Sub.up (by with_reducible assumption) (by decide)) | with_reducible exact Or.inl rfl) | (intro _) | dsimp only | (with_reducible refine Same.ofEq (by with_reducible assumption) ?_) | split)

theorem flushAll_same {c s0 s} (h : Same c s0 s) (hc : Sub 15923 c := by first | with_reducible assumption | exact Sub.up (by with_reducible assumption) (by decide)) : Same c s0 (flushAll s) := by
  unfold flushAll
  repeat' (first | with_reducible assumption | with_reducible refine Same.ite ?_ ?_ | with_reducible refine Same.ite2 ?_ ?_ | with_reducible apply rescan_same | with_reducible exact Sub.up (by with_reducible assumption) (by decide) | fail_if_no_progress (with_reducible apply Same.upd <;> try first | with_reducible exact ⟨rfl, rfl⟩ | with_reducible exact Or.inr (Sub.up (by with_reducible assumption) (by decide)) | with_reducible exact Or.inl rfl) | (intro _) | dsimp only | (with_reducible refine Same.ofEq (by with_reducible assumption) ?_) | split)

theorem placeResv_same {c s0 s} {a0 a1} (h : Same c s0 s) (hc : Sub 1042 c := by first | with_reducible assumption | exact Sub.up (by with_reducible assumption) (by decide)) : Same c s0 (placeResv a0 a1 s) := by
  unfold placeResv
  repeat' (first | with_reducible assumption | with_reducible refine Same.ite ?_ ?_ | with_reducible refine Same.ite2 ?_ ?_ | with_reducible apply loseResv_same | with_reducible exact Sub.up (by with_reducible assumption) (by decide) | fail_if_no_progress (with_reducible apply Same.upd <;> try first | with_reducible exact ⟨rfl, rfl⟩ | with_reducible exact Or.inr (Sub.up (by with_reducible assumption) (by decide)) | with_reducible exact Or.inl rfl) | (intro _) | dsimp only | (with_reducible refine Same.ofEq (by with_reducible assumption) ?_) | split)

theorem runLdr_same {c s0 s} {a0 a1 a2 a3} (h : Same c s0 s) (hc : Sub 1042 c := by first | with_reducible assumption | exact Sub.up (by with_reducible assumption) (by decide)) : Same c s0 (runLdr a0 a1 a2 a3 s).2 := by
  unfold runLdr
  repeat' (first | with_reducible assumption | with_reducible refine Same.ite ?_ ?_ | with_reducible refine Same.ite2 ?_ ?_ | with_reducible apply placeResv_same | with_reducible exact Sub.up (by with_reducible assumption) (by decide) | fail_if_no_progress (with_reducible apply Same.upd <;> try first | with_reducible exact ⟨rfl, rfl⟩ | with_reducible exact Or.inr (Sub.up (by with_reducible assumption) (by decide)) | with_reducible exact Or.inl rfl) | (intro _) | dsimp only | (with_reducible refine Same.ofEq (by with_reducible assumption) ?_) | split)

theorem runStc_same {c s0 s} {a0 a1 a2 a3} (h : Same c s0 s) (hc : Sub 3091 c := by first | with_reducible assumption | exact Sub.up (by with_reducible assumption) (by decide)) : Same c s0 (runStc a0 a1 a2 a3 s).2 := by
  unfold runStc
  repeat' (first | with_reducible assumption | with_reducible refine Same.ite ?_ ?_ | with_reducible refine Same.ite2 ?_ ?_ | with_reducible apply loseResv_same | with_reducible apply storeAt_same | with_reducible exact Sub.up (by with_reducible assumption) (by decide) | fail_if_no_progress (with_reducible apply Same.upd <;> try first | with_reducible exact ⟨rfl, rfl⟩ | with_reducible exact Or.inr (Sub.up (by with_reducible assumption) (by decide)) | with_reducible exact Or.inl rfl) | (intro _) | dsimp only | (with_reducible refine Same.ofEq (by with_reducible assumption) ?_) | split)

theorem runSts_same {c s0 s} {a0 a1 a2 a3} (h : Same c s0 s) (hc : Sub 3091 c := by first | with_reducible assumption | exact Sub.up (by with_reducible assumption) (by decide)) : Same c s0 (runSts a0 a1 a2 a3 s) := by
  unfold runSts
  repeat' (first | with_reducible assumption | with_reducible refine Same.ite ?_ ?_ | with_reducible refine Same.ite2 ?_ ?_ | with_reducible apply vstore_same | with_reducible apply foldl_same | with_reducible apply foldl2_same | with_reducible exact Sub.up (by with_reducible assumption) (by decide) | fail_if_no_progress (with_reducible apply Same.upd <;> try first | with_reducible exact ⟨rfl, rfl⟩ | with_reducible exact Or.inr (Sub.up (by with_reducible assumption) (by decide)) | with_reducible exact Or.inl rfl) | (intro _) | dsimp only | (with_reducible refine Same.ofEq (by with_reducible assumption) ?_) | split)

theorem runNode_same {c s0 s} {a0 a1 a2 a3 a4 a5} (h : Same c s0 s) (hc : Sub 3091 c := by first | with_reducible assumption | exact Sub.up (by with_reducible assumption) (by decide)) : Same c s0 (runNode a0 a1 a2 a3 a4 a5 s).2 := by
  unfold runNode
  repeat' (first | with_reducible assumption | with_reducible refine Same.ite ?_ ?_ | with_reducible refine Same.ite2 ?_ ?_ | with_reducible apply runSts_same | with_reducible apply runLdr_same | with_reducible apply runStc_same | with_reducible apply takeFree_same | with_reducible apply foldl_same | with_reducible apply foldl2_same | with_reducible exact Sub.up (by with_reducible assumption) (by decide) | fail_if_no_progress (with_reducible apply Same.upd <;> try first | with_reducible exact ⟨rfl, rfl⟩ | with_reducible exact Or.inr (Sub.up (by with_reducible assumption) (by decide)) | with_reducible exact Or.inl rfl) | (intro _) | dsimp only | (with_reducible refine Same.ofEq (by with_reducible assumption) ?_) | split)

theorem runNodes_same {c s0 s} {a0 a1 a2 a3 a4} (h : Same c s0 s) (hc : Sub 3091 c := by first | with_reducible assumption | exact Sub.up (by with_reducible assumption) (by decide)) : Same c s0 (runNodes a0 a1 a2 a3 a4 s).2 := by
  unfold runNodes
  repeat' (first | with_reducible assumption | with_reducible refine Same.ite ?_ ?_ | with_reducible refine Same.ite2 ?_ ?_ | with_reducible apply runNode_same | with_reducible apply foldl_same | with_reducible apply foldl2_same | with_reducible exact Sub.up (by with_reducible assumption) (by decide) | fail_if_no_progress (with_reducible apply Same.upd <;> try first | with_reducible exact ⟨rfl, rfl⟩ | with_reducible exact Or.inr (Sub.up (by with_reducible assumption) (by decide)) | with_reducible exact Or.inl rfl) | (intro _) | dsimp only | (with_reducible refine Same.ofEq (by with_reducible assumption) ?_) | split)

theorem runBlock_same {c s0 s} {a0 a1 a2} (h : Same c s0 s) (hc : Sub 3091 c := by first | with_reducible assumption | exact Sub.up (by with_reducible assumption) (by decide)) : Same c s0 (runBlock a0 a1 a2 s).2.2 := by
  unfold runBlock
  repeat' (first | with_reducible assumption | with_reducible refine Same.ite ?_ ?_ | with_reducible refine Same.ite2 ?_ ?_ | with_reducible apply runNodes_same | with_reducible apply foldl_same | with_reducible apply foldl2_same | with_reducible exact Sub.up (by with_reducible assumption) (by decide) | fail_if_no_progress (with_reducible apply Same.upd <;> try first | with_reducible exact ⟨rfl, rfl⟩ | with_reducible exact Or.inr (Sub.up (by with_reducible assumption) (by decide)) | with_reducible exact Or.inl rfl) | (intro _) | dsimp only | (with_reducible refine Same.ofEq (by with_reducible assumption) ?_) | split)

theorem runAccBlock_same {c s0 s} {a0 a1 a2} (h : Same c s0 s) (hc : Sub 3091 c := by first | with_reducible assumption | exact Sub.up (by with_reducible assumption) (by decide)) : Same c s0 (runAccBlock a0 a1 a2 s).2 := by
  unfold runAccBlock
  repeat' (first | with_reducible assumption | with_reducible refine Same.ite ?_ ?_ | with_reducible refine Same.ite2 ?_ ?_ | with_reducible apply runNodes_same | with_reducible exact Sub.up (by with_reducible assumption) (by decide) | fail_if_no_progress (with_reducible apply Same.upd <;> try first | with_reducible exact ⟨rfl, rfl⟩ | with_reducible exact Or.inr (Sub.up (by with_reducible assumption) (by decide)) | with_reducible exact Or.inl rfl) | (intro _) | dsimp only | (with_reducible refine Same.ofEq (by with_reducible assumption) ?_) | split)

theorem writeAcc_same {c s0 s} {a0 a1 a2 a3} (h : Same c s0 s) (hc : Sub 3091 c := by first | with_reducible assumption | exact Sub.up (by with_reducible assumption) (by decide)) : Same c s0 (writeAcc a0 a1 a2 a3 s) := by
  unfold writeAcc
  repeat' (first | with_reducible assumption | with_reducible refine Same.ite ?_ ?_ | with_reducible refine Same.ite2 ?_ ?_ | with_reducible apply forAll_same | with_reducible apply storeAt_same | with_reducible exact Sub.up (by with_reducible assumption) (by decide) | fail_if_no_progress (with_reducible apply Same.upd <;> try first | with_reducible exact ⟨rfl, rfl⟩ | with_reducible exact Or.inr (Sub.up (by with_reducible assumption) (by decide)) | with_reducible exact Or.inl rfl) | (intro _) | dsimp only | (with_reducible refine Same.ofEq (by with_reducible assumption) ?_) | split)

theorem addAcc_same {c s0 s} {a0 a1 a2 a3 a4} (h : Same c s0 s) (hc : Sub 3091 c := by first | with_reducible assumption | exact Sub.up (by with_reducible assumption) (by decide)) : Same c s0 (addAcc a0 a1 a2 a3 a4 s) := by
  unfold addAcc
  repeat' (first | with_reducible assumption | with_reducible refine Same.ite ?_ ?_ | with_reducible refine Same.ite2 ?_ ?_ | with_reducible apply writeAcc_same | with_reducible exact Sub.up (by with_reducible assumption) (by decide) | fail_if_no_progress (with_reducible apply Same.upd <;> try first | with_reducible exact ⟨rfl, rfl⟩ | with_reducible exact Or.inr (Sub.up (by with_reducible assumption) (by decide)) | with_reducible exact Or.inl rfl) | (intro _) | dsimp only | (with_reducible refine Same.ofEq (by with_reducible assumption) ?_) | split)

theorem clearAcc_same {c s0 s} {a0 a1 a2} (h : Same c s0 s) (hc : Sub 3091 c := by first | with_reducible assumption | exact Sub.up (by with_reducible assumption) (by decide)) : Same c s0 (clearAcc a0 a1 a2 s) := by
  unfold clearAcc
  repeat' (first | with_reducible assumption | with_reducible refine Same.ite ?_ ?_ | with_reducible refine Same.ite2 ?_ ?_ | with_reducible apply forAll_same | with_reducible apply storeAt_same | with_reducible exact Sub.up (by with_reducible assumption) (by decide) | fail_if_no_progress (with_reducible apply Same.upd <;> try first | with_reducible exact ⟨rfl, rfl⟩ | with_reducible exact Or.inr (Sub.up (by with_reducible assumption) (by decide)) | with_reducible exact Or.inl rfl) | (intro _) | dsimp only | (with_reducible refine Same.ofEq (by with_reducible assumption) ?_) | split)

theorem holdSeg_same {c s0 s} {a0 a2} (h : Same c s0 s) (hc : Sub 1024 c := by first | with_reducible assumption | exact Sub.up (by with_reducible assumption) (by decide)) : Same c s0 (holdSeg a0 s a2) := by
  unfold holdSeg
  repeat' (first | with_reducible assumption | with_reducible refine Same.ite ?_ ?_ | with_reducible exact Sub.up (by with_reducible assumption) (by decide) | fail_if_no_progress (with_reducible apply Same.upd <;> try first | with_reducible exact ⟨rfl, rfl⟩ | with_reducible exact Or.inr (Sub.up (by with_reducible assumption) (by decide)) | with_reducible exact Or.inl rfl) | (intro _) | split)

/-- What a segment's move keeps, whichever way it ends. -/

def Moved.Same (c : Nat) (s0 : State) : Moved → Prop
  | .ok t => Machine.Same c s0 t
  | .fail _ _ t => Machine.Same c s0 t

theorem Moved.Same.of {c : Nat} {s0 : State} {m : Moved} {t : State} (h : Moved.Same c s0 m) (e : m = .ok t) :
    Machine.Same c s0 t := by subst e; exact h

theorem Moved.Same.of_fail {c : Nat} {s0 : State} {m : Moved} {k n t} (h : Moved.Same c s0 m) (e : m = .fail k n t) :
    Machine.Same c s0 t := by subst e; exact h

theorem moveSeg_same {c s0 s} {a0 a1 a2 a3 a4 a5 a6} (h : Same c s0 s)
    (hm : ∀ t, Same c s0 t → Moved.Same c s0 (a6 t)) (hc : Sub 15923 c := by first | with_reducible assumption | exact Sub.up (by with_reducible assumption) (by decide)) : Same c s0 (moveSeg a0 a1 a2 a3 a4 a5 a6 s) := by
  unfold moveSeg
  split
  · exact askPeers_same h
  · dsimp only
    split
    · exact busySeg_same (itoM_same ((hm _ (dropOwner_same h)).of ‹_›))
    · exact failSeg_same ((hm _ (dropOwner_same h)).of_fail ‹_›)

theorem runSegWith_same {c s0 s} {a0 a1 a2 a3 a4 a5} (h : Same c s0 s)
    (hm : ∀ e t, Same c s0 t → Moved.Same c s0 (a5 e t)) (hc : Sub 65527 c := by first | with_reducible assumption | exact Sub.up (by with_reducible assumption) (by decide)) : Same c s0 (runSegWith a0 a1 a2 a3 a4 a5 s) := by
  unfold runSegWith
  dsimp only
  have hs : Same c s0 (stopSeg a1 a2 a3 s) := stopSeg_same h
  split
  · exact hs
  split
  · exact hs
  have g : ∀ {o v l p t}, gateSeg o v l (stopSeg a1 a2 a3 s) = (p, t) → Same c s0 t :=
    fun e => Same.ofEq e (gateSeg_same hs)
  split <;> rename_i e'
  · exact holdSeg_same (g e')
  · exact failSeg_same (g e')
  · exact failSeg_same (severeFault_same (g e'))
  · exact moveSeg_same (g e') (hm _)

theorem runSeg_same {c s0 s} {a0 a1 a2 a3 a4} (h : Same c s0 s)
    (hm : ∀ e t, Same c s0 t → Moved.Same c s0 (a4 e t)) (hc : Sub 65527 c := by first | with_reducible assumption | exact Sub.up (by with_reducible assumption) (by decide)) : Same c s0 (runSeg a0 a1 a2 a3 a4 s) := runSegWith_same h hm

theorem spoilAliases_same {c s0 s} {a0 a1 a2} (h : Same c s0 s) (hc : Sub 3091 c := by first | with_reducible assumption | exact Sub.up (by with_reducible assumption) (by decide)) : Same c s0 (spoilAliases a0 a1 a2 s) := by
  unfold spoilAliases
  repeat' (first | with_reducible assumption | with_reducible refine Same.ite ?_ ?_ | with_reducible refine Same.ite2 ?_ ?_ | with_reducible apply forAll_same | with_reducible apply takeFree_same | with_reducible apply storeAt_same | with_reducible exact Sub.up (by with_reducible assumption) (by decide) | fail_if_no_progress (with_reducible apply Same.upd <;> try first | with_reducible exact ⟨rfl, rfl⟩ | with_reducible exact Or.inr (Sub.up (by with_reducible assumption) (by decide)) | with_reducible exact Or.inl rfl) | (intro _) | dsimp only | (with_reducible refine Same.ofEq (by with_reducible assumption) ?_) | split)

theorem moveCopy_same {c s0 s} {a0 a1 e} (h : Same c s0 s) (hc : Sub 3091 c := by first | with_reducible assumption | exact Sub.up (by with_reducible assumption) (by decide)) : Moved.Same c s0 (moveCopy a0 a1 e s) :=
  spoilAliases_same (vstoreAll_same h)

theorem moveFill_same {c s0 s} {a0 a1 e} (h : Same c s0 s) (hc : Sub 3091 c := by first | with_reducible assumption | exact Sub.up (by with_reducible assumption) (by decide)) : Moved.Same c s0 (moveFill a0 a1 e s) := vstore_same h

theorem moveGather_same {c s0 s} {a0 a1 e} (h : Same c s0 s) (hc : Sub 3091 c := by first | with_reducible assumption | exact Sub.up (by with_reducible assumption) (by decide)) : Moved.Same c s0 (moveGather a0 a1 e s) := vstoreAll_same h

theorem moveScatter_same {c s0 s} {a0 a1 e} (h : Same c s0 s) (hc : Sub 3091 c := by first | with_reducible assumption | exact Sub.up (by with_reducible assumption) (by decide)) : Moved.Same c s0 (moveScatter a0 a1 e s) := by
  refine forAll_same (s0 := s0) h fun x t ht => ?_
  dsimp only
  split
  · exact vstore_same ht
  split
  · exact takeFree_same ht
  · exact vstore_same (takeFree_same ht)

theorem putStreams_same {c s0 s} {a0 a1 a2 a3 a4} (h : Same c s0 s) (hc : Sub 3091 c := by first | with_reducible assumption | exact Sub.up (by with_reducible assumption) (by decide)) : Same c s0 (putStreams a0 a1 a2 a3 a4 s) := by
  unfold putStreams
  repeat' (first | with_reducible assumption | with_reducible refine Same.ite ?_ ?_ | with_reducible refine Same.ite2 ?_ ?_ | with_reducible apply forAll_same | with_reducible apply vstore_same | with_reducible exact Sub.up (by with_reducible assumption) (by decide) | fail_if_no_progress (with_reducible apply Same.upd <;> try first | with_reducible exact ⟨rfl, rfl⟩ | with_reducible exact Or.inr (Sub.up (by with_reducible assumption) (by decide)) | with_reducible exact Or.inl rfl) | (intro _) | dsimp only | (with_reducible refine Same.ofEq (by with_reducible assumption) ?_) | split)

theorem moveRecipe_same {c s0 s} {a0 a1 a2 a3 e} (h : Same c s0 s) (hc : Sub 3091 c := by first | with_reducible assumption | exact Sub.up (by with_reducible assumption) (by decide)) : Moved.Same c s0 (moveRecipe a0 a1 a2 a3 e s) := by
  unfold moveRecipe
  dsimp only
  split
  · exact h
  · refine forAll_same (s0 := s0) h fun x t ht => ?_
    exact when_same (putStreams_same (runBlock_same ht)) fun t ht => modEntry_same ht

theorem modJournal_same {c s0 s} {a0 a1} (h : Same c s0 s) (hc : Sub 16 c := by first | with_reducible assumption | exact Sub.up (by with_reducible assumption) (by decide)) : Same c s0 (modJournal a0 a1 s) := by
  unfold modJournal
  repeat' (first | with_reducible assumption | with_reducible refine Same.ite ?_ ?_ | with_reducible refine Same.ite2 ?_ ?_ | with_reducible exact Sub.up (by with_reducible assumption) (by decide) | fail_if_no_progress (with_reducible apply Same.upd <;> try first | with_reducible exact ⟨rfl, rfl⟩ | with_reducible exact Or.inr (Sub.up (by with_reducible assumption) (by decide)) | with_reducible exact Or.inl rfl) | (intro _) | dsimp only | (with_reducible refine Same.ofEq (by with_reducible assumption) ?_) | split)

theorem setMark_same {c s0 s} {a0 a1 a2} (h : Same c s0 s) (hc : Sub 16 c := by first | with_reducible assumption | exact Sub.up (by with_reducible assumption) (by decide)) : Same c s0 (setMark a0 a1 a2 s) := by
  unfold setMark
  repeat' (first | with_reducible assumption | with_reducible refine Same.ite ?_ ?_ | with_reducible refine Same.ite2 ?_ ?_ | with_reducible apply modJournal_same | with_reducible exact Sub.up (by with_reducible assumption) (by decide) | fail_if_no_progress (with_reducible apply Same.upd <;> try first | with_reducible exact ⟨rfl, rfl⟩ | with_reducible exact Or.inr (Sub.up (by with_reducible assumption) (by decide)) | with_reducible exact Or.inl rfl) | (intro _) | dsimp only | (with_reducible refine Same.ofEq (by with_reducible assumption) ?_) | split)

theorem accOperand_same {c s0} {g b f n k j m w r x} (h : Same c s0 (AccRun.st r)) (hc : Sub 3091 c := by first | with_reducible assumption | exact Sub.up (by with_reducible assumption) (by decide)) :
    Same c s0 (accOperand g b f n k j m w r x).st := by
  unfold accOperand
  dsimp only
  split
  · exact h
  split
  · exact h
  split
  · exact h
  · exact setMark_same (addAcc_same h)

theorem accFold_same {s0} {α : Type} {l : List α} {f : AccRun → α → AccRun} {r : AccRun} (h : Same c s0 r.st)
    (hf : ∀ r x, Same c s0 r.st → Same c s0 (f r x).st) : Same c s0 (l.foldl f r).st := by
  induction l generalizing r with
  | nil => exact h
  | cons a t ih => exact ih (hf r a h)

theorem moveAcc_same {c s0 s} {a0 a1 a2 e} (h : Same c s0 s) (hc : Sub 3091 c := by first | with_reducible assumption | exact Sub.up (by with_reducible assumption) (by decide)) : Moved.Same c s0 (moveAcc a0 a1 a2 e s) := by
  unfold moveAcc
  dsimp only
  split
  · exact h
  · generalize hr : List.foldl _ _ _ = r
    have k : Same c s0 r.st := by
      rw [← hr]
      refine accFold_same h fun r x hx => ?_
      split
      · exact hx
      · exact accFold_same (runAccBlock_same hx) fun r x hx => accOperand_same hx
    split
    · exact modEntry_same (s0 := s0) (modEntry_same k)
    split
    · exact modEntry_same (s0 := s0) k
    · exact modEntry_same (s0 := s0) k

theorem moveResolve_same {c s0 s} {a0 a1 a2 e} (h : Same c s0 s) (hc : Sub 3091 c := by first | with_reducible assumption | exact Sub.up (by with_reducible assumption) (by decide)) : Moved.Same c s0 (moveResolve a0 a1 a2 e s) := by
  unfold moveResolve
  dsimp only
  split
  · exact when_same (s0 := s0) (vstore_same h) fun t ht => modEntry_same ht
  · refine when_same (s0 := s0) (vstore_same (when_same (when_same h fun t ht => ?_) fun t ht => ?_)) fun t ht => ?_
    · exact forAll_same ht fun k t ht => clearAcc_same ht
    · exact modJournal_same ht
    · exact modEntry_same ht

theorem addDone_same {c s0 s} {a0 a1 a2 a3} (h : Same c s0 s) (hc : Sub 16 c := by first | with_reducible assumption | exact Sub.up (by with_reducible assumption) (by decide)) : Same c s0 (addDone a0 a1 a2 a3 s) := by
  unfold addDone
  repeat' (first | with_reducible assumption | with_reducible refine Same.ite ?_ ?_ | with_reducible refine Same.ite2 ?_ ?_ | with_reducible apply modEntry_same | with_reducible exact Sub.up (by with_reducible assumption) (by decide) | fail_if_no_progress (with_reducible apply Same.upd <;> try first | with_reducible exact ⟨rfl, rfl⟩ | with_reducible exact Or.inr (Sub.up (by with_reducible assumption) (by decide)) | with_reducible exact Or.inl rfl) | (intro _) | dsimp only | (with_reducible refine Same.ofEq (by with_reducible assumption) ?_) | split)

theorem moveAtomic_same {c s0 s} {a0 a1 a2 e} (h : Same c s0 s) (hc : Sub 3091 c := by first | with_reducible assumption | exact Sub.up (by with_reducible assumption) (by decide)) : Moved.Same c s0 (moveAtomic a0 a1 a2 e s) := by
  refine forAll_same (s0 := s0) h fun x t ht => ?_
  split
  · split
    · exact sendPeer_same ht
    · split
      · exact addDone_same ht
      · exact when_same (addDone_same (setMark_same (applyAtomic_same ht))) fun t ht => vstore_same ht
  · exact ht

theorem raiseFence_same {c s0 s} {a0 a1 a2 a3 a4} (h : Same c s0 s) (hc : Sub 3091 c := by first | with_reducible assumption | exact Sub.up (by with_reducible assumption) (by decide)) : Same c s0 (raiseFence a0 a1 a2 a3 a4 s) := by
  unfold raiseFence
  repeat' (first | with_reducible assumption | with_reducible refine Same.ite ?_ ?_ | with_reducible refine Same.ite2 ?_ ?_ | with_reducible apply sendPeer_same | with_reducible apply storeAt_same | with_reducible exact Sub.up (by with_reducible assumption) (by decide) | fail_if_no_progress (with_reducible apply Same.upd <;> try first | with_reducible exact ⟨rfl, rfl⟩ | with_reducible exact Or.inr (Sub.up (by with_reducible assumption) (by decide)) | with_reducible exact Or.inl rfl) | (intro _) | dsimp only | (with_reducible refine Same.ofEq (by with_reducible assumption) ?_) | split)

theorem moveSignal_same {c s0 s} {a0 a1 e} (h : Same c s0 s) (hc : Sub 3091 c := by first | with_reducible assumption | exact Sub.up (by with_reducible assumption) (by decide)) : Moved.Same c s0 (moveSignal a0 a1 e s) := raiseFence_same h

theorem copyCells_same {c s0 s} {a0 a1 a2} (h : Same c s0 s) (hc : Sub 1043 c := by first | with_reducible assumption | exact Sub.up (by with_reducible assumption) (by decide)) : Same c s0 (copyCells a0 a1 a2 s) := by
  have k : Same c s0 (breakResv a1 a2 (zeroRange a1 a2 s)) := breakResv_same (zeroRange_same h)
  refine Same.mem k (fun w => ?_) (Sub.up hc (by decide))
  dsimp only
  generalize (breakResv a1 a2 (zeroRange a1 a2 s)).m.mem = m at w
  generalize s.m.mem.filter _ = l
  induction l generalizing m with
  | nil => exact w
  | cons c r ih => exact ih _ (memSet_wf w _ _)

theorem rewriteLeaf_same {c s0 s} {a0 a1} (h : Same c s0 s) (hc : Sub 3091 c := by first | with_reducible assumption | exact Sub.up (by with_reducible assumption) (by decide)) : Same c s0 (rewriteLeaf a0 a1 s) := by
  unfold rewriteLeaf
  repeat' (first | with_reducible assumption | with_reducible refine Same.ite ?_ ?_ | with_reducible refine Same.ite2 ?_ ?_ | with_reducible apply storeAt_same | with_reducible exact Sub.up (by with_reducible assumption) (by decide) | fail_if_no_progress (with_reducible apply Same.upd <;> try first | with_reducible exact ⟨rfl, rfl⟩ | with_reducible exact Or.inr (Sub.up (by with_reducible assumption) (by decide)) | with_reducible exact Or.inl rfl) | (intro _) | dsimp only | (with_reducible refine Same.ofEq (by with_reducible assumption) ?_) | split)

theorem movePage_same {c s0 s} {a0 a1 a2 a3 a4} (h : Same c s0 s) (hc : Sub 3603 c := by first | with_reducible assumption | exact Sub.up (by with_reducible assumption) (by decide)) : Same c s0 (movePage a0 a1 a2 a3 a4 s) := by
  unfold movePage
  repeat' (first | with_reducible exact Sub.up (by with_reducible assumption) (by decide) | with_reducible assumption | with_reducible refine Same.ite ?_ ?_ | with_reducible apply takeFree_same | with_reducible apply storeAt_same | with_reducible apply copyCells_same | with_reducible apply rewriteLeaf_same | with_reducible apply dropRange_same | with_reducible apply vstore_same | (intro _))

theorem moveTier_same {c s0 s} {a0 a1 e} (h : Same c s0 s) (hc : Sub 3635 c := by first | with_reducible assumption | exact Sub.up (by with_reducible assumption) (by decide)) : Moved.Same c s0 (moveTier a0 a1 e s) := by
  unfold moveTier
  dsimp only
  split
  · exact h
  · have hm : ∀ l : List (Nat × Nat × Nat), ∀ m : Moved, Moved.Same c s0 m → Moved.Same c s0 (l.foldl (fun r p => match r with
      | .fail c n t => .fail c n t
      | .ok t =>
        match lookup t (s.hoop a0).vat p.2.1 .read, walkVat t (s.hoop a0).vat p.2.1 false with
        | .ok pa, .leaf _ at_ _ =>
          if inTargetTier e pa then .ok t
          else if !homeUp t (homeOf (e.pages.getD p.1 0).toNat) || (!isDiscard e && poisonedAt t pa p.2.2) then .fail .target 0 t
          else .ok (movePage (s.hoop a0).vat e p pa at_ t)
        | _, .fault c => .fail (.revoked (c = 0x10)) 0 (vatFault (s.hoop a0).vat (causeBit c) c p.2.1 t)
        | _, _ => .fail (.revoked false) 0 t) m) := by
      intro l
      induction l with
      | nil => exact fun _ h => h
      | cons p r ih =>
        intro m hm
        refine ih _ ?_
        cases m with
        | fail c n t => exact hm
        | ok t =>
          have ht : Same c s0 t := hm
          dsimp only
          repeat' (first | with_reducible exact Sub.up (by with_reducible assumption) (by decide) | with_reducible assumption | exact vatFault_same (s0 := s0) ht | exact movePage_same (s0 := s0) ht | exact hm | split)
    exact hm _ _ h

theorem sendLaunch_same {c s0 s} {a0 a1 a2 a3} (h : Same c s0 s) (hc : Sub 1026 c := by first | with_reducible assumption | exact Sub.up (by with_reducible assumption) (by decide)) : Same c s0 (sendLaunch a0 a1 a2 a3 s) := by
  unfold sendLaunch
  repeat' (first | with_reducible assumption | with_reducible refine Same.ite ?_ ?_ | with_reducible refine Same.ite2 ?_ ?_ | with_reducible apply modAcd_same | with_reducible apply sendAcd_same | with_reducible exact Sub.up (by with_reducible assumption) (by decide) | fail_if_no_progress (with_reducible apply Same.upd <;> try first | with_reducible exact ⟨rfl, rfl⟩ | with_reducible exact Or.inr (Sub.up (by with_reducible assumption) (by decide)) | with_reducible exact Or.inl rfl) | (intro _) | dsimp only | (with_reducible refine Same.ofEq (by with_reducible assumption) ?_) | split)

theorem completeLaunch_same {c s0 s} {a0 a1 a2 a3 a4} (h : Same c s0 s) (hc : Sub 65527 c := by first | with_reducible assumption | exact Sub.up (by with_reducible assumption) (by decide)) : Same c s0 (completeLaunch a0 a1 a2 a3 a4 s) := by
  unfold completeLaunch
  repeat' (first | with_reducible assumption | with_reducible refine Same.ite ?_ ?_ | with_reducible refine Same.ite2 ?_ ?_ | with_reducible apply modAcd_same | with_reducible apply endLaunch_same | with_reducible apply gateSeg_same | with_reducible apply raiseFence_same | with_reducible apply modEntry_same | with_reducible apply failSeg_same | with_reducible apply severeFault_same | with_reducible exact Sub.up (by with_reducible assumption) (by decide) | fail_if_no_progress (with_reducible apply Same.upd <;> try first | with_reducible exact ⟨rfl, rfl⟩ | with_reducible exact Or.inr (Sub.up (by with_reducible assumption) (by decide)) | with_reducible exact Or.inl rfl) | (intro _) | dsimp only | (with_reducible refine Same.ofEq (by with_reducible assumption) ?_) | split)

theorem runLaunch_same {c s0 s} {a0 a1 a2} (h : Same c s0 s) (hc : Sub 65527 c := by first | with_reducible assumption | exact Sub.up (by with_reducible assumption) (by decide)) : Same c s0 (runLaunch a0 a1 a2 s) := by
  unfold runLaunch
  repeat' (first | with_reducible assumption | with_reducible refine Same.ite ?_ ?_ | with_reducible refine Same.ite2 ?_ ?_ | with_reducible apply modEntry_same | with_reducible apply completeLaunch_same | with_reducible apply endLaunch_same | with_reducible apply finishEntry_same | with_reducible apply modAcd_same | with_reducible apply sendLaunch_same | with_reducible exact Sub.up (by with_reducible assumption) (by decide) | fail_if_no_progress (with_reducible apply Same.upd <;> try first | with_reducible exact ⟨rfl, rfl⟩ | with_reducible exact Or.inr (Sub.up (by with_reducible assumption) (by decide)) | with_reducible exact Or.inl rfl) | (intro _) | dsimp only | (with_reducible refine Same.ofEq (by with_reducible assumption) ?_) | split)

theorem unstartWaits_same {c s0 s} {a0} (h : Same c s0 s) (hc : Sub 16 c := by first | with_reducible assumption | exact Sub.up (by with_reducible assumption) (by decide)) : Same c s0 (unstartWaits a0 s) := by
  unfold unstartWaits
  repeat' (first | with_reducible assumption | with_reducible refine Same.ite ?_ ?_ | with_reducible refine Same.ite2 ?_ ?_ | with_reducible apply modHoop_same | with_reducible exact Sub.up (by with_reducible assumption) (by decide) | fail_if_no_progress (with_reducible apply Same.upd <;> try first | with_reducible exact ⟨rfl, rfl⟩ | with_reducible exact Or.inr (Sub.up (by with_reducible assumption) (by decide)) | with_reducible exact Or.inl rfl) | (intro _) | dsimp only | (with_reducible refine Same.ofEq (by with_reducible assumption) ?_) | split)

theorem modMig_same {c s0 s} {a0 a1} (h : Same c s0 s) (hc : Sub 16384 c := by first | with_reducible assumption | exact Sub.up (by with_reducible assumption) (by decide)) : Same c s0 (modMig a0 a1 s) := by
  unfold modMig
  repeat' (first | with_reducible assumption | with_reducible refine Same.ite ?_ ?_ | with_reducible refine Same.ite2 ?_ ?_ | with_reducible exact Sub.up (by with_reducible assumption) (by decide) | fail_if_no_progress (with_reducible apply Same.upd <;> try first | with_reducible exact ⟨rfl, rfl⟩ | with_reducible exact Or.inr (Sub.up (by with_reducible assumption) (by decide)) | with_reducible exact Or.inl rfl) | (intro _) | dsimp only | (with_reducible refine Same.ofEq (by with_reducible assumption) ?_) | split)

theorem restoreFn_same {c s0 s} {a0 a1} (h : Same c s0 s) (hc : Sub 48 c := by first | with_reducible assumption | exact Sub.up (by with_reducible assumption) (by decide)) : Same c s0 (restoreFn a0 a1 s) := by
  unfold restoreFn
  repeat' (first | with_reducible assumption | with_reducible refine Same.ite ?_ ?_ | with_reducible refine Same.ite2 ?_ ?_ | with_reducible apply forAll_same | with_reducible apply modVat_same | with_reducible apply pinSlot_same | with_reducible apply modHoop_same | with_reducible apply modSrc_same | with_reducible apply modEvq_same | with_reducible apply modFnS_same | with_reducible exact Sub.up (by with_reducible assumption) (by decide) | fail_if_no_progress (with_reducible apply Same.upd <;> try first | with_reducible exact ⟨rfl, rfl⟩ | with_reducible exact Or.inr (Sub.up (by with_reducible assumption) (by decide)) | with_reducible exact Or.inl rfl) | (intro _) | dsimp only | (with_reducible refine Same.ofEq (by with_reducible assumption) ?_) | split)

theorem drawKey_same {c s0 s} (h : Same c s0 s) (hc : Sub 16384 c := by first | with_reducible assumption | exact Sub.up (by with_reducible assumption) (by decide)) : Same c s0 (drawKey s) := by
  unfold drawKey
  repeat' (first | with_reducible assumption | with_reducible refine Same.ite ?_ ?_ | with_reducible refine Same.ite2 ?_ ?_ | with_reducible exact Sub.up (by with_reducible assumption) (by decide) | fail_if_no_progress (with_reducible apply Same.upd <;> try first | with_reducible exact ⟨rfl, rfl⟩ | with_reducible exact Or.inr (Sub.up (by with_reducible assumption) (by decide)) | with_reducible exact Or.inl rfl) | (intro _) | dsimp only | (with_reducible refine Same.ofEq (by with_reducible assumption) ?_) | split)

theorem ksOut_same {c s0 s} {a0 a1 a2 a3 a4 a5} (h : Same c s0 s) (hc : Sub 3 c := by first | with_reducible assumption | exact Sub.up (by with_reducible assumption) (by decide)) : Same c s0 (ksOut a0 a1 a2 a3 a4 a5 s) := by
  unfold ksOut
  repeat' (first | with_reducible assumption | with_reducible refine Same.ite ?_ ?_ | with_reducible refine Same.ite2 ?_ ?_ | with_reducible apply adminOut_same | with_reducible exact Sub.up (by with_reducible assumption) (by decide) | fail_if_no_progress (with_reducible apply Same.upd <;> try first | with_reducible exact ⟨rfl, rfl⟩ | with_reducible exact Or.inr (Sub.up (by with_reducible assumption) (by decide)) | with_reducible exact Or.inl rfl) | (intro _) | dsimp only | (with_reducible refine Same.ofEq (by with_reducible assumption) ?_) | split)

theorem closeMig_same {c s0 s} {a0} (h : Same c s0 s) (hc : Sub 16384 c := by first | with_reducible assumption | exact Sub.up (by with_reducible assumption) (by decide)) : Same c s0 (closeMig a0 s) := by
  unfold closeMig
  repeat' (first | with_reducible assumption | with_reducible refine Same.ite ?_ ?_ | with_reducible refine Same.ite2 ?_ ?_ | with_reducible exact Sub.up (by with_reducible assumption) (by decide) | fail_if_no_progress (with_reducible apply Same.upd <;> try first | with_reducible exact ⟨rfl, rfl⟩ | with_reducible exact Or.inr (Sub.up (by with_reducible assumption) (by decide)) | with_reducible exact Or.inl rfl) | (intro _) | dsimp only | (with_reducible refine Same.ofEq (by with_reducible assumption) ?_) | split)

theorem ksTake_same {c s0 s} {a0 a1 a2 a3} (h : Same c s0 s) (hc : Sub 20019 c := by first | with_reducible assumption | exact Sub.up (by with_reducible assumption) (by decide)) : Same c s0 (ksTake a0 a1 a2 a3 s) := by
  unfold ksTake
  repeat' (first | with_reducible assumption | with_reducible refine Same.ite ?_ ?_ | with_reducible refine Same.ite2 ?_ ?_ | with_reducible apply closeMig_same | with_reducible apply ksOut_same | with_reducible apply adminEnd_same | with_reducible apply modMig_same | with_reducible apply adminFinish_same | with_reducible exact Sub.up (by with_reducible assumption) (by decide) | fail_if_no_progress (with_reducible apply Same.upd <;> try first | with_reducible exact ⟨rfl, rfl⟩ | with_reducible exact Or.inr (Sub.up (by with_reducible assumption) (by decide)) | with_reducible exact Or.inl rfl) | (intro _) | dsimp only | (with_reducible refine Same.ofEq (by with_reducible assumption) ?_) | split)

theorem calDone_same {c s0 s} {a0 a1 a2} (h : Same c s0 s) (hc : Sub 3635 c := by first | with_reducible assumption | exact Sub.up (by with_reducible assumption) (by decide)) : Same c s0 (calDone a0 a1 a2 s) := by
  unfold calDone
  repeat' (first | with_reducible assumption | with_reducible refine Same.ite ?_ ?_ | with_reducible refine Same.ite2 ?_ ?_ | with_reducible apply adminOut_same | with_reducible apply modRsh_same | with_reducible apply when_same | with_reducible apply rshErr_same | with_reducible apply modAdmin_same | with_reducible apply adminEnd_same | with_reducible exact Sub.up (by with_reducible assumption) (by decide) | fail_if_no_progress (with_reducible apply Same.upd <;> try first | with_reducible exact ⟨rfl, rfl⟩ | with_reducible exact Or.inr (Sub.up (by with_reducible assumption) (by decide)) | with_reducible exact Or.inl rfl) | (intro _) | dsimp only | (with_reducible refine Same.ofEq (by with_reducible assumption) ?_) | split)

theorem calCommit_same {c s0 s} {a0 a1} (h : Same c s0 s) (hc : Sub 3891 c := by first | with_reducible assumption | exact Sub.up (by with_reducible assumption) (by decide)) : Same c s0 (calCommit a0 a1 s) := by
  unfold calCommit
  repeat' (first | with_reducible assumption | with_reducible refine Same.ite ?_ ?_ | with_reducible refine Same.ite2 ?_ ?_ | with_reducible apply calDone_same | with_reducible exact Sub.up (by with_reducible assumption) (by decide) | fail_if_no_progress (with_reducible apply Same.upd <;> try first | with_reducible exact ⟨rfl, rfl⟩ | with_reducible exact Or.inr (Sub.up (by with_reducible assumption) (by decide)) | with_reducible exact Or.inl rfl) | (intro _) | dsimp only | (with_reducible refine Same.ofEq (by with_reducible assumption) ?_) | split)

theorem cfgCommit_same {c s0 s} (h : Same c s0 s) (hc : Sub 256 c := by first | with_reducible assumption | exact Sub.up (by with_reducible assumption) (by decide)) : Same c s0 (cfgCommit s) := by
  unfold cfgCommit
  repeat' (first | with_reducible assumption | with_reducible refine Same.ite ?_ ?_ | with_reducible refine Same.ite2 ?_ ?_ | with_reducible exact Sub.up (by with_reducible assumption) (by decide) | fail_if_no_progress (with_reducible apply Same.upd <;> try first | with_reducible exact ⟨rfl, rfl⟩ | with_reducible exact Or.inr (Sub.up (by with_reducible assumption) (by decide)) | with_reducible exact Or.inl rfl) | (intro _) | dsimp only | (with_reducible refine Same.ofEq (by with_reducible assumption) ?_) | split)

theorem logCommit_same {c s0 s} (h : Same c s0 s) (hc : Sub 256 c := by first | with_reducible assumption | exact Sub.up (by with_reducible assumption) (by decide)) : Same c s0 (logCommit s) := by
  unfold logCommit
  repeat' (first | with_reducible assumption | with_reducible refine Same.ite ?_ ?_ | with_reducible refine Same.ite2 ?_ ?_ | with_reducible exact Sub.up (by with_reducible assumption) (by decide) | fail_if_no_progress (with_reducible apply Same.upd <;> try first | with_reducible exact ⟨rfl, rfl⟩ | with_reducible exact Or.inr (Sub.up (by with_reducible assumption) (by decide)) | with_reducible exact Or.inl rfl) | (intro _) | dsimp only | (with_reducible refine Same.ofEq (by with_reducible assumption) ?_) | split)

theorem logLose_same {c s0 s} (h : Same c s0 s) (hc : Sub 256 c := by first | with_reducible assumption | exact Sub.up (by with_reducible assumption) (by decide)) : Same c s0 (logLose s) := by
  unfold logLose
  repeat' (first | with_reducible assumption | with_reducible refine Same.ite ?_ ?_ | with_reducible refine Same.ite2 ?_ ?_ | with_reducible exact Sub.up (by with_reducible assumption) (by decide) | fail_if_no_progress (with_reducible apply Same.upd <;> try first | with_reducible exact ⟨rfl, rfl⟩ | with_reducible exact Or.inr (Sub.up (by with_reducible assumption) (by decide)) | with_reducible exact Or.inl rfl) | (intro _) | dsimp only | (with_reducible refine Same.ofEq (by with_reducible assumption) ?_) | split)

theorem mramDo_same {c s0 s} {a0} (h : Same c s0 s) (hc : Sub 3891 c := by first | with_reducible assumption | exact Sub.up (by with_reducible assumption) (by decide)) : Same c s0 (mramDo a0 s) := by
  unfold mramDo
  repeat' (first | with_reducible assumption | with_reducible refine Same.ite ?_ ?_ | with_reducible refine Same.ite2 ?_ ?_ | with_reducible apply calCommit_same | with_reducible apply cfgCommit_same | with_reducible apply logCommit_same | with_reducible exact Sub.up (by with_reducible assumption) (by decide) | fail_if_no_progress (with_reducible apply Same.upd <;> try first | with_reducible exact ⟨rfl, rfl⟩ | with_reducible exact Or.inr (Sub.up (by with_reducible assumption) (by decide)) | with_reducible exact Or.inl rfl) | (intro _) | dsimp only | (with_reducible refine Same.ofEq (by with_reducible assumption) ?_) | split)

theorem mramWrite_same {c s0 s} {a0} (h : Same c s0 s) (hc : Sub 3891 c := by first | with_reducible assumption | exact Sub.up (by with_reducible assumption) (by decide)) : Same c s0 (mramWrite a0 s) := by
  unfold mramWrite
  repeat' (first | with_reducible assumption | with_reducible refine Same.ite ?_ ?_ | with_reducible refine Same.ite2 ?_ ?_ | with_reducible apply mramDo_same | with_reducible exact Sub.up (by with_reducible assumption) (by decide) | fail_if_no_progress (with_reducible apply Same.upd <;> try first | with_reducible exact ⟨rfl, rfl⟩ | with_reducible exact Or.inr (Sub.up (by with_reducible assumption) (by decide)) | with_reducible exact Or.inl rfl) | (intro _) | dsimp only | (with_reducible refine Same.ofEq (by with_reducible assumption) ?_) | split)

theorem mramFail_same {c s0 s} {a0} (h : Same c s0 s) (hc : Sub 3891 c := by first | with_reducible assumption | exact Sub.up (by with_reducible assumption) (by decide)) : Same c s0 (mramFail a0 s) := by
  unfold mramFail
  repeat' (first | with_reducible assumption | with_reducible refine Same.ite ?_ ?_ | with_reducible refine Same.ite2 ?_ ?_ | with_reducible apply calDone_same | with_reducible apply logLose_same | with_reducible exact Sub.up (by with_reducible assumption) (by decide) | fail_if_no_progress (with_reducible apply Same.upd <;> try first | with_reducible exact ⟨rfl, rfl⟩ | with_reducible exact Or.inr (Sub.up (by with_reducible assumption) (by decide)) | with_reducible exact Or.inl rfl) | (intro _) | dsimp only | (with_reducible refine Same.ofEq (by with_reducible assumption) ?_) | split)

theorem fwSwitch_same {c s0 s} (h : Same c s0 s) (hc : Sub 36115 c := by first | with_reducible assumption | exact Sub.up (by with_reducible assumption) (by decide)) : Same c s0 (fwSwitch s) := by
  unfold fwSwitch
  repeat' (first | with_reducible assumption | with_reducible refine Same.ite ?_ ?_ | with_reducible refine Same.ite2 ?_ ?_ | with_reducible apply switchCore_same | with_reducible exact Sub.up (by with_reducible assumption) (by decide) | fail_if_no_progress (with_reducible apply Same.upd <;> try first | with_reducible exact ⟨rfl, rfl⟩ | with_reducible exact Or.inr (Sub.up (by with_reducible assumption) (by decide)) | with_reducible exact Or.inl rfl) | (intro _) | dsimp only | (with_reducible refine Same.ofEq (by with_reducible assumption) ?_) | split)

theorem adminComplete_same {c s0 s} {a0 a1} (h : Same c s0 s) (hc : Sub 48947 c := by first | with_reducible assumption | exact Sub.up (by with_reducible assumption) (by decide)) : Same c s0 (adminComplete a0 a1 s) := by
  unfold adminComplete
  repeat' (first | with_reducible assumption | with_reducible refine Same.ite ?_ ?_ | with_reducible refine Same.ite2 ?_ ?_ | with_reducible apply finishBind_same | with_reducible apply finishFuncReset_same | with_reducible apply finishWheelReset_same | with_reducible apply fwSwitch_same | with_reducible apply adminEnd_same | with_reducible apply adminFinish_same | with_reducible exact Sub.up (by with_reducible assumption) (by decide) | fail_if_no_progress (with_reducible apply Same.upd <;> try first | with_reducible exact ⟨rfl, rfl⟩ | with_reducible exact Or.inr (Sub.up (by with_reducible assumption) (by decide)) | with_reducible exact Or.inl rfl) | (intro _) | dsimp only | (with_reducible refine Same.ofEq (by with_reducible assumption) ?_) | split)

theorem hcErr_same {c s0 s} {a0 a1} (h : Same c s0 s) (hc : Sub 1024 c := by first | with_reducible assumption | exact Sub.up (by with_reducible assumption) (by decide)) : Same c s0 (hcErr a0 a1 s) := by
  unfold hcErr
  repeat' (first | with_reducible assumption | with_reducible refine Same.ite ?_ ?_ | with_reducible refine Same.ite2 ?_ ?_ | with_reducible apply modHc_same | with_reducible exact Sub.up (by with_reducible assumption) (by decide) | fail_if_no_progress (with_reducible apply Same.upd <;> try first | with_reducible exact ⟨rfl, rfl⟩ | with_reducible exact Or.inr (Sub.up (by with_reducible assumption) (by decide)) | with_reducible exact Or.inl rfl) | (intro _) | dsimp only | (with_reducible refine Same.ofEq (by with_reducible assumption) ?_) | split)

theorem dropTag_same {c s0 s} {a0 a1} (h : Same c s0 s) (hc : Sub 1026 c := by first | with_reducible assumption | exact Sub.up (by with_reducible assumption) (by decide)) : Same c s0 (dropTag a0 a1 s) := by
  unfold dropTag
  repeat' (first | with_reducible assumption | with_reducible refine Same.ite ?_ ?_ | with_reducible refine Same.ite2 ?_ ?_ | with_reducible apply dropReqs_same | with_reducible exact Sub.up (by with_reducible assumption) (by decide) | fail_if_no_progress (with_reducible apply Same.upd <;> try first | with_reducible exact ⟨rfl, rfl⟩ | with_reducible exact Or.inr (Sub.up (by with_reducible assumption) (by decide)) | with_reducible exact Or.inl rfl) | (intro _) | dsimp only | (with_reducible refine Same.ofEq (by with_reducible assumption) ?_) | split)

theorem hostReqFails_same {c s0 s} {a0 a1} (h : Same c s0 s) (hc : Sub 16179 c := by first | with_reducible assumption | exact Sub.up (by with_reducible assumption) (by decide)) : Same c s0 (hostReqFails a0 a1 s) := by
  unfold hostReqFails
  repeat' (first | with_reducible assumption | with_reducible refine Same.ite ?_ ?_ | with_reducible refine Same.ite2 ?_ ?_ | with_reducible apply adminReadFails_same | with_reducible apply ownerFails_same | with_reducible exact Sub.up (by with_reducible assumption) (by decide) | fail_if_no_progress (with_reducible apply Same.upd <;> try first | with_reducible exact ⟨rfl, rfl⟩ | with_reducible exact Or.inr (Sub.up (by with_reducible assumption) (by decide)) | with_reducible exact Or.inl rfl) | (intro _) | dsimp only | (with_reducible refine Same.ofEq (by with_reducible assumption) ?_) | split)

theorem askImage_same {c s0 s} {a0} (h : Same c s0 s) (hc : Sub 1042 c := by first | with_reducible assumption | exact Sub.up (by with_reducible assumption) (by decide)) : Same c s0 (askImage a0 s) := by
  unfold askImage
  repeat' (first | with_reducible assumption | with_reducible refine Same.ite ?_ ?_ | with_reducible refine Same.ite2 ?_ ?_ | with_reducible apply modAdmin_same | with_reducible apply addReq_same | with_reducible exact Sub.up (by with_reducible assumption) (by decide) | fail_if_no_progress (with_reducible apply Same.upd <;> try first | with_reducible exact ⟨rfl, rfl⟩ | with_reducible exact Or.inr (Sub.up (by with_reducible assumption) (by decide)) | with_reducible exact Or.inl rfl) | (intro _) | dsimp only | (with_reducible refine Same.ofEq (by with_reducible assumption) ?_) | split)

theorem bar2Answer_same {c s0 s} {a0 a1 a2} (h : Same c s0 s) (hc : Sub 2 c := by first | with_reducible assumption | exact Sub.up (by with_reducible assumption) (by decide)) : Same c s0 (bar2Answer a0 a1 a2 s) := by
  unfold bar2Answer
  repeat' (first | with_reducible assumption | with_reducible refine Same.ite ?_ ?_ | with_reducible refine Same.ite2 ?_ ?_ | with_reducible apply emit_same | with_reducible apply takeFree_same | with_reducible exact Sub.up (by with_reducible assumption) (by decide) | fail_if_no_progress (with_reducible apply Same.upd <;> try first | with_reducible exact ⟨rfl, rfl⟩ | with_reducible exact Or.inr (Sub.up (by with_reducible assumption) (by decide)) | with_reducible exact Or.inl rfl) | (intro _) | dsimp only | (with_reducible refine Same.ofEq (by with_reducible assumption) ?_) | split)

theorem bar2Store_same {c s0 s} {a0 a1} (h : Same c s0 s) (hc : Sub 3091 c := by first | with_reducible assumption | exact Sub.up (by with_reducible assumption) (by decide)) : Same c s0 (bar2Store a0 a1 s) := by
  unfold bar2Store
  repeat' (first | with_reducible assumption | with_reducible refine Same.ite ?_ ?_ | with_reducible refine Same.ite2 ?_ ?_ | with_reducible apply forAll_same | with_reducible apply storeAt_same | with_reducible exact Sub.up (by with_reducible assumption) (by decide) | fail_if_no_progress (with_reducible apply Same.upd <;> try first | with_reducible exact ⟨rfl, rfl⟩ | with_reducible exact Or.inr (Sub.up (by with_reducible assumption) (by decide)) | with_reducible exact Or.inl rfl) | (intro _) | dsimp only | (with_reducible refine Same.ofEq (by with_reducible assumption) ?_) | split)

theorem bar2Poison_same {c s0 s} {a0 a1} (h : Same c s0 s) (hc : Sub 1 c := by first | with_reducible assumption | exact Sub.up (by with_reducible assumption) (by decide)) : Same c s0 (bar2Poison a0 a1 s) := by
  unfold bar2Poison
  repeat' (first | with_reducible assumption | with_reducible refine Same.ite ?_ ?_ | with_reducible refine Same.ite2 ?_ ?_ | with_reducible apply forAll_same | with_reducible apply poisonRange_same | with_reducible exact Sub.up (by with_reducible assumption) (by decide) | fail_if_no_progress (with_reducible apply Same.upd <;> try first | with_reducible exact ⟨rfl, rfl⟩ | with_reducible exact Or.inr (Sub.up (by with_reducible assumption) (by decide)) | with_reducible exact Or.inl rfl) | (intro _) | dsimp only | (with_reducible refine Same.ofEq (by with_reducible assumption) ?_) | split)

theorem setIdeBlock_same {c s0 s} {a0 a1 a2} (h : Same c s0 s) (hc : Sub 1024 c := by first | with_reducible assumption | exact Sub.up (by with_reducible assumption) (by decide)) : Same c s0 (setIdeBlock a0 a1 a2 s) := by
  unfold setIdeBlock
  repeat' (first | with_reducible assumption | with_reducible refine Same.ite ?_ ?_ | with_reducible refine Same.ite2 ?_ ?_ | with_reducible apply modHc_same | with_reducible exact Sub.up (by with_reducible assumption) (by decide) | fail_if_no_progress (with_reducible apply Same.upd <;> try first | with_reducible exact ⟨rfl, rfl⟩ | with_reducible exact Or.inr (Sub.up (by with_reducible assumption) (by decide)) | with_reducible exact Or.inl rfl) | (intro _) | dsimp only | (with_reducible refine Same.ofEq (by with_reducible assumption) ?_) | split)

theorem cfgWrite_same {c s0 s} {a0 a1 a2} (h : Same c s0 s) (hc : Sub 1568 c := by first | with_reducible assumption | exact Sub.up (by with_reducible assumption) (by decide)) : Same c s0 (cfgWrite a0 a1 a2 s) := by
  unfold cfgWrite
  repeat' (first | with_reducible assumption | with_reducible refine Same.ite ?_ ?_ | with_reducible refine Same.ite2 ?_ ?_ | with_reducible apply modFnS_same | with_reducible apply modHc_same | with_reducible apply setIdeBlock_same | with_reducible exact Sub.up (by with_reducible assumption) (by decide) | fail_if_no_progress (with_reducible apply Same.upd <;> try first | with_reducible exact ⟨rfl, rfl⟩ | with_reducible exact Or.inr (Sub.up (by with_reducible assumption) (by decide)) | with_reducible exact Or.inl rfl) | (intro _) | dsimp only | (with_reducible refine Same.ofEq (by with_reducible assumption) ?_) | split)

theorem cfgAnswer_same {c s0 s} {a0 a1 a2} (h : Same c s0 s) (hc : Sub 1570 c := by first | with_reducible assumption | exact Sub.up (by with_reducible assumption) (by decide)) : Same c s0 (cfgAnswer a0 a1 a2 s) := by
  unfold cfgAnswer
  repeat' (first | with_reducible assumption | with_reducible refine Same.ite ?_ ?_ | with_reducible refine Same.ite2 ?_ ?_ | with_reducible apply emit_same | with_reducible apply cfgWrite_same | with_reducible exact Sub.up (by with_reducible assumption) (by decide) | fail_if_no_progress (with_reducible apply Same.upd <;> try first | with_reducible exact ⟨rfl, rfl⟩ | with_reducible exact Or.inr (Sub.up (by with_reducible assumption) (by decide)) | with_reducible exact Or.inl rfl) | (intro _) | dsimp only | (with_reducible refine Same.ofEq (by with_reducible assumption) ?_) | split)

theorem flrVf_same {c s0 s} {a0} (h : Same c s0 s) (hc : Sub 15923 c := by first | with_reducible assumption | exact Sub.up (by with_reducible assumption) (by decide)) : Same c s0 (flrVf a0 s) := by
  unfold flrVf
  repeat' (first | with_reducible assumption | with_reducible refine Same.ite ?_ ?_ | with_reducible refine Same.ite2 ?_ ?_ | with_reducible apply tearVats_same | with_reducible apply clearVf_same | with_reducible exact Sub.up (by with_reducible assumption) (by decide) | fail_if_no_progress (with_reducible apply Same.upd <;> try first | with_reducible exact ⟨rfl, rfl⟩ | with_reducible exact Or.inr (Sub.up (by with_reducible assumption) (by decide)) | with_reducible exact Or.inl rfl) | (intro _) | dsimp only | (with_reducible refine Same.ofEq (by with_reducible assumption) ?_) | split)

theorem ideRun_same {c s0 s} {a0 a1} (h : Same c s0 s) (a1_ok : ∀ t, Same c s0 t → Same c s0 (a1 t)) (hc : Sub 2 c := by first | with_reducible assumption | exact Sub.up (by with_reducible assumption) (by decide)) : Same c s0 (ideRun a0 a1 s) := by
  unfold ideRun
  repeat' (first | with_reducible assumption | with_reducible refine Same.ite ?_ ?_ | with_reducible refine Same.ite2 ?_ ?_ | with_reducible apply a1_ok | with_reducible apply emit_same | with_reducible exact Sub.up (by with_reducible assumption) (by decide) | fail_if_no_progress (with_reducible apply Same.upd <;> try first | with_reducible exact ⟨rfl, rfl⟩ | with_reducible exact Or.inr (Sub.up (by with_reducible assumption) (by decide)) | with_reducible exact Or.inl rfl) | (intro _) | dsimp only | (with_reducible refine Same.ofEq (by with_reducible assumption) ?_) | split)

theorem modIde_same {c s0 s} {a0 a1 a2} (h : Same c s0 s) (hc : Sub 1024 c := by first | with_reducible assumption | exact Sub.up (by with_reducible assumption) (by decide)) : Same c s0 (modIde a0 a1 a2 s) := by
  unfold modIde
  repeat' (first | with_reducible assumption | with_reducible refine Same.ite ?_ ?_ | with_reducible refine Same.ite2 ?_ ?_ | with_reducible apply modHc_same | with_reducible exact Sub.up (by with_reducible assumption) (by decide) | fail_if_no_progress (with_reducible apply Same.upd <;> try first | with_reducible exact ⟨rfl, rfl⟩ | with_reducible exact Or.inr (Sub.up (by with_reducible assumption) (by decide)) | with_reducible exact Or.inl rfl) | (intro _) | dsimp only | (with_reducible refine Same.ofEq (by with_reducible assumption) ?_) | split)

theorem hcEnable_same {c s0 s} {a0} (h : Same c s0 s) (hc : Sub 1280 c := by first | with_reducible assumption | exact Sub.up (by with_reducible assumption) (by decide)) : Same c s0 (hcEnable a0 s) := by
  unfold hcEnable
  repeat' (first | with_reducible assumption | with_reducible refine Same.ite ?_ ?_ | with_reducible refine Same.ite2 ?_ ?_ | with_reducible apply modHc_same | with_reducible apply when_same | with_reducible apply modRsh_same | with_reducible exact Sub.up (by with_reducible assumption) (by decide) | fail_if_no_progress (with_reducible apply Same.upd <;> try first | with_reducible exact ⟨rfl, rfl⟩ | with_reducible exact Or.inr (Sub.up (by with_reducible assumption) (by decide)) | with_reducible exact Or.inl rfl) | (intro _) | dsimp only | (with_reducible refine Same.ofEq (by with_reducible assumption) ?_) | split)

theorem hcDisable_same {c s0 s} {a0} (h : Same c s0 s) (hc : Sub 32563 c := by first | with_reducible assumption | exact Sub.up (by with_reducible assumption) (by decide)) : Same c s0 (hcDisable a0 s) := by
  unfold hcDisable
  repeat' (first | with_reducible assumption | with_reducible refine Same.ite ?_ ?_ | with_reducible refine Same.ite2 ?_ ?_ | with_reducible apply modHc_same | with_reducible apply when_same | with_reducible apply hcDown_same | with_reducible apply modRsh_same | with_reducible exact Sub.up (by with_reducible assumption) (by decide) | fail_if_no_progress (with_reducible apply Same.upd <;> try first | with_reducible exact ⟨rfl, rfl⟩ | with_reducible exact Or.inr (Sub.up (by with_reducible assumption) (by decide)) | with_reducible exact Or.inl rfl) | (intro _) | dsimp only | (with_reducible refine Same.ofEq (by with_reducible assumption) ?_) | split)

theorem modEvict_same {c s0 s} {a0 a1 a2} (h : Same c s0 s) (hc : Sub 2048 c := by first | with_reducible assumption | exact Sub.up (by with_reducible assumption) (by decide)) : Same c s0 (modEvict a0 a1 a2 s) := by
  unfold modEvict
  repeat' (first | with_reducible assumption | with_reducible refine Same.ite ?_ ?_ | with_reducible refine Same.ite2 ?_ ?_ | with_reducible exact Sub.up (by with_reducible assumption) (by decide) | fail_if_no_progress (with_reducible apply Same.upd <;> try first | with_reducible exact ⟨rfl, rfl⟩ | with_reducible exact Or.inr (Sub.up (by with_reducible assumption) (by decide)) | with_reducible exact Or.inl rfl) | (intro _) | dsimp only | (with_reducible refine Same.ofEq (by with_reducible assumption) ?_) | split)

theorem setLine_same {c s0 s} {a0 a1 a2} (h : Same c s0 s) (hc : Sub 2048 c := by first | with_reducible assumption | exact Sub.up (by with_reducible assumption) (by decide)) : Same c s0 (setLine a0 a1 a2 s) := by
  unfold setLine
  repeat' (first | with_reducible assumption | with_reducible refine Same.ite ?_ ?_ | with_reducible refine Same.ite2 ?_ ?_ | with_reducible exact Sub.up (by with_reducible assumption) (by decide) | fail_if_no_progress (with_reducible apply Same.upd <;> try first | with_reducible exact ⟨rfl, rfl⟩ | with_reducible exact Or.inr (Sub.up (by with_reducible assumption) (by decide)) | with_reducible exact Or.inl rfl) | (intro _) | dsimp only | (with_reducible refine Same.ofEq (by with_reducible assumption) ?_) | split)

theorem snoop_same {c s0 s} {a0 a1 a2 a3 a4 a5} (h : Same c s0 s) (hc : Sub 2050 c := by first | with_reducible assumption | exact Sub.up (by with_reducible assumption) (by decide)) : Same c s0 (snoop a0 a1 a2 a3 a4 a5 s) := by
  unfold snoop
  repeat' (first | with_reducible assumption | with_reducible refine Same.ite ?_ ?_ | with_reducible refine Same.ite2 ?_ ?_ | with_reducible apply emit_same | with_reducible apply modEvict_same | with_reducible apply setLine_same | with_reducible exact Sub.up (by with_reducible assumption) (by decide) | fail_if_no_progress (with_reducible apply Same.upd <;> try first | with_reducible exact ⟨rfl, rfl⟩ | with_reducible exact Or.inr (Sub.up (by with_reducible assumption) (by decide)) | with_reducible exact Or.inl rfl) | (intro _) | dsimp only | (with_reducible refine Same.ofEq (by with_reducible assumption) ?_) | split)

theorem snoopLine_same {c s0 s} {a0 a1 a2 a3 a4 a5} (h : Same c s0 s) (hc : Sub 15923 c := by first | with_reducible assumption | exact Sub.up (by with_reducible assumption) (by decide)) : Same c s0 (snoopLine a0 a1 a2 a3 a4 a5 s) := by
  unfold snoopLine
  repeat' (first | with_reducible assumption | with_reducible refine Same.ite ?_ ?_ | with_reducible refine Same.ite2 ?_ ?_ | with_reducible apply snoop_same | with_reducible apply forAll_same | with_reducible apply readWatcher_same | with_reducible exact Sub.up (by with_reducible assumption) (by decide) | fail_if_no_progress (with_reducible apply Same.upd <;> try first | with_reducible exact ⟨rfl, rfl⟩ | with_reducible exact Or.inr (Sub.up (by with_reducible assumption) (by decide)) | with_reducible exact Or.inl rfl) | (intro _) | dsimp only | (with_reducible refine Same.ofEq (by with_reducible assumption) ?_) | split)

theorem endEvict_same {c s0 s} {a0 a1} (h : Same c s0 s) (hc : Sub 2048 c := by first | with_reducible assumption | exact Sub.up (by with_reducible assumption) (by decide)) : Same c s0 (endEvict a0 a1 s) := by
  unfold endEvict
  repeat' (first | with_reducible assumption | with_reducible refine Same.ite ?_ ?_ | with_reducible refine Same.ite2 ?_ ?_ | with_reducible exact Sub.up (by with_reducible assumption) (by decide) | fail_if_no_progress (with_reducible apply Same.upd <;> try first | with_reducible exact ⟨rfl, rfl⟩ | with_reducible exact Or.inr (Sub.up (by with_reducible assumption) (by decide)) | with_reducible exact Or.inl rfl) | (intro _) | dsimp only | (with_reducible refine Same.ofEq (by with_reducible assumption) ?_) | split)

theorem takeFill_same {c s0 s} {a0 a1 a2 a3} (h : Same c s0 s) (hc : Sub 2049 c := by first | with_reducible assumption | exact Sub.up (by with_reducible assumption) (by decide)) : Same c s0 (takeFill a0 a1 a2 a3 s) := by
  unfold takeFill
  repeat' (first | with_reducible assumption | with_reducible refine Same.ite ?_ ?_ | with_reducible refine Same.ite2 ?_ ?_ | with_reducible apply writeBytes_same | with_reducible apply setLine_same | with_reducible exact Sub.up (by with_reducible assumption) (by decide) | fail_if_no_progress (with_reducible apply Same.upd <;> try first | with_reducible exact ⟨rfl, rfl⟩ | with_reducible exact Or.inr (Sub.up (by with_reducible assumption) (by decide)) | with_reducible exact Or.inl rfl) | (intro _) | dsimp only | (with_reducible refine Same.ofEq (by with_reducible assumption) ?_) | split)

theorem holdLine_same {c s0 s} {a0 a1 a2} (h : Same c s0 s) (hc : Sub 2048 c := by first | with_reducible assumption | exact Sub.up (by with_reducible assumption) (by decide)) : Same c s0 (holdLine a0 a1 a2 s) := by
  unfold holdLine
  repeat' (first | with_reducible assumption | with_reducible refine Same.ite ?_ ?_ | with_reducible refine Same.ite2 ?_ ?_ | with_reducible exact Sub.up (by with_reducible assumption) (by decide) | fail_if_no_progress (with_reducible apply Same.upd <;> try first | with_reducible exact ⟨rfl, rfl⟩ | with_reducible exact Or.inr (Sub.up (by with_reducible assumption) (by decide)) | with_reducible exact Or.inl rfl) | (intro _) | dsimp only | (with_reducible refine Same.ofEq (by with_reducible assumption) ?_) | split)

theorem hdmServe_same {c s0 s} {a0 a1 a2 a3 a4 a5} (h : Same c s0 s) (a5_ok : ∀ t, Same c s0 t → Same c s0 (a5 t)) (hc : Sub 2050 c := by first | with_reducible assumption | exact Sub.up (by with_reducible assumption) (by decide)) : Same c s0 (hdmServe a0 a1 a2 a3 a4 a5 s) := by
  unfold hdmServe
  repeat' (first | with_reducible assumption | with_reducible refine Same.ite ?_ ?_ | with_reducible refine Same.ite2 ?_ ?_ | with_reducible apply a5_ok | with_reducible apply askHosts_same | with_reducible exact Sub.up (by with_reducible assumption) (by decide) | fail_if_no_progress (with_reducible apply Same.upd <;> try first | with_reducible exact ⟨rfl, rfl⟩ | with_reducible exact Or.inr (Sub.up (by with_reducible assumption) (by decide)) | with_reducible exact Or.inl rfl) | (intro _) | dsimp only | (with_reducible refine Same.ofEq (by with_reducible assumption) ?_) | split)

theorem hdmRead_same {c s0 s} {a0 a1 a2 a3} (h : Same c s0 s) (hc : Sub 2050 c := by first | with_reducible assumption | exact Sub.up (by with_reducible assumption) (by decide)) : Same c s0 (hdmRead a0 a1 a2 a3 s) := by
  unfold hdmRead
  repeat' (first | with_reducible assumption | with_reducible refine Same.ite ?_ ?_ | with_reducible refine Same.ite2 ?_ ?_ | with_reducible apply hdmServe_same | with_reducible apply emit_same | with_reducible apply holdLine_same | with_reducible exact Sub.up (by with_reducible assumption) (by decide) | fail_if_no_progress (with_reducible apply Same.upd <;> try first | with_reducible exact ⟨rfl, rfl⟩ | with_reducible exact Or.inr (Sub.up (by with_reducible assumption) (by decide)) | with_reducible exact Or.inl rfl) | (intro _) | dsimp only | (with_reducible refine Same.ofEq (by with_reducible assumption) ?_) | split)

theorem sendRange_same {c s0 s} {a0 a1 a2 a3} (h : Same c s0 s) (hc : Sub 1026 c := by first | with_reducible assumption | exact Sub.up (by with_reducible assumption) (by decide)) : Same c s0 (sendRange a0 a1 a2 a3 s) := by
  unfold sendRange
  repeat' (first | with_reducible assumption | with_reducible refine Same.ite ?_ ?_ | with_reducible refine Same.ite2 ?_ ?_ | with_reducible apply when_same | with_reducible apply sendAcd_same | with_reducible exact Sub.up (by with_reducible assumption) (by decide) | fail_if_no_progress (with_reducible apply Same.upd <;> try first | with_reducible exact ⟨rfl, rfl⟩ | with_reducible exact Or.inr (Sub.up (by with_reducible assumption) (by decide)) | with_reducible exact Or.inl rfl) | (intro _) | dsimp only | (with_reducible refine Same.ofEq (by with_reducible assumption) ?_) | split)

theorem hdmWinWrite_same {c s0 s} {a0 a1 a2} (h : Same c s0 s) (hc : Sub 1026 c := by first | with_reducible assumption | exact Sub.up (by with_reducible assumption) (by decide)) : Same c s0 (hdmWinWrite a0 a1 a2 s) := by
  unfold hdmWinWrite
  repeat' (first | with_reducible assumption | with_reducible refine Same.ite ?_ ?_ | with_reducible refine Same.ite2 ?_ ?_ | with_reducible apply modHc_same | with_reducible apply when_same | with_reducible apply sendRange_same | with_reducible exact Sub.up (by with_reducible assumption) (by decide) | fail_if_no_progress (with_reducible apply Same.upd <;> try first | with_reducible exact ⟨rfl, rfl⟩ | with_reducible exact Or.inr (Sub.up (by with_reducible assumption) (by decide)) | with_reducible exact Or.inl rfl) | (intro _) | dsimp only | (with_reducible refine Same.ofEq (by with_reducible assumption) ?_) | split)

theorem forwardPkt_same {c s0 s} {a0 a1} (h : Same c s0 s) (hc : Sub 1026 c := by first | with_reducible assumption | exact Sub.up (by with_reducible assumption) (by decide)) : Same c s0 (forwardPkt a0 a1 s) := by
  unfold forwardPkt
  repeat' (first | with_reducible assumption | with_reducible refine Same.ite ?_ ?_ | with_reducible refine Same.ite2 ?_ ?_ | with_reducible apply nakPkt_same | with_reducible apply modPeerP_same | with_reducible apply sendPacket_same | with_reducible exact Sub.up (by with_reducible assumption) (by decide) | fail_if_no_progress (with_reducible apply Same.upd <;> try first | with_reducible exact ⟨rfl, rfl⟩ | with_reducible exact Or.inr (Sub.up (by with_reducible assumption) (by decide)) | with_reducible exact Or.inl rfl) | (intro _) | dsimp only | (with_reducible refine Same.ofEq (by with_reducible assumption) ?_) | split)

theorem atNode_same {c s0 s} {a0 a1 a2 a3} (h : Same c s0 s) (a3_ok : ∀ t, Same c s0 t → Same c s0 (a3 t)) (hc : Sub 1026 c := by first | with_reducible assumption | exact Sub.up (by with_reducible assumption) (by decide)) : Same c s0 (atNode a0 a1 a2 a3 s) := by
  unfold atNode
  repeat' (first | with_reducible assumption | with_reducible refine Same.ite ?_ ?_ | with_reducible refine Same.ite2 ?_ ?_ | with_reducible apply a3_ok | with_reducible apply forwardPkt_same | with_reducible exact Sub.up (by with_reducible assumption) (by decide) | fail_if_no_progress (with_reducible apply Same.upd <;> try first | with_reducible exact ⟨rfl, rfl⟩ | with_reducible exact Or.inr (Sub.up (by with_reducible assumption) (by decide)) | with_reducible exact Or.inl rfl) | (intro _) | dsimp only | (with_reducible refine Same.ofEq (by with_reducible assumption) ?_) | split)

theorem takeData_same {c s0 s} {a0} (h : Same c s0 s) (hc : Sub 15923 c := by first | with_reducible assumption | exact Sub.up (by with_reducible assumption) (by decide)) : Same c s0 (takeData a0 s) := by
  unfold takeData
  repeat' (first | with_reducible assumption | with_reducible refine Same.ite ?_ ?_ | with_reducible refine Same.ite2 ?_ ?_ | with_reducible apply dropTag_same | with_reducible apply writeBytes_same | with_reducible apply ownerAnswered_same | with_reducible exact Sub.up (by with_reducible assumption) (by decide) | fail_if_no_progress (with_reducible apply Same.upd <;> try first | with_reducible exact ⟨rfl, rfl⟩ | with_reducible exact Or.inr (Sub.up (by with_reducible assumption) (by decide)) | with_reducible exact Or.inl rfl) | (intro _) | dsimp only | (with_reducible refine Same.ofEq (by with_reducible assumption) ?_) | split)

theorem takeAtResp_same {c s0 s} {a0} (h : Same c s0 s) (hc : Sub 15923 c := by first | with_reducible assumption | exact Sub.up (by with_reducible assumption) (by decide)) : Same c s0 (takeAtResp a0 s) := by
  unfold takeAtResp
  repeat' (first | with_reducible assumption | with_reducible refine Same.ite ?_ ?_ | with_reducible refine Same.ite2 ?_ ?_ | with_reducible apply dropTag_same | with_reducible apply toWhey_same | with_reducible apply endLaunch_same | with_reducible apply addDone_same | with_reducible apply when_same | with_reducible apply vstore_same | with_reducible exact Sub.up (by with_reducible assumption) (by decide) | fail_if_no_progress (with_reducible apply Same.upd <;> try first | with_reducible exact ⟨rfl, rfl⟩ | with_reducible exact Or.inr (Sub.up (by with_reducible assumption) (by decide)) | with_reducible exact Or.inl rfl) | (intro _) | dsimp only | (with_reducible refine Same.ofEq (by with_reducible assumption) ?_) | split)

theorem modReq_same {c s0 s} {a0 a1 a2} (h : Same c s0 s) (hc : Sub 1024 c := by first | with_reducible assumption | exact Sub.up (by with_reducible assumption) (by decide)) : Same c s0 (modReq a0 a1 a2 s) := by
  unfold modReq
  repeat' (first | with_reducible assumption | with_reducible refine Same.ite ?_ ?_ | with_reducible refine Same.ite2 ?_ ?_ | with_reducible exact Sub.up (by with_reducible assumption) (by decide) | fail_if_no_progress (with_reducible apply Same.upd <;> try first | with_reducible exact ⟨rfl, rfl⟩ | with_reducible exact Or.inr (Sub.up (by with_reducible assumption) (by decide)) | with_reducible exact Or.inl rfl) | (intro _) | dsimp only | (with_reducible refine Same.ofEq (by with_reducible assumption) ?_) | split)

theorem takeNak_same {c s0 s} {a0} (h : Same c s0 s) (hc : Sub 16179 c := by first | with_reducible assumption | exact Sub.up (by with_reducible assumption) (by decide)) : Same c s0 (takeNak a0 s) := by
  unfold takeNak
  repeat' (first | with_reducible assumption | with_reducible refine Same.ite ?_ ?_ | with_reducible refine Same.ite2 ?_ ?_ | with_reducible apply modReq_same | with_reducible apply loseNode_same | with_reducible apply giveTags_same | with_reducible apply dropTag_same | with_reducible apply ownerFails_same | with_reducible exact Sub.up (by with_reducible assumption) (by decide) | fail_if_no_progress (with_reducible apply Same.upd <;> try first | with_reducible exact ⟨rfl, rfl⟩ | with_reducible exact Or.inr (Sub.up (by with_reducible assumption) (by decide)) | with_reducible exact Or.inl rfl) | (intro _) | dsimp only | (with_reducible refine Same.ofEq (by with_reducible assumption) ?_) | split)

theorem resend_same {c s0 s} {a0} (h : Same c s0 s) (hc : Sub 1026 c := by first | with_reducible assumption | exact Sub.up (by with_reducible assumption) (by decide)) : Same c s0 (resend a0 s) := by
  unfold resend
  repeat' (first | with_reducible assumption | with_reducible refine Same.ite ?_ ?_ | with_reducible refine Same.ite2 ?_ ?_ | with_reducible apply modReq_same | with_reducible apply sendPacket_same | with_reducible exact Sub.up (by with_reducible assumption) (by decide) | fail_if_no_progress (with_reducible apply Same.upd <;> try first | with_reducible exact ⟨rfl, rfl⟩ | with_reducible exact Or.inr (Sub.up (by with_reducible assumption) (by decide)) | with_reducible exact Or.inl rfl) | (intro _) | dsimp only | (with_reducible refine Same.ofEq (by with_reducible assumption) ?_) | split)

theorem tryReady_same {c s0 s} {a0} (h : Same c s0 s) (hc : Sub 4096 c := by first | with_reducible assumption | exact Sub.up (by with_reducible assumption) (by decide)) : Same c s0 (tryReady a0 s) := by
  unfold tryReady
  repeat' (first | with_reducible assumption | with_reducible refine Same.ite ?_ ?_ | with_reducible refine Same.ite2 ?_ ?_ | with_reducible apply modColl_same | with_reducible exact Sub.up (by with_reducible assumption) (by decide) | fail_if_no_progress (with_reducible apply Same.upd <;> try first | with_reducible exact ⟨rfl, rfl⟩ | with_reducible exact Or.inr (Sub.up (by with_reducible assumption) (by decide)) | with_reducible exact Or.inl rfl) | (intro _) | dsimp only | (with_reducible refine Same.ofEq (by with_reducible assumption) ?_) | split)

theorem endOpen_same {c s0 s} {a0 a1 a2} (h : Same c s0 s) (hc : Sub 15923 c := by first | with_reducible assumption | exact Sub.up (by with_reducible assumption) (by decide)) : Same c s0 (endOpen a0 a1 a2 s) := by
  unfold endOpen
  repeat' (first | with_reducible assumption | with_reducible refine Same.ite ?_ ?_ | with_reducible refine Same.ite2 ?_ ?_ | with_reducible apply forAll_same | with_reducible apply disarmWait_same | with_reducible apply failLive_same | with_reducible apply failEntry_same | with_reducible exact Sub.up (by with_reducible assumption) (by decide) | fail_if_no_progress (with_reducible apply Same.upd <;> try first | with_reducible exact ⟨rfl, rfl⟩ | with_reducible exact Or.inr (Sub.up (by with_reducible assumption) (by decide)) | with_reducible exact Or.inl rfl) | (intro _) | dsimp only | (with_reducible refine Same.ofEq (by with_reducible assumption) ?_) | split)

theorem postHold_same {c s0 s} {a0 a1 a2 a3} (h : Same c s0 s) (hc : Sub 3635 c := by first | with_reducible assumption | exact Sub.up (by with_reducible assumption) (by decide)) : Same c s0 (postHold a0 a1 a2 a3 s) := by
  unfold postHold
  repeat' (first | with_reducible assumption | with_reducible refine Same.ite ?_ ?_ | with_reducible refine Same.ite2 ?_ ?_ | with_reducible apply postRec_same | with_reducible exact Sub.up (by with_reducible assumption) (by decide) | fail_if_no_progress (with_reducible apply Same.upd <;> try first | with_reducible exact ⟨rfl, rfl⟩ | with_reducible exact Or.inr (Sub.up (by with_reducible assumption) (by decide)) | with_reducible exact Or.inl rfl) | (intro _) | dsimp only | (with_reducible refine Same.ofEq (by with_reducible assumption) ?_) | split)

theorem yieldThermal_same {c s0 s} {a0 a1} (h : Same c s0 s) (hc : Sub 11827 c := by first | with_reducible assumption | exact Sub.up (by with_reducible assumption) (by decide)) : Same c s0 (yieldThermal a0 a1 s) := by
  unfold yieldThermal
  repeat' (first | with_reducible assumption | with_reducible refine Same.ite ?_ ?_ | with_reducible refine Same.ite2 ?_ ?_ | with_reducible apply modWheel_same | with_reducible apply postYield_same | with_reducible exact Sub.up (by with_reducible assumption) (by decide) | fail_if_no_progress (with_reducible apply Same.upd <;> try first | with_reducible exact ⟨rfl, rfl⟩ | with_reducible exact Or.inr (Sub.up (by with_reducible assumption) (by decide)) | with_reducible exact Or.inl rfl) | (intro _) | dsimp only | (with_reducible refine Same.ofEq (by with_reducible assumption) ?_) | split)

theorem sendHold_same {c s0 s} {a0 a1 a2 a3 a4} (h : Same c s0 s) (hc : Sub 1026 c := by first | with_reducible assumption | exact Sub.up (by with_reducible assumption) (by decide)) : Same c s0 (sendHold a0 a1 a2 a3 a4 s) := by
  unfold sendHold
  repeat' (first | with_reducible assumption | with_reducible refine Same.ite ?_ ?_ | with_reducible refine Same.ite2 ?_ ?_ | with_reducible apply forAll_same | with_reducible apply sendPacket_same | with_reducible exact Sub.up (by with_reducible assumption) (by decide) | fail_if_no_progress (with_reducible apply Same.upd <;> try first | with_reducible exact ⟨rfl, rfl⟩ | with_reducible exact Or.inr (Sub.up (by with_reducible assumption) (by decide)) | with_reducible exact Or.inl rfl) | (intro _) | dsimp only | (with_reducible refine Same.ofEq (by with_reducible assumption) ?_) | split)

theorem spoilHold_same {c s0 s} {a0} (h : Same c s0 s) (hc : Sub 3091 c := by first | with_reducible assumption | exact Sub.up (by with_reducible assumption) (by decide)) : Same c s0 (spoilHold a0 s) := by
  unfold spoilHold
  repeat' (first | with_reducible assumption | with_reducible refine Same.ite ?_ ?_ | with_reducible refine Same.ite2 ?_ ?_ | with_reducible apply forAll_same | with_reducible apply takeFree_same | with_reducible apply storeAt_same | with_reducible exact Sub.up (by with_reducible assumption) (by decide) | fail_if_no_progress (with_reducible apply Same.upd <;> try first | with_reducible exact ⟨rfl, rfl⟩ | with_reducible exact Or.inr (Sub.up (by with_reducible assumption) (by decide)) | with_reducible exact Or.inl rfl) | (intro _) | dsimp only | (with_reducible refine Same.ofEq (by with_reducible assumption) ?_) | split)

theorem startHold_same {c s0 s} {a0} (h : Same c s0 s) (hc : Sub 7731 c := by first | with_reducible assumption | exact Sub.up (by with_reducible assumption) (by decide)) : Same c s0 (startHold a0 s) := by
  unfold startHold
  repeat' (first | with_reducible assumption | with_reducible refine Same.ite ?_ ?_ | with_reducible refine Same.ite2 ?_ ?_ | with_reducible apply modAcd_same | with_reducible apply spoilHold_same | with_reducible apply forAll_same | with_reducible apply modColl_same | with_reducible apply postHold_same | with_reducible apply sendHold_same | with_reducible exact Sub.up (by with_reducible assumption) (by decide) | fail_if_no_progress (with_reducible apply Same.upd <;> try first | with_reducible exact ⟨rfl, rfl⟩ | with_reducible exact Or.inr (Sub.up (by with_reducible assumption) (by decide)) | with_reducible exact Or.inl rfl) | (intro _) | dsimp only | (with_reducible refine Same.ofEq (by with_reducible assumption) ?_) | split)

theorem tryEndHold_same {c s0 s} {a0} (h : Same c s0 s) (hc : Sub 7731 c := by first | with_reducible assumption | exact Sub.up (by with_reducible assumption) (by decide)) : Same c s0 (tryEndHold a0 s) := by
  unfold tryEndHold
  repeat' (first | with_reducible assumption | with_reducible refine Same.ite ?_ ?_ | with_reducible refine Same.ite2 ?_ ?_ | with_reducible apply modAcd_same | with_reducible apply spoilHold_same | with_reducible apply forAll_same | with_reducible apply when_same | with_reducible apply postHold_same | with_reducible apply modColl_same | with_reducible apply sendHold_same | with_reducible exact Sub.up (by with_reducible assumption) (by decide) | fail_if_no_progress (with_reducible apply Same.upd <;> try first | with_reducible exact ⟨rfl, rfl⟩ | with_reducible exact Or.inr (Sub.up (by with_reducible assumption) (by decide)) | with_reducible exact Or.inl rfl) | (intro _) | dsimp only | (with_reducible refine Same.ofEq (by with_reducible assumption) ?_) | split)

theorem closeHolds_same {c s0 s} {a0} (h : Same c s0 s) (hc : Sub 7731 c := by first | with_reducible assumption | exact Sub.up (by with_reducible assumption) (by decide)) : Same c s0 (closeHolds a0 s) := by
  unfold closeHolds
  repeat' (first | with_reducible assumption | with_reducible refine Same.ite ?_ ?_ | with_reducible refine Same.ite2 ?_ ?_ | with_reducible apply forAll_same | with_reducible apply postHold_same | with_reducible apply modColl_same | with_reducible exact Sub.up (by with_reducible assumption) (by decide) | fail_if_no_progress (with_reducible apply Same.upd <;> try first | with_reducible exact ⟨rfl, rfl⟩ | with_reducible exact Or.inr (Sub.up (by with_reducible assumption) (by decide)) | with_reducible exact Or.inl rfl) | (intro _) | dsimp only | (with_reducible refine Same.ofEq (by with_reducible assumption) ?_) | split)

theorem endHeld_same {c s0 s} {a0} (h : Same c s0 s) (hc : Sub 15923 c := by first | with_reducible assumption | exact Sub.up (by with_reducible assumption) (by decide)) : Same c s0 (endHeld a0 s) := by
  unfold endHeld
  repeat' (first | with_reducible assumption | with_reducible refine Same.ite ?_ ?_ | with_reducible refine Same.ite2 ?_ ?_ | with_reducible apply endOpen_same | with_reducible exact Sub.up (by with_reducible assumption) (by decide) | fail_if_no_progress (with_reducible apply Same.upd <;> try first | with_reducible exact ⟨rfl, rfl⟩ | with_reducible exact Or.inr (Sub.up (by with_reducible assumption) (by decide)) | with_reducible exact Or.inl rfl) | (intro _) | dsimp only | (with_reducible refine Same.ofEq (by with_reducible assumption) ?_) | split)

theorem ageHold_same {c s0 s} {a0 a1} (h : Same c s0 s) (hc : Sub 4096 c := by first | with_reducible assumption | exact Sub.up (by with_reducible assumption) (by decide)) : Same c s0 (ageHold a0 a1 s) := by
  unfold ageHold
  repeat' (first | with_reducible assumption | with_reducible refine Same.ite ?_ ?_ | with_reducible refine Same.ite2 ?_ ?_ | with_reducible apply modColl_same | with_reducible exact Sub.up (by with_reducible assumption) (by decide) | fail_if_no_progress (with_reducible apply Same.upd <;> try first | with_reducible exact ⟨rfl, rfl⟩ | with_reducible exact Or.inr (Sub.up (by with_reducible assumption) (by decide)) | with_reducible exact Or.inl rfl) | (intro _) | dsimp only | (with_reducible refine Same.ofEq (by with_reducible assumption) ?_) | split)

theorem takeHold_same {c s0 s} {a0 a1 a2} (h : Same c s0 s) (hc : Sub 15923 c := by first | with_reducible assumption | exact Sub.up (by with_reducible assumption) (by decide)) : Same c s0 (takeHold a0 a1 a2 s) := by
  unfold takeHold
  repeat' (first | with_reducible assumption | with_reducible refine Same.ite ?_ ?_ | with_reducible refine Same.ite2 ?_ ?_ | with_reducible apply forAll_same | with_reducible apply resend_same | with_reducible apply sendHold_same | with_reducible apply postHold_same | with_reducible apply modColl_same | with_reducible apply when_same | with_reducible apply yieldThermal_same | with_reducible exact Sub.up (by with_reducible assumption) (by decide) | fail_if_no_progress (with_reducible apply Same.upd <;> try first | with_reducible exact ⟨rfl, rfl⟩ | with_reducible exact Or.inr (Sub.up (by with_reducible assumption) (by decide)) | with_reducible exact Or.inl rfl) | (intro _) | dsimp only | (with_reducible refine Same.ofEq (by with_reducible assumption) ?_) | split)

theorem collWrite_same {c s0 s} {a0 a1} (h : Same c s0 s) (hc : Sub 5122 c := by first | with_reducible assumption | exact Sub.up (by with_reducible assumption) (by decide)) : Same c s0 (collWrite a0 a1 s) := by
  unfold collWrite
  repeat' (first | with_reducible assumption | with_reducible refine Same.ite ?_ ?_ | with_reducible refine Same.ite2 ?_ ?_ | with_reducible apply modColl_same | with_reducible apply when_same | with_reducible apply sendColl_same | with_reducible apply tryReady_same | with_reducible apply endGroup_same | with_reducible exact Sub.up (by with_reducible assumption) (by decide) | fail_if_no_progress (with_reducible apply Same.upd <;> try first | with_reducible exact ⟨rfl, rfl⟩ | with_reducible exact Or.inr (Sub.up (by with_reducible assumption) (by decide)) | with_reducible exact Or.inl rfl) | (intro _) | dsimp only | (with_reducible refine Same.ofEq (by with_reducible assumption) ?_) | split)

theorem routeWrite_same {c s0 s} {a0 a1} (h : Same c s0 s) (hc : Sub 16179 c := by first | with_reducible assumption | exact Sub.up (by with_reducible assumption) (by decide)) : Same c s0 (routeWrite a0 a1 s) := by
  unfold routeWrite
  repeat' (first | with_reducible assumption | with_reducible refine Same.ite ?_ ?_ | with_reducible refine Same.ite2 ?_ ?_ | with_reducible apply modRoute_same | with_reducible apply loseNode_same | with_reducible apply giveTags_same | with_reducible exact Sub.up (by with_reducible assumption) (by decide) | fail_if_no_progress (with_reducible apply Same.upd <;> try first | with_reducible exact ⟨rfl, rfl⟩ | with_reducible exact Or.inr (Sub.up (by with_reducible assumption) (by decide)) | with_reducible exact Or.inl rfl) | (intro _) | dsimp only | (with_reducible refine Same.ofEq (by with_reducible assumption) ?_) | split)

theorem peerEnable_same {c s0 s} {a0} (h : Same c s0 s) (hc : Sub 1280 c := by first | with_reducible assumption | exact Sub.up (by with_reducible assumption) (by decide)) : Same c s0 (peerEnable a0 s) := by
  unfold peerEnable
  repeat' (first | with_reducible assumption | with_reducible refine Same.ite ?_ ?_ | with_reducible refine Same.ite2 ?_ ?_ | with_reducible apply modPeerP_same | with_reducible apply when_same | with_reducible apply rshErr_same | with_reducible exact Sub.up (by with_reducible assumption) (by decide) | fail_if_no_progress (with_reducible apply Same.upd <;> try first | with_reducible exact ⟨rfl, rfl⟩ | with_reducible exact Or.inr (Sub.up (by with_reducible assumption) (by decide)) | with_reducible exact Or.inl rfl) | (intro _) | dsimp only | (with_reducible refine Same.ofEq (by with_reducible assumption) ?_) | split)

theorem peerDisable_same {c s0 s} {a0} (h : Same c s0 s) (hc : Sub 16179 c := by first | with_reducible assumption | exact Sub.up (by with_reducible assumption) (by decide)) : Same c s0 (peerDisable a0 s) := by
  unfold peerDisable
  repeat' (first | with_reducible assumption | with_reducible refine Same.ite ?_ ?_ | with_reducible refine Same.ite2 ?_ ?_ | with_reducible apply modPeerP_same | with_reducible apply peerDown_same | with_reducible exact Sub.up (by with_reducible assumption) (by decide) | fail_if_no_progress (with_reducible apply Same.upd <;> try first | with_reducible exact ⟨rfl, rfl⟩ | with_reducible exact Or.inr (Sub.up (by with_reducible assumption) (by decide)) | with_reducible exact Or.inl rfl) | (intro _) | dsimp only | (with_reducible refine Same.ofEq (by with_reducible assumption) ?_) | split)

theorem acdErr_same {c s0 s} {a0 a1} (h : Same c s0 s) (hc : Sub 1024 c := by first | with_reducible assumption | exact Sub.up (by with_reducible assumption) (by decide)) : Same c s0 (acdErr a0 a1 s) := by
  unfold acdErr
  repeat' (first | with_reducible assumption | with_reducible refine Same.ite ?_ ?_ | with_reducible refine Same.ite2 ?_ ?_ | with_reducible apply modAcd_same | with_reducible exact Sub.up (by with_reducible assumption) (by decide) | fail_if_no_progress (with_reducible apply Same.upd <;> try first | with_reducible exact ⟨rfl, rfl⟩ | with_reducible exact Or.inr (Sub.up (by with_reducible assumption) (by decide)) | with_reducible exact Or.inl rfl) | (intro _) | dsimp only | (with_reducible refine Same.ofEq (by with_reducible assumption) ?_) | split)

theorem trainFails_same {c s0 s} {a0} (h : Same c s0 s) (hc : Sub 1024 c := by first | with_reducible assumption | exact Sub.up (by with_reducible assumption) (by decide)) : Same c s0 (trainFails a0 s) := by
  unfold trainFails
  repeat' (first | with_reducible assumption | with_reducible refine Same.ite ?_ ?_ | with_reducible refine Same.ite2 ?_ ?_ | with_reducible apply modAcd_same | with_reducible apply acdErr_same | with_reducible exact Sub.up (by with_reducible assumption) (by decide) | fail_if_no_progress (with_reducible apply Same.upd <;> try first | with_reducible exact ⟨rfl, rfl⟩ | with_reducible exact Or.inr (Sub.up (by with_reducible assumption) (by decide)) | with_reducible exact Or.inl rfl) | (intro _) | dsimp only | (with_reducible refine Same.ofEq (by with_reducible assumption) ?_) | split)

theorem sendRanges_same {c s0 s} {a0} (h : Same c s0 s) (hc : Sub 1026 c := by first | with_reducible assumption | exact Sub.up (by with_reducible assumption) (by decide)) : Same c s0 (sendRanges a0 s) := by
  unfold sendRanges
  repeat' (first | with_reducible assumption | with_reducible refine Same.ite ?_ ?_ | with_reducible refine Same.ite2 ?_ ?_ | with_reducible apply forAll_same | with_reducible apply when_same | with_reducible apply sendRange_same | with_reducible exact Sub.up (by with_reducible assumption) (by decide) | fail_if_no_progress (with_reducible apply Same.upd <;> try first | with_reducible exact ⟨rfl, rfl⟩ | with_reducible exact Or.inr (Sub.up (by with_reducible assumption) (by decide)) | with_reducible exact Or.inl rfl) | (intro _) | dsimp only | (with_reducible refine Same.ofEq (by with_reducible assumption) ?_) | split)

theorem placeStore_same {c s0 s} {a0} (h : Same c s0 s) (hc : Sub 256 c := by first | with_reducible assumption | exact Sub.up (by with_reducible assumption) (by decide)) : Same c s0 (placeStore a0 s) := by
  unfold placeStore
  repeat' (first | with_reducible assumption | with_reducible refine Same.ite ?_ ?_ | with_reducible refine Same.ite2 ?_ ?_ | with_reducible exact Sub.up (by with_reducible assumption) (by decide) | fail_if_no_progress (with_reducible apply Same.upd <;> try first | with_reducible exact ⟨rfl, rfl⟩ | with_reducible exact Or.inr (Sub.up (by with_reducible assumption) (by decide)) | with_reducible exact Or.inl rfl) | (intro _) | dsimp only | (with_reducible refine Same.ofEq (by with_reducible assumption) ?_) | split)

theorem acdFails_same {c s0 s} {a0} (h : Same c s0 s) (hc : Sub 65527 c := by first | with_reducible assumption | exact Sub.up (by with_reducible assumption) (by decide)) : Same c s0 (acdFails a0 s) := by
  unfold acdFails
  repeat' (first | with_reducible assumption | with_reducible refine Same.ite ?_ ?_ | with_reducible refine Same.ite2 ?_ ?_ | with_reducible apply severeFault_same | with_reducible apply unitSafe_same | with_reducible exact Sub.up (by with_reducible assumption) (by decide) | fail_if_no_progress (with_reducible apply Same.upd <;> try first | with_reducible exact ⟨rfl, rfl⟩ | with_reducible exact Or.inr (Sub.up (by with_reducible assumption) (by decide)) | with_reducible exact Or.inl rfl) | (intro _) | dsimp only | (with_reducible refine Same.ofEq (by with_reducible assumption) ?_) | split)

theorem acdAnswer_same {c s0 s} {a0 a1 a2 a3} (h : Same c s0 s) (a3_ok : ∀ x0 t, Same c s0 t → Same c s0 (a3 x0 t)) (hc : Sub 1026 c := by first | with_reducible assumption | exact Sub.up (by with_reducible assumption) (by decide)) : Same c s0 (acdAnswer a0 a1 a2 a3 s) := by
  unfold acdAnswer
  repeat' (first | with_reducible assumption | with_reducible refine Same.ite ?_ ?_ | with_reducible refine Same.ite2 ?_ ?_ | with_reducible apply a3_ok | with_reducible apply dropTag_same | with_reducible exact Sub.up (by with_reducible assumption) (by decide) | fail_if_no_progress (with_reducible apply Same.upd <;> try first | with_reducible exact ⟨rfl, rfl⟩ | with_reducible exact Or.inr (Sub.up (by with_reducible assumption) (by decide)) | with_reducible exact Or.inl rfl) | (intro _) | dsimp only | (with_reducible refine Same.ofEq (by with_reducible assumption) ?_) | split)

theorem modLaunch_same {c s0 s} {a0 a1 a2} (h : Same c s0 s) (hc : Sub 1024 c := by first | with_reducible assumption | exact Sub.up (by with_reducible assumption) (by decide)) : Same c s0 (modLaunch a0 a1 a2 s) := by
  unfold modLaunch
  repeat' (first | with_reducible assumption | with_reducible refine Same.ite ?_ ?_ | with_reducible refine Same.ite2 ?_ ?_ | with_reducible apply modAcd_same | with_reducible exact Sub.up (by with_reducible assumption) (by decide) | fail_if_no_progress (with_reducible apply Same.upd <;> try first | with_reducible exact ⟨rfl, rfl⟩ | with_reducible exact Or.inr (Sub.up (by with_reducible assumption) (by decide)) | with_reducible exact Or.inl rfl) | (intro _) | dsimp only | (with_reducible refine Same.ofEq (by with_reducible assumption) ?_) | split)

theorem pushLaunch_same {c s0 s} {a0 a1} (h : Same c s0 s) (hc : Sub 1026 c := by first | with_reducible assumption | exact Sub.up (by with_reducible assumption) (by decide)) : Same c s0 (pushLaunch a0 a1 s) := by
  unfold pushLaunch
  repeat' (first | with_reducible assumption | with_reducible refine Same.ite ?_ ?_ | with_reducible refine Same.ite2 ?_ ?_ | with_reducible apply sendLaunch_same | with_reducible exact Sub.up (by with_reducible assumption) (by decide) | fail_if_no_progress (with_reducible apply Same.upd <;> try first | with_reducible exact ⟨rfl, rfl⟩ | with_reducible exact Or.inr (Sub.up (by with_reducible assumption) (by decide)) | with_reducible exact Or.inl rfl) | (intro _) | dsimp only | (with_reducible refine Same.ofEq (by with_reducible assumption) ?_) | split)

theorem acdEnable_same {c s0 s} {a0} (h : Same c s0 s) (hc : Sub 1280 c := by first | with_reducible assumption | exact Sub.up (by with_reducible assumption) (by decide)) : Same c s0 (acdEnable a0 s) := by
  unfold acdEnable
  repeat' (first | with_reducible assumption | with_reducible refine Same.ite ?_ ?_ | with_reducible refine Same.ite2 ?_ ?_ | with_reducible apply modAcd_same | with_reducible exact Sub.up (by with_reducible assumption) (by decide) | fail_if_no_progress (with_reducible apply Same.upd <;> try first | with_reducible exact ⟨rfl, rfl⟩ | with_reducible exact Or.inr (Sub.up (by with_reducible assumption) (by decide)) | with_reducible exact Or.inl rfl) | (intro _) | dsimp only | (with_reducible refine Same.ofEq (by with_reducible assumption) ?_) | split)

theorem acdDisable_same {c s0 s} {a0} (h : Same c s0 s) (hc : Sub 65395 c := by first | with_reducible assumption | exact Sub.up (by with_reducible assumption) (by decide)) : Same c s0 (acdDisable a0 s) := by
  unfold acdDisable
  repeat' (first | with_reducible assumption | with_reducible refine Same.ite ?_ ?_ | with_reducible refine Same.ite2 ?_ ?_ | with_reducible apply when_same | with_reducible apply acdDrop_same | with_reducible apply dropStore_same | with_reducible apply storeGone_same | with_reducible apply modAcd_same | with_reducible exact Sub.up (by with_reducible assumption) (by decide) | fail_if_no_progress (with_reducible apply Same.upd <;> try first | with_reducible exact ⟨rfl, rfl⟩ | with_reducible exact Or.inr (Sub.up (by with_reducible assumption) (by decide)) | with_reducible exact Or.inl rfl) | (intro _) | dsimp only | (with_reducible refine Same.ofEq (by with_reducible assumption) ?_) | split)

theorem acdRetrain_same {c s0 s} {a0} (h : Same c s0 s) (hc : Sub 48947 c := by first | with_reducible assumption | exact Sub.up (by with_reducible assumption) (by decide)) : Same c s0 (acdRetrain a0 s) := by
  unfold acdRetrain
  repeat' (first | with_reducible assumption | with_reducible refine Same.ite ?_ ?_ | with_reducible refine Same.ite2 ?_ ?_ | with_reducible apply when_same | with_reducible apply acdDrop_same | with_reducible apply modAcd_same | with_reducible exact Sub.up (by with_reducible assumption) (by decide) | fail_if_no_progress (with_reducible apply Same.upd <;> try first | with_reducible exact ⟨rfl, rfl⟩ | with_reducible exact Or.inr (Sub.up (by with_reducible assumption) (by decide)) | with_reducible exact Or.inl rfl) | (intro _) | dsimp only | (with_reducible refine Same.ofEq (by with_reducible assumption) ?_) | split)

theorem affDrain_same {c s0 s} {a0} (h : Same c s0 s) (hc : Sub 35859 c := by first | with_reducible assumption | exact Sub.up (by with_reducible assumption) (by decide)) : Same c s0 (affDrain a0 s) := by
  induction a0 generalizing s with
  | nil =>
    unfold affDrain
    repeat' (first | with_reducible assumption | fail_if_no_progress (with_reducible apply Same.upd <;> try first | with_reducible exact ⟨rfl, rfl⟩ | with_reducible exact Or.inr (Sub.up (by with_reducible assumption) (by decide)) | with_reducible exact Or.inl rfl))
  | cons b l ih =>
    unfold affDrain
    repeat' (first | with_reducible assumption | with_reducible exact Sub.up (by with_reducible assumption) (by decide) | with_reducible apply Same.ite | with_reducible apply ih | with_reducible apply affWrite_same | with_reducible apply askHosts_same | fail_if_no_progress (with_reducible apply Same.upd <;> try first | with_reducible exact ⟨rfl, rfl⟩ | with_reducible exact Or.inr (Sub.up (by with_reducible assumption) (by decide)) | with_reducible exact Or.inl rfl) | (intro _))

theorem drainStores_same {c s0 s} (h : Same c s0 s) (hc : Sub 35859 c := by first | with_reducible assumption | exact Sub.up (by with_reducible assumption) (by decide)) : Same c s0 (drainStores s) := by
  unfold drainStores
  repeat' (first | with_reducible assumption | with_reducible refine Same.ite ?_ ?_ | with_reducible refine Same.ite2 ?_ ?_ | with_reducible apply affDrain_same | with_reducible exact Sub.up (by with_reducible assumption) (by decide) | fail_if_no_progress (with_reducible apply Same.upd <;> try first | with_reducible exact ⟨rfl, rfl⟩ | with_reducible exact Or.inr (Sub.up (by with_reducible assumption) (by decide)) | with_reducible exact Or.inl rfl) | (intro _) | dsimp only | (with_reducible refine Same.ofEq (by with_reducible assumption) ?_) | split)

theorem ntLeave_same {c s0 s} {a0} (h : Same c s0 s) (hc : Sub 35859 c := by first | with_reducible assumption | exact Sub.up (by with_reducible assumption) (by decide)) : Same c s0 (ntLeave a0 s) := by
  unfold ntLeave
  repeat' (first | with_reducible assumption | with_reducible refine Same.ite ?_ ?_ | with_reducible refine Same.ite2 ?_ ?_ | with_reducible apply askHosts_same | with_reducible apply forAll_same | with_reducible apply affWrite_same | with_reducible exact Sub.up (by with_reducible assumption) (by decide) | fail_if_no_progress (with_reducible apply Same.upd <;> try first | with_reducible exact ⟨rfl, rfl⟩ | with_reducible exact Or.inr (Sub.up (by with_reducible assumption) (by decide)) | with_reducible exact Or.inl rfl) | (intro _) | dsimp only | (with_reducible refine Same.ofEq (by with_reducible assumption) ?_) | split)

theorem ntFlush_same {c s0 s} {a0 a1} (h : Same c s0 s) (hc : Sub 35859 c := by first | with_reducible assumption | exact Sub.up (by with_reducible assumption) (by decide)) : Same c s0 (ntFlush a0 a1 s) := by
  unfold ntFlush
  repeat' (first | with_reducible assumption | with_reducible refine Same.ite ?_ ?_ | with_reducible refine Same.ite2 ?_ ?_ | with_reducible apply forAll_same | with_reducible apply ntLeave_same | with_reducible exact Sub.up (by with_reducible assumption) (by decide) | fail_if_no_progress (with_reducible apply Same.upd <;> try first | with_reducible exact ⟨rfl, rfl⟩ | with_reducible exact Or.inr (Sub.up (by with_reducible assumption) (by decide)) | with_reducible exact Or.inl rfl) | (intro _) | dsimp only | (with_reducible refine Same.ofEq (by with_reducible assumption) ?_) | split)

theorem ntRoom_same {c s0 s} {a0} (h : Same c s0 s) (hc : Sub 35859 c := by first | with_reducible assumption | exact Sub.up (by with_reducible assumption) (by decide)) : Same c s0 (ntRoom a0 s) := by
  unfold ntRoom
  repeat' (first | with_reducible assumption | with_reducible refine Same.ite ?_ ?_ | with_reducible refine Same.ite2 ?_ ?_ | with_reducible apply forAll_same | with_reducible apply ntLeave_same | with_reducible exact Sub.up (by with_reducible assumption) (by decide) | fail_if_no_progress (with_reducible apply Same.upd <;> try first | with_reducible exact ⟨rfl, rfl⟩ | with_reducible exact Or.inr (Sub.up (by with_reducible assumption) (by decide)) | with_reducible exact Or.inl rfl) | (intro _) | dsimp only | (with_reducible refine Same.ofEq (by with_reducible assumption) ?_) | split)

theorem ntByte_same {c s0 s} {a0 a1} (h : Same c s0 s) (hc : Sub 35859 c := by first | with_reducible assumption | exact Sub.up (by with_reducible assumption) (by decide)) : Same c s0 (ntByte a0 a1 s) := by
  unfold ntByte
  repeat' (first | with_reducible assumption | with_reducible refine Same.ite ?_ ?_ | with_reducible refine Same.ite2 ?_ ?_ | with_reducible apply ntLeave_same | with_reducible exact Sub.up (by with_reducible assumption) (by decide) | fail_if_no_progress (with_reducible apply Same.upd <;> try first | with_reducible exact ⟨rfl, rfl⟩ | with_reducible exact Or.inr (Sub.up (by with_reducible assumption) (by decide)) | with_reducible exact Or.inl rfl) | (intro _) | dsimp only | (with_reducible refine Same.ofEq (by with_reducible assumption) ?_) | split)

theorem ntBytes_same {c s0 s} {a0 a1} (h : Same c s0 s) (hc : Sub 35859 c := by first | with_reducible assumption | exact Sub.up (by with_reducible assumption) (by decide)) : Same c s0 (ntBytes a0 a1 s) := by
  induction a1 generalizing s a0 with
  | nil => exact h
  | cons r l ih => exact ih (ntByte_same h)

theorem affInval_same {c s0 s} {a0 a1} (h : Same c s0 s) (hc : Sub 32768 c := by first | with_reducible assumption | exact Sub.up (by with_reducible assumption) (by decide)) : Same c s0 (affInval a0 a1 s) := by
  unfold affInval
  repeat' (first | with_reducible assumption | with_reducible refine Same.ite ?_ ?_ | with_reducible refine Same.ite2 ?_ ?_ | with_reducible exact Sub.up (by with_reducible assumption) (by decide) | fail_if_no_progress (with_reducible apply Same.upd <;> try first | with_reducible exact ⟨rfl, rfl⟩ | with_reducible exact Or.inr (Sub.up (by with_reducible assumption) (by decide)) | with_reducible exact Or.inl rfl) | (intro _) | dsimp only | (with_reducible refine Same.ofEq (by with_reducible assumption) ?_) | split)

theorem drainAll_same {c s0 s} (h : Same c s0 s) (hc : Sub 35859 c := by first | with_reducible assumption | exact Sub.up (by with_reducible assumption) (by decide)) : Same c s0 (drainAll s) := by
  unfold drainAll
  repeat' (first | with_reducible assumption | with_reducible refine Same.ite ?_ ?_ | with_reducible refine Same.ite2 ?_ ?_ | with_reducible apply forAll_same | with_reducible apply ntLeave_same | with_reducible apply drainStores_same | with_reducible exact Sub.up (by with_reducible assumption) (by decide) | fail_if_no_progress (with_reducible apply Same.upd <;> try first | with_reducible exact ⟨rfl, rfl⟩ | with_reducible exact Or.inr (Sub.up (by with_reducible assumption) (by decide)) | with_reducible exact Or.inl rfl) | (intro _) | dsimp only | (with_reducible refine Same.ofEq (by with_reducible assumption) ?_) | split)

theorem coreGo_same {c s0 s} (h : Same c s0 s) (hc : Sub 35859 c := by first | with_reducible assumption | exact Sub.up (by with_reducible assumption) (by decide)) : Same c s0 (coreGo s) := by
  unfold coreGo
  repeat' (first | with_reducible assumption | with_reducible refine Same.ite ?_ ?_ | with_reducible refine Same.ite2 ?_ ?_ | with_reducible apply forAll_same | with_reducible apply ntLeave_same | with_reducible apply drainAll_same | with_reducible exact Sub.up (by with_reducible assumption) (by decide) | fail_if_no_progress (with_reducible apply Same.upd <;> try first | with_reducible exact ⟨rfl, rfl⟩ | with_reducible exact Or.inr (Sub.up (by with_reducible assumption) (by decide)) | with_reducible exact Or.inl rfl) | (intro _) | dsimp only | (with_reducible refine Same.ofEq (by with_reducible assumption) ?_) | split)

theorem affPatch_same {c s0 s} {a0 a1} (h : Same c s0 s) (hc : Sub 32768 c := by first | with_reducible assumption | exact Sub.up (by with_reducible assumption) (by decide)) : Same c s0 (affPatch a0 a1 s) := by
  unfold affPatch
  repeat' (first | with_reducible assumption | with_reducible refine Same.ite ?_ ?_ | with_reducible refine Same.ite2 ?_ ?_ | with_reducible exact Sub.up (by with_reducible assumption) (by decide) | fail_if_no_progress (with_reducible apply Same.upd <;> try first | with_reducible exact ⟨rfl, rfl⟩ | with_reducible exact Or.inr (Sub.up (by with_reducible assumption) (by decide)) | with_reducible exact Or.inl rfl) | (intro _) | dsimp only | (with_reducible refine Same.ofEq (by with_reducible assumption) ?_) | split)

theorem affFill_same {c s0 s} {a0} (h : Same c s0 s) (hc : Sub 32768 c := by first | with_reducible assumption | exact Sub.up (by with_reducible assumption) (by decide)) : Same c s0 (affFill a0 s) := by
  unfold affFill
  repeat' (first | with_reducible assumption | with_reducible refine Same.ite ?_ ?_ | with_reducible refine Same.ite2 ?_ ?_ | with_reducible exact Sub.up (by with_reducible assumption) (by decide) | fail_if_no_progress (with_reducible apply Same.upd <;> try first | with_reducible exact ⟨rfl, rfl⟩ | with_reducible exact Or.inr (Sub.up (by with_reducible assumption) (by decide)) | with_reducible exact Or.inl rfl) | (intro _) | dsimp only | (with_reducible refine Same.ofEq (by with_reducible assumption) ?_) | split)

theorem affRead_same {c s0 s} {a0 a1} (h : Same c s0 s) (hc : Sub 32768 c := by first | with_reducible assumption | exact Sub.up (by with_reducible assumption) (by decide)) : Same c s0 (affRead a0 a1 s) := by
  unfold affRead
  repeat' (first | with_reducible assumption | with_reducible refine Same.ite ?_ ?_ | with_reducible refine Same.ite2 ?_ ?_ | with_reducible apply takeFree_same | with_reducible exact Sub.up (by with_reducible assumption) (by decide) | fail_if_no_progress (with_reducible apply Same.upd <;> try first | with_reducible exact ⟨rfl, rfl⟩ | with_reducible exact Or.inr (Sub.up (by with_reducible assumption) (by decide)) | with_reducible exact Or.inl rfl) | (intro _) | dsimp only | (with_reducible refine Same.ofEq (by with_reducible assumption) ?_) | split)

theorem fwInval_same {c s0 s} {a0 a1} (h : Same c s0 s) (hc : Sub 32768 c := by first | with_reducible assumption | exact Sub.up (by with_reducible assumption) (by decide)) : Same c s0 (fwInval a0 a1 s) := by
  unfold fwInval
  repeat' (first | with_reducible assumption | with_reducible refine Same.ite ?_ ?_ | with_reducible refine Same.ite2 ?_ ?_ | with_reducible apply takeFree_same | with_reducible apply when_same | with_reducible apply affInval_same | with_reducible exact Sub.up (by with_reducible assumption) (by decide) | fail_if_no_progress (with_reducible apply Same.upd <;> try first | with_reducible exact ⟨rfl, rfl⟩ | with_reducible exact Or.inr (Sub.up (by with_reducible assumption) (by decide)) | with_reducible exact Or.inl rfl) | (intro _) | dsimp only | (with_reducible refine Same.ofEq (by with_reducible assumption) ?_) | split)

theorem affReserve_same {c s0 s} {a0 a1} (h : Same c s0 s) (hc : Sub 1042 c := by first | with_reducible assumption | exact Sub.up (by with_reducible assumption) (by decide)) : Same c s0 (affReserve a0 a1 s) := by
  unfold affReserve
  repeat' (first | with_reducible assumption | with_reducible refine Same.ite ?_ ?_ | with_reducible refine Same.ite2 ?_ ?_ | with_reducible apply placeResv_same | with_reducible apply modAcd_same | with_reducible apply sendAcd_same | with_reducible exact Sub.up (by with_reducible assumption) (by decide) | fail_if_no_progress (with_reducible apply Same.upd <;> try first | with_reducible exact ⟨rfl, rfl⟩ | with_reducible exact Or.inr (Sub.up (by with_reducible assumption) (by decide)) | with_reducible exact Or.inl rfl) | (intro _) | dsimp only | (with_reducible refine Same.ofEq (by with_reducible assumption) ?_) | split)

theorem enableHoop_same {c s0 s} {a0} (h : Same c s0 s) (hc : Sub 7731 c := by first | with_reducible assumption | exact Sub.up (by with_reducible assumption) (by decide)) : Same c s0 (enableHoop a0 s) := by
  unfold enableHoop
  repeat' (first | with_reducible assumption | with_reducible refine Same.ite ?_ ?_ | with_reducible refine Same.ite2 ?_ ?_ | with_reducible apply modHoop_same | with_reducible apply askRing_same | with_reducible exact Sub.up (by with_reducible assumption) (by decide) | fail_if_no_progress (with_reducible apply Same.upd <;> try first | with_reducible exact ⟨rfl, rfl⟩ | with_reducible exact Or.inr (Sub.up (by with_reducible assumption) (by decide)) | with_reducible exact Or.inl rfl) | (intro _) | dsimp only | (with_reducible refine Same.ofEq (by with_reducible assumption) ?_) | split)

theorem adminStart_same {c s0 s} {a0} (h : Same c s0 s) (hc : Sub 16 c := by first | with_reducible assumption | exact Sub.up (by with_reducible assumption) (by decide)) : Same c s0 (adminStart a0 s) := by
  unfold adminStart
  repeat' (first | with_reducible assumption | with_reducible refine Same.ite ?_ ?_ | with_reducible refine Same.ite2 ?_ ?_ | with_reducible apply modAdmin_same | with_reducible exact Sub.up (by with_reducible assumption) (by decide) | fail_if_no_progress (with_reducible apply Same.upd <;> try first | with_reducible exact ⟨rfl, rfl⟩ | with_reducible exact Or.inr (Sub.up (by with_reducible assumption) (by decide)) | with_reducible exact Or.inl rfl) | (intro _) | dsimp only | (with_reducible refine Same.ofEq (by with_reducible assumption) ?_) | split)

theorem adminOff_same {c s0 s} {a0} (h : Same c s0 s) (hc : Sub 16 c := by first | with_reducible assumption | exact Sub.up (by with_reducible assumption) (by decide)) : Same c s0 (adminOff a0 s) := by
  unfold adminOff
  repeat' (first | with_reducible assumption | with_reducible refine Same.ite ?_ ?_ | with_reducible refine Same.ite2 ?_ ?_ | with_reducible apply modAdmin_same | with_reducible exact Sub.up (by with_reducible assumption) (by decide) | fail_if_no_progress (with_reducible apply Same.upd <;> try first | with_reducible exact ⟨rfl, rfl⟩ | with_reducible exact Or.inr (Sub.up (by with_reducible assumption) (by decide)) | with_reducible exact Or.inl rfl) | (intro _) | dsimp only | (with_reducible refine Same.ofEq (by with_reducible assumption) ?_) | split)

theorem bankWrite_same {c s0 s} {a0 a1 a2 a3} (h : Same c s0 s) (a3_ok : ∀ x0 t, Same c s0 t → Same c s0 (a3 x0 t)) (hc : Sub 2 c := by first | with_reducible assumption | exact Sub.up (by with_reducible assumption) (by decide)) : Same c s0 (bankWrite a0 a1 a2 a3 s) := by
  unfold bankWrite
  repeat' (first | with_reducible assumption | with_reducible refine Same.ite ?_ ?_ | with_reducible refine Same.ite2 ?_ ?_ | with_reducible apply a3_ok | with_reducible apply inD0_same | with_reducible apply forAll_same | with_reducible exact Sub.up (by with_reducible assumption) (by decide) | fail_if_no_progress (with_reducible apply Same.upd <;> try first | with_reducible exact ⟨rfl, rfl⟩ | with_reducible exact Or.inr (Sub.up (by with_reducible assumption) (by decide)) | with_reducible exact Or.inl rfl) | (intro _) | dsimp only | (with_reducible refine Same.ofEq (by with_reducible assumption) ?_) | split)

theorem maskSrc_same {c s0 s} {a0} (h : Same c s0 s) (hc : Sub 32 c := by first | with_reducible assumption | exact Sub.up (by with_reducible assumption) (by decide)) : Same c s0 (maskSrc a0 s) := by
  unfold maskSrc
  repeat' (first | with_reducible assumption | with_reducible refine Same.ite ?_ ?_ | with_reducible refine Same.ite2 ?_ ?_ | with_reducible apply modSrc_same | with_reducible exact Sub.up (by with_reducible assumption) (by decide) | fail_if_no_progress (with_reducible apply Same.upd <;> try first | with_reducible exact ⟨rfl, rfl⟩ | with_reducible exact Or.inr (Sub.up (by with_reducible assumption) (by decide)) | with_reducible exact Or.inl rfl) | (intro _) | dsimp only | (with_reducible refine Same.ofEq (by with_reducible assumption) ?_) | split)

theorem unmaskSrc_same {c s0 s} {a0} (h : Same c s0 s) (hc : Sub 3635 c := by first | with_reducible assumption | exact Sub.up (by with_reducible assumption) (by decide)) : Same c s0 (unmaskSrc a0 s) := by
  unfold unmaskSrc
  repeat' (first | with_reducible assumption | with_reducible refine Same.ite ?_ ?_ | with_reducible refine Same.ite2 ?_ ?_ | with_reducible apply modSrc_same | with_reducible apply deliverPending_same | with_reducible exact Sub.up (by with_reducible assumption) (by decide) | fail_if_no_progress (with_reducible apply Same.upd <;> try first | with_reducible exact ⟨rfl, rfl⟩ | with_reducible exact Or.inr (Sub.up (by with_reducible assumption) (by decide)) | with_reducible exact Or.inl rfl) | (intro _) | dsimp only | (with_reducible refine Same.ofEq (by with_reducible assumption) ?_) | split)

theorem unpendSrc_same {c s0 s} {a0} (h : Same c s0 s) (hc : Sub 32 c := by first | with_reducible assumption | exact Sub.up (by with_reducible assumption) (by decide)) : Same c s0 (unpendSrc a0 s) := by
  unfold unpendSrc
  repeat' (first | with_reducible assumption | with_reducible refine Same.ite ?_ ?_ | with_reducible refine Same.ite2 ?_ ?_ | with_reducible apply modSrc_same | with_reducible exact Sub.up (by with_reducible assumption) (by decide) | fail_if_no_progress (with_reducible apply Same.upd <;> try first | with_reducible exact ⟨rfl, rfl⟩ | with_reducible exact Or.inr (Sub.up (by with_reducible assumption) (by decide)) | with_reducible exact Or.inl rfl) | (intro _) | dsimp only | (with_reducible refine Same.ofEq (by with_reducible assumption) ?_) | split)

theorem releaseMsix_same {c s0 s} {a0} (h : Same c s0 s) (hc : Sub 34 c := by first | with_reducible assumption | exact Sub.up (by with_reducible assumption) (by decide)) : Same c s0 (releaseMsix a0 s) := by
  unfold releaseMsix
  repeat' (first | with_reducible assumption | with_reducible refine Same.ite ?_ ?_ | with_reducible refine Same.ite2 ?_ ?_ | with_reducible apply forAll_same | with_reducible apply modFnS_same | with_reducible apply emit_same | with_reducible exact Sub.up (by with_reducible assumption) (by decide) | fail_if_no_progress (with_reducible apply Same.upd <;> try first | with_reducible exact ⟨rfl, rfl⟩ | with_reducible exact Or.inr (Sub.up (by with_reducible assumption) (by decide)) | with_reducible exact Or.inl rfl) | (intro _) | dsimp only | (with_reducible refine Same.ofEq (by with_reducible assumption) ?_) | split)

theorem claimVector_same {c s0 s} {a0 a1} (h : Same c s0 s) (hc : Sub 34 c := by first | with_reducible assumption | exact Sub.up (by with_reducible assumption) (by decide)) : Same c s0 (claimVector a0 a1 s) := by
  unfold claimVector
  repeat' (first | with_reducible assumption | with_reducible refine Same.ite ?_ ?_ | with_reducible refine Same.ite2 ?_ ?_ | with_reducible apply emit_same | with_reducible apply unclaim_same | with_reducible apply modEvq_same | with_reducible exact Sub.up (by with_reducible assumption) (by decide) | fail_if_no_progress (with_reducible apply Same.upd <;> try first | with_reducible exact ⟨rfl, rfl⟩ | with_reducible exact Or.inr (Sub.up (by with_reducible assumption) (by decide)) | with_reducible exact Or.inl rfl) | (intro _) | dsimp only | (with_reducible refine Same.ofEq (by with_reducible assumption) ?_) | split)

theorem doneWrite_same {c s0 s} {a0 a1 a2} (h : Same c s0 s) (hc : Sub 3635 c := by first | with_reducible assumption | exact Sub.up (by with_reducible assumption) (by decide)) : Same c s0 (doneWrite a0 a1 a2 s) := by
  unfold doneWrite
  repeat' (first | with_reducible assumption | with_reducible refine Same.ite ?_ ?_ | with_reducible refine Same.ite2 ?_ ?_ | with_reducible apply modFnS_same | with_reducible apply completeClaim_same | with_reducible exact Sub.up (by with_reducible assumption) (by decide) | fail_if_no_progress (with_reducible apply Same.upd <;> try first | with_reducible exact ⟨rfl, rfl⟩ | with_reducible exact Or.inr (Sub.up (by with_reducible assumption) (by decide)) | with_reducible exact Or.inl rfl) | (intro _) | dsimp only | (with_reducible refine Same.ofEq (by with_reducible assumption) ?_) | split)

theorem routeOf_same {c s0 s} {a0 a1} (h : Same c s0 s) (hc : Sub 34 c := by first | with_reducible assumption | exact Sub.up (by with_reducible assumption) (by decide)) : Same c s0 (routeOf a0 a1 s) := by
  unfold routeOf
  repeat' (first | with_reducible assumption | with_reducible refine Same.ite ?_ ?_ | with_reducible refine Same.ite2 ?_ ?_ | with_reducible apply modEvq_same | with_reducible apply unclaim_same | with_reducible apply checkSignal_same | with_reducible exact Sub.up (by with_reducible assumption) (by decide) | fail_if_no_progress (with_reducible apply Same.upd <;> try first | with_reducible exact ⟨rfl, rfl⟩ | with_reducible exact Or.inr (Sub.up (by with_reducible assumption) (by decide)) | with_reducible exact Or.inl rfl) | (intro _) | dsimp only | (with_reducible refine Same.ofEq (by with_reducible assumption) ?_) | split)

theorem fastSlotWrite_same {c s0 s} {a0 a1 a2} (h : Same c s0 s) (hc : Sub 32 c := by first | with_reducible assumption | exact Sub.up (by with_reducible assumption) (by decide)) : Same c s0 (fastSlotWrite a0 a1 a2 s) := by
  unfold fastSlotWrite
  repeat' (first | with_reducible assumption | with_reducible refine Same.ite ?_ ?_ | with_reducible refine Same.ite2 ?_ ?_ | with_reducible apply modFast_same | with_reducible apply modFnS_same | with_reducible exact Sub.up (by with_reducible assumption) (by decide) | fail_if_no_progress (with_reducible apply Same.upd <;> try first | with_reducible exact ⟨rfl, rfl⟩ | with_reducible exact Or.inr (Sub.up (by with_reducible assumption) (by decide)) | with_reducible exact Or.inl rfl) | (intro _) | dsimp only | (with_reducible refine Same.ofEq (by with_reducible assumption) ?_) | split)

theorem switchDone_same {c s0 s} {a0 a1} (h : Same c s0 s) (hc : Sub 1024 c := by first | with_reducible assumption | exact Sub.up (by with_reducible assumption) (by decide)) : Same c s0 (switchDone a0 a1 s) := by
  unfold switchDone
  repeat' (first | with_reducible assumption | with_reducible refine Same.ite ?_ ?_ | with_reducible refine Same.ite2 ?_ ?_ | with_reducible apply modFibre_same | with_reducible apply rshErr_same | with_reducible apply modHc_same | with_reducible exact Sub.up (by with_reducible assumption) (by decide) | fail_if_no_progress (with_reducible apply Same.upd <;> try first | with_reducible exact ⟨rfl, rfl⟩ | with_reducible exact Or.inr (Sub.up (by with_reducible assumption) (by decide)) | with_reducible exact Or.inl rfl) | (intro _) | dsimp only | (with_reducible refine Same.ofEq (by with_reducible assumption) ?_) | split)

theorem buDown_same {c s0 s} (h : Same c s0 s) (hc : Sub 16179 c := by first | with_reducible assumption | exact Sub.up (by with_reducible assumption) (by decide)) : Same c s0 (buDown s) := by
  unfold buDown
  repeat' (first | with_reducible assumption | with_reducible refine Same.ite ?_ ?_ | with_reducible refine Same.ite2 ?_ ?_ | with_reducible apply failReqs_same | with_reducible exact Sub.up (by with_reducible assumption) (by decide) | fail_if_no_progress (with_reducible apply Same.upd <;> try first | with_reducible exact ⟨rfl, rfl⟩ | with_reducible exact Or.inr (Sub.up (by with_reducible assumption) (by decide)) | with_reducible exact Or.inl rfl) | (intro _) | dsimp only | (with_reducible refine Same.ofEq (by with_reducible assumption) ?_) | split)

theorem failedTest_same {c s0 s} {a0} (h : Same c s0 s) (hc : Sub 3955 c := by first | with_reducible assumption | exact Sub.up (by with_reducible assumption) (by decide)) : Same c s0 (failedTest a0 s) := by
  unfold failedTest
  repeat' (first | with_reducible assumption | with_reducible refine Same.ite ?_ ?_ | with_reducible refine Same.ite2 ?_ ?_ | with_reducible apply modRsrc_same | with_reducible apply when_same | with_reducible apply logSevere_same | with_reducible apply sendMsix_same | with_reducible apply summaryInput_same | with_reducible exact Sub.up (by with_reducible assumption) (by decide) | fail_if_no_progress (with_reducible apply Same.upd <;> try first | with_reducible exact ⟨rfl, rfl⟩ | with_reducible exact Or.inr (Sub.up (by with_reducible assumption) (by decide)) | with_reducible exact Or.inl rfl) | (intro _) | dsimp only | (with_reducible refine Same.ofEq (by with_reducible assumption) ?_) | split)

theorem conditionOn_same {c s0 s} {a0} (h : Same c s0 s) (hc : Sub 65527 c := by first | with_reducible assumption | exact Sub.up (by with_reducible assumption) (by decide)) : Same c s0 (conditionOn a0 s) := by
  unfold conditionOn
  repeat' (first | with_reducible assumption | with_reducible refine Same.ite ?_ ?_ | with_reducible refine Same.ite2 ?_ ?_ | with_reducible apply modRsrc_same | with_reducible apply severeFault_same | with_reducible exact Sub.up (by with_reducible assumption) (by decide) | fail_if_no_progress (with_reducible apply Same.upd <;> try first | with_reducible exact ⟨rfl, rfl⟩ | with_reducible exact Or.inr (Sub.up (by with_reducible assumption) (by decide)) | with_reducible exact Or.inl rfl) | (intro _) | dsimp only | (with_reducible refine Same.ofEq (by with_reducible assumption) ?_) | split)

theorem conditionOff_same {c s0 s} {a0} (h : Same c s0 s) (hc : Sub 64 c := by first | with_reducible assumption | exact Sub.up (by with_reducible assumption) (by decide)) : Same c s0 (conditionOff a0 s) := by
  unfold conditionOff
  repeat' (first | with_reducible assumption | with_reducible refine Same.ite ?_ ?_ | with_reducible refine Same.ite2 ?_ ?_ | with_reducible apply modRsrc_same | with_reducible exact Sub.up (by with_reducible assumption) (by decide) | fail_if_no_progress (with_reducible apply Same.upd <;> try first | with_reducible exact ⟨rfl, rfl⟩ | with_reducible exact Or.inr (Sub.up (by with_reducible assumption) (by decide)) | with_reducible exact Or.inl rfl) | (intro _) | dsimp only | (with_reducible refine Same.ofEq (by with_reducible assumption) ?_) | split)

theorem coldDomain_same {c s0 s} (h : Same c s0 s) (hc : Sub 65535 c := by first | with_reducible assumption | exact Sub.up (by with_reducible assumption) (by decide)) : Same c s0 (coldDomain s) := by
  refine ⟨h.1, fun hq => filter_wf (h.2.1 hq) _, ?_⟩
  refine ⟨?_, ?_, ?_, ?_, ?_, ?_, ?_, ?_, ?_, ?_, ?_, ?_, ?_, ?_, ?_, ?_⟩ <;> intro b
  all_goals exact absurd (b.symm.trans (Sub.bit hc _ (by decide))) (by decide)

theorem startPorts_same {c s0 s} {a0} (h : Same c s0 s) (hc : Sub 1024 c := by first | with_reducible assumption | exact Sub.up (by with_reducible assumption) (by decide)) : Same c s0 (startPorts a0 s) := by
  unfold startPorts
  repeat' (first | with_reducible assumption | with_reducible refine Same.ite ?_ ?_ | with_reducible refine Same.ite2 ?_ ?_ | with_reducible exact Sub.up (by with_reducible assumption) (by decide) | fail_if_no_progress (with_reducible apply Same.upd <;> try first | with_reducible exact ⟨rfl, rfl⟩ | with_reducible exact Or.inr (Sub.up (by with_reducible assumption) (by decide)) | with_reducible exact Or.inl rfl) | (intro _) | dsimp only | (with_reducible refine Same.ofEq (by with_reducible assumption) ?_) | split)

theorem persistConditions_same {c s0 s} (h : Same c s0 s) (hc : Sub 65527 c := by first | with_reducible assumption | exact Sub.up (by with_reducible assumption) (by decide)) : Same c s0 (persistConditions s) := by
  unfold persistConditions
  repeat' (first | with_reducible assumption | with_reducible refine Same.ite ?_ ?_ | with_reducible refine Same.ite2 ?_ ?_ | with_reducible apply when_same | with_reducible apply conditionOn_same | with_reducible apply forAll_same | with_reducible exact Sub.up (by with_reducible assumption) (by decide) | fail_if_no_progress (with_reducible apply Same.upd <;> try first | with_reducible exact ⟨rfl, rfl⟩ | with_reducible exact Or.inr (Sub.up (by with_reducible assumption) (by decide)) | with_reducible exact Or.inl rfl) | (intro _) | dsimp only | (with_reducible refine Same.ofEq (by with_reducible assumption) ?_) | split)

theorem startUp_same {c s0 s} (h : Same c s0 s) (hc : Sub 65527 c := by first | with_reducible assumption | exact Sub.up (by with_reducible assumption) (by decide)) : Same c s0 (startUp s) := by
  unfold startUp
  repeat' (first | with_reducible assumption | with_reducible refine Same.ite ?_ ?_ | with_reducible refine Same.ite2 ?_ ?_ | with_reducible apply startPorts_same | with_reducible apply persistConditions_same | with_reducible apply setLsrEn_same | with_reducible exact Sub.up (by with_reducible assumption) (by decide) | fail_if_no_progress (with_reducible apply Same.upd <;> try first | with_reducible exact ⟨rfl, rfl⟩ | with_reducible exact Or.inr (Sub.up (by with_reducible assumption) (by decide)) | with_reducible exact Or.inl rfl) | (intro _) | dsimp only | (with_reducible refine Same.ofEq (by with_reducible assumption) ?_) | split)

theorem restRequest_same {c s0 s} {a0} (h : Same c s0 s) (hc : Sub 4 c := by first | with_reducible assumption | exact Sub.up (by with_reducible assumption) (by decide)) : Same c s0 (restRequest a0 s) := by
  unfold restRequest
  repeat' (first | with_reducible assumption | with_reducible refine Same.ite ?_ ?_ | with_reducible refine Same.ite2 ?_ ?_ | with_reducible exact Sub.up (by with_reducible assumption) (by decide) | fail_if_no_progress (with_reducible apply Same.upd <;> try first | with_reducible exact ⟨rfl, rfl⟩ | with_reducible exact Or.inr (Sub.up (by with_reducible assumption) (by decide)) | with_reducible exact Or.inl rfl) | (intro _) | dsimp only | (with_reducible refine Same.ofEq (by with_reducible assumption) ?_) | split)

theorem caveCause_same {c s0 s} {a0 a1} (h : Same c s0 s) (hc : Sub 8 c := by first | with_reducible assumption | exact Sub.up (by with_reducible assumption) (by decide)) : Same c s0 (caveCause a0 a1 s) := by
  unfold caveCause
  repeat' (first | with_reducible assumption | with_reducible refine Same.ite ?_ ?_ | with_reducible refine Same.ite2 ?_ ?_ | with_reducible exact Sub.up (by with_reducible assumption) (by decide) | fail_if_no_progress (with_reducible apply Same.upd <;> try first | with_reducible exact ⟨rfl, rfl⟩ | with_reducible exact Or.inr (Sub.up (by with_reducible assumption) (by decide)) | with_reducible exact Or.inl rfl) | (intro _) | dsimp only | (with_reducible refine Same.ofEq (by with_reducible assumption) ?_) | split)

theorem recordCause_same {c s0 s} {a0} (h : Same c s0 s) (hc : Sub 8 c := by first | with_reducible assumption | exact Sub.up (by with_reducible assumption) (by decide)) : Same c s0 (recordCause a0 s) := by
  unfold recordCause
  repeat' (first | with_reducible assumption | with_reducible refine Same.ite ?_ ?_ | with_reducible refine Same.ite2 ?_ ?_ | with_reducible apply caveCause_same | with_reducible exact Sub.up (by with_reducible assumption) (by decide) | fail_if_no_progress (with_reducible apply Same.upd <;> try first | with_reducible exact ⟨rfl, rfl⟩ | with_reducible exact Or.inr (Sub.up (by with_reducible assumption) (by decide)) | with_reducible exact Or.inl rfl) | (intro _) | dsimp only | (with_reducible refine Same.ofEq (by with_reducible assumption) ?_) | split)

theorem wakeUp_same {c s0 s} {a0} (h : Same c s0 s) (hc : Sub 3647 c := by first | with_reducible assumption | exact Sub.up (by with_reducible assumption) (by decide)) : Same c s0 (wakeUp a0 s) := by
  unfold wakeUp
  repeat' (first | with_reducible assumption | with_reducible refine Same.ite ?_ ?_ | with_reducible refine Same.ite2 ?_ ?_ | with_reducible apply recordCause_same | with_reducible apply sendMsix_same | with_reducible apply deliverPending_same | with_reducible exact Sub.up (by with_reducible assumption) (by decide) | fail_if_no_progress (with_reducible apply Same.upd <;> try first | with_reducible exact ⟨rfl, rfl⟩ | with_reducible exact Or.inr (Sub.up (by with_reducible assumption) (by decide)) | with_reducible exact Or.inl rfl) | (intro _) | dsimp only | (with_reducible refine Same.ofEq (by with_reducible assumption) ?_) | split)

theorem wake_same {c s0 s} {a0} (h : Same c s0 s) (hc : Sub 3647 c := by first | with_reducible assumption | exact Sub.up (by with_reducible assumption) (by decide)) : Same c s0 (wake a0 s) := by
  unfold wake
  repeat' (first | with_reducible assumption | with_reducible refine Same.ite ?_ ?_ | with_reducible refine Same.ite2 ?_ ?_ | with_reducible apply wakeUp_same | with_reducible apply recordCause_same | with_reducible exact Sub.up (by with_reducible assumption) (by decide) | fail_if_no_progress (with_reducible apply Same.upd <;> try first | with_reducible exact ⟨rfl, rfl⟩ | with_reducible exact Or.inr (Sub.up (by with_reducible assumption) (by decide)) | with_reducible exact Or.inl rfl) | (intro _) | dsimp only | (with_reducible refine Same.ofEq (by with_reducible assumption) ?_) | split)

theorem portsDown_same {c s0 s} (h : Same c s0 s) (hc : Sub 65331 c := by first | with_reducible assumption | exact Sub.up (by with_reducible assumption) (by decide)) : Same c s0 (portsDown s) := by
  unfold portsDown
  repeat' (first | with_reducible assumption | with_reducible refine Same.ite ?_ ?_ | with_reducible refine Same.ite2 ?_ ?_ | with_reducible apply forAll_same | with_reducible apply when_same | with_reducible apply hcDown_same | with_reducible apply peerDown_same | with_reducible apply acdDrop_same | with_reducible apply dropStore_same | with_reducible exact Sub.up (by with_reducible assumption) (by decide) | fail_if_no_progress (with_reducible apply Same.upd <;> try first | with_reducible exact ⟨rfl, rfl⟩ | with_reducible exact Or.inr (Sub.up (by with_reducible assumption) (by decide)) | with_reducible exact Or.inl rfl) | (intro _) | dsimp only | (with_reducible refine Same.ofEq (by with_reducible assumption) ?_) | split)

theorem stopTurning_same {c s0 s} (h : Same c s0 s) (hc : Sub 1152 c := by first | with_reducible assumption | exact Sub.up (by with_reducible assumption) (by decide)) : Same c s0 (stopTurning s) := by
  unfold stopTurning
  repeat' (first | with_reducible assumption | with_reducible refine Same.ite ?_ ?_ | with_reducible refine Same.ite2 ?_ ?_ | with_reducible apply unitPassed_same | with_reducible exact Sub.up (by with_reducible assumption) (by decide) | fail_if_no_progress (with_reducible apply Same.upd <;> try first | with_reducible exact ⟨rfl, rfl⟩ | with_reducible exact Or.inr (Sub.up (by with_reducible assumption) (by decide)) | with_reducible exact Or.inl rfl) | (intro _) | dsimp only | (with_reducible refine Same.ofEq (by with_reducible assumption) ?_) | split)

theorem modSpdm_same {c s0 s} {a0 a1} (h : Same c s0 s) (hc : Sub 16384 c := by first | with_reducible assumption | exact Sub.up (by with_reducible assumption) (by decide)) : Same c s0 (modSpdm a0 a1 s) := by
  unfold modSpdm
  repeat' (first | with_reducible assumption | with_reducible refine Same.ite ?_ ?_ | with_reducible refine Same.ite2 ?_ ?_ | with_reducible exact Sub.up (by with_reducible assumption) (by decide) | fail_if_no_progress (with_reducible apply Same.upd <;> try first | with_reducible exact ⟨rfl, rfl⟩ | with_reducible exact Or.inr (Sub.up (by with_reducible assumption) (by decide)) | with_reducible exact Or.inl rfl) | (intro _) | dsimp only | (with_reducible refine Same.ofEq (by with_reducible assumption) ?_) | split)

theorem spdmAnswer_same {c s0 s} {a0 a1 a2} (h : Same c s0 s) (hc : Sub 2 c := by first | with_reducible assumption | exact Sub.up (by with_reducible assumption) (by decide)) : Same c s0 (spdmAnswer a0 a1 a2 s) := by
  unfold spdmAnswer
  repeat' (first | with_reducible assumption | with_reducible refine Same.ite ?_ ?_ | with_reducible refine Same.ite2 ?_ ?_ | with_reducible apply emit_same | with_reducible exact Sub.up (by with_reducible assumption) (by decide) | fail_if_no_progress (with_reducible apply Same.upd <;> try first | with_reducible exact ⟨rfl, rfl⟩ | with_reducible exact Or.inr (Sub.up (by with_reducible assumption) (by decide)) | with_reducible exact Or.inl rfl) | (intro _) | dsimp only | (with_reducible refine Same.ofEq (by with_reducible assumption) ?_) | split)

theorem spdmServe_same {c s0 s} {a0 a1} (h : Same c s0 s) (hc : Sub 16386 c := by first | with_reducible assumption | exact Sub.up (by with_reducible assumption) (by decide)) : Same c s0 (spdmServe a0 a1 s) := by
  unfold spdmServe
  repeat' (first | with_reducible assumption | with_reducible refine Same.ite ?_ ?_ | with_reducible refine Same.ite2 ?_ ?_ | with_reducible apply spdmAnswer_same | with_reducible apply modSpdm_same | with_reducible apply emit_same | with_reducible exact Sub.up (by with_reducible assumption) (by decide) | fail_if_no_progress (with_reducible apply Same.upd <;> try first | with_reducible exact ⟨rfl, rfl⟩ | with_reducible exact Or.inr (Sub.up (by with_reducible assumption) (by decide)) | with_reducible exact Or.inl rfl) | (intro _) | dsimp only | (with_reducible refine Same.ofEq (by with_reducible assumption) ?_) | split)

theorem pageWrite_same {c s0 s} {a0 a1 a2} (h : Same c s0 s) (hc : Sub 7731 c := by first | with_reducible assumption | exact Sub.up (by with_reducible assumption) (by decide)) : Same c s0 (pageWrite a0 a1 a2 s) := by
  unfold pageWrite
  repeat' (first | with_reducible assumption | with_reducible refine Same.ite ?_ ?_ | with_reducible refine Same.ite2 ?_ ?_ | with_reducible apply modHoop_same | with_reducible apply enableHoop_same | with_reducible exact Sub.up (by with_reducible assumption) (by decide) | fail_if_no_progress (with_reducible apply Same.upd <;> try first | with_reducible exact ⟨rfl, rfl⟩ | with_reducible exact Or.inr (Sub.up (by with_reducible assumption) (by decide)) | with_reducible exact Or.inl rfl) | (intro _) | dsimp only | (with_reducible refine Same.ofEq (by with_reducible assumption) ?_) | split)

theorem adminSetup_same {c s0 s} {a0 a1 a2} (h : Same c s0 s) (hc : Sub 1042 c := by first | with_reducible assumption | exact Sub.up (by with_reducible assumption) (by decide)) : Same c s0 (adminSetup a0 a1 a2 s) := by
  unfold adminSetup
  repeat' (first | with_reducible assumption | with_reducible refine Same.ite ?_ ?_ | with_reducible refine Same.ite2 ?_ ?_ | with_reducible apply adminTail_same | with_reducible apply when_same | with_reducible apply modAdmin_same | with_reducible apply adminStart_same | with_reducible apply adminOff_same | with_reducible exact Sub.up (by with_reducible assumption) (by decide) | fail_if_no_progress (with_reducible apply Same.upd <;> try first | with_reducible exact ⟨rfl, rfl⟩ | with_reducible exact Or.inr (Sub.up (by with_reducible assumption) (by decide)) | with_reducible exact Or.inl rfl) | (intro _) | dsimp only | (with_reducible refine Same.ofEq (by with_reducible assumption) ?_) | split)

theorem senseWrite_same {c s0 s} {a0 a1 a2} (h : Same c s0 s) (hc : Sub 32 c := by first | with_reducible assumption | exact Sub.up (by with_reducible assumption) (by decide)) : Same c s0 (senseWrite a0 a1 a2 s) := by
  unfold senseWrite
  repeat' (first | with_reducible assumption | with_reducible refine Same.ite ?_ ?_ | with_reducible refine Same.ite2 ?_ ?_ | with_reducible apply forAll_same | with_reducible apply modSrc_same | with_reducible exact Sub.up (by with_reducible assumption) (by decide) | fail_if_no_progress (with_reducible apply Same.upd <;> try first | with_reducible exact ⟨rfl, rfl⟩ | with_reducible exact Or.inr (Sub.up (by with_reducible assumption) (by decide)) | with_reducible exact Or.inl rfl) | (intro _) | dsimp only | (with_reducible refine Same.ofEq (by with_reducible assumption) ?_) | split)

theorem intErrWrite_same {c s0 s} {a0 a1 a2} (h : Same c s0 s) (hc : Sub 32 c := by first | with_reducible assumption | exact Sub.up (by with_reducible assumption) (by decide)) : Same c s0 (intErrWrite a0 a1 a2 s) := by
  unfold intErrWrite
  repeat' (first | with_reducible assumption | with_reducible refine Same.ite ?_ ?_ | with_reducible refine Same.ite2 ?_ ?_ | with_reducible apply modFnS_same | with_reducible exact Sub.up (by with_reducible assumption) (by decide) | fail_if_no_progress (with_reducible apply Same.upd <;> try first | with_reducible exact ⟨rfl, rfl⟩ | with_reducible exact Or.inr (Sub.up (by with_reducible assumption) (by decide)) | with_reducible exact Or.inl rfl) | (intro _) | dsimp only | (with_reducible refine Same.ofEq (by with_reducible assumption) ?_) | split)

theorem evqWrite_same {c s0 s} {a0 a1 a2} (h : Same c s0 s) (hc : Sub 34 c := by first | with_reducible assumption | exact Sub.up (by with_reducible assumption) (by decide)) : Same c s0 (evqWrite a0 a1 a2 s) := by
  unfold evqWrite
  repeat' (first | with_reducible assumption | with_reducible refine Same.ite ?_ ?_ | with_reducible refine Same.ite2 ?_ ?_ | with_reducible apply routeOf_same | with_reducible exact Sub.up (by with_reducible assumption) (by decide) | fail_if_no_progress (with_reducible apply Same.upd <;> try first | with_reducible exact ⟨rfl, rfl⟩ | with_reducible exact Or.inr (Sub.up (by with_reducible assumption) (by decide)) | with_reducible exact Or.inl rfl) | (intro _) | dsimp only | (with_reducible refine Same.ofEq (by with_reducible assumption) ?_) | split)

theorem normalBank_same {c s0 s} {a0 a1 a2} (h : Same c s0 s) (hc : Sub 3635 c := by first | with_reducible assumption | exact Sub.up (by with_reducible assumption) (by decide)) : Same c s0 (normalBank a0 a1 a2 s) := by
  unfold normalBank
  repeat' (first | with_reducible assumption | with_reducible refine Same.ite ?_ ?_ | with_reducible refine Same.ite2 ?_ ?_ | with_reducible apply doneWrite_same | with_reducible apply intErrWrite_same | with_reducible apply bankWrite_same | with_reducible apply maskSrc_same | with_reducible apply unmaskSrc_same | with_reducible apply srcEvent_same | with_reducible apply unpendSrc_same | with_reducible apply senseWrite_same | with_reducible apply evqWrite_same | with_reducible exact Sub.up (by with_reducible assumption) (by decide) | fail_if_no_progress (with_reducible apply Same.upd <;> try first | with_reducible exact ⟨rfl, rfl⟩ | with_reducible exact Or.inr (Sub.up (by with_reducible assumption) (by decide)) | with_reducible exact Or.inl rfl) | (intro _) | dsimp only | (with_reducible refine Same.ofEq (by with_reducible assumption) ?_) | split)

theorem fastBits_same {c s0 s} {a0 a1 a2 a3} (h : Same c s0 s) (a3_ok : ∀ x0 t, Same c s0 t → Same c s0 (a3 x0 t)) : Same c s0 (fastBits a0 a1 a2 a3 s) := by
  unfold fastBits
  repeat' (first | with_reducible assumption | with_reducible refine Same.ite ?_ ?_ | with_reducible refine Same.ite2 ?_ ?_ | with_reducible apply a3_ok | with_reducible apply forAll_same | with_reducible exact Sub.up (by with_reducible assumption) (by decide) | fail_if_no_progress (with_reducible apply Same.upd <;> try first | with_reducible exact ⟨rfl, rfl⟩ | with_reducible exact Or.inr (Sub.up (by with_reducible assumption) (by decide)) | with_reducible exact Or.inl rfl) | (intro _) | dsimp only | (with_reducible refine Same.ofEq (by with_reducible assumption) ?_) | split)

theorem msixWrite_same {c s0 s} {a0 a1 a2 a3} (h : Same c s0 s) (hc : Sub 34 c := by first | with_reducible assumption | exact Sub.up (by with_reducible assumption) (by decide)) : Same c s0 (msixWrite a0 a1 a2 a3 s) := by
  unfold msixWrite
  repeat' (first | with_reducible assumption | with_reducible refine Same.ite ?_ ?_ | with_reducible refine Same.ite2 ?_ ?_ | with_reducible apply modFnS_same | with_reducible apply releaseMsix_same | with_reducible exact Sub.up (by with_reducible assumption) (by decide) | fail_if_no_progress (with_reducible apply Same.upd <;> try first | with_reducible exact ⟨rfl, rfl⟩ | with_reducible exact Or.inr (Sub.up (by with_reducible assumption) (by decide)) | with_reducible exact Or.inl rfl) | (intro _) | dsimp only | (with_reducible refine Same.ofEq (by with_reducible assumption) ?_) | split)

theorem fastBank_same {c s0 s} {a0 a1 a2} (h : Same c s0 s) (hc : Sub 3635 c := by first | with_reducible assumption | exact Sub.up (by with_reducible assumption) (by decide)) : Same c s0 (fastBank a0 a1 a2 s) := by
  unfold fastBank
  repeat' (first | with_reducible assumption | with_reducible refine Same.ite ?_ ?_ | with_reducible refine Same.ite2 ?_ ?_ | with_reducible apply msixWrite_same | with_reducible apply doneWrite_same | with_reducible apply intErrWrite_same | with_reducible apply fastBits_same | with_reducible apply maskSrc_same | with_reducible apply unmaskSrc_same | with_reducible apply srcEvent_same | with_reducible apply unpendSrc_same | with_reducible apply fastSlotWrite_same | with_reducible apply evqWrite_same | with_reducible exact Sub.up (by with_reducible assumption) (by decide) | fail_if_no_progress (with_reducible apply Same.upd <;> try first | with_reducible exact ⟨rfl, rfl⟩ | with_reducible exact Or.inr (Sub.up (by with_reducible assumption) (by decide)) | with_reducible exact Or.inl rfl) | (intro _) | dsimp only | (with_reducible refine Same.ofEq (by with_reducible assumption) ?_) | split)

theorem srcWrite_same {c s0 s} {a0 a1} (h : Same c s0 s) (hc : Sub 65527 c := by first | with_reducible assumption | exact Sub.up (by with_reducible assumption) (by decide)) : Same c s0 (srcWrite a0 a1 s) := by
  unfold srcWrite
  repeat' (first | with_reducible assumption | with_reducible refine Same.ite ?_ ?_ | with_reducible refine Same.ite2 ?_ ?_ | with_reducible apply modRsrc_same | with_reducible apply when_same | with_reducible apply clearSrc_same | with_reducible apply setLsrEn_same | with_reducible apply rennetEvent_same | with_reducible exact Sub.up (by with_reducible assumption) (by decide) | fail_if_no_progress (with_reducible apply Same.upd <;> try first | with_reducible exact ⟨rfl, rfl⟩ | with_reducible exact Or.inr (Sub.up (by with_reducible assumption) (by decide)) | with_reducible exact Or.inl rfl) | (intro _) | dsimp only | (with_reducible refine Same.ofEq (by with_reducible assumption) ?_) | split)

theorem rennetBlock_same {c s0 s} {a0 a1} (h : Same c s0 s) (hc : Sub 65527 c := by first | with_reducible assumption | exact Sub.up (by with_reducible assumption) (by decide)) : Same c s0 (rennetBlock a0 a1 s) := by
  unfold rennetBlock
  repeat' (first | with_reducible assumption | with_reducible refine Same.ite ?_ ?_ | with_reducible refine Same.ite2 ?_ ?_ | with_reducible apply srcWrite_same | with_reducible exact Sub.up (by with_reducible assumption) (by decide) | fail_if_no_progress (with_reducible apply Same.upd <;> try first | with_reducible exact ⟨rfl, rfl⟩ | with_reducible exact Or.inr (Sub.up (by with_reducible assumption) (by decide)) | with_reducible exact Or.inl rfl) | (intro _) | dsimp only | (with_reducible refine Same.ofEq (by with_reducible assumption) ?_) | split)

theorem caveBlock_same {c s0 s} {a0 a1} (h : Same c s0 s) (hc : Sub 12 c := by first | with_reducible assumption | exact Sub.up (by with_reducible assumption) (by decide)) : Same c s0 (caveBlock a0 a1 s) := by
  unfold caveBlock
  repeat' (first | with_reducible assumption | with_reducible refine Same.ite ?_ ?_ | with_reducible refine Same.ite2 ?_ ?_ | with_reducible apply restRequest_same | with_reducible exact Sub.up (by with_reducible assumption) (by decide) | fail_if_no_progress (with_reducible apply Same.upd <;> try first | with_reducible exact ⟨rfl, rfl⟩ | with_reducible exact Or.inr (Sub.up (by with_reducible assumption) (by decide)) | with_reducible exact Or.inl rfl) | (intro _) | dsimp only | (with_reducible refine Same.ofEq (by with_reducible assumption) ?_) | split)

theorem xlateBlock_same {c s0 s} {a0 a1} (h : Same c s0 s) (hc : Sub 15923 c := by first | with_reducible assumption | exact Sub.up (by with_reducible assumption) (by decide)) : Same c s0 (xlateBlock a0 a1 s) := by
  unfold xlateBlock
  repeat' (first | with_reducible assumption | with_reducible refine Same.ite ?_ ?_ | with_reducible refine Same.ite2 ?_ ?_ | with_reducible apply when_same | with_reducible apply flushAll_same | with_reducible exact Sub.up (by with_reducible assumption) (by decide) | fail_if_no_progress (with_reducible apply Same.upd <;> try first | with_reducible exact ⟨rfl, rfl⟩ | with_reducible exact Or.inr (Sub.up (by with_reducible assumption) (by decide)) | with_reducible exact Or.inl rfl) | (intro _) | dsimp only | (with_reducible refine Same.ofEq (by with_reducible assumption) ?_) | split)

theorem devmgrSet_same {c s0 s} {a0} (h : Same c s0 s) (hc : Sub 8448 c := by first | with_reducible assumption | exact Sub.up (by with_reducible assumption) (by decide)) : Same c s0 (devmgrSet a0 s) := by
  unfold devmgrSet
  repeat' (first | with_reducible assumption | with_reducible refine Same.ite ?_ ?_ | with_reducible refine Same.ite2 ?_ ?_ | with_reducible apply modWheel_same | with_reducible exact Sub.up (by with_reducible assumption) (by decide) | fail_if_no_progress (with_reducible apply Same.upd <;> try first | with_reducible exact ⟨rfl, rfl⟩ | with_reducible exact Or.inr (Sub.up (by with_reducible assumption) (by decide)) | with_reducible exact Or.inl rfl) | (intro _) | dsimp only | (with_reducible refine Same.ofEq (by with_reducible assumption) ?_) | split)

theorem wheelBlock_same {c s0 s} {a0 a1 a2} (h : Same c s0 s) (hc : Sub 8448 c := by first | with_reducible assumption | exact Sub.up (by with_reducible assumption) (by decide)) : Same c s0 (wheelBlock a0 a1 a2 s) := by
  unfold wheelBlock
  repeat' (first | with_reducible assumption | with_reducible refine Same.ite ?_ ?_ | with_reducible refine Same.ite2 ?_ ?_ | with_reducible apply devmgrSet_same | with_reducible apply when_same | with_reducible apply modWheel_same | with_reducible exact Sub.up (by with_reducible assumption) (by decide) | fail_if_no_progress (with_reducible apply Same.upd <;> try first | with_reducible exact ⟨rfl, rfl⟩ | with_reducible exact Or.inr (Sub.up (by with_reducible assumption) (by decide)) | with_reducible exact Or.inl rfl) | (intro _) | dsimp only | (with_reducible refine Same.ofEq (by with_reducible assumption) ?_) | split)

theorem hcCtrlWrite_same {c s0 s} {a0 a1} (h : Same c s0 s) (hc : Sub 32563 c := by first | with_reducible assumption | exact Sub.up (by with_reducible assumption) (by decide)) : Same c s0 (hcCtrlWrite a0 a1 s) := by
  unfold hcCtrlWrite
  repeat' (first | with_reducible assumption | with_reducible refine Same.ite ?_ ?_ | with_reducible refine Same.ite2 ?_ ?_ | with_reducible apply modHc_same | with_reducible apply hcEnable_same | with_reducible apply hcDisable_same | with_reducible exact Sub.up (by with_reducible assumption) (by decide) | fail_if_no_progress (with_reducible apply Same.upd <;> try first | with_reducible exact ⟨rfl, rfl⟩ | with_reducible exact Or.inr (Sub.up (by with_reducible assumption) (by decide)) | with_reducible exact Or.inl rfl) | (intro _) | dsimp only | (with_reducible refine Same.ofEq (by with_reducible assumption) ?_) | split)

theorem hcBlock_same {c s0 s} {a0 a1} (h : Same c s0 s) (hc : Sub 32563 c := by first | with_reducible assumption | exact Sub.up (by with_reducible assumption) (by decide)) : Same c s0 (hcBlock a0 a1 s) := by
  unfold hcBlock
  repeat' (first | with_reducible assumption | with_reducible refine Same.ite ?_ ?_ | with_reducible refine Same.ite2 ?_ ?_ | with_reducible apply hcCtrlWrite_same | with_reducible apply modHc_same | with_reducible apply hdmWinWrite_same | with_reducible exact Sub.up (by with_reducible assumption) (by decide) | fail_if_no_progress (with_reducible apply Same.upd <;> try first | with_reducible exact ⟨rfl, rfl⟩ | with_reducible exact Or.inr (Sub.up (by with_reducible assumption) (by decide)) | with_reducible exact Or.inl rfl) | (intro _) | dsimp only | (with_reducible refine Same.ofEq (by with_reducible assumption) ?_) | split)

theorem exportWrite_same {c s0 s} {a0 a1 a2 a3} (h : Same c s0 s) (hc : Sub 4096 c := by first | with_reducible assumption | exact Sub.up (by with_reducible assumption) (by decide)) : Same c s0 (exportWrite a0 a1 a2 a3 s) := by
  unfold exportWrite
  repeat' (first | with_reducible assumption | with_reducible refine Same.ite ?_ ?_ | with_reducible refine Same.ite2 ?_ ?_ | with_reducible apply when_same | with_reducible apply modExp_same | with_reducible exact Sub.up (by with_reducible assumption) (by decide) | fail_if_no_progress (with_reducible apply Same.upd <;> try first | with_reducible exact ⟨rfl, rfl⟩ | with_reducible exact Or.inr (Sub.up (by with_reducible assumption) (by decide)) | with_reducible exact Or.inl rfl) | (intro _) | dsimp only | (with_reducible refine Same.ofEq (by with_reducible assumption) ?_) | split)

theorem nodeWrite_same {c s0 s} {a0} (h : Same c s0 s) (hc : Sub 16179 c := by first | with_reducible assumption | exact Sub.up (by with_reducible assumption) (by decide)) : Same c s0 (nodeWrite a0 s) := by
  unfold nodeWrite
  repeat' (first | with_reducible assumption | with_reducible refine Same.ite ?_ ?_ | with_reducible refine Same.ite2 ?_ ?_ | with_reducible apply forAll_same | with_reducible apply peerDown_same | with_reducible exact Sub.up (by with_reducible assumption) (by decide) | fail_if_no_progress (with_reducible apply Same.upd <;> try first | with_reducible exact ⟨rfl, rfl⟩ | with_reducible exact Or.inr (Sub.up (by with_reducible assumption) (by decide)) | with_reducible exact Or.inl rfl) | (intro _) | dsimp only | (with_reducible refine Same.ofEq (by with_reducible assumption) ?_) | split)

theorem peerBlock_same {c s0 s} {a0 a1 a2 a3} (h : Same c s0 s) (hc : Sub 16179 c := by first | with_reducible assumption | exact Sub.up (by with_reducible assumption) (by decide)) : Same c s0 (peerBlock a0 a1 a2 a3 s) := by
  unfold peerBlock
  repeat' (first | with_reducible assumption | with_reducible refine Same.ite ?_ ?_ | with_reducible refine Same.ite2 ?_ ?_ | with_reducible apply when_same | with_reducible apply nodeWrite_same | with_reducible apply modWheel_same | with_reducible apply exportWrite_same | with_reducible apply collWrite_same | with_reducible apply routeWrite_same | with_reducible exact Sub.up (by with_reducible assumption) (by decide) | fail_if_no_progress (with_reducible apply Same.upd <;> try first | with_reducible exact ⟨rfl, rfl⟩ | with_reducible exact Or.inr (Sub.up (by with_reducible assumption) (by decide)) | with_reducible exact Or.inl rfl) | (intro _) | dsimp only | (with_reducible refine Same.ofEq (by with_reducible assumption) ?_) | split)

theorem acdBlock_same {c s0 s} {a0 a1} (h : Same c s0 s) (hc : Sub 65395 c := by first | with_reducible assumption | exact Sub.up (by with_reducible assumption) (by decide)) : Same c s0 (acdBlock a0 a1 s) := by
  unfold acdBlock
  repeat' (first | with_reducible assumption | with_reducible refine Same.ite ?_ ?_ | with_reducible refine Same.ite2 ?_ ?_ | with_reducible apply acdEnable_same | with_reducible apply acdDisable_same | with_reducible apply when_same | with_reducible apply acdRetrain_same | with_reducible apply modAcd_same | with_reducible exact Sub.up (by with_reducible assumption) (by decide) | fail_if_no_progress (with_reducible apply Same.upd <;> try first | with_reducible exact ⟨rfl, rfl⟩ | with_reducible exact Or.inr (Sub.up (by with_reducible assumption) (by decide)) | with_reducible exact Or.inl rfl) | (intro _) | dsimp only | (with_reducible refine Same.ofEq (by with_reducible assumption) ?_) | split)

theorem rshBlock_same {c s0 s} {a0 a1} (h : Same c s0 s) (hc : Sub 16179 c := by first | with_reducible assumption | exact Sub.up (by with_reducible assumption) (by decide)) : Same c s0 (rshBlock a0 a1 s) := by
  unfold rshBlock
  repeat' (first | with_reducible assumption | with_reducible refine Same.ite ?_ ?_ | with_reducible refine Same.ite2 ?_ ?_ | with_reducible apply peerEnable_same | with_reducible apply peerDisable_same | with_reducible apply modRsh_same | with_reducible exact Sub.up (by with_reducible assumption) (by decide) | fail_if_no_progress (with_reducible apply Same.upd <;> try first | with_reducible exact ⟨rfl, rfl⟩ | with_reducible exact Or.inr (Sub.up (by with_reducible assumption) (by decide)) | with_reducible exact Or.inl rfl) | (intro _) | dsimp only | (with_reducible refine Same.ofEq (by with_reducible assumption) ?_) | split)

theorem pfWrite_same {c s0 s} {a0 a1 a2} (h : Same c s0 s) (hc : Sub 65535 c := by first | with_reducible assumption | exact Sub.up (by with_reducible assumption) (by decide)) : Same c s0 (pfWrite a0 a1 a2 s) := by
  unfold pfWrite
  repeat' (first | with_reducible assumption | with_reducible refine Same.ite ?_ ?_ | with_reducible refine Same.ite2 ?_ ?_ | with_reducible apply adminSetup_same | with_reducible apply normalBank_same | with_reducible apply fastBank_same | with_reducible apply when_same | with_reducible apply rennetBlock_same | with_reducible apply caveBlock_same | with_reducible apply xlateBlock_same | with_reducible apply wheelBlock_same | with_reducible apply hcBlock_same | with_reducible apply peerBlock_same | with_reducible apply acdBlock_same | with_reducible apply rshBlock_same | with_reducible apply pageWrite_same | with_reducible exact Sub.up (by with_reducible assumption) (by decide) | fail_if_no_progress (with_reducible apply Same.upd <;> try first | with_reducible exact ⟨rfl, rfl⟩ | with_reducible exact Or.inr (Sub.up (by with_reducible assumption) (by decide)) | with_reducible exact Or.inl rfl) | (intro _) | dsimp only | (with_reducible refine Same.ofEq (by with_reducible assumption) ?_) | split)

theorem vfWrite_same {c s0 s} {a0 a1 a2} (h : Same c s0 s) (hc : Sub 7731 c := by first | with_reducible assumption | exact Sub.up (by with_reducible assumption) (by decide)) : Same c s0 (vfWrite a0 a1 a2 s) := by
  unfold vfWrite
  repeat' (first | with_reducible assumption | with_reducible refine Same.ite ?_ ?_ | with_reducible refine Same.ite2 ?_ ?_ | with_reducible apply doneWrite_same | with_reducible apply intErrWrite_same | with_reducible apply bankWrite_same | with_reducible apply maskSrc_same | with_reducible apply unmaskSrc_same | with_reducible apply srcEvent_same | with_reducible apply unpendSrc_same | with_reducible apply senseWrite_same | with_reducible apply msixWrite_same | with_reducible apply evqWrite_same | with_reducible apply pageWrite_same | with_reducible exact Sub.up (by with_reducible assumption) (by decide) | fail_if_no_progress (with_reducible apply Same.upd <;> try first | with_reducible exact ⟨rfl, rfl⟩ | with_reducible exact Or.inr (Sub.up (by with_reducible assumption) (by decide)) | with_reducible exact Or.inl rfl) | (intro _) | dsimp only | (with_reducible refine Same.ofEq (by with_reducible assumption) ?_) | split)

theorem regWrite_same {c s0 s} {a0 a1 a2} (h : Same c s0 s) (hc : Sub 65535 c := by first | with_reducible assumption | exact Sub.up (by with_reducible assumption) (by decide)) : Same c s0 (regWrite a0 a1 a2 s) := by
  unfold regWrite
  repeat' (first | with_reducible assumption | with_reducible refine Same.ite ?_ ?_ | with_reducible refine Same.ite2 ?_ ?_ | with_reducible apply vfWrite_same | with_reducible apply pfWrite_same | with_reducible exact Sub.up (by with_reducible assumption) (by decide) | fail_if_no_progress (with_reducible apply Same.upd <;> try first | with_reducible exact ⟨rfl, rfl⟩ | with_reducible exact Or.inr (Sub.up (by with_reducible assumption) (by decide)) | with_reducible exact Or.inl rfl) | (intro _) | dsimp only | (with_reducible refine Same.ofEq (by with_reducible assumption) ?_) | split)

theorem badWidth_same {c s0 s} {a0 a1} (h : Same c s0 s) (hc : Sub 16 c := by first | with_reducible assumption | exact Sub.up (by with_reducible assumption) (by decide)) : Same c s0 (badWidth a0 a1 s) := by
  unfold badWidth
  repeat' (first | with_reducible assumption | with_reducible refine Same.ite ?_ ?_ | with_reducible refine Same.ite2 ?_ ?_ | with_reducible apply modHoop_same | with_reducible exact Sub.up (by with_reducible assumption) (by decide) | fail_if_no_progress (with_reducible apply Same.upd <;> try first | with_reducible exact ⟨rfl, rfl⟩ | with_reducible exact Or.inr (Sub.up (by with_reducible assumption) (by decide)) | with_reducible exact Or.inl rfl) | (intro _) | dsimp only | (with_reducible refine Same.ofEq (by with_reducible assumption) ?_) | split)

theorem ringWrite_same {c s0 s} {a0 a1 a2 a3 a4} (h : Same c s0 s) (hc : Sub 7731 c := by first | with_reducible assumption | exact Sub.up (by with_reducible assumption) (by decide)) : Same c s0 (ringWrite a0 a1 a2 a3 a4 s) := by
  unfold ringWrite
  repeat' (first | with_reducible assumption | with_reducible refine Same.ite ?_ ?_ | with_reducible refine Same.ite2 ?_ ?_ | with_reducible apply ringTail_same | with_reducible apply pushEntry_same | with_reducible apply badWidth_same | with_reducible apply forAll_same | with_reducible exact Sub.up (by with_reducible assumption) (by decide) | fail_if_no_progress (with_reducible apply Same.upd <;> try first | with_reducible exact ⟨rfl, rfl⟩ | with_reducible exact Or.inr (Sub.up (by with_reducible assumption) (by decide)) | with_reducible exact Or.inl rfl) | (intro _) | dsimp only | (with_reducible refine Same.ofEq (by with_reducible assumption) ?_) | split)

theorem classWrite_same {c s0 s} {a0 a1 a2 a3} (h : Same c s0 s) (hc : Sub 65535 c := by first | with_reducible assumption | exact Sub.up (by with_reducible assumption) (by decide)) : Same c s0 (classWrite a0 a1 a2 a3 s) := by
  unfold classWrite
  repeat' (first | with_reducible assumption | with_reducible refine Same.ite ?_ ?_ | with_reducible refine Same.ite2 ?_ ?_ | with_reducible apply forAll_same | with_reducible apply regWrite_same | with_reducible apply countFault_same | with_reducible apply bar2Reject_same | with_reducible exact Sub.up (by with_reducible assumption) (by decide) | fail_if_no_progress (with_reducible apply Same.upd <;> try first | with_reducible exact ⟨rfl, rfl⟩ | with_reducible exact Or.inr (Sub.up (by with_reducible assumption) (by decide)) | with_reducible exact Or.inl rfl) | (intro _) | dsimp only | (with_reducible refine Same.ofEq (by with_reducible assumption) ?_) | split)

theorem clearVatFaults_same {c s0 s} {a0} (h : Same c s0 s) (hc : Sub 16 c := by first | with_reducible assumption | exact Sub.up (by with_reducible assumption) (by decide)) : Same c s0 (clearVatFaults a0 s) := by
  unfold clearVatFaults
  repeat' (first | with_reducible assumption | with_reducible refine Same.ite ?_ ?_ | with_reducible refine Same.ite2 ?_ ?_ | with_reducible apply forAll_same | with_reducible apply modVat_same | with_reducible exact Sub.up (by with_reducible assumption) (by decide) | fail_if_no_progress (with_reducible apply Same.upd <;> try first | with_reducible exact ⟨rfl, rfl⟩ | with_reducible exact Or.inr (Sub.up (by with_reducible assumption) (by decide)) | with_reducible exact Or.inl rfl) | (intro _) | dsimp only | (with_reducible refine Same.ofEq (by with_reducible assumption) ?_) | split)

theorem adminReport_same {c s0 s} {a0 a1 a2 a3 a4} (h : Same c s0 s) (a3_ok : ∀ t, Same c s0 t → Same c s0 (a3 t)) (hc : Sub 3635 c := by first | with_reducible assumption | exact Sub.up (by with_reducible assumption) (by decide)) : Same c s0 (adminReport a0 a1 a2 a3 a4 s) := by
  unfold adminReport
  repeat' (first | with_reducible assumption | with_reducible refine Same.ite ?_ ?_ | with_reducible refine Same.ite2 ?_ ?_ | with_reducible apply a3_ok | with_reducible apply adminHold_same | with_reducible apply adminFinish_same | with_reducible apply adminEnd_same | with_reducible apply adminOut_same | with_reducible exact Sub.up (by with_reducible assumption) (by decide) | fail_if_no_progress (with_reducible apply Same.upd <;> try first | with_reducible exact ⟨rfl, rfl⟩ | with_reducible exact Or.inr (Sub.up (by with_reducible assumption) (by decide)) | with_reducible exact Or.inl rfl) | (intro _) | dsimp only | (with_reducible refine Same.ofEq (by with_reducible assumption) ?_) | split)

theorem reportSent_same {c s0 s} {a0 a1 a2} (h : Same c s0 s) (hc : Sub 15923 c := by first | with_reducible assumption | exact Sub.up (by with_reducible assumption) (by decide)) : Same c s0 (reportSent a0 a1 a2 s) := by
  unfold reportSent
  repeat' (first | with_reducible assumption | with_reducible refine Same.ite ?_ ?_ | with_reducible refine Same.ite2 ?_ ?_ | with_reducible apply finishEntry_same | with_reducible exact Sub.up (by with_reducible assumption) (by decide) | fail_if_no_progress (with_reducible apply Same.upd <;> try first | with_reducible exact ⟨rfl, rfl⟩ | with_reducible exact Or.inr (Sub.up (by with_reducible assumption) (by decide)) | with_reducible exact Or.inl rfl) | (intro _) | dsimp only | (with_reducible refine Same.ofEq (by with_reducible assumption) ?_) | split)

theorem entryReport_same {c s0 s} {a0 a1 a2 a3 a4} (h : Same c s0 s) (a4_ok : ∀ t, Same c s0 t → Same c s0 (a4 t)) (hc : Sub 65527 c := by first | with_reducible assumption | exact Sub.up (by with_reducible assumption) (by decide)) : Same c s0 (entryReport a0 a1 a2 a3 a4 s) := by
  unfold entryReport
  repeat' (first | with_reducible assumption | with_reducible refine Same.ite ?_ ?_ | with_reducible refine Same.ite2 ?_ ?_ | with_reducible apply a4_ok | with_reducible apply finishEntry_same | with_reducible apply gateSeg_same | with_reducible apply failSeg_same | with_reducible apply severeFault_same | with_reducible apply vstore_same | with_reducible apply modEntry_same | with_reducible apply busySeg_same | with_reducible apply reportSent_same | with_reducible exact Sub.up (by with_reducible assumption) (by decide) | fail_if_no_progress (with_reducible apply Same.upd <;> try first | with_reducible exact ⟨rfl, rfl⟩ | with_reducible exact Or.inr (Sub.up (by with_reducible assumption) (by decide)) | with_reducible exact Or.inl rfl) | (intro _) | dsimp only | (with_reducible refine Same.ofEq (by with_reducible assumption) ?_) | split)

end Sys2Proof.Machine
end

