-- ==== Sys2Proof/Laws/SameExec.lean ====
section
/-! SUPPORT. The footprint of every meaning. -/

set_option linter.unreachableTactic false
set_option linter.unusedTactic false

namespace Sys2Proof.Machine

open Sys2Proof

theorem execVatTeardownComplete_same {c s0 s} {a0} (h : Same c s0 s) (hc : Sub 15923 c := by first | with_reducible assumption | exact Sub.up (by with_reducible assumption) (by decide)) : SameOut c s0 (execVatTeardownComplete a0 s) := by
  unfold execVatTeardownComplete
  repeat' (first | with_reducible assumption | with_reducible refine Same.ite ?_ ?_ | with_reducible refine Same.ite2 ?_ ?_ | with_reducible refine SameOut.next ?_ | with_reducible exact SameOut.fault _ | with_reducible refine SameOut.ite ?_ ?_ | with_reducible apply finishTear_same | with_reducible exact Sub.up (by with_reducible assumption) (by decide) | fail_if_no_progress (with_reducible apply Same.upd <;> try first | with_reducible exact ⟨rfl, rfl⟩ | with_reducible exact Or.inr (Sub.up (by with_reducible assumption) (by decide)) | with_reducible exact Or.inl rfl) | (intro _) | dsimp only | (with_reducible refine Same.ofEq (by with_reducible assumption) ?_) | split)

theorem execVatLoad_same {c s0 s} {a0} (h : Same c s0 s) (hc : Sub 16 c := by first | with_reducible assumption | exact Sub.up (by with_reducible assumption) (by decide)) : SameOut c s0 (execVatLoad a0 s) := by
  unfold execVatLoad
  repeat' (first | with_reducible assumption | with_reducible refine Same.ite ?_ ?_ | with_reducible refine Same.ite2 ?_ ?_ | with_reducible refine SameOut.next ?_ | with_reducible exact SameOut.fault _ | with_reducible refine SameOut.ite ?_ ?_ | with_reducible apply loadVat_same | with_reducible exact Sub.up (by with_reducible assumption) (by decide) | fail_if_no_progress (with_reducible apply Same.upd <;> try first | with_reducible exact ⟨rfl, rfl⟩ | with_reducible exact Or.inr (Sub.up (by with_reducible assumption) (by decide)) | with_reducible exact Or.inl rfl) | (intro _) | dsimp only | (with_reducible refine Same.ofEq (by with_reducible assumption) ?_) | split)

theorem execVatSlotExpiry_same {c s0 s} {a0} (h : Same c s0 s) (hc : Sub 16 c := by first | with_reducible assumption | exact Sub.up (by with_reducible assumption) (by decide)) : SameOut c s0 (execVatSlotExpiry a0 s) := by
  unfold execVatSlotExpiry
  repeat' (first | with_reducible assumption | with_reducible refine Same.ite ?_ ?_ | with_reducible refine Same.ite2 ?_ ?_ | with_reducible refine SameOut.next ?_ | with_reducible exact SameOut.fault _ | with_reducible refine SameOut.ite ?_ ?_ | with_reducible apply modVat_same | with_reducible apply tryEvict_same | with_reducible exact Sub.up (by with_reducible assumption) (by decide) | fail_if_no_progress (with_reducible apply Same.upd <;> try first | with_reducible exact ⟨rfl, rfl⟩ | with_reducible exact Or.inr (Sub.up (by with_reducible assumption) (by decide)) | with_reducible exact Or.inl rfl) | (intro _) | dsimp only | (with_reducible refine Same.ofEq (by with_reducible assumption) ?_) | split)

theorem execCreateHoop_same {c s0 s} {a0} (h : Same c s0 s) (hc : Sub 3635 c := by first | with_reducible assumption | exact Sub.up (by with_reducible assumption) (by decide)) : SameOut c s0 (execCreateHoop a0 s) := by
  unfold execCreateHoop
  repeat' (first | with_reducible assumption | with_reducible refine Same.ite ?_ ?_ | with_reducible refine Same.ite2 ?_ ?_ | with_reducible refine SameOut.next ?_ | with_reducible exact SameOut.fault _ | with_reducible refine SameOut.ite ?_ ?_ | with_reducible apply adminRun_same | with_reducible apply adminEnd_same | with_reducible apply adminPages_same | with_reducible apply modHoop_same | with_reducible exact Sub.up (by with_reducible assumption) (by decide) | fail_if_no_progress (with_reducible apply Same.upd <;> try first | with_reducible exact ⟨rfl, rfl⟩ | with_reducible exact Or.inr (Sub.up (by with_reducible assumption) (by decide)) | with_reducible exact Or.inl rfl) | (intro _) | dsimp only | (with_reducible refine Same.ofEq (by with_reducible assumption) ?_) | split)

theorem execCreateEventHoop_same {c s0 s} {a0} (h : Same c s0 s) (hc : Sub 3635 c := by first | with_reducible assumption | exact Sub.up (by with_reducible assumption) (by decide)) : SameOut c s0 (execCreateEventHoop a0 s) := by
  unfold execCreateEventHoop
  repeat' (first | with_reducible assumption | with_reducible refine Same.ite ?_ ?_ | with_reducible refine Same.ite2 ?_ ?_ | with_reducible refine SameOut.next ?_ | with_reducible exact SameOut.fault _ | with_reducible refine SameOut.ite ?_ ?_ | with_reducible apply adminRun_same | with_reducible apply adminEnd_same | with_reducible apply modEvq_same | with_reducible apply adminPages_same | with_reducible exact Sub.up (by with_reducible assumption) (by decide) | fail_if_no_progress (with_reducible apply Same.upd <;> try first | with_reducible exact ⟨rfl, rfl⟩ | with_reducible exact Or.inr (Sub.up (by with_reducible assumption) (by decide)) | with_reducible exact Or.inl rfl) | (intro _) | dsimp only | (with_reducible refine Same.ofEq (by with_reducible assumption) ?_) | split)

theorem execDestroyHoop_same {c s0 s} {a0} (h : Same c s0 s) (hc : Sub 7731 c := by first | with_reducible assumption | exact Sub.up (by with_reducible assumption) (by decide)) : SameOut c s0 (execDestroyHoop a0 s) := by
  unfold execDestroyHoop
  repeat' (first | with_reducible assumption | with_reducible refine Same.ite ?_ ?_ | with_reducible refine Same.ite2 ?_ ?_ | with_reducible refine SameOut.next ?_ | with_reducible exact SameOut.fault _ | with_reducible refine SameOut.ite ?_ ?_ | with_reducible apply adminRun_same | with_reducible apply adminEnd_same | with_reducible apply killHoop_same | with_reducible exact Sub.up (by with_reducible assumption) (by decide) | fail_if_no_progress (with_reducible apply Same.upd <;> try first | with_reducible exact ⟨rfl, rfl⟩ | with_reducible exact Or.inr (Sub.up (by with_reducible assumption) (by decide)) | with_reducible exact Or.inl rfl) | (intro _) | dsimp only | (with_reducible refine Same.ofEq (by with_reducible assumption) ?_) | split)

theorem execDestroyEventHoop_same {c s0 s} {a0} (h : Same c s0 s) (hc : Sub 3635 c := by first | with_reducible assumption | exact Sub.up (by with_reducible assumption) (by decide)) : SameOut c s0 (execDestroyEventHoop a0 s) := by
  unfold execDestroyEventHoop
  repeat' (first | with_reducible assumption | with_reducible refine Same.ite ?_ ?_ | with_reducible refine Same.ite2 ?_ ?_ | with_reducible refine SameOut.next ?_ | with_reducible exact SameOut.fault _ | with_reducible refine SameOut.ite ?_ ?_ | with_reducible apply adminRun_same | with_reducible apply adminEnd_same | with_reducible apply killEvq_same | with_reducible apply adminHold_same | with_reducible exact Sub.up (by with_reducible assumption) (by decide) | fail_if_no_progress (with_reducible apply Same.upd <;> try first | with_reducible exact ⟨rfl, rfl⟩ | with_reducible exact Or.inr (Sub.up (by with_reducible assumption) (by decide)) | with_reducible exact Or.inl rfl) | (intro _) | dsimp only | (with_reducible refine Same.ofEq (by with_reducible assumption) ?_) | split)

theorem execDisableHoop_same {c s0 s} {a0} (h : Same c s0 s) (hc : Sub 7731 c := by first | with_reducible assumption | exact Sub.up (by with_reducible assumption) (by decide)) : SameOut c s0 (execDisableHoop a0 s) := by
  unfold execDisableHoop
  repeat' (first | with_reducible assumption | with_reducible refine Same.ite ?_ ?_ | with_reducible refine Same.ite2 ?_ ?_ | with_reducible refine SameOut.next ?_ | with_reducible exact SameOut.fault _ | with_reducible refine SameOut.ite ?_ ?_ | with_reducible apply adminRun_same | with_reducible apply adminEnd_same | with_reducible apply adminHold_same | with_reducible apply modHoop_same | with_reducible apply publishHead_same | with_reducible apply tryIdle_same | with_reducible exact Sub.up (by with_reducible assumption) (by decide) | fail_if_no_progress (with_reducible apply Same.upd <;> try first | with_reducible exact ⟨rfl, rfl⟩ | with_reducible exact Or.inr (Sub.up (by with_reducible assumption) (by decide)) | with_reducible exact Or.inl rfl) | (intro _) | dsimp only | (with_reducible refine Same.ofEq (by with_reducible assumption) ?_) | split)

theorem execCreateVat_same {c s0 s} {a0} (h : Same c s0 s) (hc : Sub 3635 c := by first | with_reducible assumption | exact Sub.up (by with_reducible assumption) (by decide)) : SameOut c s0 (execCreateVat a0 s) := by
  unfold execCreateVat
  repeat' (first | with_reducible assumption | with_reducible refine Same.ite ?_ ?_ | with_reducible refine Same.ite2 ?_ ?_ | with_reducible refine SameOut.next ?_ | with_reducible exact SameOut.fault _ | with_reducible refine SameOut.ite ?_ ?_ | with_reducible apply adminRun_same | with_reducible apply adminEnd_same | with_reducible apply modVat_same | with_reducible apply when_same | with_reducible apply pinSlot_same | with_reducible exact Sub.up (by with_reducible assumption) (by decide) | fail_if_no_progress (with_reducible apply Same.upd <;> try first | with_reducible exact ⟨rfl, rfl⟩ | with_reducible exact Or.inr (Sub.up (by with_reducible assumption) (by decide)) | with_reducible exact Or.inl rfl) | (intro _) | dsimp only | (with_reducible refine Same.ofEq (by with_reducible assumption) ?_) | split)

theorem execDestroyVat_same {c s0 s} {a0} (h : Same c s0 s) (hc : Sub 3635 c := by first | with_reducible assumption | exact Sub.up (by with_reducible assumption) (by decide)) : SameOut c s0 (execDestroyVat a0 s) := by
  unfold execDestroyVat
  repeat' (first | with_reducible assumption | with_reducible refine Same.ite ?_ ?_ | with_reducible refine Same.ite2 ?_ ?_ | with_reducible refine SameOut.next ?_ | with_reducible exact SameOut.fault _ | with_reducible refine SameOut.ite ?_ ?_ | with_reducible apply adminRun_same | with_reducible apply adminEnd_same | with_reducible apply adminHold_same | with_reducible apply startTear_same | with_reducible exact Sub.up (by with_reducible assumption) (by decide) | fail_if_no_progress (with_reducible apply Same.upd <;> try first | with_reducible exact ⟨rfl, rfl⟩ | with_reducible exact Or.inr (Sub.up (by with_reducible assumption) (by decide)) | with_reducible exact Or.inl rfl) | (intro _) | dsimp only | (with_reducible refine Same.ofEq (by with_reducible assumption) ?_) | split)

theorem execLoadRecipe_same {c s0 s} {a0} (h : Same c s0 s) (hc : Sub 3635 c := by first | with_reducible assumption | exact Sub.up (by with_reducible assumption) (by decide)) : SameOut c s0 (execLoadRecipe a0 s) := by
  unfold execLoadRecipe
  repeat' (first | with_reducible assumption | with_reducible refine Same.ite ?_ ?_ | with_reducible refine Same.ite2 ?_ ?_ | with_reducible refine SameOut.next ?_ | with_reducible exact SameOut.fault _ | with_reducible refine SameOut.ite ?_ ?_ | with_reducible apply adminRun_same | with_reducible apply adminEnd_same | with_reducible apply lrFail_same | with_reducible apply adminUnread_same | with_reducible apply when_same | with_reducible apply adminOut_same | with_reducible apply adminHold_same | with_reducible exact Sub.up (by with_reducible assumption) (by decide) | fail_if_no_progress (with_reducible apply Same.upd <;> try first | with_reducible exact ⟨rfl, rfl⟩ | with_reducible exact Or.inr (Sub.up (by with_reducible assumption) (by decide)) | with_reducible exact Or.inl rfl) | (intro _) | dsimp only | (with_reducible refine Same.ofEq (by with_reducible assumption) ?_) | split)

theorem execUnloadRecipe_same {c s0 s} {a0} (h : Same c s0 s) (hc : Sub 3635 c := by first | with_reducible assumption | exact Sub.up (by with_reducible assumption) (by decide)) : SameOut c s0 (execUnloadRecipe a0 s) := by
  unfold execUnloadRecipe
  repeat' (first | with_reducible assumption | with_reducible refine Same.ite ?_ ?_ | with_reducible refine Same.ite2 ?_ ?_ | with_reducible refine SameOut.next ?_ | with_reducible exact SameOut.fault _ | with_reducible refine SameOut.ite ?_ ?_ | with_reducible apply adminRun_same | with_reducible apply adminEnd_same | with_reducible apply adminHold_same | with_reducible apply tryUnload_same | with_reducible exact Sub.up (by with_reducible assumption) (by decide) | fail_if_no_progress (with_reducible apply Same.upd <;> try first | with_reducible exact ⟨rfl, rfl⟩ | with_reducible exact Or.inr (Sub.up (by with_reducible assumption) (by decide)) | with_reducible exact Or.inl rfl) | (intro _) | dsimp only | (with_reducible refine Same.ofEq (by with_reducible assumption) ?_) | split)

theorem execCreateWheel_same {c s0 s} {a0} (h : Same c s0 s) (hc : Sub 11827 c := by first | with_reducible assumption | exact Sub.up (by with_reducible assumption) (by decide)) : SameOut c s0 (execCreateWheel a0 s) := by
  unfold execCreateWheel
  repeat' (first | with_reducible assumption | with_reducible refine Same.ite ?_ ?_ | with_reducible refine Same.ite2 ?_ ?_ | with_reducible refine SameOut.next ?_ | with_reducible exact SameOut.fault _ | with_reducible refine SameOut.ite ?_ ?_ | with_reducible apply adminRun_same | with_reducible apply adminEnd_same | with_reducible apply makeWheel_same | with_reducible exact Sub.up (by with_reducible assumption) (by decide) | fail_if_no_progress (with_reducible apply Same.upd <;> try first | with_reducible exact ⟨rfl, rfl⟩ | with_reducible exact Or.inr (Sub.up (by with_reducible assumption) (by decide)) | with_reducible exact Or.inl rfl) | (intro _) | dsimp only | (with_reducible refine Same.ofEq (by with_reducible assumption) ?_) | split)

theorem execDeleteWheel_same {c s0 s} {a0} (h : Same c s0 s) (hc : Sub 15923 c := by first | with_reducible assumption | exact Sub.up (by with_reducible assumption) (by decide)) : SameOut c s0 (execDeleteWheel a0 s) := by
  unfold execDeleteWheel
  repeat' (first | with_reducible assumption | with_reducible refine Same.ite ?_ ?_ | with_reducible refine Same.ite2 ?_ ?_ | with_reducible refine SameOut.next ?_ | with_reducible exact SameOut.fault _ | with_reducible refine SameOut.ite ?_ ?_ | with_reducible apply adminRun_same | with_reducible apply adminEnd_same | with_reducible apply dropWheel_same | with_reducible exact Sub.up (by with_reducible assumption) (by decide) | fail_if_no_progress (with_reducible apply Same.upd <;> try first | with_reducible exact ⟨rfl, rfl⟩ | with_reducible exact Or.inr (Sub.up (by with_reducible assumption) (by decide)) | with_reducible exact Or.inl rfl) | (intro _) | dsimp only | (with_reducible refine Same.ofEq (by with_reducible assumption) ?_) | split)

theorem execBindMove_same {c s0 s} {a0} (h : Same c s0 s) (hc : Sub 11827 c := by first | with_reducible assumption | exact Sub.up (by with_reducible assumption) (by decide)) : SameOut c s0 (execBindMove a0 s) := by
  unfold execBindMove
  repeat' (first | with_reducible assumption | with_reducible refine Same.ite ?_ ?_ | with_reducible refine Same.ite2 ?_ ?_ | with_reducible refine SameOut.next ?_ | with_reducible exact SameOut.fault _ | with_reducible refine SameOut.ite ?_ ?_ | with_reducible apply bindRun_same | with_reducible apply bindAccept_same | with_reducible exact Sub.up (by with_reducible assumption) (by decide) | fail_if_no_progress (with_reducible apply Same.upd <;> try first | with_reducible exact ⟨rfl, rfl⟩ | with_reducible exact Or.inr (Sub.up (by with_reducible assumption) (by decide)) | with_reducible exact Or.inl rfl) | (intro _) | dsimp only | (with_reducible refine Same.ofEq (by with_reducible assumption) ?_) | split)

theorem execBindVats_same {c s0 s} {a0} (h : Same c s0 s) (hc : Sub 11827 c := by first | with_reducible assumption | exact Sub.up (by with_reducible assumption) (by decide)) : SameOut c s0 (execBindVats a0 s) := by
  unfold execBindVats
  repeat' (first | with_reducible assumption | with_reducible refine Same.ite ?_ ?_ | with_reducible refine Same.ite2 ?_ ?_ | with_reducible refine SameOut.next ?_ | with_reducible exact SameOut.fault _ | with_reducible refine SameOut.ite ?_ ?_ | with_reducible apply bindRun_same | with_reducible apply bindAccept_same | with_reducible exact Sub.up (by with_reducible assumption) (by decide) | fail_if_no_progress (with_reducible apply Same.upd <;> try first | with_reducible exact ⟨rfl, rfl⟩ | with_reducible exact Or.inr (Sub.up (by with_reducible assumption) (by decide)) | with_reducible exact Or.inl rfl) | (intro _) | dsimp only | (with_reducible refine Same.ofEq (by with_reducible assumption) ?_) | split)

theorem execBindEvqs_same {c s0 s} {a0} (h : Same c s0 s) (hc : Sub 11827 c := by first | with_reducible assumption | exact Sub.up (by with_reducible assumption) (by decide)) : SameOut c s0 (execBindEvqs a0 s) := by
  unfold execBindEvqs
  repeat' (first | with_reducible assumption | with_reducible refine Same.ite ?_ ?_ | with_reducible refine Same.ite2 ?_ ?_ | with_reducible refine SameOut.next ?_ | with_reducible exact SameOut.fault _ | with_reducible refine SameOut.ite ?_ ?_ | with_reducible apply bindRun_same | with_reducible apply bindAccept_same | with_reducible exact Sub.up (by with_reducible assumption) (by decide) | fail_if_no_progress (with_reducible apply Same.upd <;> try first | with_reducible exact ⟨rfl, rfl⟩ | with_reducible exact Or.inr (Sub.up (by with_reducible assumption) (by decide)) | with_reducible exact Or.inl rfl) | (intro _) | dsimp only | (with_reducible refine Same.ofEq (by with_reducible assumption) ?_) | split)

theorem execBindShare_same {c s0 s} {a0} (h : Same c s0 s) (hc : Sub 11827 c := by first | with_reducible assumption | exact Sub.up (by with_reducible assumption) (by decide)) : SameOut c s0 (execBindShare a0 s) := by
  unfold execBindShare
  repeat' (first | with_reducible assumption | with_reducible refine Same.ite ?_ ?_ | with_reducible refine Same.ite2 ?_ ?_ | with_reducible refine SameOut.next ?_ | with_reducible exact SameOut.fault _ | with_reducible refine SameOut.ite ?_ ?_ | with_reducible apply bindRun_same | with_reducible apply bindAccept_same | with_reducible exact Sub.up (by with_reducible assumption) (by decide) | fail_if_no_progress (with_reducible apply Same.upd <;> try first | with_reducible exact ⟨rfl, rfl⟩ | with_reducible exact Or.inr (Sub.up (by with_reducible assumption) (by decide)) | with_reducible exact Or.inl rfl) | (intro _) | dsimp only | (with_reducible refine Same.ofEq (by with_reducible assumption) ?_) | split)

theorem execVfGrant_same {c s0 s} {a0} (h : Same c s0 s) (hc : Sub 11827 c := by first | with_reducible assumption | exact Sub.up (by with_reducible assumption) (by decide)) : SameOut c s0 (execVfGrant a0 s) := by
  unfold execVfGrant
  repeat' (first | with_reducible assumption | with_reducible refine Same.ite ?_ ?_ | with_reducible refine Same.ite2 ?_ ?_ | with_reducible refine SameOut.next ?_ | with_reducible exact SameOut.fault _ | with_reducible refine SameOut.ite ?_ ?_ | with_reducible apply bindRun_same | with_reducible apply bindAccept_same | with_reducible exact Sub.up (by with_reducible assumption) (by decide) | fail_if_no_progress (with_reducible apply Same.upd <;> try first | with_reducible exact ⟨rfl, rfl⟩ | with_reducible exact Or.inr (Sub.up (by with_reducible assumption) (by decide)) | with_reducible exact Or.inl rfl) | (intro _) | dsimp only | (with_reducible refine Same.ofEq (by with_reducible assumption) ?_) | split)

theorem execFuncReset_same {c s0 s} {a0} (h : Same c s0 s) (hc : Sub 15923 c := by first | with_reducible assumption | exact Sub.up (by with_reducible assumption) (by decide)) : SameOut c s0 (execFuncReset a0 s) := by
  unfold execFuncReset
  repeat' (first | with_reducible assumption | with_reducible refine Same.ite ?_ ?_ | with_reducible refine Same.ite2 ?_ ?_ | with_reducible refine SameOut.next ?_ | with_reducible exact SameOut.fault _ | with_reducible refine SameOut.ite ?_ ?_ | with_reducible apply bindRun_same | with_reducible apply bindAccept_same | with_reducible apply tearVats_same | with_reducible exact Sub.up (by with_reducible assumption) (by decide) | fail_if_no_progress (with_reducible apply Same.upd <;> try first | with_reducible exact ⟨rfl, rfl⟩ | with_reducible exact Or.inr (Sub.up (by with_reducible assumption) (by decide)) | with_reducible exact Or.inl rfl) | (intro _) | dsimp only | (with_reducible refine Same.ofEq (by with_reducible assumption) ?_) | split)

theorem execWheelReset_same {c s0 s} {a0} (h : Same c s0 s) (hc : Sub 15923 c := by first | with_reducible assumption | exact Sub.up (by with_reducible assumption) (by decide)) : SameOut c s0 (execWheelReset a0 s) := by
  unfold execWheelReset
  repeat' (first | with_reducible assumption | with_reducible refine Same.ite ?_ ?_ | with_reducible refine Same.ite2 ?_ ?_ | with_reducible refine SameOut.next ?_ | with_reducible exact SameOut.fault _ | with_reducible refine SameOut.ite ?_ ?_ | with_reducible apply bindRun_same | with_reducible apply bindAccept_same | with_reducible apply modWheel_same | with_reducible apply tearVats_same | with_reducible exact Sub.up (by with_reducible assumption) (by decide) | fail_if_no_progress (with_reducible apply Same.upd <;> try first | with_reducible exact ⟨rfl, rfl⟩ | with_reducible exact Or.inr (Sub.up (by with_reducible assumption) (by decide)) | with_reducible exact Or.inl rfl) | (intro _) | dsimp only | (with_reducible refine Same.ofEq (by with_reducible assumption) ?_) | split)

theorem execTranslationCompletion_same {c s0 s} {a0 a1 a2} (h : Same c s0 s) (hc : Sub 15923 c := by first | with_reducible assumption | exact Sub.up (by with_reducible assumption) (by decide)) : SameOut c s0 (execTranslationCompletion a0 a1 a2 s) := by
  unfold execTranslationCompletion
  repeat' (first | with_reducible assumption | with_reducible refine Same.ite ?_ ?_ | with_reducible refine Same.ite2 ?_ ?_ | with_reducible refine SameOut.next ?_ | with_reducible exact SameOut.fault _ | with_reducible refine SameOut.ite ?_ ?_ | with_reducible apply takeCompletion_same | with_reducible apply nextAts_same | with_reducible apply rescan_same | with_reducible exact Sub.up (by with_reducible assumption) (by decide) | fail_if_no_progress (with_reducible apply Same.upd <;> try first | with_reducible exact ⟨rfl, rfl⟩ | with_reducible exact Or.inr (Sub.up (by with_reducible assumption) (by decide)) | with_reducible exact Or.inl rfl) | (intro _) | dsimp only | (with_reducible refine Same.ofEq (by with_reducible assumption) ?_) | split)

theorem execWalkComplete_same {c s0 s} {a0 a1 a2} (h : Same c s0 s) (hc : Sub 15923 c := by first | with_reducible assumption | exact Sub.up (by with_reducible assumption) (by decide)) : SameOut c s0 (execWalkComplete a0 a1 a2 s) := by
  unfold execWalkComplete
  repeat' (first | with_reducible assumption | with_reducible refine Same.ite ?_ ?_ | with_reducible refine Same.ite2 ?_ ?_ | with_reducible refine SameOut.next ?_ | with_reducible exact SameOut.fault _ | with_reducible refine SameOut.ite ?_ ?_ | with_reducible apply addXlat_same | with_reducible apply cachePtrs_same | with_reducible apply rescan_same | with_reducible apply addFault_same | with_reducible exact Sub.up (by with_reducible assumption) (by decide) | fail_if_no_progress (with_reducible apply Same.upd <;> try first | with_reducible exact ⟨rfl, rfl⟩ | with_reducible exact Or.inr (Sub.up (by with_reducible assumption) (by decide)) | with_reducible exact Or.inl rfl) | (intro _) | dsimp only | (with_reducible refine Same.ofEq (by with_reducible assumption) ?_) | split)

theorem execPageRequestResponse_same {c s0 s} {a0 a1 a2} (h : Same c s0 s) (hc : Sub 15923 c := by first | with_reducible assumption | exact Sub.up (by with_reducible assumption) (by decide)) : SameOut c s0 (execPageRequestResponse a0 a1 a2 s) := by
  unfold execPageRequestResponse
  repeat' (first | with_reducible assumption | with_reducible refine Same.ite ?_ ?_ | with_reducible refine Same.ite2 ?_ ?_ | with_reducible refine SameOut.next ?_ | with_reducible exact SameOut.fault _ | with_reducible refine SameOut.ite ?_ ?_ | with_reducible apply freeIndex_same | with_reducible apply takePrg_same | with_reducible apply rescan_same | with_reducible apply tryEvict_same | with_reducible apply tryFrozen_same | with_reducible exact Sub.up (by with_reducible assumption) (by decide) | fail_if_no_progress (with_reducible apply Same.upd <;> try first | with_reducible exact ⟨rfl, rfl⟩ | with_reducible exact Or.inr (Sub.up (by with_reducible assumption) (by decide)) | with_reducible exact Or.inl rfl) | (intro _) | dsimp only | (with_reducible refine Same.ofEq (by with_reducible assumption) ?_) | split)

theorem execPriTimeout_same {c s0 s} {a0 a1} (h : Same c s0 s) (hc : Sub 15923 c := by first | with_reducible assumption | exact Sub.up (by with_reducible assumption) (by decide)) : SameOut c s0 (execPriTimeout a0 a1 s) := by
  unfold execPriTimeout
  repeat' (first | with_reducible assumption | with_reducible refine Same.ite ?_ ?_ | with_reducible refine Same.ite2 ?_ ?_ | with_reducible refine SameOut.next ?_ | with_reducible exact SameOut.fault _ | with_reducible refine SameOut.ite ?_ ?_ | with_reducible apply pageGone_same | with_reducible apply addFault_same | with_reducible apply rescan_same | with_reducible apply tryEvict_same | with_reducible apply tryFrozen_same | with_reducible exact Sub.up (by with_reducible assumption) (by decide) | fail_if_no_progress (with_reducible apply Same.upd <;> try first | with_reducible exact ⟨rfl, rfl⟩ | with_reducible exact Or.inr (Sub.up (by with_reducible assumption) (by decide)) | with_reducible exact Or.inl rfl) | (intro _) | dsimp only | (with_reducible refine Same.ofEq (by with_reducible assumption) ?_) | split)

theorem execPrgIndexFree_same {c s0 s} {a0 a1} (h : Same c s0 s) (hc : Sub 3635 c := by first | with_reducible assumption | exact Sub.up (by with_reducible assumption) (by decide)) : SameOut c s0 (execPrgIndexFree a0 a1 s) := by
  unfold execPrgIndexFree
  repeat' (first | with_reducible assumption | with_reducible refine Same.ite ?_ ?_ | with_reducible refine Same.ite2 ?_ ?_ | with_reducible refine SameOut.next ?_ | with_reducible exact SameOut.fault _ | with_reducible refine SameOut.ite ?_ ?_ | with_reducible apply freeIndex_same | with_reducible exact Sub.up (by with_reducible assumption) (by decide) | fail_if_no_progress (with_reducible apply Same.upd <;> try first | with_reducible exact ⟨rfl, rfl⟩ | with_reducible exact Or.inr (Sub.up (by with_reducible assumption) (by decide)) | with_reducible exact Or.inl rfl) | (intro _) | dsimp only | (with_reducible refine Same.ofEq (by with_reducible assumption) ?_) | split)

theorem execInvalidateRequest_same {c s0 s} {a0 a1 a2 a3 a4 a5} (h : Same c s0 s) (hc : Sub 1536 c := by first | with_reducible assumption | exact Sub.up (by with_reducible assumption) (by decide)) : SameOut c s0 (execInvalidateRequest a0 a1 a2 a3 a4 a5 s) := by
  unfold execInvalidateRequest
  repeat' (first | with_reducible assumption | with_reducible refine Same.ite ?_ ?_ | with_reducible refine Same.ite2 ?_ ?_ | with_reducible refine SameOut.next ?_ | with_reducible exact SameOut.fault _ | with_reducible refine SameOut.ite ?_ ?_ | with_reducible apply modHc_same | with_reducible exact Sub.up (by with_reducible assumption) (by decide) | fail_if_no_progress (with_reducible apply Same.upd <;> try first | with_reducible exact ⟨rfl, rfl⟩ | with_reducible exact Or.inr (Sub.up (by with_reducible assumption) (by decide)) | with_reducible exact Or.inl rfl) | (intro _) | dsimp only | (with_reducible refine Same.ofEq (by with_reducible assumption) ?_) | split)

theorem execInvalidateCompletion_same {c s0 s} {a0 a1} (h : Same c s0 s) (hc : Sub 15923 c := by first | with_reducible assumption | exact Sub.up (by with_reducible assumption) (by decide)) : SameOut c s0 (execInvalidateCompletion a0 a1 s) := by
  unfold execInvalidateCompletion
  repeat' (first | with_reducible assumption | with_reducible refine Same.ite ?_ ?_ | with_reducible refine Same.ite2 ?_ ?_ | with_reducible refine SameOut.next ?_ | with_reducible exact SameOut.fault _ | with_reducible refine SameOut.ite ?_ ?_ | with_reducible apply modHc_same | with_reducible apply emit_same | with_reducible apply rescan_same | with_reducible exact Sub.up (by with_reducible assumption) (by decide) | fail_if_no_progress (with_reducible apply Same.upd <;> try first | with_reducible exact ⟨rfl, rfl⟩ | with_reducible exact Or.inr (Sub.up (by with_reducible assumption) (by decide)) | with_reducible exact Or.inl rfl) | (intro _) | dsimp only | (with_reducible refine Same.ofEq (by with_reducible assumption) ?_) | split)

theorem execXlateFlush_same {c s0 s} {a0} (h : Same c s0 s) (hc : Sub 15923 c := by first | with_reducible assumption | exact Sub.up (by with_reducible assumption) (by decide)) : SameOut c s0 (execXlateFlush a0 s) := by
  unfold execXlateFlush
  repeat' (first | with_reducible assumption | with_reducible refine Same.ite ?_ ?_ | with_reducible refine Same.ite2 ?_ ?_ | with_reducible refine SameOut.next ?_ | with_reducible exact SameOut.fault _ | with_reducible refine SameOut.ite ?_ ?_ | with_reducible apply flushAll_same | with_reducible exact Sub.up (by with_reducible assumption) (by decide) | fail_if_no_progress (with_reducible apply Same.upd <;> try first | with_reducible exact ⟨rfl, rfl⟩ | with_reducible exact Or.inr (Sub.up (by with_reducible assumption) (by decide)) | with_reducible exact Or.inl rfl) | (intro _) | dsimp only | (with_reducible refine Same.ofEq (by with_reducible assumption) ?_) | split)

theorem execCopy_same {c s0 s} {a0 a1 a2} (h : Same c s0 s) (hc : Sub 65527 c := by first | with_reducible assumption | exact Sub.up (by with_reducible assumption) (by decide)) : SameOut c s0 (execCopy a0 a1 a2 s) := by
  unfold execCopy
  repeat' (first | with_reducible assumption | with_reducible refine Same.ite ?_ ?_ | with_reducible refine Same.ite2 ?_ ?_ | with_reducible refine SameOut.next ?_ | with_reducible exact SameOut.fault _ | with_reducible refine SameOut.ite ?_ ?_ | with_reducible apply runSeg_same | with_reducible apply moveCopy_same | with_reducible exact Sub.up (by with_reducible assumption) (by decide) | fail_if_no_progress (with_reducible apply Same.upd <;> try first | with_reducible exact ⟨rfl, rfl⟩ | with_reducible exact Or.inr (Sub.up (by with_reducible assumption) (by decide)) | with_reducible exact Or.inl rfl) | (intro _) | dsimp only | (with_reducible refine Same.ofEq (by with_reducible assumption) ?_) | split)

theorem execFill_same {c s0 s} {a0 a1 a2} (h : Same c s0 s) (hc : Sub 65527 c := by first | with_reducible assumption | exact Sub.up (by with_reducible assumption) (by decide)) : SameOut c s0 (execFill a0 a1 a2 s) := by
  unfold execFill
  repeat' (first | with_reducible assumption | with_reducible refine Same.ite ?_ ?_ | with_reducible refine Same.ite2 ?_ ?_ | with_reducible refine SameOut.next ?_ | with_reducible exact SameOut.fault _ | with_reducible refine SameOut.ite ?_ ?_ | with_reducible apply runSeg_same | with_reducible apply moveFill_same | with_reducible exact Sub.up (by with_reducible assumption) (by decide) | fail_if_no_progress (with_reducible apply Same.upd <;> try first | with_reducible exact ⟨rfl, rfl⟩ | with_reducible exact Or.inr (Sub.up (by with_reducible assumption) (by decide)) | with_reducible exact Or.inl rfl) | (intro _) | dsimp only | (with_reducible refine Same.ofEq (by with_reducible assumption) ?_) | split)

theorem execGather_same {c s0 s} {a0 a1 a2} (h : Same c s0 s) (hc : Sub 65527 c := by first | with_reducible assumption | exact Sub.up (by with_reducible assumption) (by decide)) : SameOut c s0 (execGather a0 a1 a2 s) := by
  unfold execGather
  repeat' (first | with_reducible assumption | with_reducible refine Same.ite ?_ ?_ | with_reducible refine Same.ite2 ?_ ?_ | with_reducible refine SameOut.next ?_ | with_reducible exact SameOut.fault _ | with_reducible refine SameOut.ite ?_ ?_ | with_reducible apply runSeg_same | with_reducible apply moveGather_same | with_reducible exact Sub.up (by with_reducible assumption) (by decide) | fail_if_no_progress (with_reducible apply Same.upd <;> try first | with_reducible exact ⟨rfl, rfl⟩ | with_reducible exact Or.inr (Sub.up (by with_reducible assumption) (by decide)) | with_reducible exact Or.inl rfl) | (intro _) | dsimp only | (with_reducible refine Same.ofEq (by with_reducible assumption) ?_) | split)

theorem execScatter_same {c s0 s} {a0 a1 a2} (h : Same c s0 s) (hc : Sub 65527 c := by first | with_reducible assumption | exact Sub.up (by with_reducible assumption) (by decide)) : SameOut c s0 (execScatter a0 a1 a2 s) := by
  unfold execScatter
  repeat' (first | with_reducible assumption | with_reducible refine Same.ite ?_ ?_ | with_reducible refine Same.ite2 ?_ ?_ | with_reducible refine SameOut.next ?_ | with_reducible exact SameOut.fault _ | with_reducible refine SameOut.ite ?_ ?_ | with_reducible apply runSeg_same | with_reducible apply moveScatter_same | with_reducible exact Sub.up (by with_reducible assumption) (by decide) | fail_if_no_progress (with_reducible apply Same.upd <;> try first | with_reducible exact ⟨rfl, rfl⟩ | with_reducible exact Or.inr (Sub.up (by with_reducible assumption) (by decide)) | with_reducible exact Or.inl rfl) | (intro _) | dsimp only | (with_reducible refine Same.ofEq (by with_reducible assumption) ?_) | split)

theorem execTransform_same {c s0 s} {a0 a1 a2} (h : Same c s0 s) (hc : Sub 65527 c := by first | with_reducible assumption | exact Sub.up (by with_reducible assumption) (by decide)) : SameOut c s0 (execTransform a0 a1 a2 s) := by
  unfold execTransform
  repeat' (first | with_reducible assumption | with_reducible refine Same.ite ?_ ?_ | with_reducible refine Same.ite2 ?_ ?_ | with_reducible refine SameOut.next ?_ | with_reducible exact SameOut.fault _ | with_reducible refine SameOut.ite ?_ ?_ | with_reducible apply runSeg_same | with_reducible apply moveRecipe_same | with_reducible exact Sub.up (by with_reducible assumption) (by decide) | fail_if_no_progress (with_reducible apply Same.upd <;> try first | with_reducible exact ⟨rfl, rfl⟩ | with_reducible exact Or.inr (Sub.up (by with_reducible assumption) (by decide)) | with_reducible exact Or.inl rfl) | (intro _) | dsimp only | (with_reducible refine Same.ofEq (by with_reducible assumption) ?_) | split)

theorem execReduce_same {c s0 s} {a0 a1 a2} (h : Same c s0 s) (hc : Sub 65527 c := by first | with_reducible assumption | exact Sub.up (by with_reducible assumption) (by decide)) : SameOut c s0 (execReduce a0 a1 a2 s) := by
  unfold execReduce
  repeat' (first | with_reducible assumption | with_reducible refine Same.ite ?_ ?_ | with_reducible refine Same.ite2 ?_ ?_ | with_reducible refine SameOut.next ?_ | with_reducible exact SameOut.fault _ | with_reducible refine SameOut.ite ?_ ?_ | with_reducible apply runSeg_same | with_reducible apply moveRecipe_same | with_reducible exact Sub.up (by with_reducible assumption) (by decide) | fail_if_no_progress (with_reducible apply Same.upd <;> try first | with_reducible exact ⟨rfl, rfl⟩ | with_reducible exact Or.inr (Sub.up (by with_reducible assumption) (by decide)) | with_reducible exact Or.inl rfl) | (intro _) | dsimp only | (with_reducible refine Same.ofEq (by with_reducible assumption) ?_) | split)

theorem execAccumulate_same {c s0 s} {a0 a1 a2} (h : Same c s0 s) (hc : Sub 65527 c := by first | with_reducible assumption | exact Sub.up (by with_reducible assumption) (by decide)) : SameOut c s0 (execAccumulate a0 a1 a2 s) := by
  unfold execAccumulate
  repeat' (first | with_reducible assumption | with_reducible refine Same.ite ?_ ?_ | with_reducible refine Same.ite2 ?_ ?_ | with_reducible refine SameOut.next ?_ | with_reducible exact SameOut.fault _ | with_reducible refine SameOut.ite ?_ ?_ | with_reducible apply runSeg_same | with_reducible apply moveAcc_same | with_reducible exact Sub.up (by with_reducible assumption) (by decide) | fail_if_no_progress (with_reducible apply Same.upd <;> try first | with_reducible exact ⟨rfl, rfl⟩ | with_reducible exact Or.inr (Sub.up (by with_reducible assumption) (by decide)) | with_reducible exact Or.inl rfl) | (intro _) | dsimp only | (with_reducible refine Same.ofEq (by with_reducible assumption) ?_) | split)

theorem execResolve_same {c s0 s} {a0 a1 a2} (h : Same c s0 s) (hc : Sub 65527 c := by first | with_reducible assumption | exact Sub.up (by with_reducible assumption) (by decide)) : SameOut c s0 (execResolve a0 a1 a2 s) := by
  unfold execResolve
  repeat' (first | with_reducible assumption | with_reducible refine Same.ite ?_ ?_ | with_reducible refine Same.ite2 ?_ ?_ | with_reducible refine SameOut.next ?_ | with_reducible exact SameOut.fault _ | with_reducible refine SameOut.ite ?_ ?_ | with_reducible apply runSeg_same | with_reducible apply moveResolve_same | with_reducible exact Sub.up (by with_reducible assumption) (by decide) | fail_if_no_progress (with_reducible apply Same.upd <;> try first | with_reducible exact ⟨rfl, rfl⟩ | with_reducible exact Or.inr (Sub.up (by with_reducible assumption) (by decide)) | with_reducible exact Or.inl rfl) | (intro _) | dsimp only | (with_reducible refine Same.ofEq (by with_reducible assumption) ?_) | split)

theorem execAtomic_same {c s0 s} {a0 a1 a2} (h : Same c s0 s) (hc : Sub 65527 c := by first | with_reducible assumption | exact Sub.up (by with_reducible assumption) (by decide)) : SameOut c s0 (execAtomic a0 a1 a2 s) := by
  unfold execAtomic
  repeat' (first | with_reducible assumption | with_reducible refine Same.ite ?_ ?_ | with_reducible refine Same.ite2 ?_ ?_ | with_reducible refine SameOut.next ?_ | with_reducible exact SameOut.fault _ | with_reducible refine SameOut.ite ?_ ?_ | with_reducible apply runSeg_same | with_reducible apply moveAtomic_same | with_reducible exact Sub.up (by with_reducible assumption) (by decide) | fail_if_no_progress (with_reducible apply Same.upd <;> try first | with_reducible exact ⟨rfl, rfl⟩ | with_reducible exact Or.inr (Sub.up (by with_reducible assumption) (by decide)) | with_reducible exact Or.inl rfl) | (intro _) | dsimp only | (with_reducible refine Same.ofEq (by with_reducible assumption) ?_) | split)

theorem execFenceSignal_same {c s0 s} {a0 a1} (h : Same c s0 s) (hc : Sub 65527 c := by first | with_reducible assumption | exact Sub.up (by with_reducible assumption) (by decide)) : SameOut c s0 (execFenceSignal a0 a1 s) := by
  unfold execFenceSignal
  repeat' (first | with_reducible assumption | with_reducible refine Same.ite ?_ ?_ | with_reducible refine Same.ite2 ?_ ?_ | with_reducible refine SameOut.next ?_ | with_reducible exact SameOut.fault _ | with_reducible refine SameOut.ite ?_ ?_ | with_reducible apply runSeg_same | with_reducible apply moveSignal_same | with_reducible exact Sub.up (by with_reducible assumption) (by decide) | fail_if_no_progress (with_reducible apply Same.upd <;> try first | with_reducible exact ⟨rfl, rfl⟩ | with_reducible exact Or.inr (Sub.up (by with_reducible assumption) (by decide)) | with_reducible exact Or.inl rfl) | (intro _) | dsimp only | (with_reducible refine Same.ofEq (by with_reducible assumption) ?_) | split)

theorem execFenceWait_same {c s0 s} {a0 a1} (h : Same c s0 s) (hc : Sub 15923 c := by first | with_reducible assumption | exact Sub.up (by with_reducible assumption) (by decide)) : SameOut c s0 (execFenceWait a0 a1 s) := by
  unfold execFenceWait
  repeat' (first | with_reducible assumption | with_reducible refine Same.ite ?_ ?_ | with_reducible refine Same.ite2 ?_ ?_ | with_reducible refine SameOut.next ?_ | with_reducible exact SameOut.fault _ | with_reducible refine SameOut.ite ?_ ?_ | with_reducible apply armWait_same | with_reducible exact Sub.up (by with_reducible assumption) (by decide) | fail_if_no_progress (with_reducible apply Same.upd <;> try first | with_reducible exact ⟨rfl, rfl⟩ | with_reducible exact Or.inr (Sub.up (by with_reducible assumption) (by decide)) | with_reducible exact Or.inl rfl) | (intro _) | dsimp only | (with_reducible refine Same.ofEq (by with_reducible assumption) ?_) | split)

theorem execPrefetch_same {c s0 s} {a0 a1 a2} (h : Same c s0 s) (hc : Sub 65527 c := by first | with_reducible assumption | exact Sub.up (by with_reducible assumption) (by decide)) : SameOut c s0 (execPrefetch a0 a1 a2 s) := by
  unfold execPrefetch
  repeat' (first | with_reducible assumption | with_reducible refine Same.ite ?_ ?_ | with_reducible refine Same.ite2 ?_ ?_ | with_reducible refine SameOut.next ?_ | with_reducible exact SameOut.fault _ | with_reducible refine SameOut.ite ?_ ?_ | with_reducible apply runSegWith_same | with_reducible apply moveTier_same | with_reducible exact Sub.up (by with_reducible assumption) (by decide) | fail_if_no_progress (with_reducible apply Same.upd <;> try first | with_reducible exact ⟨rfl, rfl⟩ | with_reducible exact Or.inr (Sub.up (by with_reducible assumption) (by decide)) | with_reducible exact Or.inl rfl) | (intro _) | dsimp only | (with_reducible refine Same.ofEq (by with_reducible assumption) ?_) | split)

theorem execAdvise_same {c s0 s} {a0 a1 a2} (h : Same c s0 s) (hc : Sub 65527 c := by first | with_reducible assumption | exact Sub.up (by with_reducible assumption) (by decide)) : SameOut c s0 (execAdvise a0 a1 a2 s) := by
  unfold execAdvise
  repeat' (first | with_reducible assumption | with_reducible refine Same.ite ?_ ?_ | with_reducible refine Same.ite2 ?_ ?_ | with_reducible refine SameOut.next ?_ | with_reducible exact SameOut.fault _ | with_reducible refine SameOut.ite ?_ ?_ | with_reducible apply runSegWith_same | with_reducible apply moveTier_same | with_reducible exact Sub.up (by with_reducible assumption) (by decide) | fail_if_no_progress (with_reducible apply Same.upd <;> try first | with_reducible exact ⟨rfl, rfl⟩ | with_reducible exact Or.inr (Sub.up (by with_reducible assumption) (by decide)) | with_reducible exact Or.inl rfl) | (intro _) | dsimp only | (with_reducible refine Same.ofEq (by with_reducible assumption) ?_) | split)

theorem execLaunch_same {c s0 s} {a0 a1} (h : Same c s0 s) (hc : Sub 65527 c := by first | with_reducible assumption | exact Sub.up (by with_reducible assumption) (by decide)) : SameOut c s0 (execLaunch a0 a1 s) := by
  unfold execLaunch
  repeat' (first | with_reducible assumption | with_reducible refine Same.ite ?_ ?_ | with_reducible refine Same.ite2 ?_ ?_ | with_reducible refine SameOut.next ?_ | with_reducible exact SameOut.fault _ | with_reducible refine SameOut.ite ?_ ?_ | with_reducible apply runLaunch_same | with_reducible exact Sub.up (by with_reducible assumption) (by decide) | fail_if_no_progress (with_reducible apply Same.upd <;> try first | with_reducible exact ⟨rfl, rfl⟩ | with_reducible exact Or.inr (Sub.up (by with_reducible assumption) (by decide)) | with_reducible exact Or.inl rfl) | (intro _) | dsimp only | (with_reducible refine Same.ofEq (by with_reducible assumption) ?_) | split)

theorem execInvalidate_same {c s0 s} {a0 a1} (h : Same c s0 s) (hc : Sub 15923 c := by first | with_reducible assumption | exact Sub.up (by with_reducible assumption) (by decide)) : SameOut c s0 (execInvalidate a0 a1 s) := by
  unfold execInvalidate
  repeat' (first | with_reducible assumption | with_reducible refine Same.ite ?_ ?_ | with_reducible refine Same.ite2 ?_ ?_ | with_reducible refine SameOut.next ?_ | with_reducible exact SameOut.fault _ | with_reducible refine SameOut.ite ?_ ?_ | with_reducible apply dropAsid_same | with_reducible apply dropRange_same | with_reducible apply modEntry_same | with_reducible apply rescan_same | with_reducible apply doneSeg_same | with_reducible exact Sub.up (by with_reducible assumption) (by decide) | fail_if_no_progress (with_reducible apply Same.upd <;> try first | with_reducible exact ⟨rfl, rfl⟩ | with_reducible exact Or.inr (Sub.up (by with_reducible assumption) (by decide)) | with_reducible exact Or.inl rfl) | (intro _) | dsimp only | (with_reducible refine Same.ofEq (by with_reducible assumption) ?_) | split)

theorem execNop_same {c s0 s} {a0 a1} (h : Same c s0 s) (hc : Sub 15923 c := by first | with_reducible assumption | exact Sub.up (by with_reducible assumption) (by decide)) : SameOut c s0 (execNop a0 a1 s) := by
  unfold execNop
  repeat' (first | with_reducible assumption | with_reducible refine Same.ite ?_ ?_ | with_reducible refine Same.ite2 ?_ ?_ | with_reducible refine SameOut.next ?_ | with_reducible exact SameOut.fault _ | with_reducible refine SameOut.ite ?_ ?_ | with_reducible apply doneSeg_same | with_reducible exact Sub.up (by with_reducible assumption) (by decide) | fail_if_no_progress (with_reducible apply Same.upd <;> try first | with_reducible exact ⟨rfl, rfl⟩ | with_reducible exact Or.inr (Sub.up (by with_reducible assumption) (by decide)) | with_reducible exact Or.inl rfl) | (intro _) | dsimp only | (with_reducible refine Same.ofEq (by with_reducible assumption) ?_) | split)

theorem execSegmentDone_same {c s0 s} {a0 a1 a2 a3} (h : Same c s0 s) (hc : Sub 15923 c := by first | with_reducible assumption | exact Sub.up (by with_reducible assumption) (by decide)) : SameOut c s0 (execSegmentDone a0 a1 a2 a3 s) := by
  unfold execSegmentDone
  repeat' (first | with_reducible assumption | with_reducible refine Same.ite ?_ ?_ | with_reducible refine Same.ite2 ?_ ?_ | with_reducible refine SameOut.next ?_ | with_reducible exact SameOut.fault _ | with_reducible refine SameOut.ite ?_ ?_ | with_reducible apply toWhey_same | with_reducible apply doneSeg_same | with_reducible apply when_same | with_reducible apply rescan_same | with_reducible apply failSeg_same | with_reducible exact Sub.up (by with_reducible assumption) (by decide) | fail_if_no_progress (with_reducible apply Same.upd <;> try first | with_reducible exact ⟨rfl, rfl⟩ | with_reducible exact Or.inr (Sub.up (by with_reducible assumption) (by decide)) | with_reducible exact Or.inl rfl) | (intro _) | dsimp only | (with_reducible refine Same.ofEq (by with_reducible assumption) ?_) | split)

theorem execFreeze_same {c s0 s} {a0} (h : Same c s0 s) (hc : Sub 7731 c := by first | with_reducible assumption | exact Sub.up (by with_reducible assumption) (by decide)) : SameOut c s0 (execFreeze a0 s) := by
  unfold execFreeze
  repeat' (first | with_reducible assumption | with_reducible refine Same.ite ?_ ?_ | with_reducible refine Same.ite2 ?_ ?_ | with_reducible refine SameOut.next ?_ | with_reducible exact SameOut.fault _ | with_reducible refine SameOut.ite ?_ ?_ | with_reducible apply adminRun_same | with_reducible apply adminEnd_same | with_reducible apply adminHold_same | with_reducible apply modFnS_same | with_reducible apply forAll_same | with_reducible apply disarmHoop_same | with_reducible apply unstartWaits_same | with_reducible apply cancelPages_same | with_reducible apply tryFrozen_same | with_reducible exact Sub.up (by with_reducible assumption) (by decide) | fail_if_no_progress (with_reducible apply Same.upd <;> try first | with_reducible exact ⟨rfl, rfl⟩ | with_reducible exact Or.inr (Sub.up (by with_reducible assumption) (by decide)) | with_reducible exact Or.inl rfl) | (intro _) | dsimp only | (with_reducible refine Same.ofEq (by with_reducible assumption) ?_) | split)

theorem execThaw_same {c s0 s} {a0} (h : Same c s0 s) (hc : Sub 7731 c := by first | with_reducible assumption | exact Sub.up (by with_reducible assumption) (by decide)) : SameOut c s0 (execThaw a0 s) := by
  unfold execThaw
  repeat' (first | with_reducible assumption | with_reducible refine Same.ite ?_ ?_ | with_reducible refine Same.ite2 ?_ ?_ | with_reducible refine SameOut.next ?_ | with_reducible exact SameOut.fault _ | with_reducible refine SameOut.ite ?_ ?_ | with_reducible apply adminRun_same | with_reducible apply adminEnd_same | with_reducible apply adminHold_same | with_reducible apply thawFn_same | with_reducible exact Sub.up (by with_reducible assumption) (by decide) | fail_if_no_progress (with_reducible apply Same.upd <;> try first | with_reducible exact ⟨rfl, rfl⟩ | with_reducible exact Or.inr (Sub.up (by with_reducible assumption) (by decide)) | with_reducible exact Or.inl rfl) | (intro _) | dsimp only | (with_reducible refine Same.ofEq (by with_reducible assumption) ?_) | split)

theorem execSaveState_same {c s0 s} {a0} (h : Same c s0 s) (hc : Sub 20019 c := by first | with_reducible assumption | exact Sub.up (by with_reducible assumption) (by decide)) : SameOut c s0 (execSaveState a0 s) := by
  unfold execSaveState
  repeat' (first | with_reducible assumption | with_reducible refine Same.ite ?_ ?_ | with_reducible refine Same.ite2 ?_ ?_ | with_reducible refine SameOut.next ?_ | with_reducible exact SameOut.fault _ | with_reducible refine SameOut.ite ?_ ?_ | with_reducible apply adminRun_same | with_reducible apply adminEnd_same | with_reducible apply modFnS_same | with_reducible apply adminHold_same | with_reducible apply adminOut_same | with_reducible apply modMig_same | with_reducible exact Sub.up (by with_reducible assumption) (by decide) | fail_if_no_progress (with_reducible apply Same.upd <;> try first | with_reducible exact ⟨rfl, rfl⟩ | with_reducible exact Or.inr (Sub.up (by with_reducible assumption) (by decide)) | with_reducible exact Or.inl rfl) | (intro _) | dsimp only | (with_reducible refine Same.ofEq (by with_reducible assumption) ?_) | split)

theorem execRestoreState_same {c s0 s} {a0} (h : Same c s0 s) (hc : Sub 20019 c := by first | with_reducible assumption | exact Sub.up (by with_reducible assumption) (by decide)) : SameOut c s0 (execRestoreState a0 s) := by
  unfold execRestoreState
  repeat' (first | with_reducible assumption | with_reducible refine Same.ite ?_ ?_ | with_reducible refine Same.ite2 ?_ ?_ | with_reducible refine SameOut.next ?_ | with_reducible exact SameOut.fault _ | with_reducible refine SameOut.ite ?_ ?_ | with_reducible apply adminRun_same | with_reducible apply adminEnd_same | with_reducible apply restoreFn_same | with_reducible apply modMig_same | with_reducible apply adminHold_same | with_reducible exact Sub.up (by with_reducible assumption) (by decide) | fail_if_no_progress (with_reducible apply Same.upd <;> try first | with_reducible exact ⟨rfl, rfl⟩ | with_reducible exact Or.inr (Sub.up (by with_reducible assumption) (by decide)) | with_reducible exact Or.inl rfl) | (intro _) | dsimp only | (with_reducible refine Same.ofEq (by with_reducible assumption) ?_) | split)

theorem execKeySessionOpen_same {c s0 s} {a0} (h : Same c s0 s) (hc : Sub 20019 c := by first | with_reducible assumption | exact Sub.up (by with_reducible assumption) (by decide)) : SameOut c s0 (execKeySessionOpen a0 s) := by
  unfold execKeySessionOpen
  repeat' (first | with_reducible assumption | with_reducible refine Same.ite ?_ ?_ | with_reducible refine Same.ite2 ?_ ?_ | with_reducible refine SameOut.next ?_ | with_reducible exact SameOut.fault _ | with_reducible refine SameOut.ite ?_ ?_ | with_reducible apply adminRun_same | with_reducible apply adminEnd_same | with_reducible apply drawKey_same | with_reducible apply ksTake_same | with_reducible apply modMig_same | with_reducible apply ksOut_same | with_reducible apply adminFinish_same | with_reducible exact Sub.up (by with_reducible assumption) (by decide) | fail_if_no_progress (with_reducible apply Same.upd <;> try first | with_reducible exact ⟨rfl, rfl⟩ | with_reducible exact Or.inr (Sub.up (by with_reducible assumption) (by decide)) | with_reducible exact Or.inl rfl) | (intro _) | dsimp only | (with_reducible refine Same.ofEq (by with_reducible assumption) ?_) | split)

theorem execKeySessionStep_same {c s0 s} {a0} (h : Same c s0 s) (hc : Sub 20019 c := by first | with_reducible assumption | exact Sub.up (by with_reducible assumption) (by decide)) : SameOut c s0 (execKeySessionStep a0 s) := by
  unfold execKeySessionStep
  repeat' (first | with_reducible assumption | with_reducible refine Same.ite ?_ ?_ | with_reducible refine Same.ite2 ?_ ?_ | with_reducible refine SameOut.next ?_ | with_reducible exact SameOut.fault _ | with_reducible refine SameOut.ite ?_ ?_ | with_reducible apply adminRun_same | with_reducible apply adminEnd_same | with_reducible apply ksTake_same | with_reducible exact Sub.up (by with_reducible assumption) (by decide) | fail_if_no_progress (with_reducible apply Same.upd <;> try first | with_reducible exact ⟨rfl, rfl⟩ | with_reducible exact Or.inr (Sub.up (by with_reducible assumption) (by decide)) | with_reducible exact Or.inl rfl) | (intro _) | dsimp only | (with_reducible refine Same.ofEq (by with_reducible assumption) ?_) | split)

theorem execKeySessionClose_same {c s0 s} {a0} (h : Same c s0 s) (hc : Sub 20019 c := by first | with_reducible assumption | exact Sub.up (by with_reducible assumption) (by decide)) : SameOut c s0 (execKeySessionClose a0 s) := by
  unfold execKeySessionClose
  repeat' (first | with_reducible assumption | with_reducible refine Same.ite ?_ ?_ | with_reducible refine Same.ite2 ?_ ?_ | with_reducible refine SameOut.next ?_ | with_reducible exact SameOut.fault _ | with_reducible refine SameOut.ite ?_ ?_ | with_reducible apply adminRun_same | with_reducible apply adminEnd_same | with_reducible apply closeMig_same | with_reducible apply ksOut_same | with_reducible apply adminFinish_same | with_reducible exact Sub.up (by with_reducible assumption) (by decide) | fail_if_no_progress (with_reducible apply Same.upd <;> try first | with_reducible exact ⟨rfl, rfl⟩ | with_reducible exact Or.inr (Sub.up (by with_reducible assumption) (by decide)) | with_reducible exact Or.inl rfl) | (intro _) | dsimp only | (with_reducible refine Same.ofEq (by with_reducible assumption) ?_) | split)

theorem execMramWriteWaitTimeout_same {c s0 s} (h : Same c s0 s) (hc : Sub 3891 c := by first | with_reducible assumption | exact Sub.up (by with_reducible assumption) (by decide)) : SameOut c s0 (execMramWriteWaitTimeout s) := by
  unfold execMramWriteWaitTimeout
  repeat' (first | with_reducible assumption | with_reducible refine Same.ite ?_ ?_ | with_reducible refine Same.ite2 ?_ ?_ | with_reducible refine SameOut.next ?_ | with_reducible exact SameOut.fault _ | with_reducible refine SameOut.ite ?_ ?_ | with_reducible apply mramFail_same | with_reducible exact Sub.up (by with_reducible assumption) (by decide) | fail_if_no_progress (with_reducible apply Same.upd <;> try first | with_reducible exact ⟨rfl, rfl⟩ | with_reducible exact Or.inr (Sub.up (by with_reducible assumption) (by decide)) | with_reducible exact Or.inl rfl) | (intro _) | dsimp only | (with_reducible refine Same.ofEq (by with_reducible assumption) ?_) | split)

theorem execLogRecordWrite_same {c s0 s} {a0} (h : Same c s0 s) (hc : Sub 65527 c := by first | with_reducible assumption | exact Sub.up (by with_reducible assumption) (by decide)) : SameOut c s0 (execLogRecordWrite a0 s) := by
  unfold execLogRecordWrite
  repeat' (first | with_reducible assumption | with_reducible refine Same.ite ?_ ?_ | with_reducible refine Same.ite2 ?_ ?_ | with_reducible refine SameOut.next ?_ | with_reducible exact SameOut.fault _ | with_reducible refine SameOut.ite ?_ ?_ | with_reducible apply mramWrite_same | with_reducible apply logLose_same | with_reducible apply severeFault_same | with_reducible apply logCommit_same | with_reducible apply countFault_same | with_reducible exact Sub.up (by with_reducible assumption) (by decide) | fail_if_no_progress (with_reducible apply Same.upd <;> try first | with_reducible exact ⟨rfl, rfl⟩ | with_reducible exact Or.inr (Sub.up (by with_reducible assumption) (by decide)) | with_reducible exact Or.inl rfl) | (intro _) | dsimp only | (with_reducible refine Same.ofEq (by with_reducible assumption) ?_) | split)

theorem execPortConfigCommit_same {c s0 s} (h : Same c s0 s) (hc : Sub 3891 c := by first | with_reducible assumption | exact Sub.up (by with_reducible assumption) (by decide)) : SameOut c s0 (execPortConfigCommit s) := by
  unfold execPortConfigCommit
  repeat' (first | with_reducible assumption | with_reducible refine Same.ite ?_ ?_ | with_reducible refine Same.ite2 ?_ ?_ | with_reducible refine SameOut.next ?_ | with_reducible exact SameOut.fault _ | with_reducible refine SameOut.ite ?_ ?_ | with_reducible apply mramWrite_same | with_reducible exact Sub.up (by with_reducible assumption) (by decide) | fail_if_no_progress (with_reducible apply Same.upd <;> try first | with_reducible exact ⟨rfl, rfl⟩ | with_reducible exact Or.inr (Sub.up (by with_reducible assumption) (by decide)) | with_reducible exact Or.inl rfl) | (intro _) | dsimp only | (with_reducible refine Same.ofEq (by with_reducible assumption) ?_) | split)

theorem execPortCalibrationDone_same {c s0 s} {a0 a1 a2} (h : Same c s0 s) (hc : Sub 3891 c := by first | with_reducible assumption | exact Sub.up (by with_reducible assumption) (by decide)) : SameOut c s0 (execPortCalibrationDone a0 a1 a2 s) := by
  unfold execPortCalibrationDone
  repeat' (first | with_reducible assumption | with_reducible refine Same.ite ?_ ?_ | with_reducible refine Same.ite2 ?_ ?_ | with_reducible refine SameOut.next ?_ | with_reducible exact SameOut.fault _ | with_reducible refine SameOut.ite ?_ ?_ | with_reducible apply mramWrite_same | with_reducible apply calDone_same | with_reducible exact Sub.up (by with_reducible assumption) (by decide) | fail_if_no_progress (with_reducible apply Same.upd <;> try first | with_reducible exact ⟨rfl, rfl⟩ | with_reducible exact Or.inr (Sub.up (by with_reducible assumption) (by decide)) | with_reducible exact Or.inl rfl) | (intro _) | dsimp only | (with_reducible refine Same.ofEq (by with_reducible assumption) ?_) | split)

theorem execCalibrate_same {c s0 s} {a0} (h : Same c s0 s) (hc : Sub 3635 c := by first | with_reducible assumption | exact Sub.up (by with_reducible assumption) (by decide)) : SameOut c s0 (execCalibrate a0 s) := by
  unfold execCalibrate
  repeat' (first | with_reducible assumption | with_reducible refine Same.ite ?_ ?_ | with_reducible refine Same.ite2 ?_ ?_ | with_reducible refine SameOut.next ?_ | with_reducible exact SameOut.fault _ | with_reducible refine SameOut.ite ?_ ?_ | with_reducible apply adminRun_same | with_reducible apply adminEnd_same | with_reducible apply adminHold_same | with_reducible apply modAdmin_same | with_reducible apply forAll_same | with_reducible apply modRsh_same | with_reducible exact Sub.up (by with_reducible assumption) (by decide) | fail_if_no_progress (with_reducible apply Same.upd <;> try first | with_reducible exact ⟨rfl, rfl⟩ | with_reducible exact Or.inr (Sub.up (by with_reducible assumption) (by decide)) | with_reducible exact Or.inl rfl) | (intro _) | dsimp only | (with_reducible refine Same.ofEq (by with_reducible assumption) ?_) | split)

theorem execSelftest_same {c s0 s} {a0} (h : Same c s0 s) (hc : Sub 3763 c := by first | with_reducible assumption | exact Sub.up (by with_reducible assumption) (by decide)) : SameOut c s0 (execSelftest a0 s) := by
  unfold execSelftest
  repeat' (first | with_reducible assumption | with_reducible refine Same.ite ?_ ?_ | with_reducible refine Same.ite2 ?_ ?_ | with_reducible refine SameOut.next ?_ | with_reducible exact SameOut.fault _ | with_reducible refine SameOut.ite ?_ ?_ | with_reducible apply adminRun_same | with_reducible apply adminEnd_same | with_reducible apply adminHold_same | with_reducible apply startTest_same | with_reducible exact Sub.up (by with_reducible assumption) (by decide) | fail_if_no_progress (with_reducible apply Same.upd <;> try first | with_reducible exact ⟨rfl, rfl⟩ | with_reducible exact Or.inr (Sub.up (by with_reducible assumption) (by decide)) | with_reducible exact Or.inl rfl) | (intro _) | dsimp only | (with_reducible refine Same.ofEq (by with_reducible assumption) ?_) | split)

theorem execFwUpdate_same {c s0 s} {a0 a1} (h : Same c s0 s) (hc : Sub 3891 c := by first | with_reducible assumption | exact Sub.up (by with_reducible assumption) (by decide)) : SameOut c s0 (execFwUpdate a0 a1 s) := by
  unfold execFwUpdate
  repeat' (first | with_reducible assumption | with_reducible refine Same.ite ?_ ?_ | with_reducible refine Same.ite2 ?_ ?_ | with_reducible refine SameOut.next ?_ | with_reducible exact SameOut.fault _ | with_reducible refine SameOut.ite ?_ ?_ | with_reducible apply adminRun_same | with_reducible apply adminEnd_same | with_reducible apply fwAbandon_same | with_reducible apply adminUnread_same | with_reducible apply modFwSlot_same | with_reducible apply adminHold_same | with_reducible exact Sub.up (by with_reducible assumption) (by decide) | fail_if_no_progress (with_reducible apply Same.upd <;> try first | with_reducible exact ⟨rfl, rfl⟩ | with_reducible exact Or.inr (Sub.up (by with_reducible assumption) (by decide)) | with_reducible exact Or.inl rfl) | (intro _) | dsimp only | (with_reducible refine Same.ofEq (by with_reducible assumption) ?_) | split)

theorem execFwActivate_same {c s0 s} {a0} (h : Same c s0 s) (hc : Sub 3891 c := by first | with_reducible assumption | exact Sub.up (by with_reducible assumption) (by decide)) : SameOut c s0 (execFwActivate a0 s) := by
  unfold execFwActivate
  repeat' (first | with_reducible assumption | with_reducible refine Same.ite ?_ ?_ | with_reducible refine Same.ite2 ?_ ?_ | with_reducible refine SameOut.next ?_ | with_reducible exact SameOut.fault _ | with_reducible refine SameOut.ite ?_ ?_ | with_reducible apply adminRun_same | with_reducible apply adminEnd_same | with_reducible apply fwAbandon_same | with_reducible apply adminHold_same | with_reducible exact Sub.up (by with_reducible assumption) (by decide) | fail_if_no_progress (with_reducible apply Same.upd <;> try first | with_reducible exact ⟨rfl, rfl⟩ | with_reducible exact Or.inr (Sub.up (by with_reducible assumption) (by decide)) | with_reducible exact Or.inl rfl) | (intro _) | dsimp only | (with_reducible refine Same.ofEq (by with_reducible assumption) ?_) | split)

theorem execAdminCommandComplete_same {c s0 s} {a0} (h : Same c s0 s) (hc : Sub 48947 c := by first | with_reducible assumption | exact Sub.up (by with_reducible assumption) (by decide)) : SameOut c s0 (execAdminCommandComplete a0 s) := by
  unfold execAdminCommandComplete
  repeat' (first | with_reducible assumption | with_reducible refine Same.ite ?_ ?_ | with_reducible refine Same.ite2 ?_ ?_ | with_reducible refine SameOut.next ?_ | with_reducible exact SameOut.fault _ | with_reducible refine SameOut.ite ?_ ?_ | with_reducible apply adminComplete_same | with_reducible exact Sub.up (by with_reducible assumption) (by decide) | fail_if_no_progress (with_reducible apply Same.upd <;> try first | with_reducible exact ⟨rfl, rfl⟩ | with_reducible exact Or.inr (Sub.up (by with_reducible assumption) (by decide)) | with_reducible exact Or.inl rfl) | (intro _) | dsimp only | (with_reducible refine Same.ofEq (by with_reducible assumption) ?_) | split)

theorem execHostCompletion_same {c s0 s} {a0 a1 a2} (h : Same c s0 s) (hc : Sub 65527 c := by first | with_reducible assumption | exact Sub.up (by with_reducible assumption) (by decide)) : SameOut c s0 (execHostCompletion a0 a1 a2 s) := by
  unfold execHostCompletion
  repeat' (first | with_reducible assumption | with_reducible refine Same.ite ?_ ?_ | with_reducible refine Same.ite2 ?_ ?_ | with_reducible refine SameOut.next ?_ | with_reducible exact SameOut.fault _ | with_reducible refine SameOut.ite ?_ ?_ | with_reducible apply dropTag_same | with_reducible apply askImage_same | with_reducible apply ownerAnswered_same | with_reducible apply when_same | with_reducible apply emit_same | with_reducible apply countFault_same | with_reducible apply hostReqFails_same | with_reducible exact Sub.up (by with_reducible assumption) (by decide) | fail_if_no_progress (with_reducible apply Same.upd <;> try first | with_reducible exact ⟨rfl, rfl⟩ | with_reducible exact Or.inr (Sub.up (by with_reducible assumption) (by decide)) | with_reducible exact Or.inl rfl) | (intro _) | dsimp only | (with_reducible refine Same.ofEq (by with_reducible assumption) ?_) | split)

theorem execCompletionTimeout_same {c s0 s} {a0 a1} (h : Same c s0 s) (hc : Sub 65527 c := by first | with_reducible assumption | exact Sub.up (by with_reducible assumption) (by decide)) : SameOut c s0 (execCompletionTimeout a0 a1 s) := by
  unfold execCompletionTimeout
  repeat' (first | with_reducible assumption | with_reducible refine Same.ite ?_ ?_ | with_reducible refine Same.ite2 ?_ ?_ | with_reducible refine SameOut.next ?_ | with_reducible exact SameOut.fault _ | with_reducible refine SameOut.ite ?_ ?_ | with_reducible apply dropTag_same | with_reducible apply when_same | with_reducible apply hcErr_same | with_reducible apply emit_same | with_reducible apply countFault_same | with_reducible apply hostReqFails_same | with_reducible exact Sub.up (by with_reducible assumption) (by decide) | fail_if_no_progress (with_reducible apply Same.upd <;> try first | with_reducible exact ⟨rfl, rfl⟩ | with_reducible exact Or.inr (Sub.up (by with_reducible assumption) (by decide)) | with_reducible exact Or.inl rfl) | (intro _) | dsimp only | (with_reducible refine Same.ofEq (by with_reducible assumption) ?_) | split)

theorem execBar2Read_same {c s0 s} {a0 a1 a2} (h : Same c s0 s) (hc : Sub 2 c := by first | with_reducible assumption | exact Sub.up (by with_reducible assumption) (by decide)) : SameOut c s0 (execBar2Read a0 a1 a2 s) := by
  unfold execBar2Read
  repeat' (first | with_reducible assumption | with_reducible refine Same.ite ?_ ?_ | with_reducible refine Same.ite2 ?_ ?_ | with_reducible refine SameOut.next ?_ | with_reducible exact SameOut.fault _ | with_reducible refine SameOut.ite ?_ ?_ | with_reducible apply fromHost_same | with_reducible apply bar2Answer_same | with_reducible apply bar2Reject_same | with_reducible exact Sub.up (by with_reducible assumption) (by decide) | fail_if_no_progress (with_reducible apply Same.upd <;> try first | with_reducible exact ⟨rfl, rfl⟩ | with_reducible exact Or.inr (Sub.up (by with_reducible assumption) (by decide)) | with_reducible exact Or.inl rfl) | (intro _) | dsimp only | (with_reducible refine Same.ofEq (by with_reducible assumption) ?_) | split)

theorem execBar2Write_same {c s0 s} {a0 a1 a2 a3} (h : Same c s0 s) (hc : Sub 65527 c := by first | with_reducible assumption | exact Sub.up (by with_reducible assumption) (by decide)) : SameOut c s0 (execBar2Write a0 a1 a2 a3 s) := by
  unfold execBar2Write
  repeat' (first | with_reducible assumption | with_reducible refine Same.ite ?_ ?_ | with_reducible refine Same.ite2 ?_ ?_ | with_reducible refine SameOut.next ?_ | with_reducible exact SameOut.fault _ | with_reducible refine SameOut.ite ?_ ?_ | with_reducible apply fromHost_same | with_reducible apply when_same | with_reducible apply hcErr_same | with_reducible apply emit_same | with_reducible apply countFault_same | with_reducible apply bar2Reject_same | with_reducible apply bar2Poison_same | with_reducible apply bar2Store_same | with_reducible exact Sub.up (by with_reducible assumption) (by decide) | fail_if_no_progress (with_reducible apply Same.upd <;> try first | with_reducible exact ⟨rfl, rfl⟩ | with_reducible exact Or.inr (Sub.up (by with_reducible assumption) (by decide)) | with_reducible exact Or.inl rfl) | (intro _) | dsimp only | (with_reducible refine Same.ofEq (by with_reducible assumption) ?_) | split)

theorem execBar2AtomicOp_same {c s0 s} {a0 a1 a2 a3 a4 a5} (h : Same c s0 s) (hc : Sub 3091 c := by first | with_reducible assumption | exact Sub.up (by with_reducible assumption) (by decide)) : SameOut c s0 (execBar2AtomicOp a0 a1 a2 a3 a4 a5 s) := by
  unfold execBar2AtomicOp
  repeat' (first | with_reducible assumption | with_reducible refine Same.ite ?_ ?_ | with_reducible refine Same.ite2 ?_ ?_ | with_reducible refine SameOut.next ?_ | with_reducible exact SameOut.fault _ | with_reducible refine SameOut.ite ?_ ?_ | with_reducible apply fromHost_same | with_reducible apply bar2Reject_same | with_reducible apply bar2Answer_same | with_reducible apply when_same | with_reducible apply bar2Store_same | with_reducible exact Sub.up (by with_reducible assumption) (by decide) | fail_if_no_progress (with_reducible apply Same.upd <;> try first | with_reducible exact ⟨rfl, rfl⟩ | with_reducible exact Or.inr (Sub.up (by with_reducible assumption) (by decide)) | with_reducible exact Or.inl rfl) | (intro _) | dsimp only | (with_reducible refine Same.ofEq (by with_reducible assumption) ?_) | split)

theorem execConfigRequest_same {c s0 s} {a0} (h : Same c s0 s) (hc : Sub 1570 c := by first | with_reducible assumption | exact Sub.up (by with_reducible assumption) (by decide)) : SameOut c s0 (execConfigRequest a0 s) := by
  unfold execConfigRequest
  repeat' (first | with_reducible assumption | with_reducible refine Same.ite ?_ ?_ | with_reducible refine Same.ite2 ?_ ?_ | with_reducible refine SameOut.next ?_ | with_reducible exact SameOut.fault _ | with_reducible refine SameOut.ite ?_ ?_ | with_reducible apply when_same | with_reducible apply cfgAnswer_same | with_reducible apply emit_same | with_reducible exact Sub.up (by with_reducible assumption) (by decide) | fail_if_no_progress (with_reducible apply Same.upd <;> try first | with_reducible exact ⟨rfl, rfl⟩ | with_reducible exact Or.inr (Sub.up (by with_reducible assumption) (by decide)) | with_reducible exact Or.inl rfl) | (intro _) | dsimp only | (with_reducible refine Same.ofEq (by with_reducible assumption) ?_) | split)

theorem execHostLinkTrained_same {c s0 s} {a0 a1 a2} (h : Same c s0 s) (hc : Sub 1024 c := by first | with_reducible assumption | exact Sub.up (by with_reducible assumption) (by decide)) : SameOut c s0 (execHostLinkTrained a0 a1 a2 s) := by
  unfold execHostLinkTrained
  repeat' (first | with_reducible assumption | with_reducible refine Same.ite ?_ ?_ | with_reducible refine Same.ite2 ?_ ?_ | with_reducible refine SameOut.next ?_ | with_reducible exact SameOut.fault _ | with_reducible refine SameOut.ite ?_ ?_ | with_reducible apply modHc_same | with_reducible apply tryFound_same | with_reducible exact Sub.up (by with_reducible assumption) (by decide) | fail_if_no_progress (with_reducible apply Same.upd <;> try first | with_reducible exact ⟨rfl, rfl⟩ | with_reducible exact Or.inr (Sub.up (by with_reducible assumption) (by decide)) | with_reducible exact Or.inl rfl) | (intro _) | dsimp only | (with_reducible refine Same.ofEq (by with_reducible assumption) ?_) | split)

theorem execHostLinkDown_same {c s0 s} {a0} (h : Same c s0 s) (hc : Sub 32563 c := by first | with_reducible assumption | exact Sub.up (by with_reducible assumption) (by decide)) : SameOut c s0 (execHostLinkDown a0 s) := by
  unfold execHostLinkDown
  repeat' (first | with_reducible assumption | with_reducible refine Same.ite ?_ ?_ | with_reducible refine Same.ite2 ?_ ?_ | with_reducible refine SameOut.next ?_ | with_reducible exact SameOut.fault _ | with_reducible refine SameOut.ite ?_ ?_ | with_reducible apply hcDown_same | with_reducible exact Sub.up (by with_reducible assumption) (by decide) | fail_if_no_progress (with_reducible apply Same.upd <;> try first | with_reducible exact ⟨rfl, rfl⟩ | with_reducible exact Or.inr (Sub.up (by with_reducible assumption) (by decide)) | with_reducible exact Or.inl rfl) | (intro _) | dsimp only | (with_reducible refine Same.ofEq (by with_reducible assumption) ?_) | split)

theorem execHotReset_same {c s0 s} {a0} (h : Same c s0 s) (hc : Sub 32563 c := by first | with_reducible assumption | exact Sub.up (by with_reducible assumption) (by decide)) : SameOut c s0 (execHotReset a0 s) := by
  unfold execHotReset
  repeat' (first | with_reducible assumption | with_reducible refine Same.ite ?_ ?_ | with_reducible refine Same.ite2 ?_ ?_ | with_reducible refine SameOut.next ?_ | with_reducible exact SameOut.fault _ | with_reducible refine SameOut.ite ?_ ?_ | with_reducible apply hostLoss_same | with_reducible exact Sub.up (by with_reducible assumption) (by decide) | fail_if_no_progress (with_reducible apply Same.upd <;> try first | with_reducible exact ⟨rfl, rfl⟩ | with_reducible exact Or.inr (Sub.up (by with_reducible assumption) (by decide)) | with_reducible exact Or.inl rfl) | (intro _) | dsimp only | (with_reducible refine Same.ofEq (by with_reducible assumption) ?_) | split)

theorem execPfFlr_same {c s0 s} {a0} (h : Same c s0 s) (hc : Sub 32563 c := by first | with_reducible assumption | exact Sub.up (by with_reducible assumption) (by decide)) : SameOut c s0 (execPfFlr a0 s) := by
  unfold execPfFlr
  repeat' (first | with_reducible assumption | with_reducible refine Same.ite ?_ ?_ | with_reducible refine Same.ite2 ?_ ?_ | with_reducible refine SameOut.next ?_ | with_reducible exact SameOut.fault _ | with_reducible refine SameOut.ite ?_ ?_ | with_reducible apply hostLoss_same | with_reducible exact Sub.up (by with_reducible assumption) (by decide) | fail_if_no_progress (with_reducible apply Same.upd <;> try first | with_reducible exact ⟨rfl, rfl⟩ | with_reducible exact Or.inr (Sub.up (by with_reducible assumption) (by decide)) | with_reducible exact Or.inl rfl) | (intro _) | dsimp only | (with_reducible refine Same.ofEq (by with_reducible assumption) ?_) | split)

theorem execHostTeardownComplete_same {c s0 s} {a0} (h : Same c s0 s) (hc : Sub 15923 c := by first | with_reducible assumption | exact Sub.up (by with_reducible assumption) (by decide)) : SameOut c s0 (execHostTeardownComplete a0 s) := by
  unfold execHostTeardownComplete
  repeat' (first | with_reducible assumption | with_reducible refine Same.ite ?_ ?_ | with_reducible refine Same.ite2 ?_ ?_ | with_reducible refine SameOut.next ?_ | with_reducible exact SameOut.fault _ | with_reducible refine SameOut.ite ?_ ?_ | with_reducible apply forAll_same | with_reducible apply finishTear_same | with_reducible apply modHc_same | with_reducible apply tryFound_same | with_reducible exact Sub.up (by with_reducible assumption) (by decide) | fail_if_no_progress (with_reducible apply Same.upd <;> try first | with_reducible exact ⟨rfl, rfl⟩ | with_reducible exact Or.inr (Sub.up (by with_reducible assumption) (by decide)) | with_reducible exact Or.inl rfl) | (intro _) | dsimp only | (with_reducible refine Same.ofEq (by with_reducible assumption) ?_) | split)

theorem execVfFlr_same {c s0 s} {a0 a1} (h : Same c s0 s) (hc : Sub 15923 c := by first | with_reducible assumption | exact Sub.up (by with_reducible assumption) (by decide)) : SameOut c s0 (execVfFlr a0 a1 s) := by
  unfold execVfFlr
  repeat' (first | with_reducible assumption | with_reducible refine Same.ite ?_ ?_ | with_reducible refine Same.ite2 ?_ ?_ | with_reducible refine SameOut.next ?_ | with_reducible exact SameOut.fault _ | with_reducible refine SameOut.ite ?_ ?_ | with_reducible apply flrVf_same | with_reducible apply modHc_same | with_reducible apply hcErr_same | with_reducible exact Sub.up (by with_reducible assumption) (by decide) | fail_if_no_progress (with_reducible apply Same.upd <;> try first | with_reducible exact ⟨rfl, rfl⟩ | with_reducible exact Or.inr (Sub.up (by with_reducible assumption) (by decide)) | with_reducible exact Or.inl rfl) | (intro _) | dsimp only | (with_reducible refine Same.ofEq (by with_reducible assumption) ?_) | split)

theorem execVfEnableSet_same {c s0 s} {a0 a1} (h : Same c s0 s) (hc : Sub 1056 c := by first | with_reducible assumption | exact Sub.up (by with_reducible assumption) (by decide)) : SameOut c s0 (execVfEnableSet a0 a1 s) := by
  unfold execVfEnableSet
  repeat' (first | with_reducible assumption | with_reducible refine Same.ite ?_ ?_ | with_reducible refine Same.ite2 ?_ ?_ | with_reducible refine SameOut.next ?_ | with_reducible exact SameOut.fault _ | with_reducible refine SameOut.ite ?_ ?_ | with_reducible apply modHc_same | with_reducible apply forAll_same | with_reducible apply modFnS_same | with_reducible apply hcErr_same | with_reducible exact Sub.up (by with_reducible assumption) (by decide) | fail_if_no_progress (with_reducible apply Same.upd <;> try first | with_reducible exact ⟨rfl, rfl⟩ | with_reducible exact Or.inr (Sub.up (by with_reducible assumption) (by decide)) | with_reducible exact Or.inl rfl) | (intro _) | dsimp only | (with_reducible refine Same.ofEq (by with_reducible assumption) ?_) | split)

theorem execVfEnableClear_same {c s0 s} {a0} (h : Same c s0 s) (hc : Sub 15923 c := by first | with_reducible assumption | exact Sub.up (by with_reducible assumption) (by decide)) : SameOut c s0 (execVfEnableClear a0 s) := by
  unfold execVfEnableClear
  repeat' (first | with_reducible assumption | with_reducible refine Same.ite ?_ ?_ | with_reducible refine Same.ite2 ?_ ?_ | with_reducible refine SameOut.next ?_ | with_reducible exact SameOut.fault _ | with_reducible refine SameOut.ite ?_ ?_ | with_reducible apply forAll_same | with_reducible apply flrVf_same | with_reducible apply returnVfs_same | with_reducible apply hcErr_same | with_reducible exact Sub.up (by with_reducible assumption) (by decide) | fail_if_no_progress (with_reducible apply Same.upd <;> try first | with_reducible exact ⟨rfl, rfl⟩ | with_reducible exact Or.inr (Sub.up (by with_reducible assumption) (by decide)) | with_reducible exact Or.inl rfl) | (intro _) | dsimp only | (with_reducible refine Same.ofEq (by with_reducible assumption) ?_) | split)

theorem execBusMasterEnable_same {c s0 s} {a0} (h : Same c s0 s) (hc : Sub 1024 c := by first | with_reducible assumption | exact Sub.up (by with_reducible assumption) (by decide)) : SameOut c s0 (execBusMasterEnable a0 s) := by
  unfold execBusMasterEnable
  repeat' (first | with_reducible assumption | with_reducible refine Same.ite ?_ ?_ | with_reducible refine Same.ite2 ?_ ?_ | with_reducible refine SameOut.next ?_ | with_reducible exact SameOut.fault _ | with_reducible refine SameOut.ite ?_ ?_ | with_reducible apply modHc_same | with_reducible apply tryFound_same | with_reducible exact Sub.up (by with_reducible assumption) (by decide) | fail_if_no_progress (with_reducible apply Same.upd <;> try first | with_reducible exact ⟨rfl, rfl⟩ | with_reducible exact Or.inr (Sub.up (by with_reducible assumption) (by decide)) | with_reducible exact Or.inl rfl) | (intro _) | dsimp only | (with_reducible refine Same.ofEq (by with_reducible assumption) ?_) | split)

theorem execPmcsrDState_same {c s0 s} {a0 a1} (h : Same c s0 s) (hc : Sub 32 c := by first | with_reducible assumption | exact Sub.up (by with_reducible assumption) (by decide)) : SameOut c s0 (execPmcsrDState a0 a1 s) := by
  unfold execPmcsrDState
  repeat' (first | with_reducible assumption | with_reducible refine Same.ite ?_ ?_ | with_reducible refine Same.ite2 ?_ ?_ | with_reducible refine SameOut.next ?_ | with_reducible exact SameOut.fault _ | with_reducible refine SameOut.ite ?_ ?_ | with_reducible apply modFnS_same | with_reducible exact Sub.up (by with_reducible assumption) (by decide) | fail_if_no_progress (with_reducible apply Same.upd <;> try first | with_reducible exact ⟨rfl, rfl⟩ | with_reducible exact Or.inr (Sub.up (by with_reducible assumption) (by decide)) | with_reducible exact Or.inl rfl) | (intro _) | dsimp only | (with_reducible refine Same.ofEq (by with_reducible assumption) ?_) | split)

theorem execL0pRequest_same {c s0 s} {a0 a1} (h : Same c s0 s) (hc : Sub 1026 c := by first | with_reducible assumption | exact Sub.up (by with_reducible assumption) (by decide)) : SameOut c s0 (execL0pRequest a0 a1 s) := by
  unfold execL0pRequest
  repeat' (first | with_reducible assumption | with_reducible refine Same.ite ?_ ?_ | with_reducible refine Same.ite2 ?_ ?_ | with_reducible refine SameOut.next ?_ | with_reducible exact SameOut.fault _ | with_reducible refine SameOut.ite ?_ ?_ | with_reducible apply modHc_same | with_reducible apply emit_same | with_reducible exact Sub.up (by with_reducible assumption) (by decide) | fail_if_no_progress (with_reducible apply Same.upd <;> try first | with_reducible exact ⟨rfl, rfl⟩ | with_reducible exact Or.inr (Sub.up (by with_reducible assumption) (by decide)) | with_reducible exact Or.inl rfl) | (intro _) | dsimp only | (with_reducible refine Same.ofEq (by with_reducible assumption) ?_) | split)

theorem execIdeKmQuery_same {c s0 s} {a0} (h : Same c s0 s) (hc : Sub 2 c := by first | with_reducible assumption | exact Sub.up (by with_reducible assumption) (by decide)) : SameOut c s0 (execIdeKmQuery a0 s) := by
  unfold execIdeKmQuery
  repeat' (first | with_reducible assumption | with_reducible refine Same.ite ?_ ?_ | with_reducible refine Same.ite2 ?_ ?_ | with_reducible refine SameOut.next ?_ | with_reducible exact SameOut.fault _ | with_reducible refine SameOut.ite ?_ ?_ | with_reducible apply ideRun_same | with_reducible apply emit_same | with_reducible exact Sub.up (by with_reducible assumption) (by decide) | fail_if_no_progress (with_reducible apply Same.upd <;> try first | with_reducible exact ⟨rfl, rfl⟩ | with_reducible exact Or.inr (Sub.up (by with_reducible assumption) (by decide)) | with_reducible exact Or.inl rfl) | (intro _) | dsimp only | (with_reducible refine Same.ofEq (by with_reducible assumption) ?_) | split)

theorem execIdeKmKeyProg_same {c s0 s} {a0 a1 a2} (h : Same c s0 s) (hc : Sub 1026 c := by first | with_reducible assumption | exact Sub.up (by with_reducible assumption) (by decide)) : SameOut c s0 (execIdeKmKeyProg a0 a1 a2 s) := by
  unfold execIdeKmKeyProg
  repeat' (first | with_reducible assumption | with_reducible refine Same.ite ?_ ?_ | with_reducible refine Same.ite2 ?_ ?_ | with_reducible refine SameOut.next ?_ | with_reducible exact SameOut.fault _ | with_reducible refine SameOut.ite ?_ ?_ | with_reducible apply ideRun_same | with_reducible apply modIde_same | with_reducible apply emit_same | with_reducible exact Sub.up (by with_reducible assumption) (by decide) | fail_if_no_progress (with_reducible apply Same.upd <;> try first | with_reducible exact ⟨rfl, rfl⟩ | with_reducible exact Or.inr (Sub.up (by with_reducible assumption) (by decide)) | with_reducible exact Or.inl rfl) | (intro _) | dsimp only | (with_reducible refine Same.ofEq (by with_reducible assumption) ?_) | split)

theorem execIdeKmKSetGo_same {c s0 s} {a0 a1 a2} (h : Same c s0 s) (hc : Sub 1026 c := by first | with_reducible assumption | exact Sub.up (by with_reducible assumption) (by decide)) : SameOut c s0 (execIdeKmKSetGo a0 a1 a2 s) := by
  unfold execIdeKmKSetGo
  repeat' (first | with_reducible assumption | with_reducible refine Same.ite ?_ ?_ | with_reducible refine Same.ite2 ?_ ?_ | with_reducible refine SameOut.next ?_ | with_reducible exact SameOut.fault _ | with_reducible refine SameOut.ite ?_ ?_ | with_reducible apply ideRun_same | with_reducible apply modIde_same | with_reducible apply emit_same | with_reducible exact Sub.up (by with_reducible assumption) (by decide) | fail_if_no_progress (with_reducible apply Same.upd <;> try first | with_reducible exact ⟨rfl, rfl⟩ | with_reducible exact Or.inr (Sub.up (by with_reducible assumption) (by decide)) | with_reducible exact Or.inl rfl) | (intro _) | dsimp only | (with_reducible refine Same.ofEq (by with_reducible assumption) ?_) | split)

theorem execIdeKmKSetStop_same {c s0 s} {a0 a1 a2} (h : Same c s0 s) (hc : Sub 1026 c := by first | with_reducible assumption | exact Sub.up (by with_reducible assumption) (by decide)) : SameOut c s0 (execIdeKmKSetStop a0 a1 a2 s) := by
  unfold execIdeKmKSetStop
  repeat' (first | with_reducible assumption | with_reducible refine Same.ite ?_ ?_ | with_reducible refine Same.ite2 ?_ ?_ | with_reducible refine SameOut.next ?_ | with_reducible exact SameOut.fault _ | with_reducible refine SameOut.ite ?_ ?_ | with_reducible apply ideRun_same | with_reducible apply modIde_same | with_reducible apply emit_same | with_reducible exact Sub.up (by with_reducible assumption) (by decide) | fail_if_no_progress (with_reducible apply Same.upd <;> try first | with_reducible exact ⟨rfl, rfl⟩ | with_reducible exact Or.inr (Sub.up (by with_reducible assumption) (by decide)) | with_reducible exact Or.inl rfl) | (intro _) | dsimp only | (with_reducible refine Same.ofEq (by with_reducible assumption) ?_) | split)

theorem execIdeCheckFailed_same {c s0 s} {a0 a1} (h : Same c s0 s) (hc : Sub 65527 c := by first | with_reducible assumption | exact Sub.up (by with_reducible assumption) (by decide)) : SameOut c s0 (execIdeCheckFailed a0 a1 s) := by
  unfold execIdeCheckFailed
  repeat' (first | with_reducible assumption | with_reducible refine Same.ite ?_ ?_ | with_reducible refine Same.ite2 ?_ ?_ | with_reducible refine SameOut.next ?_ | with_reducible exact SameOut.fault _ | with_reducible refine SameOut.ite ?_ ?_ | with_reducible apply modIde_same | with_reducible apply hcErr_same | with_reducible apply emit_same | with_reducible apply countFault_same | with_reducible exact Sub.up (by with_reducible assumption) (by decide) | fail_if_no_progress (with_reducible apply Same.upd <;> try first | with_reducible exact ⟨rfl, rfl⟩ | with_reducible exact Or.inr (Sub.up (by with_reducible assumption) (by decide)) | with_reducible exact Or.inl rfl) | (intro _) | dsimp only | (with_reducible refine Same.ofEq (by with_reducible assumption) ?_) | split)

theorem execHcLinkEnable_same {c s0 s} {a0 a1} (h : Same c s0 s) (hc : Sub 1280 c := by first | with_reducible assumption | exact Sub.up (by with_reducible assumption) (by decide)) : SameOut c s0 (execHcLinkEnable a0 a1 s) := by
  unfold execHcLinkEnable
  repeat' (first | with_reducible assumption | with_reducible refine Same.ite ?_ ?_ | with_reducible refine Same.ite2 ?_ ?_ | with_reducible refine SameOut.next ?_ | with_reducible exact SameOut.fault _ | with_reducible refine SameOut.ite ?_ ?_ | with_reducible apply hcEnable_same | with_reducible exact Sub.up (by with_reducible assumption) (by decide) | fail_if_no_progress (with_reducible apply Same.upd <;> try first | with_reducible exact ⟨rfl, rfl⟩ | with_reducible exact Or.inr (Sub.up (by with_reducible assumption) (by decide)) | with_reducible exact Or.inl rfl) | (intro _) | dsimp only | (with_reducible refine Same.ofEq (by with_reducible assumption) ?_) | split)

theorem execHcLinkDisable_same {c s0 s} {a0 a1} (h : Same c s0 s) (hc : Sub 32563 c := by first | with_reducible assumption | exact Sub.up (by with_reducible assumption) (by decide)) : SameOut c s0 (execHcLinkDisable a0 a1 s) := by
  unfold execHcLinkDisable
  repeat' (first | with_reducible assumption | with_reducible refine Same.ite ?_ ?_ | with_reducible refine Same.ite2 ?_ ?_ | with_reducible refine SameOut.next ?_ | with_reducible exact SameOut.fault _ | with_reducible refine SameOut.ite ?_ ?_ | with_reducible apply hcDisable_same | with_reducible exact Sub.up (by with_reducible assumption) (by decide) | fail_if_no_progress (with_reducible apply Same.upd <;> try first | with_reducible exact ⟨rfl, rfl⟩ | with_reducible exact Or.inr (Sub.up (by with_reducible assumption) (by decide)) | with_reducible exact Or.inl rfl) | (intro _) | dsimp only | (with_reducible refine Same.ofEq (by with_reducible assumption) ?_) | split)

theorem execSnpData_same {c s0 s} {a0 a1} (h : Same c s0 s) (hc : Sub 15923 c := by first | with_reducible assumption | exact Sub.up (by with_reducible assumption) (by decide)) : SameOut c s0 (execSnpData a0 a1 s) := by
  unfold execSnpData
  repeat' (first | with_reducible assumption | with_reducible refine Same.ite ?_ ?_ | with_reducible refine Same.ite2 ?_ ?_ | with_reducible refine SameOut.next ?_ | with_reducible exact SameOut.fault _ | with_reducible refine SameOut.ite ?_ ?_ | with_reducible apply snoopLine_same | with_reducible exact Sub.up (by with_reducible assumption) (by decide) | fail_if_no_progress (with_reducible apply Same.upd <;> try first | with_reducible exact ⟨rfl, rfl⟩ | with_reducible exact Or.inr (Sub.up (by with_reducible assumption) (by decide)) | with_reducible exact Or.inl rfl) | (intro _) | dsimp only | (with_reducible refine Same.ofEq (by with_reducible assumption) ?_) | split)

theorem execSnpInv_same {c s0 s} {a0 a1} (h : Same c s0 s) (hc : Sub 15923 c := by first | with_reducible assumption | exact Sub.up (by with_reducible assumption) (by decide)) : SameOut c s0 (execSnpInv a0 a1 s) := by
  unfold execSnpInv
  repeat' (first | with_reducible assumption | with_reducible refine Same.ite ?_ ?_ | with_reducible refine Same.ite2 ?_ ?_ | with_reducible refine SameOut.next ?_ | with_reducible exact SameOut.fault _ | with_reducible refine SameOut.ite ?_ ?_ | with_reducible apply snoopLine_same | with_reducible exact Sub.up (by with_reducible assumption) (by decide) | fail_if_no_progress (with_reducible apply Same.upd <;> try first | with_reducible exact ⟨rfl, rfl⟩ | with_reducible exact Or.inr (Sub.up (by with_reducible assumption) (by decide)) | with_reducible exact Or.inl rfl) | (intro _) | dsimp only | (with_reducible refine Same.ofEq (by with_reducible assumption) ?_) | split)

theorem execSnpCur_same {c s0 s} {a0 a1} (h : Same c s0 s) (hc : Sub 15923 c := by first | with_reducible assumption | exact Sub.up (by with_reducible assumption) (by decide)) : SameOut c s0 (execSnpCur a0 a1 s) := by
  unfold execSnpCur
  repeat' (first | with_reducible assumption | with_reducible refine Same.ite ?_ ?_ | with_reducible refine Same.ite2 ?_ ?_ | with_reducible refine SameOut.next ?_ | with_reducible exact SameOut.fault _ | with_reducible refine SameOut.ite ?_ ?_ | with_reducible apply snoopLine_same | with_reducible exact Sub.up (by with_reducible assumption) (by decide) | fail_if_no_progress (with_reducible apply Same.upd <;> try first | with_reducible exact ⟨rfl, rfl⟩ | with_reducible exact Or.inr (Sub.up (by with_reducible assumption) (by decide)) | with_reducible exact Or.inl rfl) | (intro _) | dsimp only | (with_reducible refine Same.ofEq (by with_reducible assumption) ?_) | split)

theorem execGoWritePull_same {c s0 s} {a0 a1} (h : Same c s0 s) (hc : Sub 15923 c := by first | with_reducible assumption | exact Sub.up (by with_reducible assumption) (by decide)) : SameOut c s0 (execGoWritePull a0 a1 s) := by
  unfold execGoWritePull
  repeat' (first | with_reducible assumption | with_reducible refine Same.ite ?_ ?_ | with_reducible refine Same.ite2 ?_ ?_ | with_reducible refine SameOut.next ?_ | with_reducible exact SameOut.fault _ | with_reducible refine SameOut.ite ?_ ?_ | with_reducible apply endEvict_same | with_reducible apply emit_same | with_reducible apply rescan_same | with_reducible exact Sub.up (by with_reducible assumption) (by decide) | fail_if_no_progress (with_reducible apply Same.upd <;> try first | with_reducible exact ⟨rfl, rfl⟩ | with_reducible exact Or.inr (Sub.up (by with_reducible assumption) (by decide)) | with_reducible exact Or.inl rfl) | (intro _) | dsimp only | (with_reducible refine Same.ofEq (by with_reducible assumption) ?_) | split)

theorem execGoWritePullDrop_same {c s0 s} {a0 a1} (h : Same c s0 s) (hc : Sub 15923 c := by first | with_reducible assumption | exact Sub.up (by with_reducible assumption) (by decide)) : SameOut c s0 (execGoWritePullDrop a0 a1 s) := by
  unfold execGoWritePullDrop
  repeat' (first | with_reducible assumption | with_reducible refine Same.ite ?_ ?_ | with_reducible refine Same.ite2 ?_ ?_ | with_reducible refine SameOut.next ?_ | with_reducible exact SameOut.fault _ | with_reducible refine SameOut.ite ?_ ?_ | with_reducible apply endEvict_same | with_reducible apply rescan_same | with_reducible exact Sub.up (by with_reducible assumption) (by decide) | fail_if_no_progress (with_reducible apply Same.upd <;> try first | with_reducible exact ⟨rfl, rfl⟩ | with_reducible exact Or.inr (Sub.up (by with_reducible assumption) (by decide)) | with_reducible exact Or.inl rfl) | (intro _) | dsimp only | (with_reducible refine Same.ofEq (by with_reducible assumption) ?_) | split)

theorem execCacheFillGo_same {c s0 s} {a0 a1 a2 a3} (h : Same c s0 s) (hc : Sub 15923 c := by first | with_reducible assumption | exact Sub.up (by with_reducible assumption) (by decide)) : SameOut c s0 (execCacheFillGo a0 a1 a2 a3 s) := by
  unfold execCacheFillGo
  repeat' (first | with_reducible assumption | with_reducible refine Same.ite ?_ ?_ | with_reducible refine Same.ite2 ?_ ?_ | with_reducible refine SameOut.next ?_ | with_reducible exact SameOut.fault _ | with_reducible refine SameOut.ite ?_ ?_ | with_reducible apply takeFill_same | with_reducible apply forAll_same | with_reducible apply readWatcher_same | with_reducible apply rescan_same | with_reducible exact Sub.up (by with_reducible assumption) (by decide) | fail_if_no_progress (with_reducible apply Same.upd <;> try first | with_reducible exact ⟨rfl, rfl⟩ | with_reducible exact Or.inr (Sub.up (by with_reducible assumption) (by decide)) | with_reducible exact Or.inl rfl) | (intro _) | dsimp only | (with_reducible refine Same.ofEq (by with_reducible assumption) ?_) | split)

theorem execHdmRequest_same {c s0 s} {a0 a1 a2 a3} (h : Same c s0 s) (hc : Sub 3091 c := by first | with_reducible assumption | exact Sub.up (by with_reducible assumption) (by decide)) : SameOut c s0 (execHdmRequest a0 a1 a2 a3 s) := by
  unfold execHdmRequest
  repeat' (first | with_reducible assumption | with_reducible refine Same.ite ?_ ?_ | with_reducible refine Same.ite2 ?_ ?_ | with_reducible refine SameOut.next ?_ | with_reducible exact SameOut.fault _ | with_reducible refine SameOut.ite ?_ ?_ | with_reducible apply hcErr_same | with_reducible apply emit_same | with_reducible apply hdmRead_same | with_reducible apply hdmServe_same | with_reducible apply storeAt_same | with_reducible exact Sub.up (by with_reducible assumption) (by decide) | fail_if_no_progress (with_reducible apply Same.upd <;> try first | with_reducible exact ⟨rfl, rfl⟩ | with_reducible exact Or.inr (Sub.up (by with_reducible assumption) (by decide)) | with_reducible exact Or.inl rfl) | (intro _) | dsimp only | (with_reducible refine Same.ofEq (by with_reducible assumption) ?_) | split)

theorem execBiRsp_same {c s0 s} {a0 a1 a2} (h : Same c s0 s) (hc : Sub 15923 c := by first | with_reducible assumption | exact Sub.up (by with_reducible assumption) (by decide)) : SameOut c s0 (execBiRsp a0 a1 a2 s) := by
  unfold execBiRsp
  repeat' (first | with_reducible assumption | with_reducible refine Same.ite ?_ ?_ | with_reducible refine Same.ite2 ?_ ?_ | with_reducible refine SameOut.next ?_ | with_reducible exact SameOut.fault _ | with_reducible refine SameOut.ite ?_ ?_ | with_reducible apply storeAt_same | with_reducible apply rescan_same | with_reducible apply dropFilter_same | with_reducible apply forAll_same | with_reducible apply releaseWaiter_same | with_reducible exact Sub.up (by with_reducible assumption) (by decide) | fail_if_no_progress (with_reducible apply Same.upd <;> try first | with_reducible exact ⟨rfl, rfl⟩ | with_reducible exact Or.inr (Sub.up (by with_reducible assumption) (by decide)) | with_reducible exact Or.inl rfl) | (intro _) | dsimp only | (with_reducible refine Same.ofEq (by with_reducible assumption) ?_) | split)

theorem execBiSnpTimeout_same {c s0 s} {a0 a1} (h : Same c s0 s) (hc : Sub 16179 c := by first | with_reducible assumption | exact Sub.up (by with_reducible assumption) (by decide)) : SameOut c s0 (execBiSnpTimeout a0 a1 s) := by
  unfold execBiSnpTimeout
  repeat' (first | with_reducible assumption | with_reducible refine Same.ite ?_ ?_ | with_reducible refine Same.ite2 ?_ ?_ | with_reducible refine SameOut.next ?_ | with_reducible exact SameOut.fault _ | with_reducible refine SameOut.ite ?_ ?_ | with_reducible apply hcErr_same | with_reducible apply forAll_same | with_reducible apply ownerFails_same | with_reducible exact Sub.up (by with_reducible assumption) (by decide) | fail_if_no_progress (with_reducible apply Same.upd <;> try first | with_reducible exact ⟨rfl, rfl⟩ | with_reducible exact Or.inr (Sub.up (by with_reducible assumption) (by decide)) | with_reducible exact Or.inl rfl) | (intro _) | dsimp only | (with_reducible refine Same.ofEq (by with_reducible assumption) ?_) | split)

theorem execFarLinkUp_same {c s0 s} {a0 a1} (h : Same c s0 s) (hc : Sub 17410 c := by first | with_reducible assumption | exact Sub.up (by with_reducible assumption) (by decide)) : SameOut c s0 (execFarLinkUp a0 a1 s) := by
  unfold execFarLinkUp
  repeat' (first | with_reducible assumption | with_reducible refine Same.ite ?_ ?_ | with_reducible refine Same.ite2 ?_ ?_ | with_reducible refine SameOut.next ?_ | with_reducible exact SameOut.fault _ | with_reducible refine SameOut.ite ?_ ?_ | with_reducible apply drawKey_same | with_reducible apply modHc_same | with_reducible apply when_same | with_reducible apply emit_same | with_reducible apply hcErr_same | with_reducible exact Sub.up (by with_reducible assumption) (by decide) | fail_if_no_progress (with_reducible apply Same.upd <;> try first | with_reducible exact ⟨rfl, rfl⟩ | with_reducible exact Or.inr (Sub.up (by with_reducible assumption) (by decide)) | with_reducible exact Or.inl rfl) | (intro _) | dsimp only | (with_reducible refine Same.ofEq (by with_reducible assumption) ?_) | split)

theorem execFarMediaReady_same {c s0 s} {a0 a1} (h : Same c s0 s) (hc : Sub 1024 c := by first | with_reducible assumption | exact Sub.up (by with_reducible assumption) (by decide)) : SameOut c s0 (execFarMediaReady a0 a1 s) := by
  unfold execFarMediaReady
  repeat' (first | with_reducible assumption | with_reducible refine Same.ite ?_ ?_ | with_reducible refine Same.ite2 ?_ ?_ | with_reducible refine SameOut.next ?_ | with_reducible exact SameOut.fault _ | with_reducible refine SameOut.ite ?_ ?_ | with_reducible apply modHc_same | with_reducible exact Sub.up (by with_reducible assumption) (by decide) | fail_if_no_progress (with_reducible apply Same.upd <;> try first | with_reducible exact ⟨rfl, rfl⟩ | with_reducible exact Or.inr (Sub.up (by with_reducible assumption) (by decide)) | with_reducible exact Or.inl rfl) | (intro _) | dsimp only | (with_reducible refine Same.ofEq (by with_reducible assumption) ?_) | split)

theorem execFarResponse_same {c s0 s} {a0 a1 a2} (h : Same c s0 s) (hc : Sub 16179 c := by first | with_reducible assumption | exact Sub.up (by with_reducible assumption) (by decide)) : SameOut c s0 (execFarResponse a0 a1 a2 s) := by
  unfold execFarResponse
  repeat' (first | with_reducible assumption | with_reducible refine Same.ite ?_ ?_ | with_reducible refine Same.ite2 ?_ ?_ | with_reducible refine SameOut.next ?_ | with_reducible exact SameOut.fault _ | with_reducible refine SameOut.ite ?_ ?_ | with_reducible apply dropTag_same | with_reducible apply ownerAnswered_same | with_reducible apply ownerFails_same | with_reducible exact Sub.up (by with_reducible assumption) (by decide) | fail_if_no_progress (with_reducible apply Same.upd <;> try first | with_reducible exact ⟨rfl, rfl⟩ | with_reducible exact Or.inr (Sub.up (by with_reducible assumption) (by decide)) | with_reducible exact Or.inl rfl) | (intro _) | dsimp only | (with_reducible refine Same.ofEq (by with_reducible assumption) ?_) | split)

theorem execFarTimeout_same {c s0 s} {a0 a1} (h : Same c s0 s) (hc : Sub 65527 c := by first | with_reducible assumption | exact Sub.up (by with_reducible assumption) (by decide)) : SameOut c s0 (execFarTimeout a0 a1 s) := by
  unfold execFarTimeout
  repeat' (first | with_reducible assumption | with_reducible refine Same.ite ?_ ?_ | with_reducible refine Same.ite2 ?_ ?_ | with_reducible refine SameOut.next ?_ | with_reducible exact SameOut.fault _ | with_reducible refine SameOut.ite ?_ ?_ | with_reducible apply dropTag_same | with_reducible apply countFault_same | with_reducible apply ownerFails_same | with_reducible exact Sub.up (by with_reducible assumption) (by decide) | fail_if_no_progress (with_reducible apply Same.upd <;> try first | with_reducible exact ⟨rfl, rfl⟩ | with_reducible exact Or.inr (Sub.up (by with_reducible assumption) (by decide)) | with_reducible exact Or.inl rfl) | (intro _) | dsimp only | (with_reducible refine Same.ofEq (by with_reducible assumption) ?_) | split)

theorem execFarLinkDown_same {c s0 s} {a0} (h : Same c s0 s) (hc : Sub 32563 c := by first | with_reducible assumption | exact Sub.up (by with_reducible assumption) (by decide)) : SameOut c s0 (execFarLinkDown a0 s) := by
  unfold execFarLinkDown
  repeat' (first | with_reducible assumption | with_reducible refine Same.ite ?_ ?_ | with_reducible refine Same.ite2 ?_ ?_ | with_reducible refine SameOut.next ?_ | with_reducible exact SameOut.fault _ | with_reducible refine SameOut.ite ?_ ?_ | with_reducible apply hcDown_same | with_reducible exact Sub.up (by with_reducible assumption) (by decide) | fail_if_no_progress (with_reducible apply Same.upd <;> try first | with_reducible exact ⟨rfl, rfl⟩ | with_reducible exact Or.inr (Sub.up (by with_reducible assumption) (by decide)) | with_reducible exact Or.inl rfl) | (intro _) | dsimp only | (with_reducible refine Same.ofEq (by with_reducible assumption) ?_) | split)

theorem execHdmWinWrite_same {c s0 s} {a0 a1 a2 a3} (h : Same c s0 s) (hc : Sub 1026 c := by first | with_reducible assumption | exact Sub.up (by with_reducible assumption) (by decide)) : SameOut c s0 (execHdmWinWrite a0 a1 a2 a3 s) := by
  unfold execHdmWinWrite
  repeat' (first | with_reducible assumption | with_reducible refine Same.ite ?_ ?_ | with_reducible refine Same.ite2 ?_ ?_ | with_reducible refine SameOut.next ?_ | with_reducible exact SameOut.fault _ | with_reducible refine SameOut.ite ?_ ?_ | with_reducible apply hdmWinWrite_same | with_reducible exact Sub.up (by with_reducible assumption) (by decide) | fail_if_no_progress (with_reducible apply Same.upd <;> try first | with_reducible exact ⟨rfl, rfl⟩ | with_reducible exact Or.inr (Sub.up (by with_reducible assumption) (by decide)) | with_reducible exact Or.inl rfl) | (intro _) | dsimp only | (with_reducible refine Same.ofEq (by with_reducible assumption) ?_) | split)

theorem execRdReq_same {c s0 s} {a0 a1} (h : Same c s0 s) (hc : Sub 7187 c := by first | with_reducible assumption | exact Sub.up (by with_reducible assumption) (by decide)) : SameOut c s0 (execRdReq a0 a1 s) := by
  unfold execRdReq
  repeat' (first | with_reducible assumption | with_reducible refine Same.ite ?_ ?_ | with_reducible refine Same.ite2 ?_ ?_ | with_reducible refine SameOut.next ?_ | with_reducible exact SameOut.fault _ | with_reducible refine SameOut.ite ?_ ?_ | with_reducible apply atNode_same | with_reducible apply peerServe_same | with_reducible exact Sub.up (by with_reducible assumption) (by decide) | fail_if_no_progress (with_reducible apply Same.upd <;> try first | with_reducible exact ⟨rfl, rfl⟩ | with_reducible exact Or.inr (Sub.up (by with_reducible assumption) (by decide)) | with_reducible exact Or.inl rfl) | (intro _) | dsimp only | (with_reducible refine Same.ofEq (by with_reducible assumption) ?_) | split)

theorem execWr_same {c s0 s} {a0 a1} (h : Same c s0 s) (hc : Sub 7187 c := by first | with_reducible assumption | exact Sub.up (by with_reducible assumption) (by decide)) : SameOut c s0 (execWr a0 a1 s) := by
  unfold execWr
  repeat' (first | with_reducible assumption | with_reducible refine Same.ite ?_ ?_ | with_reducible refine Same.ite2 ?_ ?_ | with_reducible refine SameOut.next ?_ | with_reducible exact SameOut.fault _ | with_reducible refine SameOut.ite ?_ ?_ | with_reducible apply atNode_same | with_reducible apply peerServe_same | with_reducible exact Sub.up (by with_reducible assumption) (by decide) | fail_if_no_progress (with_reducible apply Same.upd <;> try first | with_reducible exact ⟨rfl, rfl⟩ | with_reducible exact Or.inr (Sub.up (by with_reducible assumption) (by decide)) | with_reducible exact Or.inl rfl) | (intro _) | dsimp only | (with_reducible refine Same.ofEq (by with_reducible assumption) ?_) | split)

theorem execAtReq_same {c s0 s} {a0 a1} (h : Same c s0 s) (hc : Sub 7187 c := by first | with_reducible assumption | exact Sub.up (by with_reducible assumption) (by decide)) : SameOut c s0 (execAtReq a0 a1 s) := by
  unfold execAtReq
  repeat' (first | with_reducible assumption | with_reducible refine Same.ite ?_ ?_ | with_reducible refine Same.ite2 ?_ ?_ | with_reducible refine SameOut.next ?_ | with_reducible exact SameOut.fault _ | with_reducible refine SameOut.ite ?_ ?_ | with_reducible apply atNode_same | with_reducible apply peerServe_same | with_reducible exact Sub.up (by with_reducible assumption) (by decide) | fail_if_no_progress (with_reducible apply Same.upd <;> try first | with_reducible exact ⟨rfl, rfl⟩ | with_reducible exact Or.inr (Sub.up (by with_reducible assumption) (by decide)) | with_reducible exact Or.inl rfl) | (intro _) | dsimp only | (with_reducible refine Same.ofEq (by with_reducible assumption) ?_) | split)

theorem execJournalRecordExpiry_same {c s0 s} {a0 a1} (h : Same c s0 s) (hc : Sub 16 c := by first | with_reducible assumption | exact Sub.up (by with_reducible assumption) (by decide)) : SameOut c s0 (execJournalRecordExpiry a0 a1 s) := by
  unfold execJournalRecordExpiry
  repeat' (first | with_reducible assumption | with_reducible refine Same.ite ?_ ?_ | with_reducible refine Same.ite2 ?_ ?_ | with_reducible refine SameOut.next ?_ | with_reducible exact SameOut.fault _ | with_reducible refine SameOut.ite ?_ ?_ | with_reducible exact Sub.up (by with_reducible assumption) (by decide) | fail_if_no_progress (with_reducible apply Same.upd <;> try first | with_reducible exact ⟨rfl, rfl⟩ | with_reducible exact Or.inr (Sub.up (by with_reducible assumption) (by decide)) | with_reducible exact Or.inl rfl) | (intro _) | dsimp only | (with_reducible refine Same.ofEq (by with_reducible assumption) ?_) | split)

theorem execRdData_same {c s0 s} {a0 a1} (h : Same c s0 s) (hc : Sub 15923 c := by first | with_reducible assumption | exact Sub.up (by with_reducible assumption) (by decide)) : SameOut c s0 (execRdData a0 a1 s) := by
  unfold execRdData
  repeat' (first | with_reducible assumption | with_reducible refine Same.ite ?_ ?_ | with_reducible refine Same.ite2 ?_ ?_ | with_reducible refine SameOut.next ?_ | with_reducible exact SameOut.fault _ | with_reducible refine SameOut.ite ?_ ?_ | with_reducible apply atNode_same | with_reducible apply takeData_same | with_reducible exact Sub.up (by with_reducible assumption) (by decide) | fail_if_no_progress (with_reducible apply Same.upd <;> try first | with_reducible exact ⟨rfl, rfl⟩ | with_reducible exact Or.inr (Sub.up (by with_reducible assumption) (by decide)) | with_reducible exact Or.inl rfl) | (intro _) | dsimp only | (with_reducible refine Same.ofEq (by with_reducible assumption) ?_) | split)

theorem execWrAck_same {c s0 s} {a0 a1} (h : Same c s0 s) (hc : Sub 15923 c := by first | with_reducible assumption | exact Sub.up (by with_reducible assumption) (by decide)) : SameOut c s0 (execWrAck a0 a1 s) := by
  unfold execWrAck
  repeat' (first | with_reducible assumption | with_reducible refine Same.ite ?_ ?_ | with_reducible refine Same.ite2 ?_ ?_ | with_reducible refine SameOut.next ?_ | with_reducible exact SameOut.fault _ | with_reducible refine SameOut.ite ?_ ?_ | with_reducible apply atNode_same | with_reducible apply dropTag_same | with_reducible apply ownerAnswered_same | with_reducible exact Sub.up (by with_reducible assumption) (by decide) | fail_if_no_progress (with_reducible apply Same.upd <;> try first | with_reducible exact ⟨rfl, rfl⟩ | with_reducible exact Or.inr (Sub.up (by with_reducible assumption) (by decide)) | with_reducible exact Or.inl rfl) | (intro _) | dsimp only | (with_reducible refine Same.ofEq (by with_reducible assumption) ?_) | split)

theorem execAtResp_same {c s0 s} {a0 a1} (h : Same c s0 s) (hc : Sub 15923 c := by first | with_reducible assumption | exact Sub.up (by with_reducible assumption) (by decide)) : SameOut c s0 (execAtResp a0 a1 s) := by
  unfold execAtResp
  repeat' (first | with_reducible assumption | with_reducible refine Same.ite ?_ ?_ | with_reducible refine Same.ite2 ?_ ?_ | with_reducible refine SameOut.next ?_ | with_reducible exact SameOut.fault _ | with_reducible refine SameOut.ite ?_ ?_ | with_reducible apply atNode_same | with_reducible apply takeAtResp_same | with_reducible exact Sub.up (by with_reducible assumption) (by decide) | fail_if_no_progress (with_reducible apply Same.upd <;> try first | with_reducible exact ⟨rfl, rfl⟩ | with_reducible exact Or.inr (Sub.up (by with_reducible assumption) (by decide)) | with_reducible exact Or.inl rfl) | (intro _) | dsimp only | (with_reducible refine Same.ofEq (by with_reducible assumption) ?_) | split)

theorem execNak_same {c s0 s} {a0 a1} (h : Same c s0 s) (hc : Sub 16179 c := by first | with_reducible assumption | exact Sub.up (by with_reducible assumption) (by decide)) : SameOut c s0 (execNak a0 a1 s) := by
  unfold execNak
  repeat' (first | with_reducible assumption | with_reducible refine Same.ite ?_ ?_ | with_reducible refine Same.ite2 ?_ ?_ | with_reducible refine SameOut.next ?_ | with_reducible exact SameOut.fault _ | with_reducible refine SameOut.ite ?_ ?_ | with_reducible apply atNode_same | with_reducible apply takeNak_same | with_reducible exact Sub.up (by with_reducible assumption) (by decide) | fail_if_no_progress (with_reducible apply Same.upd <;> try first | with_reducible exact ⟨rfl, rfl⟩ | with_reducible exact Or.inr (Sub.up (by with_reducible assumption) (by decide)) | with_reducible exact Or.inl rfl) | (intro _) | dsimp only | (with_reducible refine Same.ofEq (by with_reducible assumption) ?_) | split)

theorem execJournalRetry_same {c s0 s} {a0} (h : Same c s0 s) (hc : Sub 1026 c := by first | with_reducible assumption | exact Sub.up (by with_reducible assumption) (by decide)) : SameOut c s0 (execJournalRetry a0 s) := by
  unfold execJournalRetry
  repeat' (first | with_reducible assumption | with_reducible refine Same.ite ?_ ?_ | with_reducible refine Same.ite2 ?_ ?_ | with_reducible refine SameOut.next ?_ | with_reducible exact SameOut.fault _ | with_reducible refine SameOut.ite ?_ ?_ | with_reducible apply resend_same | with_reducible exact Sub.up (by with_reducible assumption) (by decide) | fail_if_no_progress (with_reducible apply Same.upd <;> try first | with_reducible exact ⟨rfl, rfl⟩ | with_reducible exact Or.inr (Sub.up (by with_reducible assumption) (by decide)) | with_reducible exact Or.inl rfl) | (intro _) | dsimp only | (with_reducible refine Same.ofEq (by with_reducible assumption) ?_) | split)

theorem execReqTimeout_same {c s0 s} {a0} (h : Same c s0 s) (hc : Sub 65527 c := by first | with_reducible assumption | exact Sub.up (by with_reducible assumption) (by decide)) : SameOut c s0 (execReqTimeout a0 s) := by
  unfold execReqTimeout
  repeat' (first | with_reducible assumption | with_reducible refine Same.ite ?_ ?_ | with_reducible refine Same.ite2 ?_ ?_ | with_reducible refine SameOut.next ?_ | with_reducible exact SameOut.fault _ | with_reducible refine SameOut.ite ?_ ?_ | with_reducible apply countFault_same | with_reducible apply loseNode_same | with_reducible exact Sub.up (by with_reducible assumption) (by decide) | fail_if_no_progress (with_reducible apply Same.upd <;> try first | with_reducible exact ⟨rfl, rfl⟩ | with_reducible exact Or.inr (Sub.up (by with_reducible assumption) (by decide)) | with_reducible exact Or.inl rfl) | (intro _) | dsimp only | (with_reducible refine Same.ofEq (by with_reducible assumption) ?_) | split)

theorem execJoin_same {c s0 s} {a0 a1} (h : Same c s0 s) (hc : Sub 5122 c := by first | with_reducible assumption | exact Sub.up (by with_reducible assumption) (by decide)) : SameOut c s0 (execJoin a0 a1 s) := by
  unfold execJoin
  repeat' (first | with_reducible assumption | with_reducible refine Same.ite ?_ ?_ | with_reducible refine Same.ite2 ?_ ?_ | with_reducible refine SameOut.next ?_ | with_reducible exact SameOut.fault _ | with_reducible refine SameOut.ite ?_ ?_ | with_reducible apply atNode_same | with_reducible apply modColl_same | with_reducible apply tryReady_same | with_reducible exact Sub.up (by with_reducible assumption) (by decide) | fail_if_no_progress (with_reducible apply Same.upd <;> try first | with_reducible exact ⟨rfl, rfl⟩ | with_reducible exact Or.inr (Sub.up (by with_reducible assumption) (by decide)) | with_reducible exact Or.inl rfl) | (intro _) | dsimp only | (with_reducible refine Same.ofEq (by with_reducible assumption) ?_) | split)

theorem execJoinAcknowledged_same {c s0 s} {a0} (h : Same c s0 s) (hc : Sub 4096 c := by first | with_reducible assumption | exact Sub.up (by with_reducible assumption) (by decide)) : SameOut c s0 (execJoinAcknowledged a0 s) := by
  unfold execJoinAcknowledged
  repeat' (first | with_reducible assumption | with_reducible refine Same.ite ?_ ?_ | with_reducible refine Same.ite2 ?_ ?_ | with_reducible refine SameOut.next ?_ | with_reducible exact SameOut.fault _ | with_reducible refine SameOut.ite ?_ ?_ | with_reducible apply modColl_same | with_reducible apply tryReady_same | with_reducible exact Sub.up (by with_reducible assumption) (by decide) | fail_if_no_progress (with_reducible apply Same.upd <;> try first | with_reducible exact ⟨rfl, rfl⟩ | with_reducible exact Or.inr (Sub.up (by with_reducible assumption) (by decide)) | with_reducible exact Or.inl rfl) | (intro _) | dsimp only | (with_reducible refine Same.ofEq (by with_reducible assumption) ?_) | split)

theorem execHoldBeacon_same {c s0 s} {a0} (h : Same c s0 s) (hc : Sub 15923 c := by first | with_reducible assumption | exact Sub.up (by with_reducible assumption) (by decide)) : SameOut c s0 (execHoldBeacon a0 s) := by
  unfold execHoldBeacon
  repeat' (first | with_reducible assumption | with_reducible refine Same.ite ?_ ?_ | with_reducible refine Same.ite2 ?_ ?_ | with_reducible refine SameOut.next ?_ | with_reducible exact SameOut.fault _ | with_reducible refine SameOut.ite ?_ ?_ | with_reducible apply forAll_same | with_reducible apply ageHold_same | with_reducible apply sendHold_same | with_reducible apply endHeld_same | with_reducible exact Sub.up (by with_reducible assumption) (by decide) | fail_if_no_progress (with_reducible apply Same.upd <;> try first | with_reducible exact ⟨rfl, rfl⟩ | with_reducible exact Or.inr (Sub.up (by with_reducible assumption) (by decide)) | with_reducible exact Or.inl rfl) | (intro _) | dsimp only | (with_reducible refine Same.ofEq (by with_reducible assumption) ?_) | split)

theorem execHoldTimeout_same {c s0 s} {a0} (h : Same c s0 s) (hc : Sub 15923 c := by first | with_reducible assumption | exact Sub.up (by with_reducible assumption) (by decide)) : SameOut c s0 (execHoldTimeout a0 s) := by
  unfold execHoldTimeout
  repeat' (first | with_reducible assumption | with_reducible refine Same.ite ?_ ?_ | with_reducible refine Same.ite2 ?_ ?_ | with_reducible refine SameOut.next ?_ | with_reducible exact SameOut.fault _ | with_reducible refine SameOut.ite ?_ ?_ | with_reducible apply modAcd_same | with_reducible apply forAll_same | with_reducible apply ageHold_same | with_reducible apply closeHolds_same | with_reducible apply ownReport_same | with_reducible apply collProgress_same | with_reducible apply endHeld_same | with_reducible exact Sub.up (by with_reducible assumption) (by decide) | fail_if_no_progress (with_reducible apply Same.upd <;> try first | with_reducible exact ⟨rfl, rfl⟩ | with_reducible exact Or.inr (Sub.up (by with_reducible assumption) (by decide)) | with_reducible exact Or.inl rfl) | (intro _) | dsimp only | (with_reducible refine Same.ofEq (by with_reducible assumption) ?_) | split)

theorem execHoldSpaceDrain_same {c s0 s} {a0} (h : Same c s0 s) (hc : Sub 7731 c := by first | with_reducible assumption | exact Sub.up (by with_reducible assumption) (by decide)) : SameOut c s0 (execHoldSpaceDrain a0 s) := by
  unfold execHoldSpaceDrain
  repeat' (first | with_reducible assumption | with_reducible refine Same.ite ?_ ?_ | with_reducible refine Same.ite2 ?_ ?_ | with_reducible refine SameOut.next ?_ | with_reducible exact SameOut.fault _ | with_reducible refine SameOut.ite ?_ ?_ | with_reducible apply modAcd_same | with_reducible apply tryEndHold_same | with_reducible apply serveAgain_same | with_reducible exact Sub.up (by with_reducible assumption) (by decide) | fail_if_no_progress (with_reducible apply Same.upd <;> try first | with_reducible exact ⟨rfl, rfl⟩ | with_reducible exact Or.inr (Sub.up (by with_reducible assumption) (by decide)) | with_reducible exact Or.inl rfl) | (intro _) | dsimp only | (with_reducible refine Same.ofEq (by with_reducible assumption) ?_) | split)

theorem execHold_same {c s0 s} {a0 a1} (h : Same c s0 s) (hc : Sub 15923 c := by first | with_reducible assumption | exact Sub.up (by with_reducible assumption) (by decide)) : SameOut c s0 (execHold a0 a1 s) := by
  unfold execHold
  repeat' (first | with_reducible assumption | with_reducible refine Same.ite ?_ ?_ | with_reducible refine Same.ite2 ?_ ?_ | with_reducible refine SameOut.next ?_ | with_reducible exact SameOut.fault _ | with_reducible refine SameOut.ite ?_ ?_ | with_reducible apply atNode_same | with_reducible apply takeHold_same | with_reducible exact Sub.up (by with_reducible assumption) (by decide) | fail_if_no_progress (with_reducible apply Same.upd <;> try first | with_reducible exact ⟨rfl, rfl⟩ | with_reducible exact Or.inr (Sub.up (by with_reducible assumption) (by decide)) | with_reducible exact Or.inl rfl) | (intro _) | dsimp only | (with_reducible refine Same.ofEq (by with_reducible assumption) ?_) | split)

theorem execStepDone_same {c s0 s} {a0 a1} (h : Same c s0 s) (hc : Sub 15923 c := by first | with_reducible assumption | exact Sub.up (by with_reducible assumption) (by decide)) : SameOut c s0 (execStepDone a0 a1 s) := by
  unfold execStepDone
  repeat' (first | with_reducible assumption | with_reducible refine Same.ite ?_ ?_ | with_reducible refine Same.ite2 ?_ ?_ | with_reducible refine SameOut.next ?_ | with_reducible exact SameOut.fault _ | with_reducible refine SameOut.ite ?_ ?_ | with_reducible apply atNode_same | with_reducible apply modColl_same | with_reducible apply when_same | with_reducible apply ownReport_same | with_reducible apply collProgress_same | with_reducible apply endHeld_same | with_reducible exact Sub.up (by with_reducible assumption) (by decide) | fail_if_no_progress (with_reducible apply Same.upd <;> try first | with_reducible exact ⟨rfl, rfl⟩ | with_reducible exact Or.inr (Sub.up (by with_reducible assumption) (by decide)) | with_reducible exact Or.inl rfl) | (intro _) | dsimp only | (with_reducible refine Same.ofEq (by with_reducible assumption) ?_) | split)

theorem execOutcome_same {c s0 s} {a0 a1} (h : Same c s0 s) (hc : Sub 15923 c := by first | with_reducible assumption | exact Sub.up (by with_reducible assumption) (by decide)) : SameOut c s0 (execOutcome a0 a1 s) := by
  unfold execOutcome
  repeat' (first | with_reducible assumption | with_reducible refine Same.ite ?_ ?_ | with_reducible refine Same.ite2 ?_ ?_ | with_reducible refine SameOut.next ?_ | with_reducible exact SameOut.fault _ | with_reducible refine SameOut.ite ?_ ?_ | with_reducible apply atNode_same | with_reducible apply forAll_same | with_reducible apply sendColl_same | with_reducible apply modColl_same | with_reducible apply endHeld_same | with_reducible apply when_same | with_reducible apply closeHolds_same | with_reducible apply collProgress_same | with_reducible exact Sub.up (by with_reducible assumption) (by decide) | fail_if_no_progress (with_reducible apply Same.upd <;> try first | with_reducible exact ⟨rfl, rfl⟩ | with_reducible exact Or.inr (Sub.up (by with_reducible assumption) (by decide)) | with_reducible exact Or.inl rfl) | (intro _) | dsimp only | (with_reducible refine Same.ofEq (by with_reducible assumption) ?_) | split)

theorem execProgressTimeout_same {c s0 s} {a0} (h : Same c s0 s) (hc : Sub 16179 c := by first | with_reducible assumption | exact Sub.up (by with_reducible assumption) (by decide)) : SameOut c s0 (execProgressTimeout a0 s) := by
  unfold execProgressTimeout
  repeat' (first | with_reducible assumption | with_reducible refine Same.ite ?_ ?_ | with_reducible refine Same.ite2 ?_ ?_ | with_reducible refine SameOut.next ?_ | with_reducible exact SameOut.fault _ | with_reducible refine SameOut.ite ?_ ?_ | with_reducible apply failReqs_same | with_reducible apply endOpen_same | with_reducible apply closeHolds_same | with_reducible apply ownReport_same | with_reducible apply collProgress_same | with_reducible apply when_same | with_reducible apply modColl_same | with_reducible exact Sub.up (by with_reducible assumption) (by decide) | fail_if_no_progress (with_reducible apply Same.upd <;> try first | with_reducible exact ⟨rfl, rfl⟩ | with_reducible exact Or.inr (Sub.up (by with_reducible assumption) (by decide)) | with_reducible exact Or.inl rfl) | (intro _) | dsimp only | (with_reducible refine Same.ofEq (by with_reducible assumption) ?_) | split)

theorem execCollGroupEnable_same {c s0 s} {a0 a1 a2} (h : Same c s0 s) (hc : Sub 5122 c := by first | with_reducible assumption | exact Sub.up (by with_reducible assumption) (by decide)) : SameOut c s0 (execCollGroupEnable a0 a1 a2 s) := by
  unfold execCollGroupEnable
  repeat' (first | with_reducible assumption | with_reducible refine Same.ite ?_ ?_ | with_reducible refine Same.ite2 ?_ ?_ | with_reducible refine SameOut.next ?_ | with_reducible exact SameOut.fault _ | with_reducible refine SameOut.ite ?_ ?_ | with_reducible apply collWrite_same | with_reducible exact Sub.up (by with_reducible assumption) (by decide) | fail_if_no_progress (with_reducible apply Same.upd <;> try first | with_reducible exact ⟨rfl, rfl⟩ | with_reducible exact Or.inr (Sub.up (by with_reducible assumption) (by decide)) | with_reducible exact Or.inl rfl) | (intro _) | dsimp only | (with_reducible refine Same.ofEq (by with_reducible assumption) ?_) | split)

theorem execCollGroupDisable_same {c s0 s} {a0 a1} (h : Same c s0 s) (hc : Sub 5122 c := by first | with_reducible assumption | exact Sub.up (by with_reducible assumption) (by decide)) : SameOut c s0 (execCollGroupDisable a0 a1 s) := by
  unfold execCollGroupDisable
  repeat' (first | with_reducible assumption | with_reducible refine Same.ite ?_ ?_ | with_reducible refine Same.ite2 ?_ ?_ | with_reducible refine SameOut.next ?_ | with_reducible exact SameOut.fault _ | with_reducible refine SameOut.ite ?_ ?_ | with_reducible apply collWrite_same | with_reducible exact Sub.up (by with_reducible assumption) (by decide) | fail_if_no_progress (with_reducible apply Same.upd <;> try first | with_reducible exact ⟨rfl, rfl⟩ | with_reducible exact Or.inr (Sub.up (by with_reducible assumption) (by decide)) | with_reducible exact Or.inl rfl) | (intro _) | dsimp only | (with_reducible refine Same.ofEq (by with_reducible assumption) ?_) | split)

theorem execRouteWrite_same {c s0 s} {a0 a1 a2} (h : Same c s0 s) (hc : Sub 16179 c := by first | with_reducible assumption | exact Sub.up (by with_reducible assumption) (by decide)) : SameOut c s0 (execRouteWrite a0 a1 a2 s) := by
  unfold execRouteWrite
  repeat' (first | with_reducible assumption | with_reducible refine Same.ite ?_ ?_ | with_reducible refine Same.ite2 ?_ ?_ | with_reducible refine SameOut.next ?_ | with_reducible exact SameOut.fault _ | with_reducible refine SameOut.ite ?_ ?_ | with_reducible apply routeWrite_same | with_reducible exact Sub.up (by with_reducible assumption) (by decide) | fail_if_no_progress (with_reducible apply Same.upd <;> try first | with_reducible exact ⟨rfl, rfl⟩ | with_reducible exact Or.inr (Sub.up (by with_reducible assumption) (by decide)) | with_reducible exact Or.inl rfl) | (intro _) | dsimp only | (with_reducible refine Same.ofEq (by with_reducible assumption) ?_) | split)

theorem execPeerFrame_same {c s0 s} {a0 a1} (h : Same c s0 s) (hc : Sub 65527 c := by first | with_reducible assumption | exact Sub.up (by with_reducible assumption) (by decide)) : SameOut c s0 (execPeerFrame a0 a1 s) := by
  unfold execPeerFrame
  repeat' (first | with_reducible assumption | with_reducible refine Same.ite ?_ ?_ | with_reducible refine Same.ite2 ?_ ?_ | with_reducible refine SameOut.next ?_ | with_reducible exact SameOut.fault _ | with_reducible refine SameOut.ite ?_ ?_ | with_reducible apply emit_same | with_reducible apply peerDown_same | with_reducible apply rshErr_same | with_reducible apply countFault_same | with_reducible apply modPeerP_same | with_reducible apply drainPackets_same | with_reducible apply when_same | with_reducible exact Sub.up (by with_reducible assumption) (by decide) | fail_if_no_progress (with_reducible apply Same.upd <;> try first | with_reducible exact ⟨rfl, rfl⟩ | with_reducible exact Or.inr (Sub.up (by with_reducible assumption) (by decide)) | with_reducible exact Or.inl rfl) | (intro _) | dsimp only | (with_reducible refine Same.ofEq (by with_reducible assumption) ?_) | split)

theorem execFrameReplayTimeout_same {c s0 s} {a0} (h : Same c s0 s) (hc : Sub 65527 c := by first | with_reducible assumption | exact Sub.up (by with_reducible assumption) (by decide)) : SameOut c s0 (execFrameReplayTimeout a0 s) := by
  unfold execFrameReplayTimeout
  repeat' (first | with_reducible assumption | with_reducible refine Same.ite ?_ ?_ | with_reducible refine Same.ite2 ?_ ?_ | with_reducible refine SameOut.next ?_ | with_reducible exact SameOut.fault _ | with_reducible refine SameOut.ite ?_ ?_ | with_reducible apply emit_same | with_reducible apply countFault_same | with_reducible exact Sub.up (by with_reducible assumption) (by decide) | fail_if_no_progress (with_reducible apply Same.upd <;> try first | with_reducible exact ⟨rfl, rfl⟩ | with_reducible exact Or.inr (Sub.up (by with_reducible assumption) (by decide)) | with_reducible exact Or.inl rfl) | (intro _) | dsimp only | (with_reducible refine Same.ofEq (by with_reducible assumption) ?_) | split)

theorem execReplayStuck_same {c s0 s} {a0} (h : Same c s0 s) (hc : Sub 16179 c := by first | with_reducible assumption | exact Sub.up (by with_reducible assumption) (by decide)) : SameOut c s0 (execReplayStuck a0 s) := by
  unfold execReplayStuck
  repeat' (first | with_reducible assumption | with_reducible refine Same.ite ?_ ?_ | with_reducible refine Same.ite2 ?_ ?_ | with_reducible refine SameOut.next ?_ | with_reducible exact SameOut.fault _ | with_reducible refine SameOut.ite ?_ ?_ | with_reducible apply peerDown_same | with_reducible apply rshErr_same | with_reducible exact Sub.up (by with_reducible assumption) (by decide) | fail_if_no_progress (with_reducible apply Same.upd <;> try first | with_reducible exact ⟨rfl, rfl⟩ | with_reducible exact Or.inr (Sub.up (by with_reducible assumption) (by decide)) | with_reducible exact Or.inl rfl) | (intro _) | dsimp only | (with_reducible refine Same.ofEq (by with_reducible assumption) ?_) | split)

theorem execPeerKeyRenewal_same {c s0 s} {a0} (h : Same c s0 s) (hc : Sub 17408 c := by first | with_reducible assumption | exact Sub.up (by with_reducible assumption) (by decide)) : SameOut c s0 (execPeerKeyRenewal a0 s) := by
  unfold execPeerKeyRenewal
  repeat' (first | with_reducible assumption | with_reducible refine Same.ite ?_ ?_ | with_reducible refine Same.ite2 ?_ ?_ | with_reducible refine SameOut.next ?_ | with_reducible exact SameOut.fault _ | with_reducible refine SameOut.ite ?_ ?_ | with_reducible apply drawKey_same | with_reducible apply modPeerP_same | with_reducible exact Sub.up (by with_reducible assumption) (by decide) | fail_if_no_progress (with_reducible apply Same.upd <;> try first | with_reducible exact ⟨rfl, rfl⟩ | with_reducible exact Or.inr (Sub.up (by with_reducible assumption) (by decide)) | with_reducible exact Or.inl rfl) | (intro _) | dsimp only | (with_reducible refine Same.ofEq (by with_reducible assumption) ?_) | split)

theorem execPeerSessionEstablished_same {c s0 s} {a0 a1 a2} (h : Same c s0 s) (hc : Sub 65527 c := by first | with_reducible assumption | exact Sub.up (by with_reducible assumption) (by decide)) : SameOut c s0 (execPeerSessionEstablished a0 a1 a2 s) := by
  unfold execPeerSessionEstablished
  repeat' (first | with_reducible assumption | with_reducible refine Same.ite ?_ ?_ | with_reducible refine Same.ite2 ?_ ?_ | with_reducible refine SameOut.next ?_ | with_reducible exact SameOut.fault _ | with_reducible refine SameOut.ite ?_ ?_ | with_reducible apply countFault_same | with_reducible apply drawKey_same | with_reducible apply modPeerP_same | with_reducible apply giveTags_same | with_reducible exact Sub.up (by with_reducible assumption) (by decide) | fail_if_no_progress (with_reducible apply Same.upd <;> try first | with_reducible exact ⟨rfl, rfl⟩ | with_reducible exact Or.inr (Sub.up (by with_reducible assumption) (by decide)) | with_reducible exact Or.inl rfl) | (intro _) | dsimp only | (with_reducible refine Same.ofEq (by with_reducible assumption) ?_) | split)

theorem execPeerLinkDown_same {c s0 s} {a0} (h : Same c s0 s) (hc : Sub 16179 c := by first | with_reducible assumption | exact Sub.up (by with_reducible assumption) (by decide)) : SameOut c s0 (execPeerLinkDown a0 s) := by
  unfold execPeerLinkDown
  repeat' (first | with_reducible assumption | with_reducible refine Same.ite ?_ ?_ | with_reducible refine Same.ite2 ?_ ?_ | with_reducible refine SameOut.next ?_ | with_reducible exact SameOut.fault _ | with_reducible refine SameOut.ite ?_ ?_ | with_reducible apply peerDown_same | with_reducible exact Sub.up (by with_reducible assumption) (by decide) | fail_if_no_progress (with_reducible apply Same.upd <;> try first | with_reducible exact ⟨rfl, rfl⟩ | with_reducible exact Or.inr (Sub.up (by with_reducible assumption) (by decide)) | with_reducible exact Or.inl rfl) | (intro _) | dsimp only | (with_reducible refine Same.ofEq (by with_reducible assumption) ?_) | split)

theorem execPeerPortEnable_same {c s0 s} {a0 a1} (h : Same c s0 s) (hc : Sub 1280 c := by first | with_reducible assumption | exact Sub.up (by with_reducible assumption) (by decide)) : SameOut c s0 (execPeerPortEnable a0 a1 s) := by
  unfold execPeerPortEnable
  repeat' (first | with_reducible assumption | with_reducible refine Same.ite ?_ ?_ | with_reducible refine Same.ite2 ?_ ?_ | with_reducible refine SameOut.next ?_ | with_reducible exact SameOut.fault _ | with_reducible refine SameOut.ite ?_ ?_ | with_reducible apply peerEnable_same | with_reducible exact Sub.up (by with_reducible assumption) (by decide) | fail_if_no_progress (with_reducible apply Same.upd <;> try first | with_reducible exact ⟨rfl, rfl⟩ | with_reducible exact Or.inr (Sub.up (by with_reducible assumption) (by decide)) | with_reducible exact Or.inl rfl) | (intro _) | dsimp only | (with_reducible refine Same.ofEq (by with_reducible assumption) ?_) | split)

theorem execPeerPortDisable_same {c s0 s} {a0 a1} (h : Same c s0 s) (hc : Sub 16179 c := by first | with_reducible assumption | exact Sub.up (by with_reducible assumption) (by decide)) : SameOut c s0 (execPeerPortDisable a0 a1 s) := by
  unfold execPeerPortDisable
  repeat' (first | with_reducible assumption | with_reducible refine Same.ite ?_ ?_ | with_reducible refine Same.ite2 ?_ ?_ | with_reducible refine SameOut.next ?_ | with_reducible exact SameOut.fault _ | with_reducible refine SameOut.ite ?_ ?_ | with_reducible apply peerDisable_same | with_reducible exact Sub.up (by with_reducible assumption) (by decide) | fail_if_no_progress (with_reducible apply Same.upd <;> try first | with_reducible exact ⟨rfl, rfl⟩ | with_reducible exact Or.inr (Sub.up (by with_reducible assumption) (by decide)) | with_reducible exact Or.inl rfl) | (intro _) | dsimp only | (with_reducible refine Same.ofEq (by with_reducible assumption) ?_) | split)

theorem execDieParams_same {c s0 s} {a0 a1 a2 a3} (h : Same c s0 s) (hc : Sub 1282 c := by first | with_reducible assumption | exact Sub.up (by with_reducible assumption) (by decide)) : SameOut c s0 (execDieParams a0 a1 a2 a3 s) := by
  unfold execDieParams
  repeat' (first | with_reducible assumption | with_reducible refine Same.ite ?_ ?_ | with_reducible refine Same.ite2 ?_ ?_ | with_reducible refine SameOut.next ?_ | with_reducible exact SameOut.fault _ | with_reducible refine SameOut.ite ?_ ?_ | with_reducible apply modAcd_same | with_reducible apply placeStore_same | with_reducible apply sendRanges_same | with_reducible apply trainFails_same | with_reducible exact Sub.up (by with_reducible assumption) (by decide) | fail_if_no_progress (with_reducible apply Same.upd <;> try first | with_reducible exact ⟨rfl, rfl⟩ | with_reducible exact Or.inr (Sub.up (by with_reducible assumption) (by decide)) | with_reducible exact Or.inl rfl) | (intro _) | dsimp only | (with_reducible refine Same.ofEq (by with_reducible assumption) ?_) | split)

theorem execAcdTrainTimeout_same {c s0 s} {a0} (h : Same c s0 s) (hc : Sub 1024 c := by first | with_reducible assumption | exact Sub.up (by with_reducible assumption) (by decide)) : SameOut c s0 (execAcdTrainTimeout a0 s) := by
  unfold execAcdTrainTimeout
  repeat' (first | with_reducible assumption | with_reducible refine Same.ite ?_ ?_ | with_reducible refine Same.ite2 ?_ ?_ | with_reducible refine SameOut.next ?_ | with_reducible exact SameOut.fault _ | with_reducible refine SameOut.ite ?_ ?_ | with_reducible apply trainFails_same | with_reducible exact Sub.up (by with_reducible assumption) (by decide) | fail_if_no_progress (with_reducible apply Same.upd <;> try first | with_reducible exact ⟨rfl, rfl⟩ | with_reducible exact Or.inr (Sub.up (by with_reducible assumption) (by decide)) | with_reducible exact Or.inl rfl) | (intro _) | dsimp only | (with_reducible refine Same.ofEq (by with_reducible assumption) ?_) | split)

theorem execAcdFlit_same {c s0 s} {a0 a1} (h : Same c s0 s) (hc : Sub 65527 c := by first | with_reducible assumption | exact Sub.up (by with_reducible assumption) (by decide)) : SameOut c s0 (execAcdFlit a0 a1 s) := by
  unfold execAcdFlit
  repeat' (first | with_reducible assumption | with_reducible refine Same.ite ?_ ?_ | with_reducible refine Same.ite2 ?_ ?_ | with_reducible refine SameOut.next ?_ | with_reducible exact SameOut.fault _ | with_reducible refine SameOut.ite ?_ ?_ | with_reducible apply emit_same | with_reducible apply modAcd_same | with_reducible apply when_same | with_reducible apply acdErr_same | with_reducible apply countFault_same | with_reducible exact Sub.up (by with_reducible assumption) (by decide) | fail_if_no_progress (with_reducible apply Same.upd <;> try first | with_reducible exact ⟨rfl, rfl⟩ | with_reducible exact Or.inr (Sub.up (by with_reducible assumption) (by decide)) | with_reducible exact Or.inl rfl) | (intro _) | dsimp only | (with_reducible refine Same.ofEq (by with_reducible assumption) ?_) | split)

theorem execAcdReplayTimeout_same {c s0 s} {a0} (h : Same c s0 s) (hc : Sub 65527 c := by first | with_reducible assumption | exact Sub.up (by with_reducible assumption) (by decide)) : SameOut c s0 (execAcdReplayTimeout a0 s) := by
  unfold execAcdReplayTimeout
  repeat' (first | with_reducible assumption | with_reducible refine Same.ite ?_ ?_ | with_reducible refine Same.ite2 ?_ ?_ | with_reducible refine SameOut.next ?_ | with_reducible exact SameOut.fault _ | with_reducible refine SameOut.ite ?_ ?_ | with_reducible apply acdFails_same | with_reducible exact Sub.up (by with_reducible assumption) (by decide) | fail_if_no_progress (with_reducible apply Same.upd <;> try first | with_reducible exact ⟨rfl, rfl⟩ | with_reducible exact Or.inr (Sub.up (by with_reducible assumption) (by decide)) | with_reducible exact Or.inl rfl) | (intro _) | dsimp only | (with_reducible refine Same.ofEq (by with_reducible assumption) ?_) | split)

theorem execAcdLaneFailure_same {c s0 s} {a0 a1 a2} (h : Same c s0 s) (hc : Sub 65527 c := by first | with_reducible assumption | exact Sub.up (by with_reducible assumption) (by decide)) : SameOut c s0 (execAcdLaneFailure a0 a1 a2 s) := by
  unfold execAcdLaneFailure
  repeat' (first | with_reducible assumption | with_reducible refine Same.ite ?_ ?_ | with_reducible refine Same.ite2 ?_ ?_ | with_reducible refine SameOut.next ?_ | with_reducible exact SameOut.fault _ | with_reducible refine SameOut.ite ?_ ?_ | with_reducible apply modAcd_same | with_reducible apply when_same | with_reducible apply acdErr_same | with_reducible apply rennetEvent_same | with_reducible apply acdFails_same | with_reducible exact Sub.up (by with_reducible assumption) (by decide) | fail_if_no_progress (with_reducible apply Same.upd <;> try first | with_reducible exact ⟨rfl, rfl⟩ | with_reducible exact Or.inr (Sub.up (by with_reducible assumption) (by decide)) | with_reducible exact Or.inl rfl) | (intro _) | dsimp only | (with_reducible refine Same.ofEq (by with_reducible assumption) ?_) | split)

theorem execAcdModuleRejoin_same {c s0 s} {a0 a1} (h : Same c s0 s) (hc : Sub 1024 c := by first | with_reducible assumption | exact Sub.up (by with_reducible assumption) (by decide)) : SameOut c s0 (execAcdModuleRejoin a0 a1 s) := by
  unfold execAcdModuleRejoin
  repeat' (first | with_reducible assumption | with_reducible refine Same.ite ?_ ?_ | with_reducible refine Same.ite2 ?_ ?_ | with_reducible refine SameOut.next ?_ | with_reducible exact SameOut.fault _ | with_reducible refine SameOut.ite ?_ ?_ | with_reducible apply modAcd_same | with_reducible exact Sub.up (by with_reducible assumption) (by decide) | fail_if_no_progress (with_reducible apply Same.upd <;> try first | with_reducible exact ⟨rfl, rfl⟩ | with_reducible exact Or.inr (Sub.up (by with_reducible assumption) (by decide)) | with_reducible exact Or.inl rfl) | (intro _) | dsimp only | (with_reducible refine Same.ofEq (by with_reducible assumption) ?_) | split)

theorem execAcdRdData_same {c s0 s} {a0 a1 a2} (h : Same c s0 s) (hc : Sub 16179 c := by first | with_reducible assumption | exact Sub.up (by with_reducible assumption) (by decide)) : SameOut c s0 (execAcdRdData a0 a1 a2 s) := by
  unfold execAcdRdData
  repeat' (first | with_reducible assumption | with_reducible refine Same.ite ?_ ?_ | with_reducible refine Same.ite2 ?_ ?_ | with_reducible refine SameOut.next ?_ | with_reducible exact SameOut.fault _ | with_reducible refine SameOut.ite ?_ ?_ | with_reducible apply acdAnswer_same | with_reducible apply ownerFails_same | with_reducible apply ownerAnswered_same | with_reducible exact Sub.up (by with_reducible assumption) (by decide) | fail_if_no_progress (with_reducible apply Same.upd <;> try first | with_reducible exact ⟨rfl, rfl⟩ | with_reducible exact Or.inr (Sub.up (by with_reducible assumption) (by decide)) | with_reducible exact Or.inl rfl) | (intro _) | dsimp only | (with_reducible refine Same.ofEq (by with_reducible assumption) ?_) | split)

theorem execAcdWrAck_same {c s0 s} {a0 a1} (h : Same c s0 s) (hc : Sub 15923 c := by first | with_reducible assumption | exact Sub.up (by with_reducible assumption) (by decide)) : SameOut c s0 (execAcdWrAck a0 a1 s) := by
  unfold execAcdWrAck
  repeat' (first | with_reducible assumption | with_reducible refine Same.ite ?_ ?_ | with_reducible refine Same.ite2 ?_ ?_ | with_reducible refine SameOut.next ?_ | with_reducible exact SameOut.fault _ | with_reducible refine SameOut.ite ?_ ?_ | with_reducible apply acdAnswer_same | with_reducible apply ownerAnswered_same | with_reducible exact Sub.up (by with_reducible assumption) (by decide) | fail_if_no_progress (with_reducible apply Same.upd <;> try first | with_reducible exact ⟨rfl, rfl⟩ | with_reducible exact Or.inr (Sub.up (by with_reducible assumption) (by decide)) | with_reducible exact Or.inl rfl) | (intro _) | dsimp only | (with_reducible refine Same.ofEq (by with_reducible assumption) ?_) | split)

theorem execAtData_same {c s0 s} {a0 a1} (h : Same c s0 s) (hc : Sub 15923 c := by first | with_reducible assumption | exact Sub.up (by with_reducible assumption) (by decide)) : SameOut c s0 (execAtData a0 a1 s) := by
  unfold execAtData
  repeat' (first | with_reducible assumption | with_reducible refine Same.ite ?_ ?_ | with_reducible refine Same.ite2 ?_ ?_ | with_reducible refine SameOut.next ?_ | with_reducible exact SameOut.fault _ | with_reducible refine SameOut.ite ?_ ?_ | with_reducible apply acdAnswer_same | with_reducible apply ownerAnswered_same | with_reducible exact Sub.up (by with_reducible assumption) (by decide) | fail_if_no_progress (with_reducible apply Same.upd <;> try first | with_reducible exact ⟨rfl, rfl⟩ | with_reducible exact Or.inr (Sub.up (by with_reducible assumption) (by decide)) | with_reducible exact Or.inl rfl) | (intro _) | dsimp only | (with_reducible refine Same.ofEq (by with_reducible assumption) ?_) | split)

theorem execErr_same {c s0 s} {a0 a1 a2 a3} (h : Same c s0 s) (hc : Sub 48947 c := by first | with_reducible assumption | exact Sub.up (by with_reducible assumption) (by decide)) : SameOut c s0 (execErr a0 a1 a2 a3 s) := by
  unfold execErr
  repeat' (first | with_reducible assumption | with_reducible refine Same.ite ?_ ?_ | with_reducible refine Same.ite2 ?_ ?_ | with_reducible refine SameOut.next ?_ | with_reducible exact SameOut.fault _ | with_reducible refine SameOut.ite ?_ ?_ | with_reducible apply endLaunch_same | with_reducible apply acdErr_same | with_reducible apply dropTag_same | with_reducible apply ownerFails_same | with_reducible apply endCond_same | with_reducible exact Sub.up (by with_reducible assumption) (by decide) | fail_if_no_progress (with_reducible apply Same.upd <;> try first | with_reducible exact ⟨rfl, rfl⟩ | with_reducible exact Or.inr (Sub.up (by with_reducible assumption) (by decide)) | with_reducible exact Or.inl rfl) | (intro _) | dsimp only | (with_reducible refine Same.ofEq (by with_reducible assumption) ?_) | split)

theorem execAccept_same {c s0 s} {a0 a1 a2} (h : Same c s0 s) (hc : Sub 1024 c := by first | with_reducible assumption | exact Sub.up (by with_reducible assumption) (by decide)) : SameOut c s0 (execAccept a0 a1 a2 s) := by
  unfold execAccept
  repeat' (first | with_reducible assumption | with_reducible refine Same.ite ?_ ?_ | with_reducible refine Same.ite2 ?_ ?_ | with_reducible refine SameOut.next ?_ | with_reducible exact SameOut.fault _ | with_reducible refine SameOut.ite ?_ ?_ | with_reducible apply modLaunch_same | with_reducible exact Sub.up (by with_reducible assumption) (by decide) | fail_if_no_progress (with_reducible apply Same.upd <;> try first | with_reducible exact ⟨rfl, rfl⟩ | with_reducible exact Or.inr (Sub.up (by with_reducible assumption) (by decide)) | with_reducible exact Or.inl rfl) | (intro _) | dsimp only | (with_reducible refine Same.ofEq (by with_reducible assumption) ?_) | split)

theorem execLaunchResend_same {c s0 s} {a0 a1} (h : Same c s0 s) (hc : Sub 1026 c := by first | with_reducible assumption | exact Sub.up (by with_reducible assumption) (by decide)) : SameOut c s0 (execLaunchResend a0 a1 s) := by
  unfold execLaunchResend
  repeat' (first | with_reducible assumption | with_reducible refine Same.ite ?_ ?_ | with_reducible refine Same.ite2 ?_ ?_ | with_reducible refine SameOut.next ?_ | with_reducible exact SameOut.fault _ | with_reducible refine SameOut.ite ?_ ?_ | with_reducible apply pushLaunch_same | with_reducible exact Sub.up (by with_reducible assumption) (by decide) | fail_if_no_progress (with_reducible apply Same.upd <;> try first | with_reducible exact ⟨rfl, rfl⟩ | with_reducible exact Or.inr (Sub.up (by with_reducible assumption) (by decide)) | with_reducible exact Or.inl rfl) | (intro _) | dsimp only | (with_reducible refine Same.ofEq (by with_reducible assumption) ?_) | split)

theorem execNoAccept_same {c s0 s} {a0 a1} (h : Same c s0 s) (hc : Sub 65527 c := by first | with_reducible assumption | exact Sub.up (by with_reducible assumption) (by decide)) : SameOut c s0 (execNoAccept a0 a1 s) := by
  unfold execNoAccept
  repeat' (first | with_reducible assumption | with_reducible refine Same.ite ?_ ?_ | with_reducible refine Same.ite2 ?_ ?_ | with_reducible refine SameOut.next ?_ | with_reducible exact SameOut.fault _ | with_reducible refine SameOut.ite ?_ ?_ | with_reducible apply acdErr_same | with_reducible apply countFault_same | with_reducible exact Sub.up (by with_reducible assumption) (by decide) | fail_if_no_progress (with_reducible apply Same.upd <;> try first | with_reducible exact ⟨rfl, rfl⟩ | with_reducible exact Or.inr (Sub.up (by with_reducible assumption) (by decide)) | with_reducible exact Or.inl rfl) | (intro _) | dsimp only | (with_reducible refine Same.ofEq (by with_reducible assumption) ?_) | split)

theorem execLaunchThermalTimeout_same {c s0 s} {a0 a1} (h : Same c s0 s) (hc : Sub 15923 c := by first | with_reducible assumption | exact Sub.up (by with_reducible assumption) (by decide)) : SameOut c s0 (execLaunchThermalTimeout a0 a1 s) := by
  unfold execLaunchThermalTimeout
  repeat' (first | with_reducible assumption | with_reducible refine Same.ite ?_ ?_ | with_reducible refine Same.ite2 ?_ ?_ | with_reducible refine SameOut.next ?_ | with_reducible exact SameOut.fault _ | with_reducible refine SameOut.ite ?_ ?_ | with_reducible apply endLaunch_same | with_reducible exact Sub.up (by with_reducible assumption) (by decide) | fail_if_no_progress (with_reducible apply Same.upd <;> try first | with_reducible exact ⟨rfl, rfl⟩ | with_reducible exact Or.inr (Sub.up (by with_reducible assumption) (by decide)) | with_reducible exact Or.inl rfl) | (intro _) | dsimp only | (with_reducible refine Same.ofEq (by with_reducible assumption) ?_) | split)

theorem execComplete_same {c s0 s} {a0 a1 a2} (h : Same c s0 s) (hc : Sub 65527 c := by first | with_reducible assumption | exact Sub.up (by with_reducible assumption) (by decide)) : SameOut c s0 (execComplete a0 a1 a2 s) := by
  unfold execComplete
  repeat' (first | with_reducible assumption | with_reducible refine Same.ite ?_ ?_ | with_reducible refine Same.ite2 ?_ ?_ | with_reducible refine SameOut.next ?_ | with_reducible exact SameOut.fault _ | with_reducible refine SameOut.ite ?_ ?_ | with_reducible apply endLaunch_same | with_reducible apply completeLaunch_same | with_reducible exact Sub.up (by with_reducible assumption) (by decide) | fail_if_no_progress (with_reducible apply Same.upd <;> try first | with_reducible exact ⟨rfl, rfl⟩ | with_reducible exact Or.inr (Sub.up (by with_reducible assumption) (by decide)) | with_reducible exact Or.inl rfl) | (intro _) | dsimp only | (with_reducible refine Same.ofEq (by with_reducible assumption) ?_) | split)

theorem execThermal_same {c s0 s} {a0 a1 a2} (h : Same c s0 s) (hc : Sub 7731 c := by first | with_reducible assumption | exact Sub.up (by with_reducible assumption) (by decide)) : SameOut c s0 (execThermal a0 a1 a2 s) := by
  unfold execThermal
  repeat' (first | with_reducible assumption | with_reducible refine Same.ite ?_ ?_ | with_reducible refine Same.ite2 ?_ ?_ | with_reducible refine SameOut.next ?_ | with_reducible exact SameOut.fault _ | with_reducible refine SameOut.ite ?_ ?_ | with_reducible apply modAcd_same | with_reducible apply tryEndHold_same | with_reducible apply startHold_same | with_reducible apply forAll_same | with_reducible apply pushLaunch_same | with_reducible apply serveAgain_same | with_reducible exact Sub.up (by with_reducible assumption) (by decide) | fail_if_no_progress (with_reducible apply Same.upd <;> try first | with_reducible exact ⟨rfl, rfl⟩ | with_reducible exact Or.inr (Sub.up (by with_reducible assumption) (by decide)) | with_reducible exact Or.inl rfl) | (intro _) | dsimp only | (with_reducible refine Same.ofEq (by with_reducible assumption) ?_) | split)

theorem execFault_same {c s0 s} {a0 a1 a2 a3 a4} (h : Same c s0 s) (hc : Sub 65527 c := by first | with_reducible assumption | exact Sub.up (by with_reducible assumption) (by decide)) : SameOut c s0 (execFault a0 a1 a2 a3 a4 s) := by
  unfold execFault
  repeat' (first | with_reducible assumption | with_reducible refine Same.ite ?_ ?_ | with_reducible refine Same.ite2 ?_ ?_ | with_reducible refine SameOut.next ?_ | with_reducible exact SameOut.fault _ | with_reducible refine SameOut.ite ?_ ?_ | with_reducible apply acdErr_same | with_reducible apply countFault_same | with_reducible apply endLaunch_same | with_reducible apply failReqs_same | with_reducible apply endCond_same | with_reducible apply acdFails_same | with_reducible exact Sub.up (by with_reducible assumption) (by decide) | fail_if_no_progress (with_reducible apply Same.upd <;> try first | with_reducible exact ⟨rfl, rfl⟩ | with_reducible exact Or.inr (Sub.up (by with_reducible assumption) (by decide)) | with_reducible exact Or.inl rfl) | (intro _) | dsimp only | (with_reducible refine Same.ofEq (by with_reducible assumption) ?_) | split)

theorem execFenceHint_same {c s0 s} {a0 a1} (h : Same c s0 s) (hc : Sub 15923 c := by first | with_reducible assumption | exact Sub.up (by with_reducible assumption) (by decide)) : SameOut c s0 (execFenceHint a0 a1 s) := by
  unfold execFenceHint
  repeat' (first | with_reducible assumption | with_reducible refine Same.ite ?_ ?_ | with_reducible refine Same.ite2 ?_ ?_ | with_reducible refine SameOut.next ?_ | with_reducible exact SameOut.fault _ | with_reducible refine SameOut.ite ?_ ?_ | with_reducible apply forAll_same | with_reducible apply readWatcher_same | with_reducible exact Sub.up (by with_reducible assumption) (by decide) | fail_if_no_progress (with_reducible apply Same.upd <;> try first | with_reducible exact ⟨rfl, rfl⟩ | with_reducible exact Or.inr (Sub.up (by with_reducible assumption) (by decide)) | with_reducible exact Or.inl rfl) | (intro _) | dsimp only | (with_reducible refine Same.ofEq (by with_reducible assumption) ?_) | split)

theorem execClaim_same {c s0 s} {a0 a1 a2 a3} (h : Same c s0 s) (hc : Sub 3074 c := by first | with_reducible assumption | exact Sub.up (by with_reducible assumption) (by decide)) : SameOut c s0 (execClaim a0 a1 a2 a3 s) := by
  unfold execClaim
  repeat' (first | with_reducible assumption | with_reducible refine Same.ite ?_ ?_ | with_reducible refine Same.ite2 ?_ ?_ | with_reducible refine SameOut.next ?_ | with_reducible exact SameOut.fault _ | with_reducible refine SameOut.ite ?_ ?_ | with_reducible apply modAcd_same | with_reducible apply tryClaim_same | with_reducible exact Sub.up (by with_reducible assumption) (by decide) | fail_if_no_progress (with_reducible apply Same.upd <;> try first | with_reducible exact ⟨rfl, rfl⟩ | with_reducible exact Or.inr (Sub.up (by with_reducible assumption) (by decide)) | with_reducible exact Or.inl rfl) | (intro _) | dsimp only | (with_reducible refine Same.ofEq (by with_reducible assumption) ?_) | split)

theorem execAcdRequestRelease_same {c s0 s} {a0 a1} (h : Same c s0 s) (hc : Sub 1024 c := by first | with_reducible assumption | exact Sub.up (by with_reducible assumption) (by decide)) : SameOut c s0 (execAcdRequestRelease a0 a1 s) := by
  unfold execAcdRequestRelease
  repeat' (first | with_reducible assumption | with_reducible refine Same.ite ?_ ?_ | with_reducible refine Same.ite2 ?_ ?_ | with_reducible refine SameOut.next ?_ | with_reducible exact SameOut.fault _ | with_reducible refine SameOut.ite ?_ ?_ | with_reducible apply modReq_same | with_reducible exact Sub.up (by with_reducible assumption) (by decide) | fail_if_no_progress (with_reducible apply Same.upd <;> try first | with_reducible exact ⟨rfl, rfl⟩ | with_reducible exact Or.inr (Sub.up (by with_reducible assumption) (by decide)) | with_reducible exact Or.inl rfl) | (intro _) | dsimp only | (with_reducible refine Same.ofEq (by with_reducible assumption) ?_) | split)

theorem execAcdLinkEnable_same {c s0 s} {a0 a1} (h : Same c s0 s) (hc : Sub 1280 c := by first | with_reducible assumption | exact Sub.up (by with_reducible assumption) (by decide)) : SameOut c s0 (execAcdLinkEnable a0 a1 s) := by
  unfold execAcdLinkEnable
  repeat' (first | with_reducible assumption | with_reducible refine Same.ite ?_ ?_ | with_reducible refine Same.ite2 ?_ ?_ | with_reducible refine SameOut.next ?_ | with_reducible exact SameOut.fault _ | with_reducible refine SameOut.ite ?_ ?_ | with_reducible apply acdEnable_same | with_reducible exact Sub.up (by with_reducible assumption) (by decide) | fail_if_no_progress (with_reducible apply Same.upd <;> try first | with_reducible exact ⟨rfl, rfl⟩ | with_reducible exact Or.inr (Sub.up (by with_reducible assumption) (by decide)) | with_reducible exact Or.inl rfl) | (intro _) | dsimp only | (with_reducible refine Same.ofEq (by with_reducible assumption) ?_) | split)

theorem execAcdLinkDisable_same {c s0 s} {a0 a1} (h : Same c s0 s) (hc : Sub 65395 c := by first | with_reducible assumption | exact Sub.up (by with_reducible assumption) (by decide)) : SameOut c s0 (execAcdLinkDisable a0 a1 s) := by
  unfold execAcdLinkDisable
  repeat' (first | with_reducible assumption | with_reducible refine Same.ite ?_ ?_ | with_reducible refine Same.ite2 ?_ ?_ | with_reducible refine SameOut.next ?_ | with_reducible exact SameOut.fault _ | with_reducible refine SameOut.ite ?_ ?_ | with_reducible apply acdDisable_same | with_reducible exact Sub.up (by with_reducible assumption) (by decide) | fail_if_no_progress (with_reducible apply Same.upd <;> try first | with_reducible exact ⟨rfl, rfl⟩ | with_reducible exact Or.inr (Sub.up (by with_reducible assumption) (by decide)) | with_reducible exact Or.inl rfl) | (intro _) | dsimp only | (with_reducible refine Same.ofEq (by with_reducible assumption) ?_) | split)

theorem execRetrain_same {c s0 s} {a0 a1} (h : Same c s0 s) (hc : Sub 48947 c := by first | with_reducible assumption | exact Sub.up (by with_reducible assumption) (by decide)) : SameOut c s0 (execRetrain a0 a1 s) := by
  unfold execRetrain
  repeat' (first | with_reducible assumption | with_reducible refine Same.ite ?_ ?_ | with_reducible refine Same.ite2 ?_ ?_ | with_reducible refine SameOut.next ?_ | with_reducible exact SameOut.fault _ | with_reducible refine SameOut.ite ?_ ?_ | with_reducible apply acdRetrain_same | with_reducible exact Sub.up (by with_reducible assumption) (by decide) | fail_if_no_progress (with_reducible apply Same.upd <;> try first | with_reducible exact ⟨rfl, rfl⟩ | with_reducible exact Or.inr (Sub.up (by with_reducible assumption) (by decide)) | with_reducible exact Or.inl rfl) | (intro _) | dsimp only | (with_reducible refine Same.ofEq (by with_reducible assumption) ?_) | split)

theorem execBarLd_same {c s0 s} (h : Same c s0 s) : SameOut c s0 (execBarLd s) := by
  unfold execBarLd
  repeat' (first | with_reducible assumption | with_reducible refine Same.ite ?_ ?_ | with_reducible refine Same.ite2 ?_ ?_ | with_reducible refine SameOut.next ?_ | with_reducible exact SameOut.fault _ | with_reducible refine SameOut.ite ?_ ?_ | with_reducible exact Sub.up (by with_reducible assumption) (by decide) | fail_if_no_progress (with_reducible apply Same.upd <;> try first | with_reducible exact ⟨rfl, rfl⟩ | with_reducible exact Or.inr (Sub.up (by with_reducible assumption) (by decide)) | with_reducible exact Or.inl rfl) | (intro _) | dsimp only | (with_reducible refine Same.ofEq (by with_reducible assumption) ?_) | split)

theorem execBarSt_same {c s0 s} (h : Same c s0 s) (hc : Sub 35859 c := by first | with_reducible assumption | exact Sub.up (by with_reducible assumption) (by decide)) : SameOut c s0 (execBarSt s) := by
  unfold execBarSt
  repeat' (first | with_reducible assumption | with_reducible refine Same.ite ?_ ?_ | with_reducible refine Same.ite2 ?_ ?_ | with_reducible refine SameOut.next ?_ | with_reducible exact SameOut.fault _ | with_reducible refine SameOut.ite ?_ ?_ | with_reducible apply coreGo_same | with_reducible exact Sub.up (by with_reducible assumption) (by decide) | fail_if_no_progress (with_reducible apply Same.upd <;> try first | with_reducible exact ⟨rfl, rfl⟩ | with_reducible exact Or.inr (Sub.up (by with_reducible assumption) (by decide)) | with_reducible exact Or.inl rfl) | (intro _) | dsimp only | (with_reducible refine Same.ofEq (by with_reducible assumption) ?_) | split)

theorem execBarFull_same {c s0 s} (h : Same c s0 s) (hc : Sub 35859 c := by first | with_reducible assumption | exact Sub.up (by with_reducible assumption) (by decide)) : SameOut c s0 (execBarFull s) := by
  unfold execBarFull
  repeat' (first | with_reducible assumption | with_reducible refine Same.ite ?_ ?_ | with_reducible refine Same.ite2 ?_ ?_ | with_reducible refine SameOut.next ?_ | with_reducible exact SameOut.fault _ | with_reducible refine SameOut.ite ?_ ?_ | with_reducible apply coreGo_same | with_reducible exact Sub.up (by with_reducible assumption) (by decide) | fail_if_no_progress (with_reducible apply Same.upd <;> try first | with_reducible exact ⟨rfl, rfl⟩ | with_reducible exact Or.inr (Sub.up (by with_reducible assumption) (by decide)) | with_reducible exact Or.inl rfl) | (intro _) | dsimp only | (with_reducible refine Same.ofEq (by with_reducible assumption) ?_) | split)

theorem execAffStore_same {c s0 s} {a0 a1} (h : Same c s0 s) (hc : Sub 35859 c := by first | with_reducible assumption | exact Sub.up (by with_reducible assumption) (by decide)) : SameOut c s0 (execAffStore a0 a1 s) := by
  unfold execAffStore
  repeat' (first | with_reducible assumption | with_reducible refine Same.ite ?_ ?_ | with_reducible refine Same.ite2 ?_ ?_ | with_reducible refine SameOut.next ?_ | with_reducible exact SameOut.fault _ | with_reducible refine SameOut.ite ?_ ?_ | with_reducible apply coreGo_same | with_reducible apply affPatch_same | with_reducible apply takeFree_same | with_reducible apply when_same | with_reducible apply drainStores_same | with_reducible exact Sub.up (by with_reducible assumption) (by decide) | fail_if_no_progress (with_reducible apply Same.upd <;> try first | with_reducible exact ⟨rfl, rfl⟩ | with_reducible exact Or.inr (Sub.up (by with_reducible assumption) (by decide)) | with_reducible exact Or.inl rfl) | (intro _) | dsimp only | (with_reducible refine Same.ofEq (by with_reducible assumption) ?_) | split)

theorem execAffNtStore_same {c s0 s} {a0 a1} (h : Same c s0 s) (hc : Sub 35859 c := by first | with_reducible assumption | exact Sub.up (by with_reducible assumption) (by decide)) : SameOut c s0 (execAffNtStore a0 a1 s) := by
  unfold execAffNtStore
  repeat' (first | with_reducible assumption | with_reducible refine Same.ite ?_ ?_ | with_reducible refine Same.ite2 ?_ ?_ | with_reducible refine SameOut.next ?_ | with_reducible exact SameOut.fault _ | with_reducible refine SameOut.ite ?_ ?_ | with_reducible apply coreGo_same | with_reducible apply ntRoom_same | with_reducible apply affInval_same | with_reducible apply ntBytes_same | with_reducible exact Sub.up (by with_reducible assumption) (by decide) | fail_if_no_progress (with_reducible apply Same.upd <;> try first | with_reducible exact ⟨rfl, rfl⟩ | with_reducible exact Or.inr (Sub.up (by with_reducible assumption) (by decide)) | with_reducible exact Or.inl rfl) | (intro _) | dsimp only | (with_reducible refine Same.ofEq (by with_reducible assumption) ?_) | split)

theorem execNtLineTimeout_same {c s0 s} {a0} (h : Same c s0 s) (hc : Sub 35859 c := by first | with_reducible assumption | exact Sub.up (by with_reducible assumption) (by decide)) : SameOut c s0 (execNtLineTimeout a0 s) := by
  unfold execNtLineTimeout
  repeat' (first | with_reducible assumption | with_reducible refine Same.ite ?_ ?_ | with_reducible refine Same.ite2 ?_ ?_ | with_reducible refine SameOut.next ?_ | with_reducible exact SameOut.fault _ | with_reducible refine SameOut.ite ?_ ?_ | with_reducible apply ntLeave_same | with_reducible exact Sub.up (by with_reducible assumption) (by decide) | fail_if_no_progress (with_reducible apply Same.upd <;> try first | with_reducible exact ⟨rfl, rfl⟩ | with_reducible exact Or.inr (Sub.up (by with_reducible assumption) (by decide)) | with_reducible exact Or.inl rfl) | (intro _) | dsimp only | (with_reducible refine Same.ofEq (by with_reducible assumption) ?_) | split)

theorem execAffLoad_same {c s0 s} {a0 a1} (h : Same c s0 s) (hc : Sub 35859 c := by first | with_reducible assumption | exact Sub.up (by with_reducible assumption) (by decide)) : SameOut c s0 (execAffLoad a0 a1 s) := by
  unfold execAffLoad
  repeat' (first | with_reducible assumption | with_reducible refine Same.ite ?_ ?_ | with_reducible refine Same.ite2 ?_ ?_ | with_reducible refine SameOut.next ?_ | with_reducible exact SameOut.fault _ | with_reducible refine SameOut.ite ?_ ?_ | with_reducible apply coreGo_same | with_reducible apply fwInval_same | with_reducible apply ntFlush_same | with_reducible apply askHosts_same | with_reducible apply affRead_same | with_reducible apply forAll_same | with_reducible apply affFill_same | with_reducible exact Sub.up (by with_reducible assumption) (by decide) | fail_if_no_progress (with_reducible apply Same.upd <;> try first | with_reducible exact ⟨rfl, rfl⟩ | with_reducible exact Or.inr (Sub.up (by with_reducible assumption) (by decide)) | with_reducible exact Or.inl rfl) | (intro _) | dsimp only | (with_reducible refine Same.ofEq (by with_reducible assumption) ?_) | split)

theorem execAffReservedLoad_same {c s0 s} {a0} (h : Same c s0 s) (hc : Sub 35859 c := by first | with_reducible assumption | exact Sub.up (by with_reducible assumption) (by decide)) : SameOut c s0 (execAffReservedLoad a0 s) := by
  unfold execAffReservedLoad
  repeat' (first | with_reducible assumption | with_reducible refine Same.ite ?_ ?_ | with_reducible refine Same.ite2 ?_ ?_ | with_reducible refine SameOut.next ?_ | with_reducible exact SameOut.fault _ | with_reducible refine SameOut.ite ?_ ?_ | with_reducible apply coreGo_same | with_reducible apply ntFlush_same | with_reducible apply drainStores_same | with_reducible apply affInval_same | with_reducible apply askHosts_same | with_reducible apply affRead_same | with_reducible apply loseResv_same | with_reducible apply when_same | with_reducible apply affReserve_same | with_reducible exact Sub.up (by with_reducible assumption) (by decide) | fail_if_no_progress (with_reducible apply Same.upd <;> try first | with_reducible exact ⟨rfl, rfl⟩ | with_reducible exact Or.inr (Sub.up (by with_reducible assumption) (by decide)) | with_reducible exact Or.inl rfl) | (intro _) | dsimp only | (with_reducible refine Same.ofEq (by with_reducible assumption) ?_) | split)

theorem execAffConditionalStore_same {c s0 s} {a0 a1 a2} (h : Same c s0 s) (hc : Sub 35859 c := by first | with_reducible assumption | exact Sub.up (by with_reducible assumption) (by decide)) : SameOut c s0 (execAffConditionalStore a0 a1 a2 s) := by
  unfold execAffConditionalStore
  repeat' (first | with_reducible assumption | with_reducible refine Same.ite ?_ ?_ | with_reducible refine Same.ite2 ?_ ?_ | with_reducible refine SameOut.next ?_ | with_reducible exact SameOut.fault _ | with_reducible refine SameOut.ite ?_ ?_ | with_reducible apply coreGo_same | with_reducible apply ntFlush_same | with_reducible apply drainStores_same | with_reducible apply affInval_same | with_reducible apply addReq_same | with_reducible apply sendAcd_same | with_reducible apply storeAt_same | with_reducible apply loseResv_same | with_reducible exact Sub.up (by with_reducible assumption) (by decide) | fail_if_no_progress (with_reducible apply Same.upd <;> try first | with_reducible exact ⟨rfl, rfl⟩ | with_reducible exact Or.inr (Sub.up (by with_reducible assumption) (by decide)) | with_reducible exact Or.inl rfl) | (intro _) | dsimp only | (with_reducible refine Same.ofEq (by with_reducible assumption) ?_) | split)

theorem execCondAck_same {c s0 s} {a0 a1 a2} (h : Same c s0 s) (hc : Sub 35859 c := by first | with_reducible assumption | exact Sub.up (by with_reducible assumption) (by decide)) : SameOut c s0 (execCondAck a0 a1 a2 s) := by
  unfold execCondAck
  repeat' (first | with_reducible assumption | with_reducible refine Same.ite ?_ ?_ | with_reducible refine Same.ite2 ?_ ?_ | with_reducible refine SameOut.next ?_ | with_reducible exact SameOut.fault _ | with_reducible refine SameOut.ite ?_ ?_ | with_reducible apply acdAnswer_same | with_reducible apply when_same | with_reducible apply storeAt_same | with_reducible apply affPatch_same | with_reducible apply loseResv_same | with_reducible exact Sub.up (by with_reducible assumption) (by decide) | fail_if_no_progress (with_reducible apply Same.upd <;> try first | with_reducible exact ⟨rfl, rfl⟩ | with_reducible exact Or.inr (Sub.up (by with_reducible assumption) (by decide)) | with_reducible exact Or.inl rfl) | (intro _) | dsimp only | (with_reducible refine Same.ofEq (by with_reducible assumption) ?_) | split)

theorem execReservationTimeout_same {c s0 s} {a0 a1} (h : Same c s0 s) (hc : Sub 1042 c := by first | with_reducible assumption | exact Sub.up (by with_reducible assumption) (by decide)) : SameOut c s0 (execReservationTimeout a0 a1 s) := by
  unfold execReservationTimeout
  repeat' (first | with_reducible assumption | with_reducible refine Same.ite ?_ ?_ | with_reducible refine Same.ite2 ?_ ?_ | with_reducible refine SameOut.next ?_ | with_reducible exact SameOut.fault _ | with_reducible refine SameOut.ite ?_ ?_ | with_reducible apply loseResv_same | with_reducible exact Sub.up (by with_reducible assumption) (by decide) | fail_if_no_progress (with_reducible apply Same.upd <;> try first | with_reducible exact ⟨rfl, rfl⟩ | with_reducible exact Or.inr (Sub.up (by with_reducible assumption) (by decide)) | with_reducible exact Or.inl rfl) | (intro _) | dsimp only | (with_reducible refine Same.ofEq (by with_reducible assumption) ?_) | split)

theorem execWatcherReread_same {c s0 s} {a0} (h : Same c s0 s) (hc : Sub 15923 c := by first | with_reducible assumption | exact Sub.up (by with_reducible assumption) (by decide)) : SameOut c s0 (execWatcherReread a0 s) := by
  unfold execWatcherReread
  repeat' (first | with_reducible assumption | with_reducible refine Same.ite ?_ ?_ | with_reducible refine Same.ite2 ?_ ?_ | with_reducible refine SameOut.next ?_ | with_reducible exact SameOut.fault _ | with_reducible refine SameOut.ite ?_ ?_ | with_reducible apply readWatcher_same | with_reducible exact Sub.up (by with_reducible assumption) (by decide) | fail_if_no_progress (with_reducible apply Same.upd <;> try first | with_reducible exact ⟨rfl, rfl⟩ | with_reducible exact Or.inr (Sub.up (by with_reducible assumption) (by decide)) | with_reducible exact Or.inl rfl) | (intro _) | dsimp only | (with_reducible refine Same.ofEq (by with_reducible assumption) ?_) | split)

theorem execWatcherPoll_same {c s0 s} {a0} (h : Same c s0 s) (hc : Sub 15923 c := by first | with_reducible assumption | exact Sub.up (by with_reducible assumption) (by decide)) : SameOut c s0 (execWatcherPoll a0 s) := by
  unfold execWatcherPoll
  repeat' (first | with_reducible assumption | with_reducible refine Same.ite ?_ ?_ | with_reducible refine Same.ite2 ?_ ?_ | with_reducible refine SameOut.next ?_ | with_reducible exact SameOut.fault _ | with_reducible refine SameOut.ite ?_ ?_ | with_reducible apply readWatcher_same | with_reducible exact Sub.up (by with_reducible assumption) (by decide) | fail_if_no_progress (with_reducible apply Same.upd <;> try first | with_reducible exact ⟨rfl, rfl⟩ | with_reducible exact Or.inr (Sub.up (by with_reducible assumption) (by decide)) | with_reducible exact Or.inl rfl) | (intro _) | dsimp only | (with_reducible refine Same.ofEq (by with_reducible assumption) ?_) | split)

theorem execHoopEnginePoll_same {c s0 s} {a0} (h : Same c s0 s) (hc : Sub 15923 c := by first | with_reducible assumption | exact Sub.up (by with_reducible assumption) (by decide)) : SameOut c s0 (execHoopEnginePoll a0 s) := by
  unfold execHoopEnginePoll
  repeat' (first | with_reducible assumption | with_reducible refine Same.ite ?_ ?_ | with_reducible refine Same.ite2 ?_ ?_ | with_reducible refine SameOut.next ?_ | with_reducible exact SameOut.fault _ | with_reducible refine SameOut.ite ?_ ?_ | with_reducible apply readPoll_same | with_reducible exact Sub.up (by with_reducible assumption) (by decide) | fail_if_no_progress (with_reducible apply Same.upd <;> try first | with_reducible exact ⟨rfl, rfl⟩ | with_reducible exact Or.inr (Sub.up (by with_reducible assumption) (by decide)) | with_reducible exact Or.inl rfl) | (intro _) | dsimp only | (with_reducible refine Same.ofEq (by with_reducible assumption) ?_) | split)

theorem execDoorbell_same {c s0 s} {a0 a1 a2} (h : Same c s0 s) (hc : Sub 7731 c := by first | with_reducible assumption | exact Sub.up (by with_reducible assumption) (by decide)) : SameOut c s0 (execDoorbell a0 a1 a2 s) := by
  unfold execDoorbell
  repeat' (first | with_reducible assumption | with_reducible refine Same.ite ?_ ?_ | with_reducible refine Same.ite2 ?_ ?_ | with_reducible refine SameOut.next ?_ | with_reducible exact SameOut.fault _ | with_reducible refine SameOut.ite ?_ ?_ | with_reducible apply ringTail_same | with_reducible apply when_same | with_reducible apply bar2Reject_same | with_reducible exact Sub.up (by with_reducible assumption) (by decide) | fail_if_no_progress (with_reducible apply Same.upd <;> try first | with_reducible exact ⟨rfl, rfl⟩ | with_reducible exact Or.inr (Sub.up (by with_reducible assumption) (by decide)) | with_reducible exact Or.inl rfl) | (intro _) | dsimp only | (with_reducible refine Same.ofEq (by with_reducible assumption) ?_) | split)

theorem execPush_same {c s0 s} {a0 a1 a2 a3} (h : Same c s0 s) (hc : Sub 7731 c := by first | with_reducible assumption | exact Sub.up (by with_reducible assumption) (by decide)) : SameOut c s0 (execPush a0 a1 a2 a3 s) := by
  unfold execPush
  repeat' (first | with_reducible assumption | with_reducible refine Same.ite ?_ ?_ | with_reducible refine Same.ite2 ?_ ?_ | with_reducible refine SameOut.next ?_ | with_reducible exact SameOut.fault _ | with_reducible refine SameOut.ite ?_ ?_ | with_reducible apply pushEntry_same | with_reducible apply when_same | with_reducible apply bar2Reject_same | with_reducible exact Sub.up (by with_reducible assumption) (by decide) | fail_if_no_progress (with_reducible apply Same.upd <;> try first | with_reducible exact ⟨rfl, rfl⟩ | with_reducible exact Or.inr (Sub.up (by with_reducible assumption) (by decide)) | with_reducible exact Or.inl rfl) | (intro _) | dsimp only | (with_reducible refine Same.ofEq (by with_reducible assumption) ?_) | split)

theorem execAdminDoorbell_same {c s0 s} {a0 a1} (h : Same c s0 s) (hc : Sub 1042 c := by first | with_reducible assumption | exact Sub.up (by with_reducible assumption) (by decide)) : SameOut c s0 (execAdminDoorbell a0 a1 s) := by
  unfold execAdminDoorbell
  repeat' (first | with_reducible assumption | with_reducible refine Same.ite ?_ ?_ | with_reducible refine Same.ite2 ?_ ?_ | with_reducible refine SameOut.next ?_ | with_reducible exact SameOut.fault _ | with_reducible refine SameOut.ite ?_ ?_ | with_reducible apply inD0_same | with_reducible apply adminTail_same | with_reducible exact Sub.up (by with_reducible assumption) (by decide) | fail_if_no_progress (with_reducible apply Same.upd <;> try first | with_reducible exact ⟨rfl, rfl⟩ | with_reducible exact Or.inr (Sub.up (by with_reducible assumption) (by decide)) | with_reducible exact Or.inl rfl) | (intro _) | dsimp only | (with_reducible refine Same.ofEq (by with_reducible assumption) ?_) | split)

theorem execRingFetch_same {c s0 s} {a0 a1} (h : Same c s0 s) (hc : Sub 15923 c := by first | with_reducible assumption | exact Sub.up (by with_reducible assumption) (by decide)) : SameOut c s0 (execRingFetch a0 a1 s) := by
  unfold execRingFetch
  repeat' (first | with_reducible assumption | with_reducible refine Same.ite ?_ ?_ | with_reducible refine Same.ite2 ?_ ?_ | with_reducible refine SameOut.next ?_ | with_reducible exact SameOut.fault _ | with_reducible refine SameOut.ite ?_ ?_ | with_reducible apply dropOwner_same | with_reducible apply fetchEntries_same | with_reducible apply askRing_same | with_reducible apply tryIdle_same | with_reducible apply fetchAdmin_same | with_reducible apply askAdmin_same | with_reducible exact Sub.up (by with_reducible assumption) (by decide) | fail_if_no_progress (with_reducible apply Same.upd <;> try first | with_reducible exact ⟨rfl, rfl⟩ | with_reducible exact Or.inr (Sub.up (by with_reducible assumption) (by decide)) | with_reducible exact Or.inl rfl) | (intro _) | dsimp only | (with_reducible refine Same.ofEq (by with_reducible assumption) ?_) | split)

theorem execOwnReread_same {c s0 s} {a0} (h : Same c s0 s) (hc : Sub 15923 c := by first | with_reducible assumption | exact Sub.up (by with_reducible assumption) (by decide)) : SameOut c s0 (execOwnReread a0 s) := by
  unfold execOwnReread
  repeat' (first | with_reducible assumption | with_reducible refine Same.ite ?_ ?_ | with_reducible refine Same.ite2 ?_ ?_ | with_reducible refine SameOut.next ?_ | with_reducible exact SameOut.fault _ | with_reducible refine SameOut.ite ?_ ?_ | with_reducible apply forAll_same | with_reducible apply rereadEntry_same | with_reducible apply rereadAdmin_same | with_reducible exact Sub.up (by with_reducible assumption) (by decide) | fail_if_no_progress (with_reducible apply Same.upd <;> try first | with_reducible exact ⟨rfl, rfl⟩ | with_reducible exact Or.inr (Sub.up (by with_reducible assumption) (by decide)) | with_reducible exact Or.inl rfl) | (intro _) | dsimp only | (with_reducible refine Same.ofEq (by with_reducible assumption) ?_) | split)

theorem execEntryStart_same {c s0 s} {a0 a1} (h : Same c s0 s) (hc : Sub 15923 c := by first | with_reducible assumption | exact Sub.up (by with_reducible assumption) (by decide)) : SameOut c s0 (execEntryStart a0 a1 s) := by
  unfold execEntryStart
  repeat' (first | with_reducible assumption | with_reducible refine Same.ite ?_ ?_ | with_reducible refine Same.ite2 ?_ ?_ | with_reducible refine SameOut.next ?_ | with_reducible exact SameOut.fault _ | with_reducible refine SameOut.ite ?_ ?_ | with_reducible apply takePushed_same | with_reducible apply startEntry_same | with_reducible apply needSlot_same | with_reducible apply startAdmin_same | with_reducible exact Sub.up (by with_reducible assumption) (by decide) | fail_if_no_progress (with_reducible apply Same.upd <;> try first | with_reducible exact ⟨rfl, rfl⟩ | with_reducible exact Or.inr (Sub.up (by with_reducible assumption) (by decide)) | with_reducible exact Or.inl rfl) | (intro _) | dsimp only | (with_reducible refine Same.ofEq (by with_reducible assumption) ?_) | split)

theorem execHeadPublishTimer_same {c s0 s} {a0} (h : Same c s0 s) (hc : Sub 7731 c := by first | with_reducible assumption | exact Sub.up (by with_reducible assumption) (by decide)) : SameOut c s0 (execHeadPublishTimer a0 s) := by
  unfold execHeadPublishTimer
  repeat' (first | with_reducible assumption | with_reducible refine Same.ite ?_ ?_ | with_reducible refine Same.ite2 ?_ ?_ | with_reducible refine SameOut.next ?_ | with_reducible exact SameOut.fault _ | with_reducible refine SameOut.ite ?_ ?_ | with_reducible apply publishHead_same | with_reducible exact Sub.up (by with_reducible assumption) (by decide) | fail_if_no_progress (with_reducible apply Same.upd <;> try first | with_reducible exact ⟨rfl, rfl⟩ | with_reducible exact Or.inr (Sub.up (by with_reducible assumption) (by decide)) | with_reducible exact Or.inl rfl) | (intro _) | dsimp only | (with_reducible refine Same.ofEq (by with_reducible assumption) ?_) | split)

theorem execFreezeTimeout_same {c s0 s} {a0} (h : Same c s0 s) (hc : Sub 7731 c := by first | with_reducible assumption | exact Sub.up (by with_reducible assumption) (by decide)) : SameOut c s0 (execFreezeTimeout a0 s) := by
  unfold execFreezeTimeout
  repeat' (first | with_reducible assumption | with_reducible refine Same.ite ?_ ?_ | with_reducible refine Same.ite2 ?_ ?_ | with_reducible refine SameOut.next ?_ | with_reducible exact SameOut.fault _ | with_reducible refine SameOut.ite ?_ ?_ | with_reducible apply thawFn_same | with_reducible apply adminEnd_same | with_reducible exact Sub.up (by with_reducible assumption) (by decide) | fail_if_no_progress (with_reducible apply Same.upd <;> try first | with_reducible exact ⟨rfl, rfl⟩ | with_reducible exact Or.inr (Sub.up (by with_reducible assumption) (by decide)) | with_reducible exact Or.inl rfl) | (intro _) | dsimp only | (with_reducible refine Same.ofEq (by with_reducible assumption) ?_) | split)

theorem execHoopResume_same {c s0 s} {a0} (h : Same c s0 s) (hc : Sub 7731 c := by first | with_reducible assumption | exact Sub.up (by with_reducible assumption) (by decide)) : SameOut c s0 (execHoopResume a0 s) := by
  unfold execHoopResume
  repeat' (first | with_reducible assumption | with_reducible refine Same.ite ?_ ?_ | with_reducible refine Same.ite2 ?_ ?_ | with_reducible refine SameOut.next ?_ | with_reducible exact SameOut.fault _ | with_reducible refine SameOut.ite ?_ ?_ | with_reducible apply resumeHoop_same | with_reducible apply tryIdle_same | with_reducible exact Sub.up (by with_reducible assumption) (by decide) | fail_if_no_progress (with_reducible apply Same.upd <;> try first | with_reducible exact ⟨rfl, rfl⟩ | with_reducible exact Or.inr (Sub.up (by with_reducible assumption) (by decide)) | with_reducible exact Or.inl rfl) | (intro _) | dsimp only | (with_reducible refine Same.ofEq (by with_reducible assumption) ?_) | split)

theorem execHoopEnable_same {c s0 s} {a0 a1} (h : Same c s0 s) (hc : Sub 7731 c := by first | with_reducible assumption | exact Sub.up (by with_reducible assumption) (by decide)) : SameOut c s0 (execHoopEnable a0 a1 s) := by
  unfold execHoopEnable
  repeat' (first | with_reducible assumption | with_reducible refine Same.ite ?_ ?_ | with_reducible refine Same.ite2 ?_ ?_ | with_reducible refine SameOut.next ?_ | with_reducible exact SameOut.fault _ | with_reducible refine SameOut.ite ?_ ?_ | with_reducible apply enableHoop_same | with_reducible apply when_same | with_reducible apply bar2Reject_same | with_reducible exact Sub.up (by with_reducible assumption) (by decide) | fail_if_no_progress (with_reducible apply Same.upd <;> try first | with_reducible exact ⟨rfl, rfl⟩ | with_reducible exact Or.inr (Sub.up (by with_reducible assumption) (by decide)) | with_reducible exact Or.inl rfl) | (intro _) | dsimp only | (with_reducible refine Same.ofEq (by with_reducible assumption) ?_) | split)

theorem execAdminEnable_same {c s0 s} {a0} (h : Same c s0 s) (hc : Sub 18 c := by first | with_reducible assumption | exact Sub.up (by with_reducible assumption) (by decide)) : SameOut c s0 (execAdminEnable a0 s) := by
  unfold execAdminEnable
  repeat' (first | with_reducible assumption | with_reducible refine Same.ite ?_ ?_ | with_reducible refine Same.ite2 ?_ ?_ | with_reducible refine SameOut.next ?_ | with_reducible exact SameOut.fault _ | with_reducible refine SameOut.ite ?_ ?_ | with_reducible apply inD0_same | with_reducible apply adminStart_same | with_reducible exact Sub.up (by with_reducible assumption) (by decide) | fail_if_no_progress (with_reducible apply Same.upd <;> try first | with_reducible exact ⟨rfl, rfl⟩ | with_reducible exact Or.inr (Sub.up (by with_reducible assumption) (by decide)) | with_reducible exact Or.inl rfl) | (intro _) | dsimp only | (with_reducible refine Same.ofEq (by with_reducible assumption) ?_) | split)

theorem execAdminDisable_same {c s0 s} {a0} (h : Same c s0 s) (hc : Sub 18 c := by first | with_reducible assumption | exact Sub.up (by with_reducible assumption) (by decide)) : SameOut c s0 (execAdminDisable a0 s) := by
  unfold execAdminDisable
  repeat' (first | with_reducible assumption | with_reducible refine Same.ite ?_ ?_ | with_reducible refine Same.ite2 ?_ ?_ | with_reducible refine SameOut.next ?_ | with_reducible exact SameOut.fault _ | with_reducible refine SameOut.ite ?_ ?_ | with_reducible apply inD0_same | with_reducible apply adminOff_same | with_reducible exact Sub.up (by with_reducible assumption) (by decide) | fail_if_no_progress (with_reducible apply Same.upd <;> try first | with_reducible exact ⟨rfl, rfl⟩ | with_reducible exact Or.inr (Sub.up (by with_reducible assumption) (by decide)) | with_reducible exact Or.inl rfl) | (intro _) | dsimp only | (with_reducible refine Same.ofEq (by with_reducible assumption) ?_) | split)

theorem execMaskSet_same {c s0 s} {a0 a1 a2} (h : Same c s0 s) (hc : Sub 34 c := by first | with_reducible assumption | exact Sub.up (by with_reducible assumption) (by decide)) : SameOut c s0 (execMaskSet a0 a1 a2 s) := by
  unfold execMaskSet
  repeat' (first | with_reducible assumption | with_reducible refine Same.ite ?_ ?_ | with_reducible refine Same.ite2 ?_ ?_ | with_reducible refine SameOut.next ?_ | with_reducible exact SameOut.fault _ | with_reducible refine SameOut.ite ?_ ?_ | with_reducible apply bankWrite_same | with_reducible apply maskSrc_same | with_reducible exact Sub.up (by with_reducible assumption) (by decide) | fail_if_no_progress (with_reducible apply Same.upd <;> try first | with_reducible exact ⟨rfl, rfl⟩ | with_reducible exact Or.inr (Sub.up (by with_reducible assumption) (by decide)) | with_reducible exact Or.inl rfl) | (intro _) | dsimp only | (with_reducible refine Same.ofEq (by with_reducible assumption) ?_) | split)

theorem execMaskClr_same {c s0 s} {a0 a1 a2} (h : Same c s0 s) (hc : Sub 3635 c := by first | with_reducible assumption | exact Sub.up (by with_reducible assumption) (by decide)) : SameOut c s0 (execMaskClr a0 a1 a2 s) := by
  unfold execMaskClr
  repeat' (first | with_reducible assumption | with_reducible refine Same.ite ?_ ?_ | with_reducible refine Same.ite2 ?_ ?_ | with_reducible refine SameOut.next ?_ | with_reducible exact SameOut.fault _ | with_reducible refine SameOut.ite ?_ ?_ | with_reducible apply bankWrite_same | with_reducible apply unmaskSrc_same | with_reducible exact Sub.up (by with_reducible assumption) (by decide) | fail_if_no_progress (with_reducible apply Same.upd <;> try first | with_reducible exact ⟨rfl, rfl⟩ | with_reducible exact Or.inr (Sub.up (by with_reducible assumption) (by decide)) | with_reducible exact Or.inl rfl) | (intro _) | dsimp only | (with_reducible refine Same.ofEq (by with_reducible assumption) ?_) | split)

theorem execPendSet_same {c s0 s} {a0 a1 a2} (h : Same c s0 s) (hc : Sub 3635 c := by first | with_reducible assumption | exact Sub.up (by with_reducible assumption) (by decide)) : SameOut c s0 (execPendSet a0 a1 a2 s) := by
  unfold execPendSet
  repeat' (first | with_reducible assumption | with_reducible refine Same.ite ?_ ?_ | with_reducible refine Same.ite2 ?_ ?_ | with_reducible refine SameOut.next ?_ | with_reducible exact SameOut.fault _ | with_reducible refine SameOut.ite ?_ ?_ | with_reducible apply bankWrite_same | with_reducible apply srcEvent_same | with_reducible exact Sub.up (by with_reducible assumption) (by decide) | fail_if_no_progress (with_reducible apply Same.upd <;> try first | with_reducible exact ⟨rfl, rfl⟩ | with_reducible exact Or.inr (Sub.up (by with_reducible assumption) (by decide)) | with_reducible exact Or.inl rfl) | (intro _) | dsimp only | (with_reducible refine Same.ofEq (by with_reducible assumption) ?_) | split)

theorem execPendClr_same {c s0 s} {a0 a1 a2} (h : Same c s0 s) (hc : Sub 34 c := by first | with_reducible assumption | exact Sub.up (by with_reducible assumption) (by decide)) : SameOut c s0 (execPendClr a0 a1 a2 s) := by
  unfold execPendClr
  repeat' (first | with_reducible assumption | with_reducible refine Same.ite ?_ ?_ | with_reducible refine Same.ite2 ?_ ?_ | with_reducible refine SameOut.next ?_ | with_reducible exact SameOut.fault _ | with_reducible refine SameOut.ite ?_ ?_ | with_reducible apply bankWrite_same | with_reducible apply unpendSrc_same | with_reducible exact Sub.up (by with_reducible assumption) (by decide) | fail_if_no_progress (with_reducible apply Same.upd <;> try first | with_reducible exact ⟨rfl, rfl⟩ | with_reducible exact Or.inr (Sub.up (by with_reducible assumption) (by decide)) | with_reducible exact Or.inl rfl) | (intro _) | dsimp only | (with_reducible refine Same.ofEq (by with_reducible assumption) ?_) | split)

theorem execCoalesceTimeout_same {c s0 s} {a0} (h : Same c s0 s) (hc : Sub 34 c := by first | with_reducible assumption | exact Sub.up (by with_reducible assumption) (by decide)) : SameOut c s0 (execCoalesceTimeout a0 s) := by
  unfold execCoalesceTimeout
  repeat' (first | with_reducible assumption | with_reducible refine Same.ite ?_ ?_ | with_reducible refine Same.ite2 ?_ ?_ | with_reducible refine SameOut.next ?_ | with_reducible exact SameOut.fault _ | with_reducible refine SameOut.ite ?_ ?_ | with_reducible apply signalEvq_same | with_reducible exact Sub.up (by with_reducible assumption) (by decide) | fail_if_no_progress (with_reducible apply Same.upd <;> try first | with_reducible exact ⟨rfl, rfl⟩ | with_reducible exact Or.inr (Sub.up (by with_reducible assumption) (by decide)) | with_reducible exact Or.inl rfl) | (intro _) | dsimp only | (with_reducible refine Same.ofEq (by with_reducible assumption) ?_) | split)

theorem execMsixMessageSend_same {c s0 s} {a0} (h : Same c s0 s) (hc : Sub 11827 c := by first | with_reducible assumption | exact Sub.up (by with_reducible assumption) (by decide)) : SameOut c s0 (execMsixMessageSend a0 s) := by
  unfold execMsixMessageSend
  repeat' (first | with_reducible assumption | with_reducible refine Same.ite ?_ ?_ | with_reducible refine Same.ite2 ?_ ?_ | with_reducible refine SameOut.next ?_ | with_reducible exact SameOut.fault _ | with_reducible refine SameOut.ite ?_ ?_ | with_reducible apply when_same | with_reducible apply yieldWheel_same | with_reducible apply modEvq_same | with_reducible apply forAll_same | with_reducible apply sendMsix_same | with_reducible exact Sub.up (by with_reducible assumption) (by decide) | fail_if_no_progress (with_reducible apply Same.upd <;> try first | with_reducible exact ⟨rfl, rfl⟩ | with_reducible exact Or.inr (Sub.up (by with_reducible assumption) (by decide)) | with_reducible exact Or.inl rfl) | (intro _) | dsimp only | (with_reducible refine Same.ofEq (by with_reducible assumption) ?_) | split)

theorem execMsixUnmask_same {c s0 s} {a0 a1} (h : Same c s0 s) (hc : Sub 34 c := by first | with_reducible assumption | exact Sub.up (by with_reducible assumption) (by decide)) : SameOut c s0 (execMsixUnmask a0 a1 s) := by
  unfold execMsixUnmask
  repeat' (first | with_reducible assumption | with_reducible refine Same.ite ?_ ?_ | with_reducible refine Same.ite2 ?_ ?_ | with_reducible refine SameOut.next ?_ | with_reducible exact SameOut.fault _ | with_reducible refine SameOut.ite ?_ ?_ | with_reducible apply modFnS_same | with_reducible apply releaseMsix_same | with_reducible exact Sub.up (by with_reducible assumption) (by decide) | fail_if_no_progress (with_reducible apply Same.upd <;> try first | with_reducible exact ⟨rfl, rfl⟩ | with_reducible exact Or.inr (Sub.up (by with_reducible assumption) (by decide)) | with_reducible exact Or.inl rfl) | (intro _) | dsimp only | (with_reducible refine Same.ofEq (by with_reducible assumption) ?_) | split)

theorem execClaimRead_same {c s0 s} {a0 a1} (h : Same c s0 s) (hc : Sub 34 c := by first | with_reducible assumption | exact Sub.up (by with_reducible assumption) (by decide)) : SameOut c s0 (execClaimRead a0 a1 s) := by
  unfold execClaimRead
  repeat' (first | with_reducible assumption | with_reducible refine Same.ite ?_ ?_ | with_reducible refine Same.ite2 ?_ ?_ | with_reducible refine SameOut.next ?_ | with_reducible exact SameOut.fault _ | with_reducible refine SameOut.ite ?_ ?_ | with_reducible apply inD0_same | with_reducible apply emit_same | with_reducible apply claimVector_same | with_reducible exact Sub.up (by with_reducible assumption) (by decide) | fail_if_no_progress (with_reducible apply Same.upd <;> try first | with_reducible exact ⟨rfl, rfl⟩ | with_reducible exact Or.inr (Sub.up (by with_reducible assumption) (by decide)) | with_reducible exact Or.inl rfl) | (intro _) | dsimp only | (with_reducible refine Same.ofEq (by with_reducible assumption) ?_) | split)

theorem execIntDone_same {c s0 s} {a0 a1} (h : Same c s0 s) (hc : Sub 3635 c := by first | with_reducible assumption | exact Sub.up (by with_reducible assumption) (by decide)) : SameOut c s0 (execIntDone a0 a1 s) := by
  unfold execIntDone
  repeat' (first | with_reducible assumption | with_reducible refine Same.ite ?_ ?_ | with_reducible refine Same.ite2 ?_ ?_ | with_reducible refine SameOut.next ?_ | with_reducible exact SameOut.fault _ | with_reducible refine SameOut.ite ?_ ?_ | with_reducible apply inD0_same | with_reducible apply doneWrite_same | with_reducible exact Sub.up (by with_reducible assumption) (by decide) | fail_if_no_progress (with_reducible apply Same.upd <;> try first | with_reducible exact ⟨rfl, rfl⟩ | with_reducible exact Or.inr (Sub.up (by with_reducible assumption) (by decide)) | with_reducible exact Or.inl rfl) | (intro _) | dsimp only | (with_reducible refine Same.ofEq (by with_reducible assumption) ?_) | split)

theorem execFastDone_same {c s0 s} {a0 a1} (h : Same c s0 s) (hc : Sub 3635 c := by first | with_reducible assumption | exact Sub.up (by with_reducible assumption) (by decide)) : SameOut c s0 (execFastDone a0 a1 s) := by
  unfold execFastDone
  repeat' (first | with_reducible assumption | with_reducible refine Same.ite ?_ ?_ | with_reducible refine Same.ite2 ?_ ?_ | with_reducible refine SameOut.next ?_ | with_reducible exact SameOut.fault _ | with_reducible refine SameOut.ite ?_ ?_ | with_reducible apply inD0_same | with_reducible apply doneWrite_same | with_reducible exact Sub.up (by with_reducible assumption) (by decide) | fail_if_no_progress (with_reducible apply Same.upd <;> try first | with_reducible exact ⟨rfl, rfl⟩ | with_reducible exact Or.inr (Sub.up (by with_reducible assumption) (by decide)) | with_reducible exact Or.inl rfl) | (intro _) | dsimp only | (with_reducible refine Same.ofEq (by with_reducible assumption) ?_) | split)

theorem execVfIntDone_same {c s0 s} {a0 a1} (h : Same c s0 s) (hc : Sub 3635 c := by first | with_reducible assumption | exact Sub.up (by with_reducible assumption) (by decide)) : SameOut c s0 (execVfIntDone a0 a1 s) := by
  unfold execVfIntDone
  repeat' (first | with_reducible assumption | with_reducible refine Same.ite ?_ ?_ | with_reducible refine Same.ite2 ?_ ?_ | with_reducible refine SameOut.next ?_ | with_reducible exact SameOut.fault _ | with_reducible refine SameOut.ite ?_ ?_ | with_reducible apply inD0_same | with_reducible apply doneWrite_same | with_reducible exact Sub.up (by with_reducible assumption) (by decide) | fail_if_no_progress (with_reducible apply Same.upd <;> try first | with_reducible exact ⟨rfl, rfl⟩ | with_reducible exact Or.inr (Sub.up (by with_reducible assumption) (by decide)) | with_reducible exact Or.inl rfl) | (intro _) | dsimp only | (with_reducible refine Same.ofEq (by with_reducible assumption) ?_) | split)

theorem execEvqRouteWrite_same {c s0 s} {a0 a1 a2} (h : Same c s0 s) (hc : Sub 34 c := by first | with_reducible assumption | exact Sub.up (by with_reducible assumption) (by decide)) : SameOut c s0 (execEvqRouteWrite a0 a1 a2 s) := by
  unfold execEvqRouteWrite
  repeat' (first | with_reducible assumption | with_reducible refine Same.ite ?_ ?_ | with_reducible refine Same.ite2 ?_ ?_ | with_reducible refine SameOut.next ?_ | with_reducible exact SameOut.fault _ | with_reducible refine SameOut.ite ?_ ?_ | with_reducible apply inD0_same | with_reducible apply routeOf_same | with_reducible exact Sub.up (by with_reducible assumption) (by decide) | fail_if_no_progress (with_reducible apply Same.upd <;> try first | with_reducible exact ⟨rfl, rfl⟩ | with_reducible exact Or.inr (Sub.up (by with_reducible assumption) (by decide)) | with_reducible exact Or.inl rfl) | (intro _) | dsimp only | (with_reducible refine Same.ofEq (by with_reducible assumption) ?_) | split)

theorem execFastSrcWrite_same {c s0 s} {a0 a1 a2} (h : Same c s0 s) (hc : Sub 34 c := by first | with_reducible assumption | exact Sub.up (by with_reducible assumption) (by decide)) : SameOut c s0 (execFastSrcWrite a0 a1 a2 s) := by
  unfold execFastSrcWrite
  repeat' (first | with_reducible assumption | with_reducible refine Same.ite ?_ ?_ | with_reducible refine Same.ite2 ?_ ?_ | with_reducible refine SameOut.next ?_ | with_reducible exact SameOut.fault _ | with_reducible refine SameOut.ite ?_ ?_ | with_reducible apply inD0_same | with_reducible apply fastSlotWrite_same | with_reducible exact Sub.up (by with_reducible assumption) (by decide) | fail_if_no_progress (with_reducible apply Same.upd <;> try first | with_reducible exact ⟨rfl, rfl⟩ | with_reducible exact Or.inr (Sub.up (by with_reducible assumption) (by decide)) | with_reducible exact Or.inl rfl) | (intro _) | dsimp only | (with_reducible refine Same.ofEq (by with_reducible assumption) ?_) | split)

theorem execRoshamTrained_same {c s0 s} {a0} (h : Same c s0 s) (hc : Sub 1024 c := by first | with_reducible assumption | exact Sub.up (by with_reducible assumption) (by decide)) : SameOut c s0 (execRoshamTrained a0 s) := by
  unfold execRoshamTrained
  repeat' (first | with_reducible assumption | with_reducible refine Same.ite ?_ ?_ | with_reducible refine Same.ite2 ?_ ?_ | with_reducible refine SameOut.next ?_ | with_reducible exact SameOut.fault _ | with_reducible refine SameOut.ite ?_ ?_ | with_reducible apply rshErr_same | with_reducible apply modRsh_same | with_reducible exact Sub.up (by with_reducible assumption) (by decide) | fail_if_no_progress (with_reducible apply Same.upd <;> try first | with_reducible exact ⟨rfl, rfl⟩ | with_reducible exact Or.inr (Sub.up (by with_reducible assumption) (by decide)) | with_reducible exact Or.inl rfl) | (intro _) | dsimp only | (with_reducible refine Same.ofEq (by with_reducible assumption) ?_) | split)

theorem execSwap_same {c s0 s} {a0 a1 a2} (h : Same c s0 s) (hc : Sub 1026 c := by first | with_reducible assumption | exact Sub.up (by with_reducible assumption) (by decide)) : SameOut c s0 (execSwap a0 a1 a2 s) := by
  unfold execSwap
  repeat' (first | with_reducible assumption | with_reducible refine Same.ite ?_ ?_ | with_reducible refine Same.ite2 ?_ ?_ | with_reducible refine SameOut.next ?_ | with_reducible exact SameOut.fault _ | with_reducible refine SameOut.ite ?_ ?_ | with_reducible apply modFibre_same | with_reducible apply emit_same | with_reducible exact Sub.up (by with_reducible assumption) (by decide) | fail_if_no_progress (with_reducible apply Same.upd <;> try first | with_reducible exact ⟨rfl, rfl⟩ | with_reducible exact Or.inr (Sub.up (by with_reducible assumption) (by decide)) | with_reducible exact Or.inl rfl) | (intro _) | dsimp only | (with_reducible refine Same.ofEq (by with_reducible assumption) ?_) | split)

theorem execMark_same {c s0 s} {a0 a1} (h : Same c s0 s) (hc : Sub 1026 c := by first | with_reducible assumption | exact Sub.up (by with_reducible assumption) (by decide)) : SameOut c s0 (execMark a0 a1 s) := by
  unfold execMark
  repeat' (first | with_reducible assumption | with_reducible refine Same.ite ?_ ?_ | with_reducible refine Same.ite2 ?_ ?_ | with_reducible refine SameOut.next ?_ | with_reducible exact SameOut.fault _ | with_reducible refine SameOut.ite ?_ ?_ | with_reducible apply emit_same | with_reducible apply switchDone_same | with_reducible exact Sub.up (by with_reducible assumption) (by decide) | fail_if_no_progress (with_reducible apply Same.upd <;> try first | with_reducible exact ⟨rfl, rfl⟩ | with_reducible exact Or.inr (Sub.up (by with_reducible assumption) (by decide)) | with_reducible exact Or.inl rfl) | (intro _) | dsimp only | (with_reducible refine Same.ofEq (by with_reducible assumption) ?_) | split)

theorem execDone_same {c s0 s} {a0 a1} (h : Same c s0 s) (hc : Sub 1026 c := by first | with_reducible assumption | exact Sub.up (by with_reducible assumption) (by decide)) : SameOut c s0 (execDone a0 a1 s) := by
  unfold execDone
  repeat' (first | with_reducible assumption | with_reducible refine Same.ite ?_ ?_ | with_reducible refine Same.ite2 ?_ ?_ | with_reducible refine SameOut.next ?_ | with_reducible exact SameOut.fault _ | with_reducible refine SameOut.ite ?_ ?_ | with_reducible apply emit_same | with_reducible apply switchDone_same | with_reducible exact Sub.up (by with_reducible assumption) (by decide) | fail_if_no_progress (with_reducible apply Same.upd <;> try first | with_reducible exact ⟨rfl, rfl⟩ | with_reducible exact Or.inr (Sub.up (by with_reducible assumption) (by decide)) | with_reducible exact Or.inl rfl) | (intro _) | dsimp only | (with_reducible refine Same.ofEq (by with_reducible assumption) ?_) | split)

theorem execLaserInputFault_same {c s0 s} {a0} (h : Same c s0 s) (hc : Sub 65527 c := by first | with_reducible assumption | exact Sub.up (by with_reducible assumption) (by decide)) : SameOut c s0 (execLaserInputFault a0 s) := by
  unfold execLaserInputFault
  repeat' (first | with_reducible assumption | with_reducible refine Same.ite ?_ ?_ | with_reducible refine Same.ite2 ?_ ?_ | with_reducible refine SameOut.next ?_ | with_reducible exact SameOut.fault _ | with_reducible refine SameOut.ite ?_ ?_ | with_reducible apply severeFault_same | with_reducible apply modRsrc_same | with_reducible apply setLsrEn_same | with_reducible exact Sub.up (by with_reducible assumption) (by decide) | fail_if_no_progress (with_reducible apply Same.upd <;> try first | with_reducible exact ⟨rfl, rfl⟩ | with_reducible exact Or.inr (Sub.up (by with_reducible assumption) (by decide)) | with_reducible exact Or.inl rfl) | (intro _) | dsimp only | (with_reducible refine Same.ofEq (by with_reducible assumption) ?_) | split)

theorem execLaserInputRestored_same {c s0 s} {a0} (h : Same c s0 s) (hc : Sub 1090 c := by first | with_reducible assumption | exact Sub.up (by with_reducible assumption) (by decide)) : SameOut c s0 (execLaserInputRestored a0 s) := by
  unfold execLaserInputRestored
  repeat' (first | with_reducible assumption | with_reducible refine Same.ite ?_ ?_ | with_reducible refine Same.ite2 ?_ ?_ | with_reducible refine SameOut.next ?_ | with_reducible exact SameOut.fault _ | with_reducible refine SameOut.ite ?_ ?_ | with_reducible apply modRsrc_same | with_reducible apply setLsrEn_same | with_reducible exact Sub.up (by with_reducible assumption) (by decide) | fail_if_no_progress (with_reducible apply Same.upd <;> try first | with_reducible exact ⟨rfl, rfl⟩ | with_reducible exact Or.inr (Sub.up (by with_reducible assumption) (by decide)) | with_reducible exact Or.inl rfl) | (intro _) | dsimp only | (with_reducible refine Same.ofEq (by with_reducible assumption) ?_) | split)

theorem execLsrFlt_same {c s0 s} (h : Same c s0 s) (hc : Sub 2 c := by first | with_reducible assumption | exact Sub.up (by with_reducible assumption) (by decide)) : SameOut c s0 (execLsrFlt s) := by
  unfold execLsrFlt
  repeat' (first | with_reducible assumption | with_reducible refine Same.ite ?_ ?_ | with_reducible refine Same.ite2 ?_ ?_ | with_reducible refine SameOut.next ?_ | with_reducible exact SameOut.fault _ | with_reducible refine SameOut.ite ?_ ?_ | with_reducible exact Sub.up (by with_reducible assumption) (by decide) | fail_if_no_progress (with_reducible apply Same.upd <;> try first | with_reducible exact ⟨rfl, rfl⟩ | with_reducible exact Or.inr (Sub.up (by with_reducible assumption) (by decide)) | with_reducible exact Or.inl rfl) | (intro _) | dsimp only | (with_reducible refine Same.ofEq (by with_reducible assumption) ?_) | split)

theorem execRefclkLoss_same {c s0 s} {a0} (h : Same c s0 s) (hc : Sub 65527 c := by first | with_reducible assumption | exact Sub.up (by with_reducible assumption) (by decide)) : SameOut c s0 (execRefclkLoss a0 s) := by
  unfold execRefclkLoss
  repeat' (first | with_reducible assumption | with_reducible refine Same.ite ?_ ?_ | with_reducible refine Same.ite2 ?_ ?_ | with_reducible refine SameOut.next ?_ | with_reducible exact SameOut.fault _ | with_reducible refine SameOut.ite ?_ ?_ | with_reducible apply forAll_same | with_reducible apply modRsrc_same | with_reducible apply severeFault_same | with_reducible apply when_same | with_reducible apply buDown_same | with_reducible exact Sub.up (by with_reducible assumption) (by decide) | fail_if_no_progress (with_reducible apply Same.upd <;> try first | with_reducible exact ⟨rfl, rfl⟩ | with_reducible exact Or.inr (Sub.up (by with_reducible assumption) (by decide)) | with_reducible exact Or.inl rfl) | (intro _) | dsimp only | (with_reducible refine Same.ofEq (by with_reducible assumption) ?_) | split)

theorem execRefclkRestored_same {c s0 s} {a0} (h : Same c s0 s) (hc : Sub 66 c := by first | with_reducible assumption | exact Sub.up (by with_reducible assumption) (by decide)) : SameOut c s0 (execRefclkRestored a0 s) := by
  unfold execRefclkRestored
  repeat' (first | with_reducible assumption | with_reducible refine Same.ite ?_ ?_ | with_reducible refine Same.ite2 ?_ ?_ | with_reducible refine SameOut.next ?_ | with_reducible exact SameOut.fault _ | with_reducible refine SameOut.ite ?_ ?_ | with_reducible apply forAll_same | with_reducible apply modRsrc_same | with_reducible exact Sub.up (by with_reducible assumption) (by decide) | fail_if_no_progress (with_reducible apply Same.upd <;> try first | with_reducible exact ⟨rfl, rfl⟩ | with_reducible exact Or.inr (Sub.up (by with_reducible assumption) (by decide)) | with_reducible exact Or.inl rfl) | (intro _) | dsimp only | (with_reducible refine Same.ofEq (by with_reducible assumption) ?_) | split)

theorem execSourceEvent_same {c s0 s} {a0 a1 a2} (h : Same c s0 s) (hc : Sub 65527 c := by first | with_reducible assumption | exact Sub.up (by with_reducible assumption) (by decide)) : SameOut c s0 (execSourceEvent a0 a1 a2 s) := by
  unfold execSourceEvent
  repeat' (first | with_reducible assumption | with_reducible refine Same.ite ?_ ?_ | with_reducible refine Same.ite2 ?_ ?_ | with_reducible refine SameOut.next ?_ | with_reducible exact SameOut.fault _ | with_reducible refine SameOut.ite ?_ ?_ | with_reducible apply rennetEvent_same | with_reducible exact Sub.up (by with_reducible assumption) (by decide) | fail_if_no_progress (with_reducible apply Same.upd <;> try first | with_reducible exact ⟨rfl, rfl⟩ | with_reducible exact Or.inr (Sub.up (by with_reducible assumption) (by decide)) | with_reducible exact Or.inl rfl) | (intro _) | dsimp only | (with_reducible refine Same.ofEq (by with_reducible assumption) ?_) | split)

theorem execWindowExpiry_same {c s0 s} {a0} (h : Same c s0 s) (hc : Sub 64 c := by first | with_reducible assumption | exact Sub.up (by with_reducible assumption) (by decide)) : SameOut c s0 (execWindowExpiry a0 s) := by
  unfold execWindowExpiry
  repeat' (first | with_reducible assumption | with_reducible refine Same.ite ?_ ?_ | with_reducible refine Same.ite2 ?_ ?_ | with_reducible refine SameOut.next ?_ | with_reducible exact SameOut.fault _ | with_reducible refine SameOut.ite ?_ ?_ | with_reducible apply modRsrc_same | with_reducible exact Sub.up (by with_reducible assumption) (by decide) | fail_if_no_progress (with_reducible apply Same.upd <;> try first | with_reducible exact ⟨rfl, rfl⟩ | with_reducible exact Or.inr (Sub.up (by with_reducible assumption) (by decide)) | with_reducible exact Or.inl rfl) | (intro _) | dsimp only | (with_reducible refine Same.ofEq (by with_reducible assumption) ?_) | split)

theorem execWriteGateClosed_same {c s0 s} {a0} (h : Same c s0 s) (hc : Sub 64 c := by first | with_reducible assumption | exact Sub.up (by with_reducible assumption) (by decide)) : SameOut c s0 (execWriteGateClosed a0 s) := by
  unfold execWriteGateClosed
  repeat' (first | with_reducible assumption | with_reducible refine Same.ite ?_ ?_ | with_reducible refine Same.ite2 ?_ ?_ | with_reducible refine SameOut.next ?_ | with_reducible exact SameOut.fault _ | with_reducible refine SameOut.ite ?_ ?_ | with_reducible exact Sub.up (by with_reducible assumption) (by decide) | fail_if_no_progress (with_reducible apply Same.upd <;> try first | with_reducible exact ⟨rfl, rfl⟩ | with_reducible exact Or.inr (Sub.up (by with_reducible assumption) (by decide)) | with_reducible exact Or.inl rfl) | (intro _) | dsimp only | (with_reducible refine Same.ofEq (by with_reducible assumption) ?_) | split)

theorem execSrcStatusClear_same {c s0 s} {a0 a1} (h : Same c s0 s) (hc : Sub 65527 c := by first | with_reducible assumption | exact Sub.up (by with_reducible assumption) (by decide)) : SameOut c s0 (execSrcStatusClear a0 a1 s) := by
  unfold execSrcStatusClear
  repeat' (first | with_reducible assumption | with_reducible refine Same.ite ?_ ?_ | with_reducible refine Same.ite2 ?_ ?_ | with_reducible refine SameOut.next ?_ | with_reducible exact SameOut.fault _ | with_reducible refine SameOut.ite ?_ ?_ | with_reducible apply inD0_same | with_reducible apply clearSrc_same | with_reducible apply setLsrEn_same | with_reducible exact Sub.up (by with_reducible assumption) (by decide) | fail_if_no_progress (with_reducible apply Same.upd <;> try first | with_reducible exact ⟨rfl, rfl⟩ | with_reducible exact Or.inr (Sub.up (by with_reducible assumption) (by decide)) | with_reducible exact Or.inl rfl) | (intro _) | dsimp only | (with_reducible refine Same.ofEq (by with_reducible assumption) ?_) | split)

theorem execSrcForce_same {c s0 s} {a0 a1} (h : Same c s0 s) (hc : Sub 65527 c := by first | with_reducible assumption | exact Sub.up (by with_reducible assumption) (by decide)) : SameOut c s0 (execSrcForce a0 a1 s) := by
  unfold execSrcForce
  repeat' (first | with_reducible assumption | with_reducible refine Same.ite ?_ ?_ | with_reducible refine Same.ite2 ?_ ?_ | with_reducible refine SameOut.next ?_ | with_reducible exact SameOut.fault _ | with_reducible refine SameOut.ite ?_ ?_ | with_reducible apply inD0_same | with_reducible apply rennetEvent_same | with_reducible exact Sub.up (by with_reducible assumption) (by decide) | fail_if_no_progress (with_reducible apply Same.upd <;> try first | with_reducible exact ⟨rfl, rfl⟩ | with_reducible exact Or.inr (Sub.up (by with_reducible assumption) (by decide)) | with_reducible exact Or.inl rfl) | (intro _) | dsimp only | (with_reducible refine Same.ofEq (by with_reducible assumption) ?_) | split)

theorem execTurnDue_same {c s0 s} {a0 a1} (h : Same c s0 s) (hc : Sub 1170 c := by first | with_reducible assumption | exact Sub.up (by with_reducible assumption) (by decide)) : SameOut c s0 (execTurnDue a0 a1 s) := by
  unfold execTurnDue
  repeat' (first | with_reducible assumption | with_reducible refine Same.ite ?_ ?_ | with_reducible refine Same.ite2 ?_ ?_ | with_reducible refine SameOut.next ?_ | with_reducible exact SameOut.fault _ | with_reducible refine SameOut.ite ?_ ?_ | with_reducible apply runTurn_same | with_reducible exact Sub.up (by with_reducible assumption) (by decide) | fail_if_no_progress (with_reducible apply Same.upd <;> try first | with_reducible exact ⟨rfl, rfl⟩ | with_reducible exact Or.inr (Sub.up (by with_reducible assumption) (by decide)) | with_reducible exact Or.inl rfl) | (intro _) | dsimp only | (with_reducible refine Same.ofEq (by with_reducible assumption) ?_) | split)

theorem execTurnTestDone_same {c s0 s} {a0} (h : Same c s0 s) (hc : Sub 65527 c := by first | with_reducible assumption | exact Sub.up (by with_reducible assumption) (by decide)) : SameOut c s0 (execTurnTestDone a0 s) := by
  unfold execTurnTestDone
  repeat' (first | with_reducible assumption | with_reducible refine Same.ite ?_ ?_ | with_reducible refine Same.ite2 ?_ ?_ | with_reducible refine SameOut.next ?_ | with_reducible exact SameOut.fault _ | with_reducible refine SameOut.ite ?_ ?_ | with_reducible apply when_same | with_reducible apply failedTest_same | with_reducible apply endTest_same | with_reducible exact Sub.up (by with_reducible assumption) (by decide) | fail_if_no_progress (with_reducible apply Same.upd <;> try first | with_reducible exact ⟨rfl, rfl⟩ | with_reducible exact Or.inr (Sub.up (by with_reducible assumption) (by decide)) | with_reducible exact Or.inl rfl) | (intro _) | dsimp only | (with_reducible refine Same.ofEq (by with_reducible assumption) ?_) | split)

theorem execLogicRailLow_same {c s0 s} (h : Same c s0 s) (hc : Sub 65527 c := by first | with_reducible assumption | exact Sub.up (by with_reducible assumption) (by decide)) : SameOut c s0 (execLogicRailLow s) := by
  unfold execLogicRailLow
  repeat' (first | with_reducible assumption | with_reducible refine Same.ite ?_ ?_ | with_reducible refine Same.ite2 ?_ ?_ | with_reducible refine SameOut.next ?_ | with_reducible exact SameOut.fault _ | with_reducible refine SameOut.ite ?_ ?_ | with_reducible apply conditionOn_same | with_reducible exact Sub.up (by with_reducible assumption) (by decide) | fail_if_no_progress (with_reducible apply Same.upd <;> try first | with_reducible exact ⟨rfl, rfl⟩ | with_reducible exact Or.inr (Sub.up (by with_reducible assumption) (by decide)) | with_reducible exact Or.inl rfl) | (intro _) | dsimp only | (with_reducible refine Same.ofEq (by with_reducible assumption) ?_) | split)

theorem execPhotRailLow_same {c s0 s} (h : Same c s0 s) (hc : Sub 65527 c := by first | with_reducible assumption | exact Sub.up (by with_reducible assumption) (by decide)) : SameOut c s0 (execPhotRailLow s) := by
  unfold execPhotRailLow
  repeat' (first | with_reducible assumption | with_reducible refine Same.ite ?_ ?_ | with_reducible refine Same.ite2 ?_ ?_ | with_reducible refine SameOut.next ?_ | with_reducible exact SameOut.fault _ | with_reducible refine SameOut.ite ?_ ?_ | with_reducible apply conditionOn_same | with_reducible exact Sub.up (by with_reducible assumption) (by decide) | fail_if_no_progress (with_reducible apply Same.upd <;> try first | with_reducible exact ⟨rfl, rfl⟩ | with_reducible exact Or.inr (Sub.up (by with_reducible assumption) (by decide)) | with_reducible exact Or.inl rfl) | (intro _) | dsimp only | (with_reducible refine Same.ofEq (by with_reducible assumption) ?_) | split)

theorem execRail18Low_same {c s0 s} (h : Same c s0 s) (hc : Sub 65527 c := by first | with_reducible assumption | exact Sub.up (by with_reducible assumption) (by decide)) : SameOut c s0 (execRail18Low s) := by
  unfold execRail18Low
  repeat' (first | with_reducible assumption | with_reducible refine Same.ite ?_ ?_ | with_reducible refine Same.ite2 ?_ ?_ | with_reducible refine SameOut.next ?_ | with_reducible exact SameOut.fault _ | with_reducible refine SameOut.ite ?_ ?_ | with_reducible apply conditionOn_same | with_reducible exact Sub.up (by with_reducible assumption) (by decide) | fail_if_no_progress (with_reducible apply Same.upd <;> try first | with_reducible exact ⟨rfl, rfl⟩ | with_reducible exact Or.inr (Sub.up (by with_reducible assumption) (by decide)) | with_reducible exact Or.inl rfl) | (intro _) | dsimp only | (with_reducible refine Same.ofEq (by with_reducible assumption) ?_) | split)

theorem execRailRestored_same {c s0 s} {a0} (h : Same c s0 s) (hc : Sub 3955 c := by first | with_reducible assumption | exact Sub.up (by with_reducible assumption) (by decide)) : SameOut c s0 (execRailRestored a0 s) := by
  unfold execRailRestored
  repeat' (first | with_reducible assumption | with_reducible refine Same.ite ?_ ?_ | with_reducible refine Same.ite2 ?_ ?_ | with_reducible refine SameOut.next ?_ | with_reducible exact SameOut.fault _ | with_reducible refine SameOut.ite ?_ ?_ | with_reducible apply conditionOff_same | with_reducible apply forAll_same | with_reducible apply mramDo_same | with_reducible exact Sub.up (by with_reducible assumption) (by decide) | fail_if_no_progress (with_reducible apply Same.upd <;> try first | with_reducible exact ⟨rfl, rfl⟩ | with_reducible exact Or.inr (Sub.up (by with_reducible assumption) (by decide)) | with_reducible exact Or.inl rfl) | (intro _) | dsimp only | (with_reducible refine Same.ofEq (by with_reducible assumption) ?_) | split)

theorem execThermTrip_same {c s0 s} (h : Same c s0 s) (hc : Sub 65527 c := by first | with_reducible assumption | exact Sub.up (by with_reducible assumption) (by decide)) : SameOut c s0 (execThermTrip s) := by
  unfold execThermTrip
  repeat' (first | with_reducible assumption | with_reducible refine Same.ite ?_ ?_ | with_reducible refine Same.ite2 ?_ ?_ | with_reducible refine SameOut.next ?_ | with_reducible exact SameOut.fault _ | with_reducible refine SameOut.ite ?_ ?_ | with_reducible apply conditionOn_same | with_reducible apply setLsrEn_same | with_reducible exact Sub.up (by with_reducible assumption) (by decide) | fail_if_no_progress (with_reducible apply Same.upd <;> try first | with_reducible exact ⟨rfl, rfl⟩ | with_reducible exact Or.inr (Sub.up (by with_reducible assumption) (by decide)) | with_reducible exact Or.inl rfl) | (intro _) | dsimp only | (with_reducible refine Same.ofEq (by with_reducible assumption) ?_) | split)

theorem execThermTripCleared_same {c s0 s} (h : Same c s0 s) (hc : Sub 66 c := by first | with_reducible assumption | exact Sub.up (by with_reducible assumption) (by decide)) : SameOut c s0 (execThermTripCleared s) := by
  unfold execThermTripCleared
  repeat' (first | with_reducible assumption | with_reducible refine Same.ite ?_ ?_ | with_reducible refine Same.ite2 ?_ ?_ | with_reducible refine SameOut.next ?_ | with_reducible exact SameOut.fault _ | with_reducible refine SameOut.ite ?_ ?_ | with_reducible apply conditionOff_same | with_reducible exact Sub.up (by with_reducible assumption) (by decide) | fail_if_no_progress (with_reducible apply Same.upd <;> try first | with_reducible exact ⟨rfl, rfl⟩ | with_reducible exact Or.inr (Sub.up (by with_reducible assumption) (by decide)) | with_reducible exact Or.inl rfl) | (intro _) | dsimp only | (with_reducible refine Same.ofEq (by with_reducible assumption) ?_) | split)

theorem execColdStart_same {c s0 s} (h : Same c s0 s) (hc : Sub 65535 c := by first | with_reducible assumption | exact Sub.up (by with_reducible assumption) (by decide)) : SameOut c s0 (execColdStart s) := by
  unfold execColdStart
  repeat' (first | with_reducible assumption | with_reducible refine Same.ite ?_ ?_ | with_reducible refine Same.ite2 ?_ ?_ | with_reducible refine SameOut.next ?_ | with_reducible exact SameOut.fault _ | with_reducible refine SameOut.ite ?_ ?_ | with_reducible apply coldDomain_same | with_reducible apply startUp_same | with_reducible exact Sub.up (by with_reducible assumption) (by decide) | fail_if_no_progress (with_reducible apply Same.upd <;> try first | with_reducible exact ⟨rfl, rfl⟩ | with_reducible exact Or.inr (Sub.up (by with_reducible assumption) (by decide)) | with_reducible exact Or.inl rfl) | (intro _) | dsimp only | (with_reducible refine Same.ofEq (by with_reducible assumption) ?_) | split)

theorem execWarmReset_same {c s0 s} (h : Same c s0 s) (hc : Sub 65535 c := by first | with_reducible assumption | exact Sub.up (by with_reducible assumption) (by decide)) : SameOut c s0 (execWarmReset s) := by
  unfold execWarmReset
  repeat' (first | with_reducible assumption | with_reducible refine Same.ite ?_ ?_ | with_reducible refine Same.ite2 ?_ ?_ | with_reducible refine SameOut.next ?_ | with_reducible exact SameOut.fault _ | with_reducible refine SameOut.ite ?_ ?_ | with_reducible apply coldDomain_same | with_reducible apply startUp_same | with_reducible exact Sub.up (by with_reducible assumption) (by decide) | fail_if_no_progress (with_reducible apply Same.upd <;> try first | with_reducible exact ⟨rfl, rfl⟩ | with_reducible exact Or.inr (Sub.up (by with_reducible assumption) (by decide)) | with_reducible exact Or.inl rfl) | (intro _) | dsimp only | (with_reducible refine Same.ofEq (by with_reducible assumption) ?_) | split)

theorem execCoreRailLoss_same {c s0 s} (h : Same c s0 s) (hc : Sub 65535 c := by first | with_reducible assumption | exact Sub.up (by with_reducible assumption) (by decide)) : SameOut c s0 (execCoreRailLoss s) := by
  unfold execCoreRailLoss
  repeat' (first | with_reducible assumption | with_reducible refine Same.ite ?_ ?_ | with_reducible refine Same.ite2 ?_ ?_ | with_reducible refine SameOut.next ?_ | with_reducible exact SameOut.fault _ | with_reducible refine SameOut.ite ?_ ?_ | with_reducible apply coldDomain_same | with_reducible exact Sub.up (by with_reducible assumption) (by decide) | fail_if_no_progress (with_reducible apply Same.upd <;> try first | with_reducible exact ⟨rfl, rfl⟩ | with_reducible exact Or.inr (Sub.up (by with_reducible assumption) (by decide)) | with_reducible exact Or.inl rfl) | (intro _) | dsimp only | (with_reducible refine Same.ofEq (by with_reducible assumption) ?_) | split)

theorem execCavePowerLoss_same {c s0 s} (h : Same c s0 s) (hc : Sub 14 c := by first | with_reducible assumption | exact Sub.up (by with_reducible assumption) (by decide)) : SameOut c s0 (execCavePowerLoss s) := by
  unfold execCavePowerLoss
  repeat' (first | with_reducible assumption | with_reducible refine Same.ite ?_ ?_ | with_reducible refine Same.ite2 ?_ ?_ | with_reducible refine SameOut.next ?_ | with_reducible exact SameOut.fault _ | with_reducible refine SameOut.ite ?_ ?_ | with_reducible exact Sub.up (by with_reducible assumption) (by decide) | fail_if_no_progress (with_reducible apply Same.upd <;> try first | with_reducible exact ⟨rfl, rfl⟩ | with_reducible exact Or.inr (Sub.up (by with_reducible assumption) (by decide)) | with_reducible exact Or.inl rfl) | (intro _) | dsimp only | (with_reducible refine Same.ofEq (by with_reducible assumption) ?_) | split)

theorem execVatStoreRemirror_same {c s0 s} (h : Same c s0 s) (hc : Sub 256 c := by first | with_reducible assumption | exact Sub.up (by with_reducible assumption) (by decide)) : SameOut c s0 (execVatStoreRemirror s) := by
  unfold execVatStoreRemirror
  repeat' (first | with_reducible assumption | with_reducible refine Same.ite ?_ ?_ | with_reducible refine Same.ite2 ?_ ?_ | with_reducible refine SameOut.next ?_ | with_reducible exact SameOut.fault _ | with_reducible refine SameOut.ite ?_ ?_ | with_reducible exact Sub.up (by with_reducible assumption) (by decide) | fail_if_no_progress (with_reducible apply Same.upd <;> try first | with_reducible exact ⟨rfl, rfl⟩ | with_reducible exact Or.inr (Sub.up (by with_reducible assumption) (by decide)) | with_reducible exact Or.inl rfl) | (intro _) | dsimp only | (with_reducible refine Same.ofEq (by with_reducible assumption) ?_) | split)

theorem execRestEnter_same {c s0 s} {a0} (h : Same c s0 s) (hc : Sub 6 c := by first | with_reducible assumption | exact Sub.up (by with_reducible assumption) (by decide)) : SameOut c s0 (execRestEnter a0 s) := by
  unfold execRestEnter
  repeat' (first | with_reducible assumption | with_reducible refine Same.ite ?_ ?_ | with_reducible refine Same.ite2 ?_ ?_ | with_reducible refine SameOut.next ?_ | with_reducible exact SameOut.fault _ | with_reducible refine SameOut.ite ?_ ?_ | with_reducible apply inD0_same | with_reducible apply restRequest_same | with_reducible exact Sub.up (by with_reducible assumption) (by decide) | fail_if_no_progress (with_reducible apply Same.upd <;> try first | with_reducible exact ⟨rfl, rfl⟩ | with_reducible exact Or.inr (Sub.up (by with_reducible assumption) (by decide)) | with_reducible exact Or.inl rfl) | (intro _) | dsimp only | (with_reducible refine Same.ofEq (by with_reducible assumption) ?_) | split)

theorem execDeepRestEnter_same {c s0 s} {a0} (h : Same c s0 s) (hc : Sub 6 c := by first | with_reducible assumption | exact Sub.up (by with_reducible assumption) (by decide)) : SameOut c s0 (execDeepRestEnter a0 s) := by
  unfold execDeepRestEnter
  repeat' (first | with_reducible assumption | with_reducible refine Same.ite ?_ ?_ | with_reducible refine Same.ite2 ?_ ?_ | with_reducible refine SameOut.next ?_ | with_reducible exact SameOut.fault _ | with_reducible refine SameOut.ite ?_ ?_ | with_reducible apply inD0_same | with_reducible apply restRequest_same | with_reducible exact Sub.up (by with_reducible assumption) (by decide) | fail_if_no_progress (with_reducible apply Same.upd <;> try first | with_reducible exact ⟨rfl, rfl⟩ | with_reducible exact Or.inr (Sub.up (by with_reducible assumption) (by decide)) | with_reducible exact Or.inl rfl) | (intro _) | dsimp only | (with_reducible refine Same.ofEq (by with_reducible assumption) ?_) | split)

theorem execRestWake_same {c s0 s} {a0} (h : Same c s0 s) (hc : Sub 3647 c := by first | with_reducible assumption | exact Sub.up (by with_reducible assumption) (by decide)) : SameOut c s0 (execRestWake a0 s) := by
  unfold execRestWake
  repeat' (first | with_reducible assumption | with_reducible refine Same.ite ?_ ?_ | with_reducible refine Same.ite2 ?_ ?_ | with_reducible refine SameOut.next ?_ | with_reducible exact SameOut.fault _ | with_reducible refine SameOut.ite ?_ ?_ | with_reducible apply wake_same | with_reducible exact Sub.up (by with_reducible assumption) (by decide) | fail_if_no_progress (with_reducible apply Same.upd <;> try first | with_reducible exact ⟨rfl, rfl⟩ | with_reducible exact Or.inr (Sub.up (by with_reducible assumption) (by decide)) | with_reducible exact Or.inl rfl) | (intro _) | dsimp only | (with_reducible refine Same.ofEq (by with_reducible assumption) ?_) | split)

theorem execDeepRestWake_same {c s0 s} {a0} (h : Same c s0 s) (hc : Sub 3647 c := by first | with_reducible assumption | exact Sub.up (by with_reducible assumption) (by decide)) : SameOut c s0 (execDeepRestWake a0 s) := by
  unfold execDeepRestWake
  repeat' (first | with_reducible assumption | with_reducible refine Same.ite ?_ ?_ | with_reducible refine Same.ite2 ?_ ?_ | with_reducible refine SameOut.next ?_ | with_reducible exact SameOut.fault _ | with_reducible refine SameOut.ite ?_ ?_ | with_reducible apply wake_same | with_reducible exact Sub.up (by with_reducible assumption) (by decide) | fail_if_no_progress (with_reducible apply Same.upd <;> try first | with_reducible exact ⟨rfl, rfl⟩ | with_reducible exact Or.inr (Sub.up (by with_reducible assumption) (by decide)) | with_reducible exact Or.inl rfl) | (intro _) | dsimp only | (with_reducible refine Same.ofEq (by with_reducible assumption) ?_) | split)

theorem execWakenAssert_same {c s0 s} (h : Same c s0 s) (hc : Sub 3647 c := by first | with_reducible assumption | exact Sub.up (by with_reducible assumption) (by decide)) : SameOut c s0 (execWakenAssert s) := by
  unfold execWakenAssert
  repeat' (first | with_reducible assumption | with_reducible refine Same.ite ?_ ?_ | with_reducible refine Same.ite2 ?_ ?_ | with_reducible refine SameOut.next ?_ | with_reducible exact SameOut.fault _ | with_reducible refine SameOut.ite ?_ ?_ | with_reducible apply wake_same | with_reducible exact Sub.up (by with_reducible assumption) (by decide) | fail_if_no_progress (with_reducible apply Same.upd <;> try first | with_reducible exact ⟨rfl, rfl⟩ | with_reducible exact Or.inr (Sub.up (by with_reducible assumption) (by decide)) | with_reducible exact Or.inl rfl) | (intro _) | dsimp only | (with_reducible refine Same.ofEq (by with_reducible assumption) ?_) | split)

theorem execCaveAlarmMatch_same {c s0 s} (h : Same c s0 s) (hc : Sub 3647 c := by first | with_reducible assumption | exact Sub.up (by with_reducible assumption) (by decide)) : SameOut c s0 (execCaveAlarmMatch s) := by
  unfold execCaveAlarmMatch
  repeat' (first | with_reducible assumption | with_reducible refine Same.ite ?_ ?_ | with_reducible refine Same.ite2 ?_ ?_ | with_reducible refine SameOut.next ?_ | with_reducible exact SameOut.fault _ | with_reducible refine SameOut.ite ?_ ?_ | with_reducible apply wake_same | with_reducible exact Sub.up (by with_reducible assumption) (by decide) | fail_if_no_progress (with_reducible apply Same.upd <;> try first | with_reducible exact ⟨rfl, rfl⟩ | with_reducible exact Or.inr (Sub.up (by with_reducible assumption) (by decide)) | with_reducible exact Or.inl rfl) | (intro _) | dsimp only | (with_reducible refine Same.ofEq (by with_reducible assumption) ?_) | split)

theorem execCoreRailsReady_same {c s0 s} (h : Same c s0 s) (hc : Sub 65535 c := by first | with_reducible assumption | exact Sub.up (by with_reducible assumption) (by decide)) : SameOut c s0 (execCoreRailsReady s) := by
  unfold execCoreRailsReady
  repeat' (first | with_reducible assumption | with_reducible refine Same.ite ?_ ?_ | with_reducible refine Same.ite2 ?_ ?_ | with_reducible refine SameOut.next ?_ | with_reducible exact SameOut.fault _ | with_reducible refine SameOut.ite ?_ ?_ | with_reducible apply coldDomain_same | with_reducible apply startUp_same | with_reducible apply sendMsix_same | with_reducible exact Sub.up (by with_reducible assumption) (by decide) | fail_if_no_progress (with_reducible apply Same.upd <;> try first | with_reducible exact ⟨rfl, rfl⟩ | with_reducible exact Or.inr (Sub.up (by with_reducible assumption) (by decide)) | with_reducible exact Or.inl rfl) | (intro _) | dsimp only | (with_reducible refine Same.ofEq (by with_reducible assumption) ?_) | split)

theorem execRestEntryComplete_same {c s0 s} (h : Same c s0 s) (hc : Sub 65471 c := by first | with_reducible assumption | exact Sub.up (by with_reducible assumption) (by decide)) : SameOut c s0 (execRestEntryComplete s) := by
  unfold execRestEntryComplete
  repeat' (first | with_reducible assumption | with_reducible refine Same.ite ?_ ?_ | with_reducible refine Same.ite2 ?_ ?_ | with_reducible refine SameOut.next ?_ | with_reducible exact SameOut.fault _ | with_reducible refine SameOut.ite ?_ ?_ | with_reducible apply stopTurning_same | with_reducible apply portsDown_same | with_reducible apply wakeUp_same | with_reducible exact Sub.up (by with_reducible assumption) (by decide) | fail_if_no_progress (with_reducible apply Same.upd <;> try first | with_reducible exact ⟨rfl, rfl⟩ | with_reducible exact Or.inr (Sub.up (by with_reducible assumption) (by decide)) | with_reducible exact Or.inl rfl) | (intro _) | dsimp only | (with_reducible refine Same.ofEq (by with_reducible assumption) ?_) | split)

theorem execTimeRealign_same {c s0 s} (h : Same c s0 s) (hc : Sub 4 c := by first | with_reducible assumption | exact Sub.up (by with_reducible assumption) (by decide)) : SameOut c s0 (execTimeRealign s) := by
  unfold execTimeRealign
  repeat' (first | with_reducible assumption | with_reducible refine Same.ite ?_ ?_ | with_reducible refine Same.ite2 ?_ ?_ | with_reducible refine SameOut.next ?_ | with_reducible exact SameOut.fault _ | with_reducible refine SameOut.ite ?_ ?_ | with_reducible apply forAll_same | with_reducible apply modIsland_same | with_reducible exact Sub.up (by with_reducible assumption) (by decide) | fail_if_no_progress (with_reducible apply Same.upd <;> try first | with_reducible exact ⟨rfl, rfl⟩ | with_reducible exact Or.inr (Sub.up (by with_reducible assumption) (by decide)) | with_reducible exact Or.inl rfl) | (intro _) | dsimp only | (with_reducible refine Same.ofEq (by with_reducible assumption) ?_) | split)

theorem execPowerWindow_same {c s0 s} {a0} (h : Same c s0 s) (hc : Sub 2 c := by first | with_reducible assumption | exact Sub.up (by with_reducible assumption) (by decide)) : SameOut c s0 (execPowerWindow a0 s) := by
  unfold execPowerWindow
  repeat' (first | with_reducible assumption | with_reducible refine Same.ite ?_ ?_ | with_reducible refine Same.ite2 ?_ ?_ | with_reducible refine SameOut.next ?_ | with_reducible exact SameOut.fault _ | with_reducible refine SameOut.ite ?_ ?_ | with_reducible exact Sub.up (by with_reducible assumption) (by decide) | fail_if_no_progress (with_reducible apply Same.upd <;> try first | with_reducible exact ⟨rfl, rfl⟩ | with_reducible exact Or.inr (Sub.up (by with_reducible assumption) (by decide)) | with_reducible exact Or.inl rfl) | (intro _) | dsimp only | (with_reducible refine Same.ofEq (by with_reducible assumption) ?_) | split)

theorem execEnergyWindow_same {c s0 s} {a0 a1} (h : Same c s0 s) (hc : Sub 2 c := by first | with_reducible assumption | exact Sub.up (by with_reducible assumption) (by decide)) : SameOut c s0 (execEnergyWindow a0 a1 s) := by
  unfold execEnergyWindow
  repeat' (first | with_reducible assumption | with_reducible refine Same.ite ?_ ?_ | with_reducible refine Same.ite2 ?_ ?_ | with_reducible refine SameOut.next ?_ | with_reducible exact SameOut.fault _ | with_reducible refine SameOut.ite ?_ ?_ | with_reducible exact Sub.up (by with_reducible assumption) (by decide) | fail_if_no_progress (with_reducible apply Same.upd <;> try first | with_reducible exact ⟨rfl, rfl⟩ | with_reducible exact Or.inr (Sub.up (by with_reducible assumption) (by decide)) | with_reducible exact Or.inl rfl) | (intro _) | dsimp only | (with_reducible refine Same.ofEq (by with_reducible assumption) ?_) | split)

theorem execBuLinkTrained_same {c s0 s} {a0 a1} (h : Same c s0 s) (hc : Sub 1024 c := by first | with_reducible assumption | exact Sub.up (by with_reducible assumption) (by decide)) : SameOut c s0 (execBuLinkTrained a0 a1 s) := by
  unfold execBuLinkTrained
  repeat' (first | with_reducible assumption | with_reducible refine Same.ite ?_ ?_ | with_reducible refine Same.ite2 ?_ ?_ | with_reducible refine SameOut.next ?_ | with_reducible exact SameOut.fault _ | with_reducible refine SameOut.ite ?_ ?_ | with_reducible exact Sub.up (by with_reducible assumption) (by decide) | fail_if_no_progress (with_reducible apply Same.upd <;> try first | with_reducible exact ⟨rfl, rfl⟩ | with_reducible exact Or.inr (Sub.up (by with_reducible assumption) (by decide)) | with_reducible exact Or.inl rfl) | (intro _) | dsimp only | (with_reducible refine Same.ofEq (by with_reducible assumption) ?_) | split)

theorem execBuLinkDown_same {c s0 s} (h : Same c s0 s) (hc : Sub 16179 c := by first | with_reducible assumption | exact Sub.up (by with_reducible assumption) (by decide)) : SameOut c s0 (execBuLinkDown s) := by
  unfold execBuLinkDown
  repeat' (first | with_reducible assumption | with_reducible refine Same.ite ?_ ?_ | with_reducible refine Same.ite2 ?_ ?_ | with_reducible refine SameOut.next ?_ | with_reducible exact SameOut.fault _ | with_reducible refine SameOut.ite ?_ ?_ | with_reducible apply buDown_same | with_reducible exact Sub.up (by with_reducible assumption) (by decide) | fail_if_no_progress (with_reducible apply Same.upd <;> try first | with_reducible exact ⟨rfl, rfl⟩ | with_reducible exact Or.inr (Sub.up (by with_reducible assumption) (by decide)) | with_reducible exact Or.inl rfl) | (intro _) | dsimp only | (with_reducible refine Same.ofEq (by with_reducible assumption) ?_) | split)

theorem execBuReset_same {c s0 s} (h : Same c s0 s) (hc : Sub 32563 c := by first | with_reducible assumption | exact Sub.up (by with_reducible assumption) (by decide)) : SameOut c s0 (execBuReset s) := by
  unfold execBuReset
  repeat' (first | with_reducible assumption | with_reducible refine Same.ite ?_ ?_ | with_reducible refine Same.ite2 ?_ ?_ | with_reducible refine SameOut.next ?_ | with_reducible exact SameOut.fault _ | with_reducible refine SameOut.ite ?_ ?_ | with_reducible apply buDown_same | with_reducible apply forAll_same | with_reducible apply modRsh_same | with_reducible exact Sub.up (by with_reducible assumption) (by decide) | fail_if_no_progress (with_reducible apply Same.upd <;> try first | with_reducible exact ⟨rfl, rfl⟩ | with_reducible exact Or.inr (Sub.up (by with_reducible assumption) (by decide)) | with_reducible exact Or.inl rfl) | (intro _) | dsimp only | (with_reducible refine Same.ofEq (by with_reducible assumption) ?_) | split)

theorem execKeyExchange_same {c s0 s} {a0 a1} (h : Same c s0 s) (hc : Sub 16386 c := by first | with_reducible assumption | exact Sub.up (by with_reducible assumption) (by decide)) : SameOut c s0 (execKeyExchange a0 a1 s) := by
  unfold execKeyExchange
  repeat' (first | with_reducible assumption | with_reducible refine Same.ite ?_ ?_ | with_reducible refine Same.ite2 ?_ ?_ | with_reducible refine SameOut.next ?_ | with_reducible exact SameOut.fault _ | with_reducible refine SameOut.ite ?_ ?_ | with_reducible apply emit_same | with_reducible apply drawKey_same | with_reducible apply modSpdm_same | with_reducible apply spdmAnswer_same | with_reducible exact Sub.up (by with_reducible assumption) (by decide) | fail_if_no_progress (with_reducible apply Same.upd <;> try first | with_reducible exact ⟨rfl, rfl⟩ | with_reducible exact Or.inr (Sub.up (by with_reducible assumption) (by decide)) | with_reducible exact Or.inl rfl) | (intro _) | dsimp only | (with_reducible refine Same.ofEq (by with_reducible assumption) ?_) | split)

theorem execSpdmRequest_same {c s0 s} {a0 a1} (h : Same c s0 s) (hc : Sub 16386 c := by first | with_reducible assumption | exact Sub.up (by with_reducible assumption) (by decide)) : SameOut c s0 (execSpdmRequest a0 a1 s) := by
  unfold execSpdmRequest
  repeat' (first | with_reducible assumption | with_reducible refine Same.ite ?_ ?_ | with_reducible refine Same.ite2 ?_ ?_ | with_reducible refine SameOut.next ?_ | with_reducible exact SameOut.fault _ | with_reducible refine SameOut.ite ?_ ?_ | with_reducible apply spdmServe_same | with_reducible exact Sub.up (by with_reducible assumption) (by decide) | fail_if_no_progress (with_reducible apply Same.upd <;> try first | with_reducible exact ⟨rfl, rfl⟩ | with_reducible exact Or.inr (Sub.up (by with_reducible assumption) (by decide)) | with_reducible exact Or.inl rfl) | (intro _) | dsimp only | (with_reducible refine Same.ofEq (by with_reducible assumption) ?_) | split)

theorem execGetMeasurements_same {c s0 s} {a0 a1} (h : Same c s0 s) (hc : Sub 2 c := by first | with_reducible assumption | exact Sub.up (by with_reducible assumption) (by decide)) : SameOut c s0 (execGetMeasurements a0 a1 s) := by
  unfold execGetMeasurements
  repeat' (first | with_reducible assumption | with_reducible refine Same.ite ?_ ?_ | with_reducible refine Same.ite2 ?_ ?_ | with_reducible refine SameOut.next ?_ | with_reducible exact SameOut.fault _ | with_reducible refine SameOut.ite ?_ ?_ | with_reducible apply emit_same | with_reducible exact Sub.up (by with_reducible assumption) (by decide) | fail_if_no_progress (with_reducible apply Same.upd <;> try first | with_reducible exact ⟨rfl, rfl⟩ | with_reducible exact Or.inr (Sub.up (by with_reducible assumption) (by decide)) | with_reducible exact Or.inl rfl) | (intro _) | dsimp only | (with_reducible refine Same.ofEq (by with_reducible assumption) ?_) | split)

theorem execMctpMessage_same {c s0 s} {a0} (h : Same c s0 s) (hc : Sub 16386 c := by first | with_reducible assumption | exact Sub.up (by with_reducible assumption) (by decide)) : SameOut c s0 (execMctpMessage a0 s) := by
  unfold execMctpMessage
  repeat' (first | with_reducible assumption | with_reducible refine Same.ite ?_ ?_ | with_reducible refine Same.ite2 ?_ ?_ | with_reducible refine SameOut.next ?_ | with_reducible exact SameOut.fault _ | with_reducible refine SameOut.ite ?_ ?_ | with_reducible apply emit_same | with_reducible apply takeFree_same | with_reducible apply spdmServe_same | with_reducible exact Sub.up (by with_reducible assumption) (by decide) | fail_if_no_progress (with_reducible apply Same.upd <;> try first | with_reducible exact ⟨rfl, rfl⟩ | with_reducible exact Or.inr (Sub.up (by with_reducible assumption) (by decide)) | with_reducible exact Or.inl rfl) | (intro _) | dsimp only | (with_reducible refine Same.ofEq (by with_reducible assumption) ?_) | split)

theorem execDrbgReseed_same {c s0 s} (h : Same c s0 s) (hc : Sub 16384 c := by first | with_reducible assumption | exact Sub.up (by with_reducible assumption) (by decide)) : SameOut c s0 (execDrbgReseed s) := by
  unfold execDrbgReseed
  repeat' (first | with_reducible assumption | with_reducible refine Same.ite ?_ ?_ | with_reducible refine Same.ite2 ?_ ?_ | with_reducible refine SameOut.next ?_ | with_reducible exact SameOut.fault _ | with_reducible refine SameOut.ite ?_ ?_ | with_reducible exact Sub.up (by with_reducible assumption) (by decide) | fail_if_no_progress (with_reducible apply Same.upd <;> try first | with_reducible exact ⟨rfl, rfl⟩ | with_reducible exact Or.inr (Sub.up (by with_reducible assumption) (by decide)) | with_reducible exact Or.inl rfl) | (intro _) | dsimp only | (with_reducible refine Same.ofEq (by with_reducible assumption) ?_) | split)

theorem execMigSessionExpiry_same {c s0 s} {a0} (h : Same c s0 s) (hc : Sub 16384 c := by first | with_reducible assumption | exact Sub.up (by with_reducible assumption) (by decide)) : SameOut c s0 (execMigSessionExpiry a0 s) := by
  unfold execMigSessionExpiry
  repeat' (first | with_reducible assumption | with_reducible refine Same.ite ?_ ?_ | with_reducible refine Same.ite2 ?_ ?_ | with_reducible refine SameOut.next ?_ | with_reducible exact SameOut.fault _ | with_reducible refine SameOut.ite ?_ ?_ | with_reducible apply modMig_same | with_reducible exact Sub.up (by with_reducible assumption) (by decide) | fail_if_no_progress (with_reducible apply Same.upd <;> try first | with_reducible exact ⟨rfl, rfl⟩ | with_reducible exact Or.inr (Sub.up (by with_reducible assumption) (by decide)) | with_reducible exact Or.inl rfl) | (intro _) | dsimp only | (with_reducible refine Same.ofEq (by with_reducible assumption) ?_) | split)

theorem execJtagAccess_same {c s0 s} {a0} (h : Same c s0 s) (hc : Sub 2 c := by first | with_reducible assumption | exact Sub.up (by with_reducible assumption) (by decide)) : SameOut c s0 (execJtagAccess a0 s) := by
  unfold execJtagAccess
  repeat' (first | with_reducible assumption | with_reducible refine Same.ite ?_ ?_ | with_reducible refine Same.ite2 ?_ ?_ | with_reducible refine SameOut.next ?_ | with_reducible exact SameOut.fault _ | with_reducible refine SameOut.ite ?_ ?_ | with_reducible apply emit_same | with_reducible apply takeFree_same | with_reducible exact Sub.up (by with_reducible assumption) (by decide) | fail_if_no_progress (with_reducible apply Same.upd <;> try first | with_reducible exact ⟨rfl, rfl⟩ | with_reducible exact Or.inr (Sub.up (by with_reducible assumption) (by decide)) | with_reducible exact Or.inl rfl) | (intro _) | dsimp only | (with_reducible refine Same.ofEq (by with_reducible assumption) ?_) | split)

theorem execDevmgrWrite_same {c s0 s} {a0 a1} (h : Same c s0 s) (hc : Sub 8448 c := by first | with_reducible assumption | exact Sub.up (by with_reducible assumption) (by decide)) : SameOut c s0 (execDevmgrWrite a0 a1 s) := by
  unfold execDevmgrWrite
  repeat' (first | with_reducible assumption | with_reducible refine Same.ite ?_ ?_ | with_reducible refine Same.ite2 ?_ ?_ | with_reducible refine SameOut.next ?_ | with_reducible exact SameOut.fault _ | with_reducible refine SameOut.ite ?_ ?_ | with_reducible apply devmgrSet_same | with_reducible exact Sub.up (by with_reducible assumption) (by decide) | fail_if_no_progress (with_reducible apply Same.upd <;> try first | with_reducible exact ⟨rfl, rfl⟩ | with_reducible exact Or.inr (Sub.up (by with_reducible assumption) (by decide)) | with_reducible exact Or.inl rfl) | (intro _) | dsimp only | (with_reducible refine Same.ofEq (by with_reducible assumption) ?_) | split)

theorem execRegisterWrite_same {c s0 s} {a0 a1 a2 a3} (h : Same c s0 s) (hc : Sub 65535 c := by first | with_reducible assumption | exact Sub.up (by with_reducible assumption) (by decide)) : SameOut c s0 (execRegisterWrite a0 a1 a2 a3 s) := by
  unfold execRegisterWrite
  repeat' (first | with_reducible assumption | with_reducible refine Same.ite ?_ ?_ | with_reducible refine Same.ite2 ?_ ?_ | with_reducible refine SameOut.next ?_ | with_reducible exact SameOut.fault _ | with_reducible refine SameOut.ite ?_ ?_ | with_reducible apply when_same | with_reducible apply countFault_same | with_reducible apply emit_same | with_reducible apply hcErr_same | with_reducible apply bar2Reject_same | with_reducible apply ringWrite_same | with_reducible apply modAdmin_same | with_reducible apply classWrite_same | with_reducible exact Sub.up (by with_reducible assumption) (by decide) | fail_if_no_progress (with_reducible apply Same.upd <;> try first | with_reducible exact ⟨rfl, rfl⟩ | with_reducible exact Or.inr (Sub.up (by with_reducible assumption) (by decide)) | with_reducible exact Or.inl rfl) | (intro _) | dsimp only | (with_reducible refine Same.ofEq (by with_reducible assumption) ?_) | split)

theorem execQueryCaps_same {c s0 s} {a0} (h : Same c s0 s) (hc : Sub 65527 c := by first | with_reducible assumption | exact Sub.up (by with_reducible assumption) (by decide)) : SameOut c s0 (execQueryCaps a0 s) := by
  unfold execQueryCaps
  refine SameOut.next ?_
  split
  · exact adminRun_same h fun x0 x1 t ht => adminReport_same ht fun t ht => ht
  · exact entryReport_same h fun t ht => ht

theorem execResync_same {c s0 s} {a0} (h : Same c s0 s) (hc : Sub 65527 c := by first | with_reducible assumption | exact Sub.up (by with_reducible assumption) (by decide)) : SameOut c s0 (execResync a0 s) := by
  unfold execResync
  repeat' (first | with_reducible assumption | with_reducible refine Same.ite ?_ ?_ | with_reducible refine Same.ite2 ?_ ?_ | with_reducible refine SameOut.next ?_ | with_reducible exact SameOut.fault _ | with_reducible refine SameOut.ite ?_ ?_ | with_reducible apply adminRun_same | with_reducible apply adminReport_same | with_reducible apply when_same | with_reducible apply clearVatFaults_same | with_reducible apply entryReport_same | with_reducible exact Sub.up (by with_reducible assumption) (by decide) | fail_if_no_progress (with_reducible apply Same.upd <;> try first | with_reducible exact ⟨rfl, rfl⟩ | with_reducible exact Or.inr (Sub.up (by with_reducible assumption) (by decide)) | with_reducible exact Or.inl rfl) | (intro _) | dsimp only | (with_reducible refine Same.ofEq (by with_reducible assumption) ?_) | split)

end Sys2Proof.Machine
end

