-- ==== Sys2Proof/Laws/State.lean ====
section
/-! SUPPORT. What each table update changes: one lemma per field per update. -/

namespace Sys2Proof.Machine

open Sys2Proof

theorem tabGet_tabSet_self {κ α : Type} [DecidableEq κ] (d : α) (t : List (κ × α)) (q : κ) (v : α) :
    tabGet d (tabSet t q v) q = v := by
  induction t with
  | nil => simp [tabSet, tabGet]
  | cons e r ih =>
    obtain ⟨k, w⟩ := e
    by_cases h : k = q <;> simp [tabSet, tabGet, h, ih]

theorem tabGet_tabSet_other {κ α : Type} [DecidableEq κ] (d : α) (t : List (κ × α)) (q : κ) (v : α) (q' : κ)
    (h : q' ≠ q) : tabGet d (tabSet t q v) q' = tabGet d t q' := by
  induction t with
  | nil => simp [tabSet, tabGet, Ne.symm h]
  | cons e r ih =>
    obtain ⟨k, w⟩ := e
    by_cases hk : k = q
    · subst hk; simp [tabSet, tabGet, Ne.symm h]
    · by_cases hq : k = q'
      · subst hq; simp [tabSet, tabGet, hk]
      · simp [tabSet, tabGet, hk, hq, ih]

@[simp] theorem modHoop_pending (k : Nat) (g : Hoop → Hoop) (s : State) : (modHoop k g s).pending = s.pending := rfl
@[simp] theorem modHoop_m (k : Nat) (g : Hoop → Hoop) (s : State) : (modHoop k g s).m = s.m := rfl
@[simp] theorem modHoop_pin (k : Nat) (g : Hoop → Hoop) (s : State) : (modHoop k g s).pin = s.pin := rfl
@[simp] theorem modHoop_tm (k : Nat) (g : Hoop → Hoop) (s : State) : (modHoop k g s).tm = s.tm := rfl
@[simp] theorem modHoop_cv (k : Nat) (g : Hoop → Hoop) (s : State) : (modHoop k g s).cv = s.cv := rfl
@[simp] theorem modHoop_ev (k : Nat) (g : Hoop → Hoop) (s : State) : (modHoop k g s).ev = s.ev := rfl
@[simp] theorem modHoop_rn (k : Nat) (g : Hoop → Hoop) (s : State) : (modHoop k g s).rn = s.rn := rfl
@[simp] theorem modHoop_sp (k : Nat) (g : Hoop → Hoop) (s : State) : (modHoop k g s).sp = s.sp := rfl
@[simp] theorem modHoop_st (k : Nat) (g : Hoop → Hoop) (s : State) : (modHoop k g s).st = s.st := rfl
@[simp] theorem modHoop_xl (k : Nat) (g : Hoop → Hoop) (s : State) : (modHoop k g s).xl = s.xl := rfl
@[simp] theorem modHoop_lk (k : Nat) (g : Hoop → Hoop) (s : State) : (modHoop k g s).lk = s.lk := rfl
@[simp] theorem modHoop_cx (k : Nat) (g : Hoop → Hoop) (s : State) : (modHoop k g s).cx = s.cx := rfl
@[simp] theorem modHoop_pr (k : Nat) (g : Hoop → Hoop) (s : State) : (modHoop k g s).pr = s.pr := rfl
@[simp] theorem modHoop_wh (k : Nat) (g : Hoop → Hoop) (s : State) : (modHoop k g s).wh = s.wh := rfl
@[simp] theorem modHoop_se (k : Nat) (g : Hoop → Hoop) (s : State) : (modHoop k g s).se = s.se := rfl
@[simp] theorem modHoop_af (k : Nat) (g : Hoop → Hoop) (s : State) : (modHoop k g s).af = s.af := rfl
@[simp] theorem modHoop_wk_admins (k : Nat) (g : Hoop → Hoop) (s : State) : (modHoop k g s).wk.admins = s.wk.admins := rfl
@[simp] theorem modHoop_wk_vats (k : Nat) (g : Hoop → Hoop) (s : State) : (modHoop k g s).wk.vats = s.wk.vats := rfl
@[simp] theorem modHoop_wk_vatWait (k : Nat) (g : Hoop → Hoop) (s : State) : (modHoop k g s).wk.vatWait = s.wk.vatWait := rfl
@[simp] theorem modHoop_wk_waitStart (k : Nat) (g : Hoop → Hoop) (s : State) : (modHoop k g s).wk.waitStart = s.wk.waitStart := rfl
@[simp] theorem modHoop_wk_useStamp (k : Nat) (g : Hoop → Hoop) (s : State) : (modHoop k g s).wk.useStamp = s.wk.useStamp := rfl
@[simp] theorem modHoop_wk_watchers (k : Nat) (g : Hoop → Hoop) (s : State) : (modHoop k g s).wk.watchers = s.wk.watchers := rfl
@[simp] theorem modHoop_wk_polls (k : Nat) (g : Hoop → Hoop) (s : State) : (modHoop k g s).wk.polls = s.wk.polls := rfl
@[simp] theorem modHoop_wk_journals (k : Nat) (g : Hoop → Hoop) (s : State) : (modHoop k g s).wk.journals = s.wk.journals := rfl
@[simp] theorem modHoop_wk_peerJournals (k : Nat) (g : Hoop → Hoop) (s : State) : (modHoop k g s).wk.peerJournals = s.wk.peerJournals := rfl
@[simp] theorem modHoop_wk_recipes (k : Nat) (g : Hoop → Hoop) (s : State) : (modHoop k g s).wk.recipes = s.wk.recipes := rfl
@[simp] theorem modHoop_wk_resvs (k : Nat) (g : Hoop → Hoop) (s : State) : (modHoop k g s).wk.resvs = s.wk.resvs := rfl
@[simp] theorem modHoop_wk_engines (k : Nat) (g : Hoop → Hoop) (s : State) : (modHoop k g s).wk.engines = s.wk.engines := rfl
@[simp] theorem modHoop_wk_orderStamp (k : Nat) (g : Hoop → Hoop) (s : State) : (modHoop k g s).wk.orderStamp = s.wk.orderStamp := rfl
@[simp] theorem modHoop_self (k : Nat) (g : Hoop → Hoop) (s : State) : (modHoop k g s).hoop k = g (s.hoop k) := tabGet_tabSet_self ..
theorem modHoop_other (k : Nat) (g : Hoop → Hoop) (s : State) (k' : Nat) (h : k' ≠ k) : (modHoop k g s).hoop k' = s.hoop k' := tabGet_tabSet_other _ _ _ _ _ h
@[simp] theorem modAdmin_pending (k : Nat) (g : AdminHoop → AdminHoop) (s : State) : (modAdmin k g s).pending = s.pending := rfl
@[simp] theorem modAdmin_m (k : Nat) (g : AdminHoop → AdminHoop) (s : State) : (modAdmin k g s).m = s.m := rfl
@[simp] theorem modAdmin_pin (k : Nat) (g : AdminHoop → AdminHoop) (s : State) : (modAdmin k g s).pin = s.pin := rfl
@[simp] theorem modAdmin_tm (k : Nat) (g : AdminHoop → AdminHoop) (s : State) : (modAdmin k g s).tm = s.tm := rfl
@[simp] theorem modAdmin_cv (k : Nat) (g : AdminHoop → AdminHoop) (s : State) : (modAdmin k g s).cv = s.cv := rfl
@[simp] theorem modAdmin_ev (k : Nat) (g : AdminHoop → AdminHoop) (s : State) : (modAdmin k g s).ev = s.ev := rfl
@[simp] theorem modAdmin_rn (k : Nat) (g : AdminHoop → AdminHoop) (s : State) : (modAdmin k g s).rn = s.rn := rfl
@[simp] theorem modAdmin_sp (k : Nat) (g : AdminHoop → AdminHoop) (s : State) : (modAdmin k g s).sp = s.sp := rfl
@[simp] theorem modAdmin_st (k : Nat) (g : AdminHoop → AdminHoop) (s : State) : (modAdmin k g s).st = s.st := rfl
@[simp] theorem modAdmin_xl (k : Nat) (g : AdminHoop → AdminHoop) (s : State) : (modAdmin k g s).xl = s.xl := rfl
@[simp] theorem modAdmin_lk (k : Nat) (g : AdminHoop → AdminHoop) (s : State) : (modAdmin k g s).lk = s.lk := rfl
@[simp] theorem modAdmin_cx (k : Nat) (g : AdminHoop → AdminHoop) (s : State) : (modAdmin k g s).cx = s.cx := rfl
@[simp] theorem modAdmin_pr (k : Nat) (g : AdminHoop → AdminHoop) (s : State) : (modAdmin k g s).pr = s.pr := rfl
@[simp] theorem modAdmin_wh (k : Nat) (g : AdminHoop → AdminHoop) (s : State) : (modAdmin k g s).wh = s.wh := rfl
@[simp] theorem modAdmin_se (k : Nat) (g : AdminHoop → AdminHoop) (s : State) : (modAdmin k g s).se = s.se := rfl
@[simp] theorem modAdmin_af (k : Nat) (g : AdminHoop → AdminHoop) (s : State) : (modAdmin k g s).af = s.af := rfl
@[simp] theorem modAdmin_wk_hoops (k : Nat) (g : AdminHoop → AdminHoop) (s : State) : (modAdmin k g s).wk.hoops = s.wk.hoops := rfl
@[simp] theorem modAdmin_wk_vats (k : Nat) (g : AdminHoop → AdminHoop) (s : State) : (modAdmin k g s).wk.vats = s.wk.vats := rfl
@[simp] theorem modAdmin_wk_vatWait (k : Nat) (g : AdminHoop → AdminHoop) (s : State) : (modAdmin k g s).wk.vatWait = s.wk.vatWait := rfl
@[simp] theorem modAdmin_wk_waitStart (k : Nat) (g : AdminHoop → AdminHoop) (s : State) : (modAdmin k g s).wk.waitStart = s.wk.waitStart := rfl
@[simp] theorem modAdmin_wk_useStamp (k : Nat) (g : AdminHoop → AdminHoop) (s : State) : (modAdmin k g s).wk.useStamp = s.wk.useStamp := rfl
@[simp] theorem modAdmin_wk_watchers (k : Nat) (g : AdminHoop → AdminHoop) (s : State) : (modAdmin k g s).wk.watchers = s.wk.watchers := rfl
@[simp] theorem modAdmin_wk_polls (k : Nat) (g : AdminHoop → AdminHoop) (s : State) : (modAdmin k g s).wk.polls = s.wk.polls := rfl
@[simp] theorem modAdmin_wk_journals (k : Nat) (g : AdminHoop → AdminHoop) (s : State) : (modAdmin k g s).wk.journals = s.wk.journals := rfl
@[simp] theorem modAdmin_wk_peerJournals (k : Nat) (g : AdminHoop → AdminHoop) (s : State) : (modAdmin k g s).wk.peerJournals = s.wk.peerJournals := rfl
@[simp] theorem modAdmin_wk_recipes (k : Nat) (g : AdminHoop → AdminHoop) (s : State) : (modAdmin k g s).wk.recipes = s.wk.recipes := rfl
@[simp] theorem modAdmin_wk_resvs (k : Nat) (g : AdminHoop → AdminHoop) (s : State) : (modAdmin k g s).wk.resvs = s.wk.resvs := rfl
@[simp] theorem modAdmin_wk_engines (k : Nat) (g : AdminHoop → AdminHoop) (s : State) : (modAdmin k g s).wk.engines = s.wk.engines := rfl
@[simp] theorem modAdmin_wk_orderStamp (k : Nat) (g : AdminHoop → AdminHoop) (s : State) : (modAdmin k g s).wk.orderStamp = s.wk.orderStamp := rfl
@[simp] theorem modAdmin_self (k : Nat) (g : AdminHoop → AdminHoop) (s : State) : (modAdmin k g s).admin k = g (s.admin k) := tabGet_tabSet_self ..
theorem modAdmin_other (k : Nat) (g : AdminHoop → AdminHoop) (s : State) (k' : Nat) (h : k' ≠ k) : (modAdmin k g s).admin k' = s.admin k' := tabGet_tabSet_other _ _ _ _ _ h
@[simp] theorem modVat_pending (k : Nat) (g : Vat → Vat) (s : State) : (modVat k g s).pending = s.pending := rfl
@[simp] theorem modVat_m (k : Nat) (g : Vat → Vat) (s : State) : (modVat k g s).m = s.m := rfl
@[simp] theorem modVat_pin (k : Nat) (g : Vat → Vat) (s : State) : (modVat k g s).pin = s.pin := rfl
@[simp] theorem modVat_tm (k : Nat) (g : Vat → Vat) (s : State) : (modVat k g s).tm = s.tm := rfl
@[simp] theorem modVat_cv (k : Nat) (g : Vat → Vat) (s : State) : (modVat k g s).cv = s.cv := rfl
@[simp] theorem modVat_ev (k : Nat) (g : Vat → Vat) (s : State) : (modVat k g s).ev = s.ev := rfl
@[simp] theorem modVat_rn (k : Nat) (g : Vat → Vat) (s : State) : (modVat k g s).rn = s.rn := rfl
@[simp] theorem modVat_sp (k : Nat) (g : Vat → Vat) (s : State) : (modVat k g s).sp = s.sp := rfl
@[simp] theorem modVat_st (k : Nat) (g : Vat → Vat) (s : State) : (modVat k g s).st = s.st := rfl
@[simp] theorem modVat_xl (k : Nat) (g : Vat → Vat) (s : State) : (modVat k g s).xl = s.xl := rfl
@[simp] theorem modVat_lk (k : Nat) (g : Vat → Vat) (s : State) : (modVat k g s).lk = s.lk := rfl
@[simp] theorem modVat_cx (k : Nat) (g : Vat → Vat) (s : State) : (modVat k g s).cx = s.cx := rfl
@[simp] theorem modVat_pr (k : Nat) (g : Vat → Vat) (s : State) : (modVat k g s).pr = s.pr := rfl
@[simp] theorem modVat_wh (k : Nat) (g : Vat → Vat) (s : State) : (modVat k g s).wh = s.wh := rfl
@[simp] theorem modVat_se (k : Nat) (g : Vat → Vat) (s : State) : (modVat k g s).se = s.se := rfl
@[simp] theorem modVat_af (k : Nat) (g : Vat → Vat) (s : State) : (modVat k g s).af = s.af := rfl
@[simp] theorem modVat_wk_hoops (k : Nat) (g : Vat → Vat) (s : State) : (modVat k g s).wk.hoops = s.wk.hoops := rfl
@[simp] theorem modVat_wk_admins (k : Nat) (g : Vat → Vat) (s : State) : (modVat k g s).wk.admins = s.wk.admins := rfl
@[simp] theorem modVat_wk_vatWait (k : Nat) (g : Vat → Vat) (s : State) : (modVat k g s).wk.vatWait = s.wk.vatWait := rfl
@[simp] theorem modVat_wk_waitStart (k : Nat) (g : Vat → Vat) (s : State) : (modVat k g s).wk.waitStart = s.wk.waitStart := rfl
@[simp] theorem modVat_wk_useStamp (k : Nat) (g : Vat → Vat) (s : State) : (modVat k g s).wk.useStamp = s.wk.useStamp := rfl
@[simp] theorem modVat_wk_watchers (k : Nat) (g : Vat → Vat) (s : State) : (modVat k g s).wk.watchers = s.wk.watchers := rfl
@[simp] theorem modVat_wk_polls (k : Nat) (g : Vat → Vat) (s : State) : (modVat k g s).wk.polls = s.wk.polls := rfl
@[simp] theorem modVat_wk_journals (k : Nat) (g : Vat → Vat) (s : State) : (modVat k g s).wk.journals = s.wk.journals := rfl
@[simp] theorem modVat_wk_peerJournals (k : Nat) (g : Vat → Vat) (s : State) : (modVat k g s).wk.peerJournals = s.wk.peerJournals := rfl
@[simp] theorem modVat_wk_recipes (k : Nat) (g : Vat → Vat) (s : State) : (modVat k g s).wk.recipes = s.wk.recipes := rfl
@[simp] theorem modVat_wk_resvs (k : Nat) (g : Vat → Vat) (s : State) : (modVat k g s).wk.resvs = s.wk.resvs := rfl
@[simp] theorem modVat_wk_engines (k : Nat) (g : Vat → Vat) (s : State) : (modVat k g s).wk.engines = s.wk.engines := rfl
@[simp] theorem modVat_wk_orderStamp (k : Nat) (g : Vat → Vat) (s : State) : (modVat k g s).wk.orderStamp = s.wk.orderStamp := rfl
@[simp] theorem modVat_self (k : Nat) (g : Vat → Vat) (s : State) : (modVat k g s).vat k = g (s.vat k) := tabGet_tabSet_self ..
theorem modVat_other (k : Nat) (g : Vat → Vat) (s : State) (k' : Nat) (h : k' ≠ k) : (modVat k g s).vat k' = s.vat k' := tabGet_tabSet_other _ _ _ _ _ h
@[simp] theorem modWatcher_pending (k : Nat) (g : Watcher → Watcher) (s : State) : (modWatcher k g s).pending = s.pending := rfl
@[simp] theorem modWatcher_m (k : Nat) (g : Watcher → Watcher) (s : State) : (modWatcher k g s).m = s.m := rfl
@[simp] theorem modWatcher_pin (k : Nat) (g : Watcher → Watcher) (s : State) : (modWatcher k g s).pin = s.pin := rfl
@[simp] theorem modWatcher_tm (k : Nat) (g : Watcher → Watcher) (s : State) : (modWatcher k g s).tm = s.tm := rfl
@[simp] theorem modWatcher_cv (k : Nat) (g : Watcher → Watcher) (s : State) : (modWatcher k g s).cv = s.cv := rfl
@[simp] theorem modWatcher_ev (k : Nat) (g : Watcher → Watcher) (s : State) : (modWatcher k g s).ev = s.ev := rfl
@[simp] theorem modWatcher_rn (k : Nat) (g : Watcher → Watcher) (s : State) : (modWatcher k g s).rn = s.rn := rfl
@[simp] theorem modWatcher_sp (k : Nat) (g : Watcher → Watcher) (s : State) : (modWatcher k g s).sp = s.sp := rfl
@[simp] theorem modWatcher_st (k : Nat) (g : Watcher → Watcher) (s : State) : (modWatcher k g s).st = s.st := rfl
@[simp] theorem modWatcher_xl (k : Nat) (g : Watcher → Watcher) (s : State) : (modWatcher k g s).xl = s.xl := rfl
@[simp] theorem modWatcher_lk (k : Nat) (g : Watcher → Watcher) (s : State) : (modWatcher k g s).lk = s.lk := rfl
@[simp] theorem modWatcher_cx (k : Nat) (g : Watcher → Watcher) (s : State) : (modWatcher k g s).cx = s.cx := rfl
@[simp] theorem modWatcher_pr (k : Nat) (g : Watcher → Watcher) (s : State) : (modWatcher k g s).pr = s.pr := rfl
@[simp] theorem modWatcher_wh (k : Nat) (g : Watcher → Watcher) (s : State) : (modWatcher k g s).wh = s.wh := rfl
@[simp] theorem modWatcher_se (k : Nat) (g : Watcher → Watcher) (s : State) : (modWatcher k g s).se = s.se := rfl
@[simp] theorem modWatcher_af (k : Nat) (g : Watcher → Watcher) (s : State) : (modWatcher k g s).af = s.af := rfl
@[simp] theorem modWatcher_wk_hoops (k : Nat) (g : Watcher → Watcher) (s : State) : (modWatcher k g s).wk.hoops = s.wk.hoops := rfl
@[simp] theorem modWatcher_wk_admins (k : Nat) (g : Watcher → Watcher) (s : State) : (modWatcher k g s).wk.admins = s.wk.admins := rfl
@[simp] theorem modWatcher_wk_vats (k : Nat) (g : Watcher → Watcher) (s : State) : (modWatcher k g s).wk.vats = s.wk.vats := rfl
@[simp] theorem modWatcher_wk_vatWait (k : Nat) (g : Watcher → Watcher) (s : State) : (modWatcher k g s).wk.vatWait = s.wk.vatWait := rfl
@[simp] theorem modWatcher_wk_waitStart (k : Nat) (g : Watcher → Watcher) (s : State) : (modWatcher k g s).wk.waitStart = s.wk.waitStart := rfl
@[simp] theorem modWatcher_wk_useStamp (k : Nat) (g : Watcher → Watcher) (s : State) : (modWatcher k g s).wk.useStamp = s.wk.useStamp := rfl
@[simp] theorem modWatcher_wk_polls (k : Nat) (g : Watcher → Watcher) (s : State) : (modWatcher k g s).wk.polls = s.wk.polls := rfl
@[simp] theorem modWatcher_wk_journals (k : Nat) (g : Watcher → Watcher) (s : State) : (modWatcher k g s).wk.journals = s.wk.journals := rfl
@[simp] theorem modWatcher_wk_peerJournals (k : Nat) (g : Watcher → Watcher) (s : State) : (modWatcher k g s).wk.peerJournals = s.wk.peerJournals := rfl
@[simp] theorem modWatcher_wk_recipes (k : Nat) (g : Watcher → Watcher) (s : State) : (modWatcher k g s).wk.recipes = s.wk.recipes := rfl
@[simp] theorem modWatcher_wk_resvs (k : Nat) (g : Watcher → Watcher) (s : State) : (modWatcher k g s).wk.resvs = s.wk.resvs := rfl
@[simp] theorem modWatcher_wk_engines (k : Nat) (g : Watcher → Watcher) (s : State) : (modWatcher k g s).wk.engines = s.wk.engines := rfl
@[simp] theorem modWatcher_wk_orderStamp (k : Nat) (g : Watcher → Watcher) (s : State) : (modWatcher k g s).wk.orderStamp = s.wk.orderStamp := rfl
@[simp] theorem modWatcher_self (k : Nat) (g : Watcher → Watcher) (s : State) : (modWatcher k g s).watcher k = g (s.watcher k) := tabGet_tabSet_self ..
theorem modWatcher_other (k : Nat) (g : Watcher → Watcher) (s : State) (k' : Nat) (h : k' ≠ k) : (modWatcher k g s).watcher k' = s.watcher k' := tabGet_tabSet_other _ _ _ _ _ h
@[simp] theorem modPollWait_pending (k : Nat) (g : Watcher → Watcher) (s : State) : (modPollWait k g s).pending = s.pending := rfl
@[simp] theorem modPollWait_m (k : Nat) (g : Watcher → Watcher) (s : State) : (modPollWait k g s).m = s.m := rfl
@[simp] theorem modPollWait_pin (k : Nat) (g : Watcher → Watcher) (s : State) : (modPollWait k g s).pin = s.pin := rfl
@[simp] theorem modPollWait_tm (k : Nat) (g : Watcher → Watcher) (s : State) : (modPollWait k g s).tm = s.tm := rfl
@[simp] theorem modPollWait_cv (k : Nat) (g : Watcher → Watcher) (s : State) : (modPollWait k g s).cv = s.cv := rfl
@[simp] theorem modPollWait_ev (k : Nat) (g : Watcher → Watcher) (s : State) : (modPollWait k g s).ev = s.ev := rfl
@[simp] theorem modPollWait_rn (k : Nat) (g : Watcher → Watcher) (s : State) : (modPollWait k g s).rn = s.rn := rfl
@[simp] theorem modPollWait_sp (k : Nat) (g : Watcher → Watcher) (s : State) : (modPollWait k g s).sp = s.sp := rfl
@[simp] theorem modPollWait_st (k : Nat) (g : Watcher → Watcher) (s : State) : (modPollWait k g s).st = s.st := rfl
@[simp] theorem modPollWait_xl (k : Nat) (g : Watcher → Watcher) (s : State) : (modPollWait k g s).xl = s.xl := rfl
@[simp] theorem modPollWait_lk (k : Nat) (g : Watcher → Watcher) (s : State) : (modPollWait k g s).lk = s.lk := rfl
@[simp] theorem modPollWait_cx (k : Nat) (g : Watcher → Watcher) (s : State) : (modPollWait k g s).cx = s.cx := rfl
@[simp] theorem modPollWait_pr (k : Nat) (g : Watcher → Watcher) (s : State) : (modPollWait k g s).pr = s.pr := rfl
@[simp] theorem modPollWait_wh (k : Nat) (g : Watcher → Watcher) (s : State) : (modPollWait k g s).wh = s.wh := rfl
@[simp] theorem modPollWait_se (k : Nat) (g : Watcher → Watcher) (s : State) : (modPollWait k g s).se = s.se := rfl
@[simp] theorem modPollWait_af (k : Nat) (g : Watcher → Watcher) (s : State) : (modPollWait k g s).af = s.af := rfl
@[simp] theorem modPollWait_wk_hoops (k : Nat) (g : Watcher → Watcher) (s : State) : (modPollWait k g s).wk.hoops = s.wk.hoops := rfl
@[simp] theorem modPollWait_wk_admins (k : Nat) (g : Watcher → Watcher) (s : State) : (modPollWait k g s).wk.admins = s.wk.admins := rfl
@[simp] theorem modPollWait_wk_vats (k : Nat) (g : Watcher → Watcher) (s : State) : (modPollWait k g s).wk.vats = s.wk.vats := rfl
@[simp] theorem modPollWait_wk_vatWait (k : Nat) (g : Watcher → Watcher) (s : State) : (modPollWait k g s).wk.vatWait = s.wk.vatWait := rfl
@[simp] theorem modPollWait_wk_waitStart (k : Nat) (g : Watcher → Watcher) (s : State) : (modPollWait k g s).wk.waitStart = s.wk.waitStart := rfl
@[simp] theorem modPollWait_wk_useStamp (k : Nat) (g : Watcher → Watcher) (s : State) : (modPollWait k g s).wk.useStamp = s.wk.useStamp := rfl
@[simp] theorem modPollWait_wk_watchers (k : Nat) (g : Watcher → Watcher) (s : State) : (modPollWait k g s).wk.watchers = s.wk.watchers := rfl
@[simp] theorem modPollWait_wk_journals (k : Nat) (g : Watcher → Watcher) (s : State) : (modPollWait k g s).wk.journals = s.wk.journals := rfl
@[simp] theorem modPollWait_wk_peerJournals (k : Nat) (g : Watcher → Watcher) (s : State) : (modPollWait k g s).wk.peerJournals = s.wk.peerJournals := rfl
@[simp] theorem modPollWait_wk_recipes (k : Nat) (g : Watcher → Watcher) (s : State) : (modPollWait k g s).wk.recipes = s.wk.recipes := rfl
@[simp] theorem modPollWait_wk_resvs (k : Nat) (g : Watcher → Watcher) (s : State) : (modPollWait k g s).wk.resvs = s.wk.resvs := rfl
@[simp] theorem modPollWait_wk_engines (k : Nat) (g : Watcher → Watcher) (s : State) : (modPollWait k g s).wk.engines = s.wk.engines := rfl
@[simp] theorem modPollWait_wk_orderStamp (k : Nat) (g : Watcher → Watcher) (s : State) : (modPollWait k g s).wk.orderStamp = s.wk.orderStamp := rfl
@[simp] theorem modPollWait_self (k : Nat) (g : Watcher → Watcher) (s : State) : (modPollWait k g s).pollWait k = g (s.pollWait k) := tabGet_tabSet_self ..
theorem modPollWait_other (k : Nat) (g : Watcher → Watcher) (s : State) (k' : Nat) (h : k' ≠ k) : (modPollWait k g s).pollWait k' = s.pollWait k' := tabGet_tabSet_other _ _ _ _ _ h
@[simp] theorem modEvq_pending (k : Nat) (g : EvHoop → EvHoop) (s : State) : (modEvq k g s).pending = s.pending := rfl
@[simp] theorem modEvq_m (k : Nat) (g : EvHoop → EvHoop) (s : State) : (modEvq k g s).m = s.m := rfl
@[simp] theorem modEvq_pin (k : Nat) (g : EvHoop → EvHoop) (s : State) : (modEvq k g s).pin = s.pin := rfl
@[simp] theorem modEvq_tm (k : Nat) (g : EvHoop → EvHoop) (s : State) : (modEvq k g s).tm = s.tm := rfl
@[simp] theorem modEvq_cv (k : Nat) (g : EvHoop → EvHoop) (s : State) : (modEvq k g s).cv = s.cv := rfl
@[simp] theorem modEvq_wk (k : Nat) (g : EvHoop → EvHoop) (s : State) : (modEvq k g s).wk = s.wk := rfl
@[simp] theorem modEvq_rn (k : Nat) (g : EvHoop → EvHoop) (s : State) : (modEvq k g s).rn = s.rn := rfl
@[simp] theorem modEvq_sp (k : Nat) (g : EvHoop → EvHoop) (s : State) : (modEvq k g s).sp = s.sp := rfl
@[simp] theorem modEvq_st (k : Nat) (g : EvHoop → EvHoop) (s : State) : (modEvq k g s).st = s.st := rfl
@[simp] theorem modEvq_xl (k : Nat) (g : EvHoop → EvHoop) (s : State) : (modEvq k g s).xl = s.xl := rfl
@[simp] theorem modEvq_lk (k : Nat) (g : EvHoop → EvHoop) (s : State) : (modEvq k g s).lk = s.lk := rfl
@[simp] theorem modEvq_cx (k : Nat) (g : EvHoop → EvHoop) (s : State) : (modEvq k g s).cx = s.cx := rfl
@[simp] theorem modEvq_pr (k : Nat) (g : EvHoop → EvHoop) (s : State) : (modEvq k g s).pr = s.pr := rfl
@[simp] theorem modEvq_wh (k : Nat) (g : EvHoop → EvHoop) (s : State) : (modEvq k g s).wh = s.wh := rfl
@[simp] theorem modEvq_se (k : Nat) (g : EvHoop → EvHoop) (s : State) : (modEvq k g s).se = s.se := rfl
@[simp] theorem modEvq_af (k : Nat) (g : EvHoop → EvHoop) (s : State) : (modEvq k g s).af = s.af := rfl
@[simp] theorem modEvq_ev_heldRecs (k : Nat) (g : EvHoop → EvHoop) (s : State) : (modEvq k g s).ev.heldRecs = s.ev.heldRecs := rfl
@[simp] theorem modEvq_ev_fns (k : Nat) (g : EvHoop → EvHoop) (s : State) : (modEvq k g s).ev.fns = s.ev.fns := rfl
@[simp] theorem modEvq_ev_srcs (k : Nat) (g : EvHoop → EvHoop) (s : State) : (modEvq k g s).ev.srcs = s.ev.srcs := rfl
@[simp] theorem modEvq_ev_fastSrcs (k : Nat) (g : EvHoop → EvHoop) (s : State) : (modEvq k g s).ev.fastSrcs = s.ev.fastSrcs := rfl
@[simp] theorem modEvq_self (k : Nat) (g : EvHoop → EvHoop) (s : State) : (modEvq k g s).evq k = g (s.evq k) := tabGet_tabSet_self ..
theorem modEvq_other (k : Nat) (g : EvHoop → EvHoop) (s : State) (k' : Nat) (h : k' ≠ k) : (modEvq k g s).evq k' = s.evq k' := tabGet_tabSet_other _ _ _ _ _ h
@[simp] theorem modFnS_pending (f : Fn) (g : FnState → FnState) (s : State) : (modFnS f g s).pending = s.pending := rfl
@[simp] theorem modFnS_m (f : Fn) (g : FnState → FnState) (s : State) : (modFnS f g s).m = s.m := rfl
@[simp] theorem modFnS_pin (f : Fn) (g : FnState → FnState) (s : State) : (modFnS f g s).pin = s.pin := rfl
@[simp] theorem modFnS_tm (f : Fn) (g : FnState → FnState) (s : State) : (modFnS f g s).tm = s.tm := rfl
@[simp] theorem modFnS_cv (f : Fn) (g : FnState → FnState) (s : State) : (modFnS f g s).cv = s.cv := rfl
@[simp] theorem modFnS_wk (f : Fn) (g : FnState → FnState) (s : State) : (modFnS f g s).wk = s.wk := rfl
@[simp] theorem modFnS_rn (f : Fn) (g : FnState → FnState) (s : State) : (modFnS f g s).rn = s.rn := rfl
@[simp] theorem modFnS_sp (f : Fn) (g : FnState → FnState) (s : State) : (modFnS f g s).sp = s.sp := rfl
@[simp] theorem modFnS_st (f : Fn) (g : FnState → FnState) (s : State) : (modFnS f g s).st = s.st := rfl
@[simp] theorem modFnS_xl (f : Fn) (g : FnState → FnState) (s : State) : (modFnS f g s).xl = s.xl := rfl
@[simp] theorem modFnS_lk (f : Fn) (g : FnState → FnState) (s : State) : (modFnS f g s).lk = s.lk := rfl
@[simp] theorem modFnS_cx (f : Fn) (g : FnState → FnState) (s : State) : (modFnS f g s).cx = s.cx := rfl
@[simp] theorem modFnS_pr (f : Fn) (g : FnState → FnState) (s : State) : (modFnS f g s).pr = s.pr := rfl
@[simp] theorem modFnS_wh (f : Fn) (g : FnState → FnState) (s : State) : (modFnS f g s).wh = s.wh := rfl
@[simp] theorem modFnS_se (f : Fn) (g : FnState → FnState) (s : State) : (modFnS f g s).se = s.se := rfl
@[simp] theorem modFnS_af (f : Fn) (g : FnState → FnState) (s : State) : (modFnS f g s).af = s.af := rfl
@[simp] theorem modFnS_ev_evhoops (f : Fn) (g : FnState → FnState) (s : State) : (modFnS f g s).ev.evhoops = s.ev.evhoops := rfl
@[simp] theorem modFnS_ev_heldRecs (f : Fn) (g : FnState → FnState) (s : State) : (modFnS f g s).ev.heldRecs = s.ev.heldRecs := rfl
@[simp] theorem modFnS_ev_srcs (f : Fn) (g : FnState → FnState) (s : State) : (modFnS f g s).ev.srcs = s.ev.srcs := rfl
@[simp] theorem modFnS_ev_fastSrcs (f : Fn) (g : FnState → FnState) (s : State) : (modFnS f g s).ev.fastSrcs = s.ev.fastSrcs := rfl
@[simp] theorem modFnS_self (f : Fn) (g : FnState → FnState) (s : State) : (modFnS f g s).fnS f = g (s.fnS f) := tabGet_tabSet_self ..
theorem modFnS_other (f : Fn) (g : FnState → FnState) (s : State) (f' : Fn) (h : f' ≠ f) : (modFnS f g s).fnS f' = s.fnS f' := tabGet_tabSet_other _ _ _ _ _ h
@[simp] theorem modSrc_pending (k : Nat) (g : Src → Src) (s : State) : (modSrc k g s).pending = s.pending := rfl
@[simp] theorem modSrc_m (k : Nat) (g : Src → Src) (s : State) : (modSrc k g s).m = s.m := rfl
@[simp] theorem modSrc_pin (k : Nat) (g : Src → Src) (s : State) : (modSrc k g s).pin = s.pin := rfl
@[simp] theorem modSrc_tm (k : Nat) (g : Src → Src) (s : State) : (modSrc k g s).tm = s.tm := rfl
@[simp] theorem modSrc_cv (k : Nat) (g : Src → Src) (s : State) : (modSrc k g s).cv = s.cv := rfl
@[simp] theorem modSrc_wk (k : Nat) (g : Src → Src) (s : State) : (modSrc k g s).wk = s.wk := rfl
@[simp] theorem modSrc_rn (k : Nat) (g : Src → Src) (s : State) : (modSrc k g s).rn = s.rn := rfl
@[simp] theorem modSrc_sp (k : Nat) (g : Src → Src) (s : State) : (modSrc k g s).sp = s.sp := rfl
@[simp] theorem modSrc_st (k : Nat) (g : Src → Src) (s : State) : (modSrc k g s).st = s.st := rfl
@[simp] theorem modSrc_xl (k : Nat) (g : Src → Src) (s : State) : (modSrc k g s).xl = s.xl := rfl
@[simp] theorem modSrc_lk (k : Nat) (g : Src → Src) (s : State) : (modSrc k g s).lk = s.lk := rfl
@[simp] theorem modSrc_cx (k : Nat) (g : Src → Src) (s : State) : (modSrc k g s).cx = s.cx := rfl
@[simp] theorem modSrc_pr (k : Nat) (g : Src → Src) (s : State) : (modSrc k g s).pr = s.pr := rfl
@[simp] theorem modSrc_wh (k : Nat) (g : Src → Src) (s : State) : (modSrc k g s).wh = s.wh := rfl
@[simp] theorem modSrc_se (k : Nat) (g : Src → Src) (s : State) : (modSrc k g s).se = s.se := rfl
@[simp] theorem modSrc_af (k : Nat) (g : Src → Src) (s : State) : (modSrc k g s).af = s.af := rfl
@[simp] theorem modSrc_ev_evhoops (k : Nat) (g : Src → Src) (s : State) : (modSrc k g s).ev.evhoops = s.ev.evhoops := rfl
@[simp] theorem modSrc_ev_heldRecs (k : Nat) (g : Src → Src) (s : State) : (modSrc k g s).ev.heldRecs = s.ev.heldRecs := rfl
@[simp] theorem modSrc_ev_fns (k : Nat) (g : Src → Src) (s : State) : (modSrc k g s).ev.fns = s.ev.fns := rfl
@[simp] theorem modSrc_ev_fastSrcs (k : Nat) (g : Src → Src) (s : State) : (modSrc k g s).ev.fastSrcs = s.ev.fastSrcs := rfl
@[simp] theorem modSrc_self (k : Nat) (g : Src → Src) (s : State) : (modSrc k g s).src k = g (s.src k) := tabGet_tabSet_self ..
theorem modSrc_other (k : Nat) (g : Src → Src) (s : State) (k' : Nat) (h : k' ≠ k) : (modSrc k g s).src k' = s.src k' := tabGet_tabSet_other _ _ _ _ _ h
@[simp] theorem modFast_pending (k : Nat) (g : FastSrc → FastSrc) (s : State) : (modFast k g s).pending = s.pending := rfl
@[simp] theorem modFast_m (k : Nat) (g : FastSrc → FastSrc) (s : State) : (modFast k g s).m = s.m := rfl
@[simp] theorem modFast_pin (k : Nat) (g : FastSrc → FastSrc) (s : State) : (modFast k g s).pin = s.pin := rfl
@[simp] theorem modFast_tm (k : Nat) (g : FastSrc → FastSrc) (s : State) : (modFast k g s).tm = s.tm := rfl
@[simp] theorem modFast_cv (k : Nat) (g : FastSrc → FastSrc) (s : State) : (modFast k g s).cv = s.cv := rfl
@[simp] theorem modFast_wk (k : Nat) (g : FastSrc → FastSrc) (s : State) : (modFast k g s).wk = s.wk := rfl
@[simp] theorem modFast_rn (k : Nat) (g : FastSrc → FastSrc) (s : State) : (modFast k g s).rn = s.rn := rfl
@[simp] theorem modFast_sp (k : Nat) (g : FastSrc → FastSrc) (s : State) : (modFast k g s).sp = s.sp := rfl
@[simp] theorem modFast_st (k : Nat) (g : FastSrc → FastSrc) (s : State) : (modFast k g s).st = s.st := rfl
@[simp] theorem modFast_xl (k : Nat) (g : FastSrc → FastSrc) (s : State) : (modFast k g s).xl = s.xl := rfl
@[simp] theorem modFast_lk (k : Nat) (g : FastSrc → FastSrc) (s : State) : (modFast k g s).lk = s.lk := rfl
@[simp] theorem modFast_cx (k : Nat) (g : FastSrc → FastSrc) (s : State) : (modFast k g s).cx = s.cx := rfl
@[simp] theorem modFast_pr (k : Nat) (g : FastSrc → FastSrc) (s : State) : (modFast k g s).pr = s.pr := rfl
@[simp] theorem modFast_wh (k : Nat) (g : FastSrc → FastSrc) (s : State) : (modFast k g s).wh = s.wh := rfl
@[simp] theorem modFast_se (k : Nat) (g : FastSrc → FastSrc) (s : State) : (modFast k g s).se = s.se := rfl
@[simp] theorem modFast_af (k : Nat) (g : FastSrc → FastSrc) (s : State) : (modFast k g s).af = s.af := rfl
@[simp] theorem modFast_ev_evhoops (k : Nat) (g : FastSrc → FastSrc) (s : State) : (modFast k g s).ev.evhoops = s.ev.evhoops := rfl
@[simp] theorem modFast_ev_heldRecs (k : Nat) (g : FastSrc → FastSrc) (s : State) : (modFast k g s).ev.heldRecs = s.ev.heldRecs := rfl
@[simp] theorem modFast_ev_fns (k : Nat) (g : FastSrc → FastSrc) (s : State) : (modFast k g s).ev.fns = s.ev.fns := rfl
@[simp] theorem modFast_ev_srcs (k : Nat) (g : FastSrc → FastSrc) (s : State) : (modFast k g s).ev.srcs = s.ev.srcs := rfl
@[simp] theorem modFast_self (k : Nat) (g : FastSrc → FastSrc) (s : State) : (modFast k g s).fast k = g (s.fast k) := tabGet_tabSet_self ..
theorem modFast_other (k : Nat) (g : FastSrc → FastSrc) (s : State) (k' : Nat) (h : k' ≠ k) : (modFast k g s).fast k' = s.fast k' := tabGet_tabSet_other _ _ _ _ _ h
@[simp] theorem modRsrc_pending (k : Nat) (g : Rsrc → Rsrc) (s : State) : (modRsrc k g s).pending = s.pending := rfl
@[simp] theorem modRsrc_m (k : Nat) (g : Rsrc → Rsrc) (s : State) : (modRsrc k g s).m = s.m := rfl
@[simp] theorem modRsrc_pin (k : Nat) (g : Rsrc → Rsrc) (s : State) : (modRsrc k g s).pin = s.pin := rfl
@[simp] theorem modRsrc_tm (k : Nat) (g : Rsrc → Rsrc) (s : State) : (modRsrc k g s).tm = s.tm := rfl
@[simp] theorem modRsrc_cv (k : Nat) (g : Rsrc → Rsrc) (s : State) : (modRsrc k g s).cv = s.cv := rfl
@[simp] theorem modRsrc_wk (k : Nat) (g : Rsrc → Rsrc) (s : State) : (modRsrc k g s).wk = s.wk := rfl
@[simp] theorem modRsrc_ev (k : Nat) (g : Rsrc → Rsrc) (s : State) : (modRsrc k g s).ev = s.ev := rfl
@[simp] theorem modRsrc_sp (k : Nat) (g : Rsrc → Rsrc) (s : State) : (modRsrc k g s).sp = s.sp := rfl
@[simp] theorem modRsrc_st (k : Nat) (g : Rsrc → Rsrc) (s : State) : (modRsrc k g s).st = s.st := rfl
@[simp] theorem modRsrc_xl (k : Nat) (g : Rsrc → Rsrc) (s : State) : (modRsrc k g s).xl = s.xl := rfl
@[simp] theorem modRsrc_lk (k : Nat) (g : Rsrc → Rsrc) (s : State) : (modRsrc k g s).lk = s.lk := rfl
@[simp] theorem modRsrc_cx (k : Nat) (g : Rsrc → Rsrc) (s : State) : (modRsrc k g s).cx = s.cx := rfl
@[simp] theorem modRsrc_pr (k : Nat) (g : Rsrc → Rsrc) (s : State) : (modRsrc k g s).pr = s.pr := rfl
@[simp] theorem modRsrc_wh (k : Nat) (g : Rsrc → Rsrc) (s : State) : (modRsrc k g s).wh = s.wh := rfl
@[simp] theorem modRsrc_se (k : Nat) (g : Rsrc → Rsrc) (s : State) : (modRsrc k g s).se = s.se := rfl
@[simp] theorem modRsrc_af (k : Nat) (g : Rsrc → Rsrc) (s : State) : (modRsrc k g s).af = s.af := rfl
@[simp] theorem modRsrc_rn_rennetEvq (k : Nat) (g : Rsrc → Rsrc) (s : State) : (modRsrc k g s).rn.rennetEvq = s.rn.rennetEvq := rfl
@[simp] theorem modRsrc_rn_rennetEvqValid (k : Nat) (g : Rsrc → Rsrc) (s : State) : (modRsrc k g s).rn.rennetEvqValid = s.rn.rennetEvqValid := rfl
@[simp] theorem modRsrc_rn_deviceSafe (k : Nat) (g : Rsrc → Rsrc) (s : State) : (modRsrc k g s).rn.deviceSafe = s.rn.deviceSafe := rfl
@[simp] theorem modRsrc_rn_safeSlices (k : Nat) (g : Rsrc → Rsrc) (s : State) : (modRsrc k g s).rn.safeSlices = s.rn.safeSlices := rfl
@[simp] theorem modRsrc_rn_safeQuads (k : Nat) (g : Rsrc → Rsrc) (s : State) : (modRsrc k g s).rn.safeQuads = s.rn.safeQuads := rfl
@[simp] theorem modRsrc_rn_gates (k : Nat) (g : Rsrc → Rsrc) (s : State) : (modRsrc k g s).rn.gates = s.rn.gates := rfl
@[simp] theorem modRsrc_rn_gatesClosed (k : Nat) (g : Rsrc → Rsrc) (s : State) : (modRsrc k g s).rn.gatesClosed = s.rn.gatesClosed := rfl
@[simp] theorem modRsrc_self (k : Nat) (g : Rsrc → Rsrc) (s : State) : (modRsrc k g s).rsrc k = g (s.rsrc k) := tabGet_tabSet_self ..
theorem modRsrc_other (k : Nat) (g : Rsrc → Rsrc) (s : State) (k' : Nat) (h : k' ≠ k) : (modRsrc k g s).rsrc k' = s.rsrc k' := tabGet_tabSet_other _ _ _ _ _ h
@[simp] theorem modSpareQ_pending (k : Nat) (g : SpareQ → SpareQ) (s : State) : (modSpareQ k g s).pending = s.pending := rfl
@[simp] theorem modSpareQ_m (k : Nat) (g : SpareQ → SpareQ) (s : State) : (modSpareQ k g s).m = s.m := rfl
@[simp] theorem modSpareQ_pin (k : Nat) (g : SpareQ → SpareQ) (s : State) : (modSpareQ k g s).pin = s.pin := rfl
@[simp] theorem modSpareQ_tm (k : Nat) (g : SpareQ → SpareQ) (s : State) : (modSpareQ k g s).tm = s.tm := rfl
@[simp] theorem modSpareQ_cv (k : Nat) (g : SpareQ → SpareQ) (s : State) : (modSpareQ k g s).cv = s.cv := rfl
@[simp] theorem modSpareQ_wk (k : Nat) (g : SpareQ → SpareQ) (s : State) : (modSpareQ k g s).wk = s.wk := rfl
@[simp] theorem modSpareQ_ev (k : Nat) (g : SpareQ → SpareQ) (s : State) : (modSpareQ k g s).ev = s.ev := rfl
@[simp] theorem modSpareQ_rn (k : Nat) (g : SpareQ → SpareQ) (s : State) : (modSpareQ k g s).rn = s.rn := rfl
@[simp] theorem modSpareQ_st (k : Nat) (g : SpareQ → SpareQ) (s : State) : (modSpareQ k g s).st = s.st := rfl
@[simp] theorem modSpareQ_xl (k : Nat) (g : SpareQ → SpareQ) (s : State) : (modSpareQ k g s).xl = s.xl := rfl
@[simp] theorem modSpareQ_lk (k : Nat) (g : SpareQ → SpareQ) (s : State) : (modSpareQ k g s).lk = s.lk := rfl
@[simp] theorem modSpareQ_cx (k : Nat) (g : SpareQ → SpareQ) (s : State) : (modSpareQ k g s).cx = s.cx := rfl
@[simp] theorem modSpareQ_pr (k : Nat) (g : SpareQ → SpareQ) (s : State) : (modSpareQ k g s).pr = s.pr := rfl
@[simp] theorem modSpareQ_wh (k : Nat) (g : SpareQ → SpareQ) (s : State) : (modSpareQ k g s).wh = s.wh := rfl
@[simp] theorem modSpareQ_se (k : Nat) (g : SpareQ → SpareQ) (s : State) : (modSpareQ k g s).se = s.se := rfl
@[simp] theorem modSpareQ_af (k : Nat) (g : SpareQ → SpareQ) (s : State) : (modSpareQ k g s).af = s.af := rfl
@[simp] theorem modSpareQ_sp_walkerSpares (k : Nat) (g : SpareQ → SpareQ) (s : State) : (modSpareQ k g s).sp.walkerSpares = s.sp.walkerSpares := rfl
@[simp] theorem modSpareQ_sp_walkersOut (k : Nat) (g : SpareQ → SpareQ) (s : State) : (modSpareQ k g s).sp.walkersOut = s.sp.walkersOut := rfl
@[simp] theorem modSpareQ_sp_secStandby (k : Nat) (g : SpareQ → SpareQ) (s : State) : (modSpareQ k g s).sp.secStandby = s.sp.secStandby := rfl
@[simp] theorem modSpareQ_sp_affStandby (k : Nat) (g : SpareQ → SpareQ) (s : State) : (modSpareQ k g s).sp.affStandby = s.sp.affStandby := rfl
@[simp] theorem modSpareQ_sp_mramSpare (k : Nat) (g : SpareQ → SpareQ) (s : State) : (modSpareQ k g s).sp.mramSpare = s.sp.mramSpare := rfl
@[simp] theorem modSpareQ_sp_laserSpares (k : Nat) (g : SpareQ → SpareQ) (s : State) : (modSpareQ k g s).sp.laserSpares = s.sp.laserSpares := rfl
@[simp] theorem modSpareQ_sp_sramRows (k : Nat) (g : SpareQ → SpareQ) (s : State) : (modSpareQ k g s).sp.sramRows = s.sp.sramRows := rfl
@[simp] theorem modSpareQ_sp_turnEn (k : Nat) (g : SpareQ → SpareQ) (s : State) : (modSpareQ k g s).sp.turnEn = s.sp.turnEn := rfl
@[simp] theorem modSpareQ_sp_turnPeriod (k : Nat) (g : SpareQ → SpareQ) (s : State) : (modSpareQ k g s).sp.turnPeriod = s.sp.turnPeriod := rfl
@[simp] theorem modSpareQ_sp_turn (k : Nat) (g : SpareQ → SpareQ) (s : State) : (modSpareQ k g s).sp.turn = s.sp.turn := rfl
@[simp] theorem modSpareQ_sp_turns (k : Nat) (g : SpareQ → SpareQ) (s : State) : (modSpareQ k g s).sp.turns = s.sp.turns := rfl
@[simp] theorem modSpareQ_sp_deferred (k : Nat) (g : SpareQ → SpareQ) (s : State) : (modSpareQ k g s).sp.deferred = s.sp.deferred := rfl
@[simp] theorem modSpareQ_self (k : Nat) (g : SpareQ → SpareQ) (s : State) : (modSpareQ k g s).spareQ k = g (s.spareQ k) := tabGet_tabSet_self ..
theorem modSpareQ_other (k : Nat) (g : SpareQ → SpareQ) (s : State) (k' : Nat) (h : k' ≠ k) : (modSpareQ k g s).spareQ k' = s.spareQ k' := tabGet_tabSet_other _ _ _ _ _ h
@[simp] theorem modHc_pending (k : Nat) (g : HcPort → HcPort) (s : State) : (modHc k g s).pending = s.pending := rfl
@[simp] theorem modHc_m (k : Nat) (g : HcPort → HcPort) (s : State) : (modHc k g s).m = s.m := rfl
@[simp] theorem modHc_pin (k : Nat) (g : HcPort → HcPort) (s : State) : (modHc k g s).pin = s.pin := rfl
@[simp] theorem modHc_tm (k : Nat) (g : HcPort → HcPort) (s : State) : (modHc k g s).tm = s.tm := rfl
@[simp] theorem modHc_cv (k : Nat) (g : HcPort → HcPort) (s : State) : (modHc k g s).cv = s.cv := rfl
@[simp] theorem modHc_wk (k : Nat) (g : HcPort → HcPort) (s : State) : (modHc k g s).wk = s.wk := rfl
@[simp] theorem modHc_ev (k : Nat) (g : HcPort → HcPort) (s : State) : (modHc k g s).ev = s.ev := rfl
@[simp] theorem modHc_rn (k : Nat) (g : HcPort → HcPort) (s : State) : (modHc k g s).rn = s.rn := rfl
@[simp] theorem modHc_sp (k : Nat) (g : HcPort → HcPort) (s : State) : (modHc k g s).sp = s.sp := rfl
@[simp] theorem modHc_st (k : Nat) (g : HcPort → HcPort) (s : State) : (modHc k g s).st = s.st := rfl
@[simp] theorem modHc_xl (k : Nat) (g : HcPort → HcPort) (s : State) : (modHc k g s).xl = s.xl := rfl
@[simp] theorem modHc_cx (k : Nat) (g : HcPort → HcPort) (s : State) : (modHc k g s).cx = s.cx := rfl
@[simp] theorem modHc_pr (k : Nat) (g : HcPort → HcPort) (s : State) : (modHc k g s).pr = s.pr := rfl
@[simp] theorem modHc_wh (k : Nat) (g : HcPort → HcPort) (s : State) : (modHc k g s).wh = s.wh := rfl
@[simp] theorem modHc_se (k : Nat) (g : HcPort → HcPort) (s : State) : (modHc k g s).se = s.se := rfl
@[simp] theorem modHc_af (k : Nat) (g : HcPort → HcPort) (s : State) : (modHc k g s).af = s.af := rfl
@[simp] theorem modHc_lk_reqs (k : Nat) (g : HcPort → HcPort) (s : State) : (modHc k g s).lk.reqs = s.lk.reqs := rfl
@[simp] theorem modHc_lk_nextTag (k : Nat) (g : HcPort → HcPort) (s : State) : (modHc k g s).lk.nextTag = s.lk.nextTag := rfl
@[simp] theorem modHc_lk_acd (k : Nat) (g : HcPort → HcPort) (s : State) : (modHc k g s).lk.acd = s.lk.acd := rfl
@[simp] theorem modHc_lk_peer (k : Nat) (g : HcPort → HcPort) (s : State) : (modHc k g s).lk.peer = s.lk.peer := rfl
@[simp] theorem modHc_lk_rsh (k : Nat) (g : HcPort → HcPort) (s : State) : (modHc k g s).lk.rsh = s.lk.rsh := rfl
@[simp] theorem modHc_lk_laserIn (k : Nat) (g : HcPort → HcPort) (s : State) : (modHc k g s).lk.laserIn = s.lk.laserIn := rfl
@[simp] theorem modHc_lk_laserMap (k : Nat) (g : HcPort → HcPort) (s : State) : (modHc k g s).lk.laserMap = s.lk.laserMap := rfl
@[simp] theorem modHc_lk_buLinkUp (k : Nat) (g : HcPort → HcPort) (s : State) : (modHc k g s).lk.buLinkUp = s.lk.buLinkUp := rfl
@[simp] theorem modHc_lk_buRate (k : Nat) (g : HcPort → HcPort) (s : State) : (modHc k g s).lk.buRate = s.lk.buRate := rfl
@[simp] theorem modHc_lk_buWidth (k : Nat) (g : HcPort → HcPort) (s : State) : (modHc k g s).lk.buWidth = s.lk.buWidth := rfl
@[simp] theorem modHc_lk_vfFree (k : Nat) (g : HcPort → HcPort) (s : State) : (modHc k g s).lk.vfFree = s.lk.vfFree := rfl
@[simp] theorem modHc_self (k : Nat) (g : HcPort → HcPort) (s : State) : (modHc k g s).hc k = g (s.hc k) := tabGet_tabSet_self ..
theorem modHc_other (k : Nat) (g : HcPort → HcPort) (s : State) (k' : Nat) (h : k' ≠ k) : (modHc k g s).hc k' = s.hc k' := tabGet_tabSet_other _ _ _ _ _ h
@[simp] theorem modAcd_pending (k : Nat) (g : AcdPort → AcdPort) (s : State) : (modAcd k g s).pending = s.pending := rfl
@[simp] theorem modAcd_m (k : Nat) (g : AcdPort → AcdPort) (s : State) : (modAcd k g s).m = s.m := rfl
@[simp] theorem modAcd_pin (k : Nat) (g : AcdPort → AcdPort) (s : State) : (modAcd k g s).pin = s.pin := rfl
@[simp] theorem modAcd_tm (k : Nat) (g : AcdPort → AcdPort) (s : State) : (modAcd k g s).tm = s.tm := rfl
@[simp] theorem modAcd_cv (k : Nat) (g : AcdPort → AcdPort) (s : State) : (modAcd k g s).cv = s.cv := rfl
@[simp] theorem modAcd_wk (k : Nat) (g : AcdPort → AcdPort) (s : State) : (modAcd k g s).wk = s.wk := rfl
@[simp] theorem modAcd_ev (k : Nat) (g : AcdPort → AcdPort) (s : State) : (modAcd k g s).ev = s.ev := rfl
@[simp] theorem modAcd_rn (k : Nat) (g : AcdPort → AcdPort) (s : State) : (modAcd k g s).rn = s.rn := rfl
@[simp] theorem modAcd_sp (k : Nat) (g : AcdPort → AcdPort) (s : State) : (modAcd k g s).sp = s.sp := rfl
@[simp] theorem modAcd_st (k : Nat) (g : AcdPort → AcdPort) (s : State) : (modAcd k g s).st = s.st := rfl
@[simp] theorem modAcd_xl (k : Nat) (g : AcdPort → AcdPort) (s : State) : (modAcd k g s).xl = s.xl := rfl
@[simp] theorem modAcd_cx (k : Nat) (g : AcdPort → AcdPort) (s : State) : (modAcd k g s).cx = s.cx := rfl
@[simp] theorem modAcd_pr (k : Nat) (g : AcdPort → AcdPort) (s : State) : (modAcd k g s).pr = s.pr := rfl
@[simp] theorem modAcd_wh (k : Nat) (g : AcdPort → AcdPort) (s : State) : (modAcd k g s).wh = s.wh := rfl
@[simp] theorem modAcd_se (k : Nat) (g : AcdPort → AcdPort) (s : State) : (modAcd k g s).se = s.se := rfl
@[simp] theorem modAcd_af (k : Nat) (g : AcdPort → AcdPort) (s : State) : (modAcd k g s).af = s.af := rfl
@[simp] theorem modAcd_lk_reqs (k : Nat) (g : AcdPort → AcdPort) (s : State) : (modAcd k g s).lk.reqs = s.lk.reqs := rfl
@[simp] theorem modAcd_lk_nextTag (k : Nat) (g : AcdPort → AcdPort) (s : State) : (modAcd k g s).lk.nextTag = s.lk.nextTag := rfl
@[simp] theorem modAcd_lk_hc (k : Nat) (g : AcdPort → AcdPort) (s : State) : (modAcd k g s).lk.hc = s.lk.hc := rfl
@[simp] theorem modAcd_lk_peer (k : Nat) (g : AcdPort → AcdPort) (s : State) : (modAcd k g s).lk.peer = s.lk.peer := rfl
@[simp] theorem modAcd_lk_rsh (k : Nat) (g : AcdPort → AcdPort) (s : State) : (modAcd k g s).lk.rsh = s.lk.rsh := rfl
@[simp] theorem modAcd_lk_laserIn (k : Nat) (g : AcdPort → AcdPort) (s : State) : (modAcd k g s).lk.laserIn = s.lk.laserIn := rfl
@[simp] theorem modAcd_lk_laserMap (k : Nat) (g : AcdPort → AcdPort) (s : State) : (modAcd k g s).lk.laserMap = s.lk.laserMap := rfl
@[simp] theorem modAcd_lk_buLinkUp (k : Nat) (g : AcdPort → AcdPort) (s : State) : (modAcd k g s).lk.buLinkUp = s.lk.buLinkUp := rfl
@[simp] theorem modAcd_lk_buRate (k : Nat) (g : AcdPort → AcdPort) (s : State) : (modAcd k g s).lk.buRate = s.lk.buRate := rfl
@[simp] theorem modAcd_lk_buWidth (k : Nat) (g : AcdPort → AcdPort) (s : State) : (modAcd k g s).lk.buWidth = s.lk.buWidth := rfl
@[simp] theorem modAcd_lk_vfFree (k : Nat) (g : AcdPort → AcdPort) (s : State) : (modAcd k g s).lk.vfFree = s.lk.vfFree := rfl
@[simp] theorem modAcd_self (k : Nat) (g : AcdPort → AcdPort) (s : State) : (modAcd k g s).acd k = g (s.acd k) := tabGet_tabSet_self ..
theorem modAcd_other (k : Nat) (g : AcdPort → AcdPort) (s : State) (k' : Nat) (h : k' ≠ k) : (modAcd k g s).acd k' = s.acd k' := tabGet_tabSet_other _ _ _ _ _ h
@[simp] theorem modPeerP_pending (k : Nat) (g : PeerPort → PeerPort) (s : State) : (modPeerP k g s).pending = s.pending := rfl
@[simp] theorem modPeerP_m (k : Nat) (g : PeerPort → PeerPort) (s : State) : (modPeerP k g s).m = s.m := rfl
@[simp] theorem modPeerP_pin (k : Nat) (g : PeerPort → PeerPort) (s : State) : (modPeerP k g s).pin = s.pin := rfl
@[simp] theorem modPeerP_tm (k : Nat) (g : PeerPort → PeerPort) (s : State) : (modPeerP k g s).tm = s.tm := rfl
@[simp] theorem modPeerP_cv (k : Nat) (g : PeerPort → PeerPort) (s : State) : (modPeerP k g s).cv = s.cv := rfl
@[simp] theorem modPeerP_wk (k : Nat) (g : PeerPort → PeerPort) (s : State) : (modPeerP k g s).wk = s.wk := rfl
@[simp] theorem modPeerP_ev (k : Nat) (g : PeerPort → PeerPort) (s : State) : (modPeerP k g s).ev = s.ev := rfl
@[simp] theorem modPeerP_rn (k : Nat) (g : PeerPort → PeerPort) (s : State) : (modPeerP k g s).rn = s.rn := rfl
@[simp] theorem modPeerP_sp (k : Nat) (g : PeerPort → PeerPort) (s : State) : (modPeerP k g s).sp = s.sp := rfl
@[simp] theorem modPeerP_st (k : Nat) (g : PeerPort → PeerPort) (s : State) : (modPeerP k g s).st = s.st := rfl
@[simp] theorem modPeerP_xl (k : Nat) (g : PeerPort → PeerPort) (s : State) : (modPeerP k g s).xl = s.xl := rfl
@[simp] theorem modPeerP_cx (k : Nat) (g : PeerPort → PeerPort) (s : State) : (modPeerP k g s).cx = s.cx := rfl
@[simp] theorem modPeerP_pr (k : Nat) (g : PeerPort → PeerPort) (s : State) : (modPeerP k g s).pr = s.pr := rfl
@[simp] theorem modPeerP_wh (k : Nat) (g : PeerPort → PeerPort) (s : State) : (modPeerP k g s).wh = s.wh := rfl
@[simp] theorem modPeerP_se (k : Nat) (g : PeerPort → PeerPort) (s : State) : (modPeerP k g s).se = s.se := rfl
@[simp] theorem modPeerP_af (k : Nat) (g : PeerPort → PeerPort) (s : State) : (modPeerP k g s).af = s.af := rfl
@[simp] theorem modPeerP_lk_reqs (k : Nat) (g : PeerPort → PeerPort) (s : State) : (modPeerP k g s).lk.reqs = s.lk.reqs := rfl
@[simp] theorem modPeerP_lk_nextTag (k : Nat) (g : PeerPort → PeerPort) (s : State) : (modPeerP k g s).lk.nextTag = s.lk.nextTag := rfl
@[simp] theorem modPeerP_lk_hc (k : Nat) (g : PeerPort → PeerPort) (s : State) : (modPeerP k g s).lk.hc = s.lk.hc := rfl
@[simp] theorem modPeerP_lk_acd (k : Nat) (g : PeerPort → PeerPort) (s : State) : (modPeerP k g s).lk.acd = s.lk.acd := rfl
@[simp] theorem modPeerP_lk_rsh (k : Nat) (g : PeerPort → PeerPort) (s : State) : (modPeerP k g s).lk.rsh = s.lk.rsh := rfl
@[simp] theorem modPeerP_lk_laserIn (k : Nat) (g : PeerPort → PeerPort) (s : State) : (modPeerP k g s).lk.laserIn = s.lk.laserIn := rfl
@[simp] theorem modPeerP_lk_laserMap (k : Nat) (g : PeerPort → PeerPort) (s : State) : (modPeerP k g s).lk.laserMap = s.lk.laserMap := rfl
@[simp] theorem modPeerP_lk_buLinkUp (k : Nat) (g : PeerPort → PeerPort) (s : State) : (modPeerP k g s).lk.buLinkUp = s.lk.buLinkUp := rfl
@[simp] theorem modPeerP_lk_buRate (k : Nat) (g : PeerPort → PeerPort) (s : State) : (modPeerP k g s).lk.buRate = s.lk.buRate := rfl
@[simp] theorem modPeerP_lk_buWidth (k : Nat) (g : PeerPort → PeerPort) (s : State) : (modPeerP k g s).lk.buWidth = s.lk.buWidth := rfl
@[simp] theorem modPeerP_lk_vfFree (k : Nat) (g : PeerPort → PeerPort) (s : State) : (modPeerP k g s).lk.vfFree = s.lk.vfFree := rfl
@[simp] theorem modPeerP_self (k : Nat) (g : PeerPort → PeerPort) (s : State) : (modPeerP k g s).peerP k = g (s.peerP k) := tabGet_tabSet_self ..
theorem modPeerP_other (k : Nat) (g : PeerPort → PeerPort) (s : State) (k' : Nat) (h : k' ≠ k) : (modPeerP k g s).peerP k' = s.peerP k' := tabGet_tabSet_other _ _ _ _ _ h
@[simp] theorem modRsh_pending (k : Nat) (g : RshPort → RshPort) (s : State) : (modRsh k g s).pending = s.pending := rfl
@[simp] theorem modRsh_m (k : Nat) (g : RshPort → RshPort) (s : State) : (modRsh k g s).m = s.m := rfl
@[simp] theorem modRsh_pin (k : Nat) (g : RshPort → RshPort) (s : State) : (modRsh k g s).pin = s.pin := rfl
@[simp] theorem modRsh_tm (k : Nat) (g : RshPort → RshPort) (s : State) : (modRsh k g s).tm = s.tm := rfl
@[simp] theorem modRsh_cv (k : Nat) (g : RshPort → RshPort) (s : State) : (modRsh k g s).cv = s.cv := rfl
@[simp] theorem modRsh_wk (k : Nat) (g : RshPort → RshPort) (s : State) : (modRsh k g s).wk = s.wk := rfl
@[simp] theorem modRsh_ev (k : Nat) (g : RshPort → RshPort) (s : State) : (modRsh k g s).ev = s.ev := rfl
@[simp] theorem modRsh_rn (k : Nat) (g : RshPort → RshPort) (s : State) : (modRsh k g s).rn = s.rn := rfl
@[simp] theorem modRsh_sp (k : Nat) (g : RshPort → RshPort) (s : State) : (modRsh k g s).sp = s.sp := rfl
@[simp] theorem modRsh_st (k : Nat) (g : RshPort → RshPort) (s : State) : (modRsh k g s).st = s.st := rfl
@[simp] theorem modRsh_xl (k : Nat) (g : RshPort → RshPort) (s : State) : (modRsh k g s).xl = s.xl := rfl
@[simp] theorem modRsh_cx (k : Nat) (g : RshPort → RshPort) (s : State) : (modRsh k g s).cx = s.cx := rfl
@[simp] theorem modRsh_pr (k : Nat) (g : RshPort → RshPort) (s : State) : (modRsh k g s).pr = s.pr := rfl
@[simp] theorem modRsh_wh (k : Nat) (g : RshPort → RshPort) (s : State) : (modRsh k g s).wh = s.wh := rfl
@[simp] theorem modRsh_se (k : Nat) (g : RshPort → RshPort) (s : State) : (modRsh k g s).se = s.se := rfl
@[simp] theorem modRsh_af (k : Nat) (g : RshPort → RshPort) (s : State) : (modRsh k g s).af = s.af := rfl
@[simp] theorem modRsh_lk_reqs (k : Nat) (g : RshPort → RshPort) (s : State) : (modRsh k g s).lk.reqs = s.lk.reqs := rfl
@[simp] theorem modRsh_lk_nextTag (k : Nat) (g : RshPort → RshPort) (s : State) : (modRsh k g s).lk.nextTag = s.lk.nextTag := rfl
@[simp] theorem modRsh_lk_hc (k : Nat) (g : RshPort → RshPort) (s : State) : (modRsh k g s).lk.hc = s.lk.hc := rfl
@[simp] theorem modRsh_lk_acd (k : Nat) (g : RshPort → RshPort) (s : State) : (modRsh k g s).lk.acd = s.lk.acd := rfl
@[simp] theorem modRsh_lk_peer (k : Nat) (g : RshPort → RshPort) (s : State) : (modRsh k g s).lk.peer = s.lk.peer := rfl
@[simp] theorem modRsh_lk_laserIn (k : Nat) (g : RshPort → RshPort) (s : State) : (modRsh k g s).lk.laserIn = s.lk.laserIn := rfl
@[simp] theorem modRsh_lk_laserMap (k : Nat) (g : RshPort → RshPort) (s : State) : (modRsh k g s).lk.laserMap = s.lk.laserMap := rfl
@[simp] theorem modRsh_lk_buLinkUp (k : Nat) (g : RshPort → RshPort) (s : State) : (modRsh k g s).lk.buLinkUp = s.lk.buLinkUp := rfl
@[simp] theorem modRsh_lk_buRate (k : Nat) (g : RshPort → RshPort) (s : State) : (modRsh k g s).lk.buRate = s.lk.buRate := rfl
@[simp] theorem modRsh_lk_buWidth (k : Nat) (g : RshPort → RshPort) (s : State) : (modRsh k g s).lk.buWidth = s.lk.buWidth := rfl
@[simp] theorem modRsh_lk_vfFree (k : Nat) (g : RshPort → RshPort) (s : State) : (modRsh k g s).lk.vfFree = s.lk.vfFree := rfl
@[simp] theorem modRsh_self (k : Nat) (g : RshPort → RshPort) (s : State) : (modRsh k g s).rsh k = g (s.rsh k) := tabGet_tabSet_self ..
theorem modRsh_other (k : Nat) (g : RshPort → RshPort) (s : State) (k' : Nat) (h : k' ≠ k) : (modRsh k g s).rsh k' = s.rsh k' := tabGet_tabSet_other _ _ _ _ _ h
@[simp] theorem modExp_pending (k : Nat) (g : Export → Export) (s : State) : (modExp k g s).pending = s.pending := rfl
@[simp] theorem modExp_m (k : Nat) (g : Export → Export) (s : State) : (modExp k g s).m = s.m := rfl
@[simp] theorem modExp_pin (k : Nat) (g : Export → Export) (s : State) : (modExp k g s).pin = s.pin := rfl
@[simp] theorem modExp_tm (k : Nat) (g : Export → Export) (s : State) : (modExp k g s).tm = s.tm := rfl
@[simp] theorem modExp_cv (k : Nat) (g : Export → Export) (s : State) : (modExp k g s).cv = s.cv := rfl
@[simp] theorem modExp_wk (k : Nat) (g : Export → Export) (s : State) : (modExp k g s).wk = s.wk := rfl
@[simp] theorem modExp_ev (k : Nat) (g : Export → Export) (s : State) : (modExp k g s).ev = s.ev := rfl
@[simp] theorem modExp_rn (k : Nat) (g : Export → Export) (s : State) : (modExp k g s).rn = s.rn := rfl
@[simp] theorem modExp_sp (k : Nat) (g : Export → Export) (s : State) : (modExp k g s).sp = s.sp := rfl
@[simp] theorem modExp_st (k : Nat) (g : Export → Export) (s : State) : (modExp k g s).st = s.st := rfl
@[simp] theorem modExp_xl (k : Nat) (g : Export → Export) (s : State) : (modExp k g s).xl = s.xl := rfl
@[simp] theorem modExp_lk (k : Nat) (g : Export → Export) (s : State) : (modExp k g s).lk = s.lk := rfl
@[simp] theorem modExp_cx (k : Nat) (g : Export → Export) (s : State) : (modExp k g s).cx = s.cx := rfl
@[simp] theorem modExp_wh (k : Nat) (g : Export → Export) (s : State) : (modExp k g s).wh = s.wh := rfl
@[simp] theorem modExp_se (k : Nat) (g : Export → Export) (s : State) : (modExp k g s).se = s.se := rfl
@[simp] theorem modExp_af (k : Nat) (g : Export → Export) (s : State) : (modExp k g s).af = s.af := rfl
@[simp] theorem modExp_pr_nodeValid (k : Nat) (g : Export → Export) (s : State) : (modExp k g s).pr.nodeValid = s.pr.nodeValid := rfl
@[simp] theorem modExp_pr_nodeId (k : Nat) (g : Export → Export) (s : State) : (modExp k g s).pr.nodeId = s.pr.nodeId := rfl
@[simp] theorem modExp_pr_progress (k : Nat) (g : Export → Export) (s : State) : (modExp k g s).pr.progress = s.pr.progress := rfl
@[simp] theorem modExp_pr_reqTimeout (k : Nat) (g : Export → Export) (s : State) : (modExp k g s).pr.reqTimeout = s.pr.reqTimeout := rfl
@[simp] theorem modExp_pr_colls (k : Nat) (g : Export → Export) (s : State) : (modExp k g s).pr.colls = s.pr.colls := rfl
@[simp] theorem modExp_pr_routes (k : Nat) (g : Export → Export) (s : State) : (modExp k g s).pr.routes = s.pr.routes := rfl
@[simp] theorem modExp_pr_waiting (k : Nat) (g : Export → Export) (s : State) : (modExp k g s).pr.waiting = s.pr.waiting := rfl
@[simp] theorem modExp_self (k : Nat) (g : Export → Export) (s : State) : (modExp k g s).exp k = g (s.exp k) := tabGet_tabSet_self ..
theorem modExp_other (k : Nat) (g : Export → Export) (s : State) (k' : Nat) (h : k' ≠ k) : (modExp k g s).exp k' = s.exp k' := tabGet_tabSet_other _ _ _ _ _ h
@[simp] theorem modColl_pending (k : Nat) (g : Coll → Coll) (s : State) : (modColl k g s).pending = s.pending := rfl
@[simp] theorem modColl_m (k : Nat) (g : Coll → Coll) (s : State) : (modColl k g s).m = s.m := rfl
@[simp] theorem modColl_pin (k : Nat) (g : Coll → Coll) (s : State) : (modColl k g s).pin = s.pin := rfl
@[simp] theorem modColl_tm (k : Nat) (g : Coll → Coll) (s : State) : (modColl k g s).tm = s.tm := rfl
@[simp] theorem modColl_cv (k : Nat) (g : Coll → Coll) (s : State) : (modColl k g s).cv = s.cv := rfl
@[simp] theorem modColl_wk (k : Nat) (g : Coll → Coll) (s : State) : (modColl k g s).wk = s.wk := rfl
@[simp] theorem modColl_ev (k : Nat) (g : Coll → Coll) (s : State) : (modColl k g s).ev = s.ev := rfl
@[simp] theorem modColl_rn (k : Nat) (g : Coll → Coll) (s : State) : (modColl k g s).rn = s.rn := rfl
@[simp] theorem modColl_sp (k : Nat) (g : Coll → Coll) (s : State) : (modColl k g s).sp = s.sp := rfl
@[simp] theorem modColl_st (k : Nat) (g : Coll → Coll) (s : State) : (modColl k g s).st = s.st := rfl
@[simp] theorem modColl_xl (k : Nat) (g : Coll → Coll) (s : State) : (modColl k g s).xl = s.xl := rfl
@[simp] theorem modColl_lk (k : Nat) (g : Coll → Coll) (s : State) : (modColl k g s).lk = s.lk := rfl
@[simp] theorem modColl_cx (k : Nat) (g : Coll → Coll) (s : State) : (modColl k g s).cx = s.cx := rfl
@[simp] theorem modColl_wh (k : Nat) (g : Coll → Coll) (s : State) : (modColl k g s).wh = s.wh := rfl
@[simp] theorem modColl_se (k : Nat) (g : Coll → Coll) (s : State) : (modColl k g s).se = s.se := rfl
@[simp] theorem modColl_af (k : Nat) (g : Coll → Coll) (s : State) : (modColl k g s).af = s.af := rfl
@[simp] theorem modColl_pr_nodeValid (k : Nat) (g : Coll → Coll) (s : State) : (modColl k g s).pr.nodeValid = s.pr.nodeValid := rfl
@[simp] theorem modColl_pr_nodeId (k : Nat) (g : Coll → Coll) (s : State) : (modColl k g s).pr.nodeId = s.pr.nodeId := rfl
@[simp] theorem modColl_pr_progress (k : Nat) (g : Coll → Coll) (s : State) : (modColl k g s).pr.progress = s.pr.progress := rfl
@[simp] theorem modColl_pr_reqTimeout (k : Nat) (g : Coll → Coll) (s : State) : (modColl k g s).pr.reqTimeout = s.pr.reqTimeout := rfl
@[simp] theorem modColl_pr_exports (k : Nat) (g : Coll → Coll) (s : State) : (modColl k g s).pr.exports = s.pr.exports := rfl
@[simp] theorem modColl_pr_routes (k : Nat) (g : Coll → Coll) (s : State) : (modColl k g s).pr.routes = s.pr.routes := rfl
@[simp] theorem modColl_pr_waiting (k : Nat) (g : Coll → Coll) (s : State) : (modColl k g s).pr.waiting = s.pr.waiting := rfl
@[simp] theorem modColl_self (k : Nat) (g : Coll → Coll) (s : State) : (modColl k g s).coll k = g (s.coll k) := tabGet_tabSet_self ..
theorem modColl_other (k : Nat) (g : Coll → Coll) (s : State) (k' : Nat) (h : k' ≠ k) : (modColl k g s).coll k' = s.coll k' := tabGet_tabSet_other _ _ _ _ _ h
@[simp] theorem modRoute_pending (k : Nat) (g : Route → Route) (s : State) : (modRoute k g s).pending = s.pending := rfl
@[simp] theorem modRoute_m (k : Nat) (g : Route → Route) (s : State) : (modRoute k g s).m = s.m := rfl
@[simp] theorem modRoute_pin (k : Nat) (g : Route → Route) (s : State) : (modRoute k g s).pin = s.pin := rfl
@[simp] theorem modRoute_tm (k : Nat) (g : Route → Route) (s : State) : (modRoute k g s).tm = s.tm := rfl
@[simp] theorem modRoute_cv (k : Nat) (g : Route → Route) (s : State) : (modRoute k g s).cv = s.cv := rfl
@[simp] theorem modRoute_wk (k : Nat) (g : Route → Route) (s : State) : (modRoute k g s).wk = s.wk := rfl
@[simp] theorem modRoute_ev (k : Nat) (g : Route → Route) (s : State) : (modRoute k g s).ev = s.ev := rfl
@[simp] theorem modRoute_rn (k : Nat) (g : Route → Route) (s : State) : (modRoute k g s).rn = s.rn := rfl
@[simp] theorem modRoute_sp (k : Nat) (g : Route → Route) (s : State) : (modRoute k g s).sp = s.sp := rfl
@[simp] theorem modRoute_st (k : Nat) (g : Route → Route) (s : State) : (modRoute k g s).st = s.st := rfl
@[simp] theorem modRoute_xl (k : Nat) (g : Route → Route) (s : State) : (modRoute k g s).xl = s.xl := rfl
@[simp] theorem modRoute_lk (k : Nat) (g : Route → Route) (s : State) : (modRoute k g s).lk = s.lk := rfl
@[simp] theorem modRoute_cx (k : Nat) (g : Route → Route) (s : State) : (modRoute k g s).cx = s.cx := rfl
@[simp] theorem modRoute_wh (k : Nat) (g : Route → Route) (s : State) : (modRoute k g s).wh = s.wh := rfl
@[simp] theorem modRoute_se (k : Nat) (g : Route → Route) (s : State) : (modRoute k g s).se = s.se := rfl
@[simp] theorem modRoute_af (k : Nat) (g : Route → Route) (s : State) : (modRoute k g s).af = s.af := rfl
@[simp] theorem modRoute_pr_nodeValid (k : Nat) (g : Route → Route) (s : State) : (modRoute k g s).pr.nodeValid = s.pr.nodeValid := rfl
@[simp] theorem modRoute_pr_nodeId (k : Nat) (g : Route → Route) (s : State) : (modRoute k g s).pr.nodeId = s.pr.nodeId := rfl
@[simp] theorem modRoute_pr_progress (k : Nat) (g : Route → Route) (s : State) : (modRoute k g s).pr.progress = s.pr.progress := rfl
@[simp] theorem modRoute_pr_reqTimeout (k : Nat) (g : Route → Route) (s : State) : (modRoute k g s).pr.reqTimeout = s.pr.reqTimeout := rfl
@[simp] theorem modRoute_pr_exports (k : Nat) (g : Route → Route) (s : State) : (modRoute k g s).pr.exports = s.pr.exports := rfl
@[simp] theorem modRoute_pr_colls (k : Nat) (g : Route → Route) (s : State) : (modRoute k g s).pr.colls = s.pr.colls := rfl
@[simp] theorem modRoute_pr_waiting (k : Nat) (g : Route → Route) (s : State) : (modRoute k g s).pr.waiting = s.pr.waiting := rfl
@[simp] theorem modRoute_self (k : Nat) (g : Route → Route) (s : State) : (modRoute k g s).route k = g (s.route k) := tabGet_tabSet_self ..
theorem modRoute_other (k : Nat) (g : Route → Route) (s : State) (k' : Nat) (h : k' ≠ k) : (modRoute k g s).route k' = s.route k' := tabGet_tabSet_other _ _ _ _ _ h
@[simp] theorem modWheel_pending (k : Nat) (g : Wheel → Wheel) (s : State) : (modWheel k g s).pending = s.pending := rfl
@[simp] theorem modWheel_m (k : Nat) (g : Wheel → Wheel) (s : State) : (modWheel k g s).m = s.m := rfl
@[simp] theorem modWheel_pin (k : Nat) (g : Wheel → Wheel) (s : State) : (modWheel k g s).pin = s.pin := rfl
@[simp] theorem modWheel_tm (k : Nat) (g : Wheel → Wheel) (s : State) : (modWheel k g s).tm = s.tm := rfl
@[simp] theorem modWheel_cv (k : Nat) (g : Wheel → Wheel) (s : State) : (modWheel k g s).cv = s.cv := rfl
@[simp] theorem modWheel_wk (k : Nat) (g : Wheel → Wheel) (s : State) : (modWheel k g s).wk = s.wk := rfl
@[simp] theorem modWheel_ev (k : Nat) (g : Wheel → Wheel) (s : State) : (modWheel k g s).ev = s.ev := rfl
@[simp] theorem modWheel_rn (k : Nat) (g : Wheel → Wheel) (s : State) : (modWheel k g s).rn = s.rn := rfl
@[simp] theorem modWheel_sp (k : Nat) (g : Wheel → Wheel) (s : State) : (modWheel k g s).sp = s.sp := rfl
@[simp] theorem modWheel_st (k : Nat) (g : Wheel → Wheel) (s : State) : (modWheel k g s).st = s.st := rfl
@[simp] theorem modWheel_xl (k : Nat) (g : Wheel → Wheel) (s : State) : (modWheel k g s).xl = s.xl := rfl
@[simp] theorem modWheel_lk (k : Nat) (g : Wheel → Wheel) (s : State) : (modWheel k g s).lk = s.lk := rfl
@[simp] theorem modWheel_cx (k : Nat) (g : Wheel → Wheel) (s : State) : (modWheel k g s).cx = s.cx := rfl
@[simp] theorem modWheel_pr (k : Nat) (g : Wheel → Wheel) (s : State) : (modWheel k g s).pr = s.pr := rfl
@[simp] theorem modWheel_se (k : Nat) (g : Wheel → Wheel) (s : State) : (modWheel k g s).se = s.se := rfl
@[simp] theorem modWheel_af (k : Nat) (g : Wheel → Wheel) (s : State) : (modWheel k g s).af = s.af := rfl
@[simp] theorem modWheel_wh_sliceWheel (k : Nat) (g : Wheel → Wheel) (s : State) : (modWheel k g s).wh.sliceWheel = s.wh.sliceWheel := rfl
@[simp] theorem modWheel_wh_hcWheel (k : Nat) (g : Wheel → Wheel) (s : State) : (modWheel k g s).wh.hcWheel = s.wh.hcWheel := rfl
@[simp] theorem modWheel_wh_peerWheel (k : Nat) (g : Wheel → Wheel) (s : State) : (modWheel k g s).wh.peerWheel = s.wh.peerWheel := rfl
@[simp] theorem modWheel_wh_acdWheel (k : Nat) (g : Wheel → Wheel) (s : State) : (modWheel k g s).wh.acdWheel = s.wh.acdWheel := rfl
@[simp] theorem modWheel_wh_vatBlock (k : Nat) (g : Wheel → Wheel) (s : State) : (modWheel k g s).wh.vatBlock = s.wh.vatBlock := rfl
@[simp] theorem modWheel_wh_evqBlock (k : Nat) (g : Wheel → Wheel) (s : State) : (modWheel k g s).wh.evqBlock = s.wh.evqBlock := rfl
@[simp] theorem modWheel_wh_gateBind (k : Nat) (g : Wheel → Wheel) (s : State) : (modWheel k g s).wh.gateBind = s.wh.gateBind := rfl
@[simp] theorem modWheel_wh_devmgr (k : Nat) (g : Wheel → Wheel) (s : State) : (modWheel k g s).wh.devmgr = s.wh.devmgr := rfl
@[simp] theorem modWheel_wh_bindBusy (k : Nat) (g : Wheel → Wheel) (s : State) : (modWheel k g s).wh.bindBusy = s.wh.bindBusy := rfl
@[simp] theorem modWheel_wh_bindWheels (k : Nat) (g : Wheel → Wheel) (s : State) : (modWheel k g s).wh.bindWheels = s.wh.bindWheels := rfl
@[simp] theorem modWheel_self (k : Nat) (g : Wheel → Wheel) (s : State) : (modWheel k g s).wheel k = g (s.wheel k) := tabGet_tabSet_self ..
theorem modWheel_other (k : Nat) (g : Wheel → Wheel) (s : State) (k' : Nat) (h : k' ≠ k) : (modWheel k g s).wheel k' = s.wheel k' := tabGet_tabSet_other _ _ _ _ _ h
@[simp] theorem modIsland_pending (k : Nat) (g : Island → Island) (s : State) : (modIsland k g s).pending = s.pending := rfl
@[simp] theorem modIsland_m (k : Nat) (g : Island → Island) (s : State) : (modIsland k g s).m = s.m := rfl
@[simp] theorem modIsland_pin (k : Nat) (g : Island → Island) (s : State) : (modIsland k g s).pin = s.pin := rfl
@[simp] theorem modIsland_cv (k : Nat) (g : Island → Island) (s : State) : (modIsland k g s).cv = s.cv := rfl
@[simp] theorem modIsland_wk (k : Nat) (g : Island → Island) (s : State) : (modIsland k g s).wk = s.wk := rfl
@[simp] theorem modIsland_ev (k : Nat) (g : Island → Island) (s : State) : (modIsland k g s).ev = s.ev := rfl
@[simp] theorem modIsland_rn (k : Nat) (g : Island → Island) (s : State) : (modIsland k g s).rn = s.rn := rfl
@[simp] theorem modIsland_sp (k : Nat) (g : Island → Island) (s : State) : (modIsland k g s).sp = s.sp := rfl
@[simp] theorem modIsland_st (k : Nat) (g : Island → Island) (s : State) : (modIsland k g s).st = s.st := rfl
@[simp] theorem modIsland_xl (k : Nat) (g : Island → Island) (s : State) : (modIsland k g s).xl = s.xl := rfl
@[simp] theorem modIsland_lk (k : Nat) (g : Island → Island) (s : State) : (modIsland k g s).lk = s.lk := rfl
@[simp] theorem modIsland_cx (k : Nat) (g : Island → Island) (s : State) : (modIsland k g s).cx = s.cx := rfl
@[simp] theorem modIsland_pr (k : Nat) (g : Island → Island) (s : State) : (modIsland k g s).pr = s.pr := rfl
@[simp] theorem modIsland_wh (k : Nat) (g : Island → Island) (s : State) : (modIsland k g s).wh = s.wh := rfl
@[simp] theorem modIsland_se (k : Nat) (g : Island → Island) (s : State) : (modIsland k g s).se = s.se := rfl
@[simp] theorem modIsland_af (k : Nat) (g : Island → Island) (s : State) : (modIsland k g s).af = s.af := rfl
@[simp] theorem modIsland_tm_boot (k : Nat) (g : Island → Island) (s : State) : (modIsland k g s).tm.boot = s.tm.boot := rfl
@[simp] theorem modIsland_tm_bootCount (k : Nat) (g : Island → Island) (s : State) : (modIsland k g s).tm.bootCount = s.tm.bootCount := rfl
@[simp] theorem modIsland_tm_recovery (k : Nat) (g : Island → Island) (s : State) : (modIsland k g s).tm.recovery = s.tm.recovery := rfl
@[simp] theorem modIsland_tm_deviceTime (k : Nat) (g : Island → Island) (s : State) : (modIsland k g s).tm.deviceTime = s.tm.deviceTime := rfl
@[simp] theorem modIsland_tm_timeKnown (k : Nat) (g : Island → Island) (s : State) : (modIsland k g s).tm.timeKnown = s.tm.timeKnown := rfl
@[simp] theorem modIsland_tm_restDeep (k : Nat) (g : Island → Island) (s : State) : (modIsland k g s).tm.restDeep = s.tm.restDeep := rfl
@[simp] theorem modIsland_tm_restEnter (k : Nat) (g : Island → Island) (s : State) : (modIsland k g s).tm.restEnter = s.tm.restEnter := rfl
@[simp] theorem modIsland_tm_wakes (k : Nat) (g : Island → Island) (s : State) : (modIsland k g s).tm.wakes = s.tm.wakes := rfl
@[simp] theorem modIsland_tm_refused (k : Nat) (g : Island → Island) (s : State) : (modIsland k g s).tm.refused = s.tm.refused := rfl
@[simp] theorem modIsland_self (k : Nat) (g : Island → Island) (s : State) : (modIsland k g s).island k = g (s.island k) := tabGet_tabSet_self ..
theorem modIsland_other (k : Nat) (g : Island → Island) (s : State) (k' : Nat) (h : k' ≠ k) : (modIsland k g s).island k' = s.island k' := tabGet_tabSet_other _ _ _ _ _ h
@[simp] theorem modFwSlot_pending (k : Nat) (g : FwImage → FwImage) (s : State) : (modFwSlot k g s).pending = s.pending := rfl
@[simp] theorem modFwSlot_m (k : Nat) (g : FwImage → FwImage) (s : State) : (modFwSlot k g s).m = s.m := rfl
@[simp] theorem modFwSlot_pin (k : Nat) (g : FwImage → FwImage) (s : State) : (modFwSlot k g s).pin = s.pin := rfl
@[simp] theorem modFwSlot_tm (k : Nat) (g : FwImage → FwImage) (s : State) : (modFwSlot k g s).tm = s.tm := rfl
@[simp] theorem modFwSlot_cv (k : Nat) (g : FwImage → FwImage) (s : State) : (modFwSlot k g s).cv = s.cv := rfl
@[simp] theorem modFwSlot_wk (k : Nat) (g : FwImage → FwImage) (s : State) : (modFwSlot k g s).wk = s.wk := rfl
@[simp] theorem modFwSlot_ev (k : Nat) (g : FwImage → FwImage) (s : State) : (modFwSlot k g s).ev = s.ev := rfl
@[simp] theorem modFwSlot_rn (k : Nat) (g : FwImage → FwImage) (s : State) : (modFwSlot k g s).rn = s.rn := rfl
@[simp] theorem modFwSlot_sp (k : Nat) (g : FwImage → FwImage) (s : State) : (modFwSlot k g s).sp = s.sp := rfl
@[simp] theorem modFwSlot_xl (k : Nat) (g : FwImage → FwImage) (s : State) : (modFwSlot k g s).xl = s.xl := rfl
@[simp] theorem modFwSlot_lk (k : Nat) (g : FwImage → FwImage) (s : State) : (modFwSlot k g s).lk = s.lk := rfl
@[simp] theorem modFwSlot_cx (k : Nat) (g : FwImage → FwImage) (s : State) : (modFwSlot k g s).cx = s.cx := rfl
@[simp] theorem modFwSlot_pr (k : Nat) (g : FwImage → FwImage) (s : State) : (modFwSlot k g s).pr = s.pr := rfl
@[simp] theorem modFwSlot_wh (k : Nat) (g : FwImage → FwImage) (s : State) : (modFwSlot k g s).wh = s.wh := rfl
@[simp] theorem modFwSlot_se (k : Nat) (g : FwImage → FwImage) (s : State) : (modFwSlot k g s).se = s.se := rfl
@[simp] theorem modFwSlot_af (k : Nat) (g : FwImage → FwImage) (s : State) : (modFwSlot k g s).af = s.af := rfl
@[simp] theorem modFwSlot_st_mramBlocked (k : Nat) (g : FwImage → FwImage) (s : State) : (modFwSlot k g s).st.mramBlocked = s.st.mramBlocked := rfl
@[simp] theorem modFwSlot_st_logicLow (k : Nat) (g : FwImage → FwImage) (s : State) : (modFwSlot k g s).st.logicLow = s.st.logicLow := rfl
@[simp] theorem modFwSlot_st_photLow (k : Nat) (g : FwImage → FwImage) (s : State) : (modFwSlot k g s).st.photLow = s.st.photLow := rfl
@[simp] theorem modFwSlot_st_blocks (k : Nat) (g : FwImage → FwImage) (s : State) : (modFwSlot k g s).st.blocks = s.st.blocks := rfl
@[simp] theorem modFwSlot_st_log (k : Nat) (g : FwImage → FwImage) (s : State) : (modFwSlot k g s).st.log = s.st.log := rfl
@[simp] theorem modFwSlot_st_logPending (k : Nat) (g : FwImage → FwImage) (s : State) : (modFwSlot k g s).st.logPending = s.st.logPending := rfl
@[simp] theorem modFwSlot_st_mramWaits (k : Nat) (g : FwImage → FwImage) (s : State) : (modFwSlot k g s).st.mramWaits = s.st.mramWaits := rfl
@[simp] theorem modFwSlot_st_logLost (k : Nat) (g : FwImage → FwImage) (s : State) : (modFwSlot k g s).st.logLost = s.st.logLost := rfl
@[simp] theorem modFwSlot_st_logSel (k : Nat) (g : FwImage → FwImage) (s : State) : (modFwSlot k g s).st.logSel = s.st.logSel := rfl
@[simp] theorem modFwSlot_st_portCfg (k : Nat) (g : FwImage → FwImage) (s : State) : (modFwSlot k g s).st.portCfg = s.st.portCfg := rfl
@[simp] theorem modFwSlot_st_cfgDirty (k : Nat) (g : FwImage → FwImage) (s : State) : (modFwSlot k g s).st.cfgDirty = s.st.cfgDirty := rfl
@[simp] theorem modFwSlot_st_calValid (k : Nat) (g : FwImage → FwImage) (s : State) : (modFwSlot k g s).st.calValid = s.st.calValid := rfl
@[simp] theorem modFwSlot_st_calSeq (k : Nat) (g : FwImage → FwImage) (s : State) : (modFwSlot k g s).st.calSeq = s.st.calSeq := rfl
@[simp] theorem modFwSlot_st_fwActive (k : Nat) (g : FwImage → FwImage) (s : State) : (modFwSlot k g s).st.fwActive = s.st.fwActive := rfl
@[simp] theorem modFwSlot_st_fwSvn (k : Nat) (g : FwImage → FwImage) (s : State) : (modFwSlot k g s).st.fwSvn = s.st.fwSvn := rfl
@[simp] theorem modFwSlot_st_fwRunning (k : Nat) (g : FwImage → FwImage) (s : State) : (modFwSlot k g s).st.fwRunning = s.st.fwRunning := rfl
@[simp] theorem modFwSlot_st_fwPending (k : Nat) (g : FwImage → FwImage) (s : State) : (modFwSlot k g s).st.fwPending = s.st.fwPending := rfl
@[simp] theorem modFwSlot_st_vatStore (k : Nat) (g : FwImage → FwImage) (s : State) : (modFwSlot k g s).st.vatStore = s.st.vatStore := rfl
@[simp] theorem modFwSlot_self (k : Nat) (g : FwImage → FwImage) (s : State) : (modFwSlot k g s).fwSlot k = g (s.fwSlot k) := tabGet_tabSet_self ..
theorem modFwSlot_other (k : Nat) (g : FwImage → FwImage) (s : State) (k' : Nat) (h : k' ≠ k) : (modFwSlot k g s).fwSlot k' = s.fwSlot k' := tabGet_tabSet_other _ _ _ _ _ h

end Sys2Proof.Machine
end

