-- ==== Sys2Proof/Machine/RegRead.lean ====
section
/-! DEFINITION. What a read of BAR0 returns: the fields of every register, who reads them, and the classes of read (R4, R59,
R84, R85, R224, R273, R309, R329, R360, R366, R375 to R378, R403, R404, R413, R427, R441, R442, R457, R462 to R473). A read
has no effect but at CLAIM (R472), which CLAIM_READ models: these functions are views of the state. -/

namespace Sys2Proof.Machine

open Sys2Proof

/-! ### Identity, admin hoop and doorbell pages (R59, R84, R85, R465) -/

/-- Whether f is the manager of its wheel (R409). -/
def managesOwn (s : State) (f : Fn) : Bool :=
  match f, fnWheel s f with
  | .pf p, some w => (s.wheel w).present && (s.wheel w).manager = p
  | _, _ => false

/-- FUNC_SELF (R465). -/
def funcSelf (s : State) (f : Fn) : Nat :=
  selfId f * 2 ^ 48 + (fnWheel s f).getD 0 * 2 ^ 44 + b2n (f = .bu) * 2 ^ 43 + b2n (f ≠ .bu && isDevmgr s f) * 2 ^ 42 +
    b2n (managesOwn s f) * 2 ^ 41 + (s.fnS f).capsGen.toNat * 2 ^ 32 + (capTable s f).length

/-- A register of the identity block (R465). -/
def identRead (s : State) (f : Fn) (o : Nat) : Nat :=
  if o = 0x0 then 0x4B554856
  else if o = 0x4 then 0x00020001
  else if o = 0x8 then funcSelf s f
  else if o = 0x10 then (if isVf f then 0 else Config.serialSeed.toNat)
  else if o = 0x18 then (if isVf f then s.tm.deviceTime % 2 ^ 64 / 1024 * 1024 else s.tm.deviceTime % 2 ^ 64)
  else 0

/-- Four bytes of the capability table (R466). -/
def capRead (s : State) (f : Fn) (o : Nat) : Nat := leNat (((capTable s f).drop o).take 4)

/-- The six error bits of HOOP_ERR and ADMIN_ERR (R84, R85). -/
def errBits (ring disabled mismatch width range own : Bool) : Nat :=
  b2n ring * 32 + b2n disabled * 16 + b2n mismatch * 8 + b2n width * 4 + b2n range * 2 + b2n own

/-- A register of the admin hoop setup block (R84). -/
def adminRead (x : AdminHoop) (o : Nat) : Nat :=
  if o = 0x00 then x.tail.toNat
  else if o = 0x08 then b2n x.running * 2 ^ 63 + b2n x.idle * 2 ^ 62 + x.head.toNat
  else if o = 0x10 then x.base
  else if o = 0x18 then b2n x.evqValid * 2 ^ 28 + x.evq * 2 ^ 16 + x.log2
  else if o = 0x20 then x.headAddr
  else if o = 0x28 then b2n x.cfgErr * 2 + b2n x.enable
  else if o = 0x30 then errBits x.ringFault x.dbDisabled false x.dbBadWidth x.tailRange x.ownTimeout
  else 0

/-- HOOP_STATE (R85). -/
def hoopState (x : Hoop) : Nat :=
  b2n x.enabled * 2 ^ 63 + b2n x.idle * 2 ^ 62 + b2n x.migrating * 2 ^ 61 + b2n x.present * 2 ^ 60 + x.epoch.toNat * 2 ^ 40 +
    inFlightCount x * 2 ^ 32 + x.head.toNat

/-- A register of a doorbell page; the page of a hoop that does not exist reads 0 (R59, R61, R85). -/
def pageRead (x : Hoop) (o : Nat) : Nat :=
  if !x.present then 0
  else if o = 0x00 then x.tail.toNat
  else if o = 0x08 then hoopState x
  else if o = 0x10 then errBits x.ringFault x.dbDisabled x.pushMismatch x.dbBadWidth x.tailRange x.ownTimeout
  else if o = 0x18 then b2n x.enabled
  else if o = 0x20 then x.ringBase
  else if o = 0x28 then x.vat * 2 ^ 48 + x.evq * 2 ^ 36 + x.pubCount * 2 ^ 16 + x.log2
  else if o = 0x30 then x.headAddr
  else if o = 0x38 then x.whey.toNat
  else 0

/-! ### Interrupt banks (R366, R375 to R377) -/

/-- The number whose bit k is b of the source of bit 64 q + k of f's bitmaps; a source that f does not configure, or that a
fast slot names, reads 0 (R366, R372). -/
def bankBits (s : State) (f : Fn) (q : Nat) (b : Src → Bool) : Nat :=
  maskBy 64 (fun k => match bankSource s f (64 * q + k) with
    | some x => (fastSlotOf s x).isNone && b (s.src x)
    | none => false)

/-- SENSE fields of 32 sources (R364, R375). -/
def senseRead (s : State) (f : Fn) (q : Nat) : Nat :=
  (List.range 32).foldl (fun a k => a + (match bankSource s f (32 * q + k) with
    | some x => if (fastSlotOf s x).isNone then senseOf s x % 4 else 0
    | none => 0) * 4 ^ k) 0

/-- CLAIM[v], as a read would claim it (R368). -/
def claimView (s : State) (f : Fn) (v : Nat) : Nat :=
  match tabGet [] (s.fnS f).claimQ v with
  | e :: _ => claimValue s e
  | [] => 0xFFFFFFFF

/-- EVQ_ROUTE[E] for its owner; any other function reads 0 (R375). -/
def routeRead (s : State) (f : Fn) (e : Nat) : Nat :=
  let x := s.evq e
  if x.present && x.fn = f then
    b2n x.en * 2 ^ 63 + x.vector * 2 ^ 52 + x.tmask.toNat * 2 ^ 44 + x.dropped * 2 ^ 32 + x.coalCount * 2 ^ 16 + x.coalTime
  else 0

/-- A register of the normal bank at offset o (R375). -/
def normalRead (s : State) (f : Fn) (o : Nat) : Nat :=
  if o = 0x0 then 0
  else if o = 0x8 then b2n (s.fnS f).doneBad * 2 + b2n (s.fnS f).readBad
  else if o < 0xD00 then bankBits s f ((o - 0x100) / 8) (·.mask)
  else if o < 0x1900 then bankBits s f ((o - 0xD00) / 8) (·.mask)
  else if o < 0x2500 then bankBits s f ((o - 0x1900) / 8) (·.pending)
  else if o < 0x3100 then bankBits s f ((o - 0x2500) / 8) (·.pending)
  else if o < 0x5000 then senseRead s f ((o - 0x3100) / 8)
  else if o < 0x8000 then claimView s f ((o - 0x5000) / 4)
  else routeRead s f ((o - 0x8000) / 8)

/-- A bit of the sources of 64 fast slots that the reader configures (R366, R376). -/
def fastRead (s : State) (f : Fn) (q : Nat) (b : Src → Bool) : Nat :=
  maskBy 64 (fun k =>
    let y := s.fast (64 * q + k)
    y.valid && configures s f y.source && b (s.src y.source))

/-- Word j of MSI-X table entry n (R371, R373). -/
def msixRead (s : State) (f : Fn) (n j : Nat) : Nat :=
  let e : MsixEntry := tabGet {} (s.fnS f).msix n
  match j with
  | 0 => e.addr.toNat % 2 ^ 32
  | 1 => e.addr.toNat / 2 ^ 32
  | 2 => e.data.toNat
  | _ => b2n e.mask

/-- Pending bits of vectors 64 q to 64 q + 63. -/
def pbaRead (s : State) (f : Fn) (q : Nat) : Nat := maskBy 64 (fun k => (tabGet {} (s.fnS f).msix (64 * q + k)).pba)

/-- A register of the fast bank at offset o; only a physical function uses the fast class (R372, R376). -/
def fastBankRead (s : State) (f : Fn) (o : Nat) : Nat :=
  if 0x8000 ≤ o then msixRead s f ((o - 0x8000) / 16) (o % 16 / 4)
  else if 0x7F00 ≤ o then pbaRead s f ((o - 0x7F00) / 8)
  else match f with
    | .pf p =>
      if o = 0x0 then 0
      else if o = 0x8 then b2n (s.fnS f).slotBad * 4 + b2n (s.fnS f).fDoneBad * 2 + b2n (s.fnS f).fReadBad
      else if o < 0x120 then fastRead s f ((o - 0x100) / 8) (·.mask)
      else if o < 0x140 then fastRead s f ((o - 0x120) / 8) (·.mask)
      else if o < 0x160 then fastRead s f ((o - 0x140) / 8) (·.pending)
      else if o < 0x180 then fastRead s f ((o - 0x160) / 8) (·.pending)
      else if o < 0x1000 then
        let y := s.fast ((o - 0x800) / 8)
        if y.valid && y.by_ ≠ p then 0 else b2n y.valid * 2 ^ 63 + y.sense * 2 ^ 16 + y.source
      else routeRead s f (3840 + (o - 0x1000) / 8)
    | _ => 0

/-! ### Rennet, the Cave and translation (R224, R378, R403, R404, R457) -/

/-- SRC[x] (R404). -/
def srcRead (s : State) (x : Nat) : Nat :=
  if !srcExists x then 0
  else
    let r := s.rsrc x
    b2n r.status * 2 ^ 63 + b2n r.severe * 2 ^ 62 + b2n r.cause * 2 ^ 61 + b2n r.uncorr * 2 ^ 60 + srcScope x * 2 ^ 56 +
      r.count % 256 * 2 ^ 48 + r.window.getD (defaultWindow x) * 2 ^ 8 + r.thresh.getD (defaultThresh x)

/-- The 64 bytes of a log record (R402). -/
def logBytes (r : LogRec) : List Byte :=
  let body := natLe 4 r.seq ++ natLe 4 r.boot ++ natLe 8 r.time ++ natLe 2 r.source ++ natLe 1 r.reaction ++
    natLe 1 (b2n r.forced * 2 + b2n r.uncorr) ++ natLe 1 r.count ++ natLe 1 r.thresh ++ natLe 2 r.spare ++ natLe 36 0
  body ++ natLe 4 (crc32c body).toNat

/-- LOG_DATA[j]: eight bytes of the record in slot LOG_SEL, 0 where the slot holds none (R402, R403). -/
def logData (s : State) (j : Nat) : Nat :=
  match s.st.log.find? (fun r => (r.seq + 16383) % 16384 = s.st.logSel) with
  | some r => leNat (((logBytes r).drop (8 * j)).take 8)
  | none => 0

/-- A register of the Rennet block (R403, R404). -/
def rennetRead (s : State) (o : Nat) : Nat :=
  if o = 0x0 then b2n s.rn.rennetEvqValid * 2 ^ 28 + s.rn.rennetEvq * 2 ^ 16
  else if o = 0x8 then rennetState s
  else if o = 0x10 then b2n s.sp.turnEn * 2 ^ 8 + s.sp.turnPeriod
  else if o = 0x18 then turnState s
  else if o = 0x20 then supplyState s
  else if o = 0x28 then min 65535 s.st.logLost * 2 ^ 48 + min 16384 s.st.log.length * 2 ^ 32 + newestSeq s
  else if o = 0x30 then s.st.logSel
  else if o < 0x80 then logData s ((o - 0x40) / 8)
  else if o < 0x120 then spareReg s ((o - 0x100) / 8)
  else if o = 0x120 then spareDev s
  else if o < 0xA00 then maskBy 64 (fun k => (s.rsrc (64 * ((o - 0x800) / 8) + k)).status)
  else if o < 0xC00 then maskBy 64 (fun k => (s.rsrc (64 * ((o - 0xA00) / 8) + k)).severe)
  else srcRead s ((o - 0x8000) / 8)

/-- A register of the Cave block (R378, R457). -/
def caveRead (s : State) (o : Nat) : Nat :=
  if o = 0x0 then b2n s.cv.caveAlarmEn * 4 + b2n s.cv.caveSmbEn * 2 + b2n s.cv.caveWakeEn
  else if o = 0x8 then b2n s.cv.woke * 2 ^ 63 + s.cv.wakeKind * 2 ^ 8 + s.cv.wakeSlot
  else if o = 0x10 then s.cv.caveAlarm
  else if o = 0x18 then s.cv.caveTime % 2 ^ 48
  else if o = 0x20 then b2n s.tm.restDeep * 2 + b2n s.tm.restEnter
  else if o = 0x28 then s.tm.wakes * 2 ^ 8 + s.tm.refused
  else
    let w := tabGet (false, 0) s.cv.caveWatch ((o - 0x100) / 8)
    b2n w.1 * 2 ^ 63 + w.2

/-- PORT_XLATE_STATE[p] (R224). -/
def portXlate (s : State) (p : Nat) : Nat :=
  (s.xl.pageReqs.filter (fun r => r.pf = p)).length * 2 ^ 32 + (s.hc p).invals * 2 ^ 16 +
    (s.xl.atsReqs.filter (fun r => r.port = p)).length

/-- A register of the translation setup block; counts: the reader sees device-wide counters (R224, R427). -/
def xlateRead (s : State) (counts : Bool) (o : Nat) : Nat :=
  if o = 0x0 then 0
  else if o = 0x8 then
    s.sp.walkerSpares * 2 ^ 48 + min 64 s.xl.walks.length * 2 ^ 40 + (s.xl.xlats.filter (·.atc)).length
  else if o = 0x10 then s.xl.priTimeout
  else if o = 0x18 then maskBy 16 (s.xl.priStopped.contains ·) * 2 ^ 32 + s.xl.pageReqs.length
  else if !counts then 0
  else if o = 0x20 then s.xl.atcLookups.toNat
  else if o = 0x28 then s.xl.atcMisses.toNat
  else if o = 0x30 then s.xl.walkCount.toNat
  else if o = 0x38 then s.xl.pageReqCount.toNat
  else 0

/-! ### Wheels, virtual functions and ports (R273, R309, R329, R360, R441, R442) -/

/-- Whether f reads the registers of something that wheel w holds (R413, R427, R441). -/
def readsWheel (s : State) (f : Fn) (w : Nat) : Bool := isDevmgr s f || fnWheel s f = some w

/-- Sixteen 4-bit entries of a block map (R441). -/
def mapRead (f : Nat → Nat) (q : Nat) : Nat := (List.range 16).foldl (fun a k => a + f (16 * q + k) % 16 * 16 ^ k) 0

/-- VF_GRANT of virtual function i of the reading physical function (R441). -/
def grantRead (s : State) (f : Fn) (i : Nat) : Nat :=
  match f with
  | .pf p =>
    let g := s.fnS (.vf p i)
    g.grEvqs * 2 ^ 32 + g.grHoops * 2 ^ 16 + g.grVats
  | _ => 0

/-- A register of wheel w (R441). -/
def wheelReg (s : State) (f : Fn) (w r : Nat) : Nat :=
  let x := s.wheel w
  if !readsWheel s f w then 0
  else if r = 0x0 then wheelState s w
  else if r = 0x8 then wheelRes s w
  else if r = 0x10 then wheelCfg s w
  else if r = 0x18 then b2n x.yieldValid * 2 ^ 12 + x.yieldEvq
  else if isVf f then 0
  else if r = 0x20 then x.bytes.toNat
  else if r = 0x28 then x.entries.toNat
  else 0

/-- A register of the wheel setup block (R441). -/
def wheelRead (s : State) (f : Fn) (o : Nat) : Nat :=
  if o = 0x0 then maskBy 16 (fun w => (s.wheel w).present) * 2 ^ 16 + b2n s.wh.bindBusy * 16 + s.wh.devmgr.getD 0
  else if o = 0x8 then (if isDevmgr s f then s.pin.windows.toNat * 2 ^ 16 + s.pin.watts % 65536 else 0)
  else if o < 0x500 then wheelReg s f ((o - 0x100) / 0x40) (o % 0x40)
  else if o < 0x680 then mapRead (fun b => tabGet 0 s.wh.vatBlock b) ((o - 0x600) / 8)
  else if o < 0x700 then mapRead (fun b => tabGet 0 s.wh.evqBlock b) ((o - 0x680) / 8)
  else grantRead s f ((o - 0x1000) / 8)

/-- A counter of a virtual function, at the granularity of R427: bytes rounded down to 4,096, and each as it stood at the last
whole millisecond. -/
def vfCounter (s : State) (f : Fn) (r : Nat) : Nat :=
  let x := s.fnS f
  if r = 0x0 then x.snapRd.toNat / 4096 * 4096
  else if r = 0x8 then x.snapWr.toNat / 4096 * 4096
  else if r = 0x10 then x.snapEntries.toNat
  else 0

/-- HC_STATE[p] (R279, R309): WAVES_ON follows the width; the Link IDE stream is stream 0. -/
def hcState (x : HcPort) : Nat :=
  let ide : IdeStream := tabGet {} x.ide 0
  b2n x.linkUp * 2 ^ 63 + b2n x.cxl * 2 ^ 62 + b2n (x.linkUp && ide.going.isSome && !ide.insecure) * 2 ^ 61 +
    x.width / 2 * 2 ^ 52 + x.rate * 2 ^ 48 + x.width * 2 ^ 43 + x.numVfs * 2 ^ 12

/-- A register of host-class port p (R309). -/
def hcReg (s : State) (p k : Nat) : Nat :=
  let x := s.hc p
  if k = 0x00 then b2n x.rateCap * 8 + b2n x.cxlEn * 4 + b2n x.far * 2 + b2n x.linkEn
  else if k = 0x08 then hcState x
  else if k = 0x10 then x.err.toNat
  else if k = 0x18 then x.cohWin.toNat
  else if k = 0x20 then x.hdm0.toNat
  else if k = 0x28 then x.hdm1.toNat
  else if k = 0x30 then b2n x.ready * 2 ^ 63 + b2n x.encKey * 2 ^ 62 + x.capacity
  else if 0x40 ≤ k then maskBy 64 (fun j => x.vfFlrReq.contains (8 * (k - 0x40) + j))
  else 0

/-- A register of the host-port block (R309, R427). -/
def hcRead (s : State) (f : Fn) (o : Nat) : Nat :=
  if o = 0x1000 then b2n s.lk.buLinkUp * 2 ^ 63 + s.lk.buRate * 2 ^ 48 + s.lk.buWidth * 2 ^ 43
  else if o = 0x1008 then (2048 - s.lk.vfFree) * 2 ^ 16 + s.lk.vfFree
  else if readsWheel s f (hcWheelOf s (o / 0x100)) then hcReg s (o / 0x100) (o % 0x100)
  else 0

/-- PEER_PORT_STATE[p]; its counters are device-wide registers of R427 (R273). -/
def peerState (s : State) (f : Fn) (p : Nat) : Nat :=
  let x := s.peerP p
  (if readsWheel s f (peerWheelOf s p) then b2n x.up * 2 ^ 63 + x.farNode * 2 ^ 48 else 0) +
    (if isDevmgr s f then min 65535 x.badType * 2 ^ 32 + x.forwarded.toNat else 0)

/-- A register of the peer block (R273). -/
def peerRead (s : State) (f : Fn) (o : Nat) : Nat :=
  if o = 0x0 then b2n s.pr.nodeValid * 2 ^ 63 + s.pr.nodeId
  else if o = 0x8 then s.pr.progress * 16 + s.pr.reqTimeout
  else if o < 0x200 then wheelFdom s ((o - 0x100) / 8)
  else if o < 0x400 then peerState s f ((o - 0x200) / 8)
  else if o < 0x800 then
    let x := s.exp ((o - 0x400) / 16)
    if o % 16 = 0 then x.q0.toNat else x.wheel
  else if o < 0x2000 then
    let x := s.coll ((o - 0x800) / 16)
    if o % 16 = 0 then x.q0.toNat % 2 ^ 62 + b2n (x.q0.getLsbD 63) * 2 ^ 63 + b2n x.ready * 2 ^ 62 else x.inst % 2 ^ 30
  else
    let x := s.route ((o - 0x2000) / 8)
    b2n x.lost * 2 ^ 63 + x.links * 2 ^ 16 + x.mask.toNat

/-- A register of Acdoic port q (R329). -/
def acdReg (s : State) (q k : Nat) : Nat :=
  let x := s.acd q
  if k = 0x00 then b2n x.retrain * 2 + b2n x.linkEn
  else if k = 0x08 then
    b2n x.up * 2 ^ 63 + b2n x.safe * 2 ^ 62 + b2n x.paramsValid * 2 ^ 61 + (bitsSet 16 x.modules.toNat).length * 2 ^ 56 +
      x.modules.toNat
  else if k = 0x10 then x.err.toNat
  else if k = 0x18 then (if x.paramsValid then x.stackLog2 * 2 ^ 32 + x.stackCount * 2 ^ 24 else 0)
  else if k = 0x20 then
    (if x.paramsValid then x.onchip * 2 ^ 32 + x.splitMask.toNat * 2 ^ 24 + x.defSplit * 2 ^ 16 + x.maxThreads else 0)
  else if k = 0x28 then (List.range 8).foldl (fun a i => a + tabGet 0xFF x.rates i * 256 ^ i) 0
  else if k = 0x30 then (List.range 16).foldl (fun a m => a + tabGet 0 x.repaired m % 16 * 16 ^ m) 0
  else if k = 0x38 then
    x.launches.length * 2 ^ 32 + (s.lk.reqs.filter (fun r => r.tgt = .acd q && r.sent)).length
  else 0

/-- A register of the Acdoic block (R329, R427). -/
def acdRead (s : State) (f : Fn) (o : Nat) : Nat :=
  if readsWheel s f (acdWheelOf s (o / 0x100)) then acdReg s (o / 0x100) (o % 0x100) else 0

/-- RSH_MAP of fibre index i of port n (R360). -/
def rshMap (s : State) (n i : Nat) : Nat :=
  let m : FibreMap := tabGet {} (s.rsh n).maps i
  if n < 16 && 2 ≤ i then 0
  else b2n m.spareOk * 2 ^ 36 + m.spare * 2 ^ 32 + (List.range 8).foldl (fun a l => a + laneCh m l * 16 ^ l) 0

/-- A register of Rosham port n (R360). -/
def rshReg (s : State) (f : Fn) (n k : Nat) : Nat :=
  let x := s.rsh n
  if k = 0x00 then b2n (rshEn s n)
  else if k = 0x08 then
    b2n x.trained * 2 ^ 63 + b2n (s.st.calValid.contains n) * 2 ^ 62 + b2n x.calibrating * 2 ^ 61 +
      min (lanesUp s n 0) (lanesUp s n 1) * 2 ^ 16
  else if k = 0x10 then x.err.toNat
  else if k = 0x18 then (if isDevmgr s f then x.fecCorr.toNat * 2 ^ 32 + x.fecUncorr.toNat else 0)
  else if k < 0x40 then rshMap s n ((k - 0x20) / 8)
  else 0

/-- A register of the Rosham block (R360, R427). -/
def rshRead (s : State) (f : Fn) (o : Nat) : Nat :=
  let n := o / 0x100
  if o = 0x2000 then maskBy 8 (fun k => !laserIdle s k) * 2 ^ 8 + s.lk.laserIn.toNat
  else if o = 0x2008 then (List.range 6).foldl (fun a g => a + laserOf s g % 8 * 8 ^ g) 0
  else if readsWheel s f (if n < 16 then hcWheelOf s n else peerWheelOf s (n - 16)) then rshReg s f n (o % 0x100)
  else 0

/-! ### Reads (R462 to R464, R470 to R473) -/

/-- The register at offset b of the layout of R462, as function f reads it; only the device manager and the bring-up function
read Rennet (R427). -/
def pfRead (s : State) (f : Fn) (b : Nat) : Nat :=
  if b < 0x1000 then identRead s f b
  else if b < 0x10000 then capRead s f (b - 0x1000)
  else if b < 0x20000 then (adminOf f).elim 0 (fun a => adminRead (s.admin a) (b - 0x10000))
  else if b < 0x30000 then normalRead s f (b - 0x20000)
  else if b < 0x40000 then fastBankRead s f (b - 0x30000)
  else if b < 0x50000 then (if isDevmgr s f then rennetRead s (b - 0x40000) else 0)
  else if b < 0x60000 then caveRead s (b - 0x50000)
  else if b < 0x60100 then xlateRead s (isDevmgr s f) (b - 0x60000)
  else if b < 0x70000 then
    (if readsWheel s f (hcWheelOf s ((b - 0x60100) / 8)) then portXlate s ((b - 0x60100) / 8) else 0)
  else if b < 0x72000 then wheelRead s f (b - 0x70000)
  else if b < 0x76000 then
    match f with
    | .pf p => vfCounter s (.vf p ((b - 0x72000) / 0x20)) (b % 0x20)
    | _ => 0
  else if b < 0x88000 then hcRead s f (b - 0x80000)
  else if b < 0xA0000 then peerRead s f (b - 0x88000)
  else if b < 0xB0000 then acdRead s f (b - 0xA0000)
  else if b < 0x1000000 then rshRead s f (b - 0xB0000)
  else pageRead (s.hoop ((b - 0x1000000) / 0x1000)) (b % 0x1000)

/-- The register at offset b of VF BAR0 (R377, R464). -/
def vfRead (s : State) (f : Fn) (b : Nat) : Nat :=
  if b < 0x1000 then identRead s f b
  else if b < 0x4000 then capRead s f (b - 0x1000)
  else if b = 0x4000 then 0
  else if b = 0x4008 then b2n (s.fnS f).doneBad * 2 + b2n (s.fnS f).readBad
  else if b < 0x4020 then bankBits s f 0 (·.mask)
  else if b < 0x4030 then bankBits s f 0 (·.pending)
  else if b = 0x4030 then senseRead s f 0
  else if b < 0x4200 then claimView s f ((b - 0x4100) / 4)
  else if b < 0x4400 then pbaRead s f 0
  else if b < 0x5000 then msixRead s f ((b - 0x4400) / 16) (b % 16 / 4)
  else if b < 0x8000 then routeRead s f ((b - 0x5000) / 8)
  else if b < 0x8020 then vfCounter s f (b - 0x8000)
  else if b < 0xC800 then routeRead s f ((b - 0x5000) / 8)
  else if b < 0xC820 then routeRead s f (1536 + (b - 0xC800) / 8)
  else match (hoopsOf s f).find? (fun h => (s.hoop h).vfSlot = (b - 0x10000) / 0x1000) with
    | some h => pageRead (s.hoop h) (b % 0x1000)
    | none => 0

/-- The value of the register at offset b of function f's BAR0 (R462, R464). -/
def regRead (s : State) (f : Fn) (b : Nat) : Nat := if isVf f then vfRead s f b else pfRead s f b

/-- Whether a read touches a page outside the reader's wheel; the device manager reads every hoop's registers (R413, R427). -/
def readForeign (s : State) (f : Fn) (off n : Nat) : Bool := hitsForeign s f off n && !isDevmgr s f

/-- Whether a byte offset holds a CLAIM register (R375, R377). -/
def isClaim (f : Fn) (o : Nat) : Bool := if isVf f then 0x4100 ≤ o && o < 0x4140 else 0x25000 ≤ o && o < 0x27000

/-- One byte of a read; in a register that the read covers only in part, a CLAIM register shows its spurious value (R472). -/
def byteOfRead (s : State) (f : Fn) (l : List Nat) (o : Nat) : Byte :=
  match regAt f o with
  | none => 0
  | some r =>
    BitVec.ofNat 8 ((if isClaim f o && !wholeReg l r then 0xFFFFFFFF else regRead s f r.1) / 256 ^ (o - r.1))

/-- What a read of BAR0 with byte enables returns: none is an Unsupported Request; a byte not enabled is none (R470 to R473). -/
def barRead (s : State) (f : Fn) (off : Nat) (en : List Bool) : Option (List (Option Byte)) :=
  let l := ((List.range en.length).filter (fun i => en.getD i false)).map (off + ·)
  let rs := touched f l
  let partly := rs.filter (fun r => !wholeReg l r)
  let crossing := !partly.isEmpty && !(rs.length = 1 && l.all (fun o => (regAt f o).isSome))
  if (s.fnS f).dstate3 || readForeign s f off en.length || crossing then none
  else some ((List.range en.length).map (fun i => if en.getD i false then some (byteOfRead s f l (off + i)) else none))

/-- A read of BAR0 on the block: one that completes as Unsupported Request is recorded in the port's AER, one of an Insecure
stream is discarded, and any other changes nothing (R287, R291, R471). The opcode table has no row for it (log entry 142). -/
def registerRead (f : Fn) (off : Nat) (en : List Bool) (s : State) : State :=
  fromHost f (fun s => if (barRead s f off en).isNone then bar2Reject f s else s) s

end Sys2Proof.Machine
end

