-- ==== Sys2Proof/WellFormed.lean ====
section
/-! DEFINITION. Which commands are well formed: every number names an object that the Hivik has. -/

namespace Sys2Proof

/-- A function that the Hivik has (R281: 16 physical functions, 512 virtual functions each, the bring-up function). -/
def fnOk : Fn → Bool
  | .pf p => p < 16
  | .vf p i => p < 16 && i < 512
  | .bu => true

/-- A ring that the Hivik has (R11, R84). -/
def ringOk : Ring → Bool
  | .data h => h < 16384
  | .admin a => a < 17

/-- An issuer of QUERY_CAPS or RESYNC (R83). -/
def issuerOk : Issuer → Bool
  | .admin a => a < 17
  | .entry h _ => h < 16384

/-- A PASID has 20 bits (R220). -/
def pasidOk : Option Nat → Bool
  | none => true
  | some x => x < 1048576

/-- A packet whose fields fit the header of R253 and whose payload has at most 4,096 bytes. -/
def pktOk (k : Pkt) : Bool :=
  k.tc < 4 && k.hops < 8 && k.dst < 8192 && k.src < 8192 && k.fdom < 4096 && k.tag < 8192 && k.len ≤ 4096 &&
    k.atop < 32 && k.reason < 128 && k.offset < 2 ^ 38 && k.payload.length ≤ 4096

/-- A unit that the Hivik has (R388, R390). -/
def unitOk : Unit_ → Bool
  | .ladle q k => q < 4 && k < 9
  | .engine q k => q < 4 && k < 5
  | .cell c => c < 2048
  | .walker k => k < 72
  | .affineur => true
  | .security => true
  | .hcPort p => p < 16
  | .peerPort p => p < 16
  | .acdPort q => q < 4

/-- A channel that the Hivik has (R432). -/
def chOk : SpdmCh → Bool
  | .doe p => p < 16
  | .peer p => p < 16
  | .bu => true
  | .mctp => true

/-- A vector that some function has (R373). -/
def msixOk : MsixCtl → Bool
  | .vecMask v _ => v < 2048
  | .enable _ => true
  | .funcMask _ => true

/-- Kinds of unit that turning tests (R394): those that R396 codes but the router, which turning never tests, and the model's
own 8 to 11. -/
def turnKindOk (k : Nat) : Bool := 1 ≤ k && k ≤ 11 && k != 5

/-- A routing ID or address block has its first value at or below its last. -/
def blockOk (n : Nat) : Option (Nat × Nat) → Bool
  | none => true
  | some r => r.1 ≤ r.2 && r.2 < n

/-- Values that a configuration write can carry: payload sizes up to 512 bytes (R286), Selective streams (R289). -/
def cfgOk : CfgOp → Bool
  | .read _ => true
  | .pmeEnable _ => true
  | .priReset => true
  | .priAllocation n => n < 2 ^ 32
  | .relaxedOrdering _ => true
  | .maxPayload n => n == 128 || n == 256 || n == 512
  | .ideRid k r => 1 ≤ k && k ≤ 4 && blockOk (2 ^ 16) r
  | .ideAddr k r => 1 ≤ k && k ≤ 4 && blockOk (2 ^ 64) r

/-- Whether a command is well formed. -/
def Instr.wellFormed (i : Instr) : Bool :=
  match i with
  | .copy h _ j | .fill h _ j | .gather h _ j | .scatter h _ j | .transform h _ j | .reduce h _ j
    | .accumulate h _ j | .resolve h _ j | .atomic h _ j | .prefetch h _ j | .advise h _ j
    | .segmentDone h _ j _ => h < 16384 && j < 64
  | .fenceSignal h _ | .fenceWait h _ | .launch h _ | .invalidate h _ | .nop h _ | .headPublishTimer h
    | .hoopResume h => h < 16384
  | .createHoop a | .createEventHoop a | .destroyHoop a | .destroyEventHoop a | .disableHoop a | .createVat a
    | .destroyVat a | .loadRecipe a | .unloadRecipe a | .createWheel a | .deleteWheel a | .bindMove a
    | .bindVats a | .bindEvqs a | .bindShare a | .vfGrant a | .funcReset a | .wheelReset a | .freeze a
    | .saveState a | .restoreState a | .thaw a | .calibrate a | .selftest a | .keySessionOpen a
    | .keySessionStep a | .keySessionClose a | .fwUpdate a _ | .fwActivate a | .adminCommandComplete a => a < 17
  | .queryCaps w | .resync w => issuerOk w
  | .doorbell f n _ | .hoopEnable f n => fnOk f && n < 16384
  | .push f n slot words => fnOk f && n < 16384 && slot < 4 && words.length == 8
  | .adminDoorbell f _ | .freezeTimeout f | .xlateFlush f | .restEnter f | .deepRestEnter f | .intDone f _
    | .fastDone f _ | .vfIntDone f _ | .adminEnable f | .adminDisable f | .devmgrWrite f _ => fnOk f
  | .ringFetch r count => ringOk r && 1 ≤ count && count ≤ 16
  | .ownReread r | .entryStart r _ => ringOk r
  | .vatTeardownComplete v | .vatLoad v | .vatSlotExpiry v | .walkComplete v _ _ => v < 65536
  | .watcherReread w | .watcherPoll w => w < 2048
  | .hoopEnginePoll _ | .reqTimeout _ | .journalRetry _ | .lsrFlt | .refclkLoss _
    | .logRecordWrite _ | .mramWriteWaitTimeout | .turnTestDone _ | .logicRailLow | .photRailLow | .rail18Low
    | .railRestored _ | .coreRailLoss | .cavePowerLoss | .thermTrip | .coldStart | .warmReset | .buReset
    | .portConfigCommit | .vatStoreRemirror | .restWake _ | .wakenAssert | .caveAlarmMatch | .deepRestWake _
    | .coreRailsReady | .timeRealign | .powerWindow _ | .energyWindow _ _ | .drbgReseed | .migSessionExpiry _
    | .reservationTimeout _ _ | .ntLineTimeout _ | .affReservedLoad _ | .barLd | .barSt | .barFull
    | .restEntryComplete | .refclkRestored _ | .thermTripCleared | .buLinkDown | .jtagAccess _ => true
  | .translationCompletion p _ _ | .hostLinkTrained p _ _ | .hostLinkDown p | .hotReset p
    | .pfFlr p | .vfEnableClear p | .busMasterEnable p | .pmcsrDState p _ | .ideKmQuery p | .snpData p _
    | .snpInv p _ | .snpCur p _ | .goWritePull p _ | .goWritePullDrop p _ | .biRsp p _ _ | .biSnpTimeout p _
    | .farLinkUp p _ | .farMediaReady p _ | .farResponse p _ _ | .farTimeout p _ | .farLinkDown p
    | .frameReplayTimeout p | .replayStuck p | .peerKeyRenewal p | .peerLinkDown p | .hostTeardownComplete p => p < 16
  | .pageRequestResponse pf index _ | .priTimeout pf index | .prgIndexFree pf index => pf < 16 && index < 512
  | .invalidateRequest p itag rf pasid addr len => p < 16 && itag < 32 && fnOk rf && pasidOk pasid && addr < 2 ^ 64 && len ≥ 1
  | .invalidateCompletion p itag => p < 16 && itag < 32
  | .hostCompletion p tag _ => p < 17 && tag < 16384
  | .completionTimeout p _ => p < 17
  | .bar2Read f off len => fnOk f && off < 2 ^ 27 && len ≥ 1
  | .bar2Write f off _ _ => fnOk f && off < 2 ^ 27
  | .configRequest r => r.p < 17 && r.n ≤ 512 && cfgOk r.op
  | .bar2AtomicOp f at_ op width _ _ => fnOk f && at_.off % width == 0 && (width == 4 || width == 8 || (width == 16 && op == BarAtomic.cas))
  | .vfFlr p v => p < 16 && v < 512
  | .vfEnableSet p n => p < 16 && n ≤ 512
  | .l0pRequest p width => p < 16 && width ≤ 16
  | .ideKmKeyProg p stream ks | .ideKmKSetGo p stream ks
    | .ideKmKSetStop p stream ks => p < 16 && stream < 5 && ks < 2
  | .ideCheckFailed p stream => p < 16 && stream < 5
  | .getMeasurements ch index => chOk ch && index < 256
  | .keyExchange ch _ | .spdmRequest ch _ => chOk ch
  | .cacheFillGo p _ _ data => p < 16 && data.length == 64
  | .hdmRequest p win _ _ => p < 16 && win < 2
  | .dieParams q _ _ _ | .acdTrainTimeout q | .acdFlit q _ | .acdReplayTimeout q | .acdRdData q _ _
    | .acdWrAck q _ | .atData q _ | .condAck q _ _ | .err q _ _ _ | .accept q _ _ | .complete q _ _
    | .fenceHint q _ | .claim q _ _ _ | .launchResend q _ | .noAccept q _ | .launchThermalTimeout q _
    | .acdRequestRelease q _ | .holdBeacon q | .holdTimeout q | .holdSpaceDrain q | .journalRecordExpiry q _ => q < 4
  | .acdLaneFailure q m _ | .acdModuleRejoin q m => q < 4 && m < 16
  | .thermal q stack rate => q < 4 && stack < 8 && rate < 256
  | .fault q scope _ _ stack => q < 4 && scope < 4 && stack < 16
  | .rdReq p k | .rdData p k | .wr p k | .wrAck p k | .atReq p k | .atResp p k | .nak p k | .hold p k
    | .stepDone p k | .outcome p k | .join p k => p < 16 && pktOk k
  | .progressTimeout g | .joinAcknowledged g => g < 256
  | .peerFrame p f => p < 16 && f.credTc < 4 && f.credHop < 5
  | .peerSessionEstablished p node _ => p < 16 && node < 8192
  | .portCalibrationDone n _ _ => n < 32
  | .roshamTrained x => x.n < 32 && (16 ≤ x.n || x.x ≠ .rx01)
  | .swap fb lane spare => fb < 96 && lane < 8 && spare < 9
  | .mark fb lane | .done fb lane => fb < 96 && lane < 8
  | .laserInputFault k | .laserInputRestored k => k < 8
  | .mctpMessage m => (match m with | .sensor i => i < 60 | .power => true | .spdm _ => true)
  | .sourceEvent src ev _ => src < 4096 && (ev.lost.isEmpty || (0x100 ≤ src && src < 0x900)) && ev.lost.all (· < 1024)
  | .windowExpiry src => src < 4096
  | .writeGateClosed u => unitOk u
  | .turnDue kind q => turnKindOk kind && q < 4
  | .buLinkTrained rate width => 1 ≤ rate && rate ≤ 6 && (width == 1 || width == 2 || width == 4)
  | .coalesceTimeout e | .msixMessageSend e => e < 4096
  | .msixUnmask f m => fnOk f && msixOk m
  | .claimRead f v => fnOk f && v < 2048
  | .maskSet f q _ | .maskClr f q _ | .pendSet f q _ | .pendClr f q _ => fnOk f && q < 322
  | .evqRouteWrite f e _ => fnOk f && e < 4096
  | .fastSrcWrite f k _ => fnOk f && k < 256
  | .srcStatusClear f src | .srcForce f src => fnOk f && src < 4096
  | .hcLinkEnable f p | .hcLinkDisable f p | .peerPortEnable f p | .peerPortDisable f p => fnOk f && p < 16
  | .acdLinkEnable f q | .acdLinkDisable f q | .retrain f q => fnOk f && q < 4
  | .collGroupEnable f g _ | .collGroupDisable f g => fnOk f && g < 256
  | .routeWrite f n _ => fnOk f && n < 8192
  | .hdmWinWrite f p k _ => fnOk f && p < 16 && k < 2
  | .registerWrite f _ data _ => fnOk f && data.length ≥ 1
  | .affLoad _ len => len ≥ 1
  | .affStore _ data | .affNtStore _ data => data.length ≥ 1
  | .affConditionalStore _ off data => off % 64 + data.length ≤ 64 && off < 128 && 1 ≤ data.length && data.length ≤ 8

end Sys2Proof
end

