-- ==== Sys2Proof/Tests/Slice0.lean ====
section
/-! SUPPORT. Tests of single commands, the well-formedness smoke, and a witness of the hypotheses of each statement. -/

namespace Sys2Proof.Tests

open Sys2Proof Sys2Proof.Machine

set_option Elab.async false

/-- A running device: host port 0 and the bring-up link up, Acdoic port 0 up with 8 stacks, peer port 0 up. -/
def dev : State :=
  { State.reset with
    tm.boot := .running
    lk.hc := [(0, { linkEn := true, linkUp := true, width := 16, rate := 7, busMaster := true }), (1, { far := true, modeAct := true, linkEn := true })]
    lk.acd := [(0, { linkEn := true, up := true, paramsValid := true, modules := 0xFFFF, stackLog2 := 34, stackCount := 8 })]
    lk.peer := [(0, { en := true, up := true, keyHeld := true, farNode := 9 })]
    lk.buLinkUp := true
    lk.laserIn := 0xFF
    pr.nodeValid := true, pr.nodeId := 5 }

/-- Scratchpad address of offset o. -/
def spad (o : Nat) : Nat := 0x00F0000000000000 + o

/-- A started entry of opcode op with one segment, from scratchpad offset 0 to offset 0x1000. -/
def ent (op : Nat) (subop : Nat := 0) (flags : Nat := 0) (len : Nat := 8) (rows : Nat := 0) : Entry :=
  { control := BitVec.ofNat 64 (op + flags * 2 ^ 10 + 2 ^ 16 + subop * 2 ^ 32), phase := .started, begun := true, segs := [.todo], segDone := [0]
    src := 0x00F0000000000000, dst := 0x00F0000000001000, lenStride := BitVec.ofNat 64 (len + rows * 2 ^ 40), slices := [0] }

/-- Hoop 0 of physical function 0 and vat 1 runs entry e. -/
def onHoop (e : Entry) (s : State) : State :=
  s |> modVat 1 (fun _ => { st := .resident, fn := .pf 0, slot := some 0 })
    |> modHoop 0 (fun _ => { present := true, fn := .pf 0, vat := 1, log2 := 4, enabled := true, idle := false, tail := 1, entries := [e] })

/-- Physical function 0's admin hoop runs an entry of opcode op whose block stands at host address 0x1000. -/
def adm (op subop flags vat : Nat) (q : List Nat) (s : State) (g : Entry → Entry := fun e => e) : State :=
  let e : Entry := { control := BitVec.ofNat 64 (op + flags * 2 ^ 10 + vat * 2 ^ 16 + subop * 2 ^ 32), src := 0x1000, phase := .started
                     lenStride := BitVec.ofNat 64 (8 * q.length), dst := 0x8000, operand := 0x10000 }
  s |> modAdmin 0 (fun _ => { base := 0x10000, log2 := 4, enable := true, running := true, idle := false, tail := 1, entries := [g e] })
    |> writeBytes (hostLoc 0 0x1000) (q.flatMap (natLe 8))

/-- The entry that an admin hoop runs. -/
def admEnt (s : State) : Entry := (adminCur s 0).getD {}

/-- One node record of a recipe image. -/
def node (op fa fo in0 in1 cnt arg psel o0 : Nat) : List Byte :=
  natLe 4 (op + fa * 256 + fo * 65536) ++ natLe 4 (in0 + in1 * 65536) ++ natLe 4 0 ++ natLe 4 (cnt + arg * 65536) ++ natLe 8 0 ++
    natLe 4 (psel + o0 * 256 + 0xFF0000) ++ natLe 4 0

/-- A recipe image of one node for opcode op; den 32 bytes in, num bytes out. -/
def image (op num accKind : Nat) (n : List Byte) : List Byte :=
  let outs := if num = 0 then [] else natLe 8 num
  natLe 4 0x43554C54 ++ natLe 4 0x00400001 ++ natLe 4 (96 + outs.length) ++ natLe 4 (65536 + op) ++ natLe 4 32 ++
    natLe 4 (32 * 65536 + num) ++ natLe 4 (accKind * 1024 + outs.length / 8) ++ natLe 4 0 ++ natLe 32 0 ++ outs ++ n

/-- A TRANSFORM that inverts nothing: XOR of each block with zero. -/
def imgT : List Byte := image 5 32 0 (node 0x15 0x14 0x14 0x8000 0 0 0 0xFF 0)
def imgR : List Byte := image 6 32 0 (node 0x39 0x02 0x02 0x8000 0 1 0 0xFF 0)
def imgA : List Byte := image 7 0 1 (node 0x38 0x15 0x15 0x8000 0 0 0 0xFF 0xFF)

/-- The device with a recipe loaded under handle 2 on cell 0 of slice 0. -/
def withRecipe (img : List Byte) (s : State) : State :=
  { s with wk.recipes := [{ fn := .pf 0, handle := 2, image := img, replicas := [{ slices := [0], cells := [0] }] }] }

/-- Vat 1 maps page 0 to device address 0x5000 through tables at 0, 0x1000, ... 0x4000, and its translation is cached; the
far tier behind port 1 is ready. -/
def mapped (s : State) : State :=
  let t := s |> modVat 1 (fun v => { v with rootValid := true, root := 0 })
    |> writeBytes 0 (natLe 8 0x1001) |> writeBytes 0x1000 (natLe 8 0x2001) |> writeBytes 0x2000 (natLe 8 0x3001)
    |> writeBytes 0x3000 (natLe 8 0x4001) |> writeBytes 0x4000 (natLe 8 0x501F)
    |> modHc 1 (fun x => { x with linkUp := true, ready := true, capacity := 16 })
  { t with xl.xlats := [{ vat := 1, page := 0, size := 4096, pa := 0x5000, rd := true, wr := true, at_ := true, slices := [0, 32] }] }

/-- The block of the admin entry. -/
def blk (s : State) : List W64 := adminBlock s 0 (admEnt s)

/-- Physical function 0's admin hoop runs the entry of opcode op, its block readable. -/
abbrev got (s : State) (op : Nat) : Prop :=
  adminEntry s 0 op = some (admEnt s) ∧ (noBlock op = true ∨ inputOk s 0 (admEnt s).src.toNat (admEnt s).length = true)

theorem got_is (s : State) (op : Nat) (h : got s op) : AdminGot s 0 op (admEnt s) (blk s) := ⟨h.1, h.2, rfl⟩

/-- The admin hoop's command in progress is work of a kind. -/
def cur (k : AdminKind) (s : State) : State :=
  modAdmin 0 (fun x => { x with cur := some { idx := 0, kind := k, status := .ok, doneBytes := 0, ports := [], dst := 0 } }) s

/-- Virtual function 0 of physical function 0 is granted and in a state. -/
def vf0 (x : VfState) (s : State) : State := modFnS (.vf 0 0) (fun f => { f with granted := true, vfState := x, grVats := 4, grHoops := 4, grEvqs := 4 }) s

/-- One request stands toward a target with tag 3. -/
def asked (r : Req) (s : State) : State := { s with lk.reqs := [{ r with tag := 3 }] }

theorem witness_EveryStepKeepsTheMemoryForm :
    Memory.wf (writeBytes 5 [1, 2] dev).m.mem = true ∧ (dev.pending = []) ∧
    (match step { dev with pending := [.barLd] } with | .next _ => true | _ => false) = true ∧ dev.tm.timeKnown = true ∧
    ({ dev with tm.timeKnown := false }).tm.timeKnown = false := by
  decide +kernel

theorem witness_EveryCommandKeepsWhatItsFootprintLeavesOut :
    (match exec .barLd dev with | .next _ => true | _ => false) = true ∧ Area.memory ∉ Instr.barLd.touches := by
  decide +kernel

theorem witness_StoresLandAtTheirHome :
    cellOut dev (2 ^ 52) = false ∧
    cellOut { dev with sp.spareQs := [(0, { cellsOut := [0] })] } (2 ^ 52) = true := by
  decide +kernel

/-- What a segment's gate gives. -/
def gateParts (s : State) (h : Nat) (i : W32) (j : Nat) (e : Entry) : List Part :=
  match gateSeg (.seg h i j) (s.hoop h).vat (segAccesses s h e j) s with
  | (.go ps, _) => ps
  | _ => []

/-- Whether a data movement succeeds. -/
def moved : Moved → Bool
  | .ok _ => true
  | .fail _ _ _ => false

/-- The state in which hoop 0's first segment of entry e leaves its gate. -/
def gated (s : State) (e : Entry) : State := (gateSeg (.seg 0 0 0) (s.hoop 0).vat (segAccesses s 0 e 0) s).2

/-- Hoop 0's first segment of entry e goes, with its opcode. -/
abbrev goes (s : State) (e : Entry) (op : Nat) : Prop := SegGoes s 0 0 0 op e (gateParts s 0 0 0 e) (gated s e)

/-- The state in which hoop 0's first segment of entry e moves. -/
abbrev goesOn (s : State) (e : Entry) : State := segState (gated s e) 0 0 0

theorem witness_MovesComplete :
    goes (onHoop (ent 1) dev) (ent 1) 1 ∧ goes (onHoop (ent 2) dev) (ent 2) 2 ∧
    (let e := { ent 3 0 0 8 4 with idxRead := [0, 2] }; goes (onHoop e dev) e 3) ∧
    (let e := { ent 4 0 0 8 4 with idxRead := [0, 2] }
     goes (onHoop e dev) e 4 ∧ scatterTurn (onHoop e dev) 0 0 0 = true ∧ moved (moveScatter 0 0 e (goesOn (onHoop e dev) e)) = true) := by
  decide +kernel

theorem witness_RecipeCommandsComplete :
    (let e := ent 5 2 0 32; let s := withRecipe imgT (onHoop e dev); goes s e 5 ∧ segReplicas (goesOn s e) 0 e 0 ≠ []) ∧
    (let e := { ent 6 2 0 32 2 with opsRead := [0x00F0000000000000, 0x00F0000000000040] }
     let s := withRecipe imgR (onHoop e dev); goes s e 6 ∧ segReplicas (goesOn s e) 0 e 0 ≠ []) ∧
    (let e := ent 7 2 0 32; let s := withRecipe imgA (onHoop e dev)
     goes s e 7 ∧ moved (moveAcc 0 0 0 e (goesOn s e)) = true) ∧
    (let e := ent 8 2 0 8; goes (onHoop e dev) e 8) := by
  decide +kernel

theorem witness_AtomicsAndFencesComplete :
    goes (onHoop (ent 9) dev) (ent 9) 9 ∧
    (let s := onHoop (ent 10) dev; goes s (ent 10) 10 ∧ lookup (goesOn s (ent 10)) ((goesOn s (ent 10)).hoop 0).vat (ent 10).dst.toNat .atomic = .ok (2 ^ 52 + 0x1000) ∧
      ∀ n, homeOf (2 ^ 52 + 0x1000) ≠ .peer n) ∧
    (let s := onHoop (ent 11) dev
     segLive s 0 0 0 = some (ent 11, .todo) ∧ (ent 11).opcode = 0x0B ∧ waitArmed s 0 0 = false) := by
  refine ⟨by decide +kernel, ⟨by decide +kernel, by decide +kernel, fun n => ?_⟩, by decide +kernel⟩
  rw [show homeOf (2 ^ 52 + 0x1000) = .slice 0 by decide +kernel]; exact nofun

theorem witness_OtherDataCommandsComplete :
    (let e := { ent 12 0 0 4096 with src := 0, operand := 0x00F0000000002000, pages := [0x6000] }; let s := mapped (onHoop e dev)
     goes s e 0x0C ∧ gateParts s 0 0 0 e ≠ [] ∧ moved (moveTier 0 0 e (goesOn s e)) = true) ∧
    (let e := { ent 13 2 0 4096 with src := 0, operand := 0x00F0000000002000, pages := [0x1040000000000] }
     let s := mapped (onHoop e dev)
     goes s e 0x0D ∧ gateParts s 0 0 0 e ≠ [] ∧ moved (moveTier 0 0 e (goesOn s e)) = true) ∧
    (let e := ent 14; let s := onHoop e dev
     segLive s 0 0 0 = some (e, .todo) ∧ e.opcode = 0x0E ∧ launchTag s 0 0 0 = none ∧ (s.acd 0).up = true ∧ (s.acd 0).safe = false ∧
     firstFree 256 (tabHas (s.acd 0).launches) = some 0) ∧
    (let e := ent 15; let s := { onHoop e dev with lk.reqs := [{ owner := .seg 0 0 0 }] }
     segLive s 0 0 0 = some (e, .todo) ∧ e.opcode = 0x0F ∧ vatBusy (dropRange 1 e.dst.toNat e.length s) 1 = true) ∧
    (let e := ent 15 1; let s := onHoop e dev
     segLive s 0 0 0 = some (e, .todo) ∧ e.opcode = 0x0F ∧ bitOf e.subop 0 = true ∧ vatBusy (dropAsid 1 s) 1 = false) ∧
    (segLive (onHoop (ent 16) dev) 0 0 0 = some (ent 16, .todo) ∧ (ent 16).opcode = 0x10) := by
  decide +kernel

theorem witness_HoopCommandsComplete :
    (let s := adm 0x80 0 0 1 [spad 0x100000, spad 0x4000, 4 + 256 + 65536, 3] (onHoop (ent 1) dev)
     got s 0x80 ∧ (admEnt s).subop = 0 ∧ createHoopCheck (adminState s 0) 0 (admEnt s) (blk s) = none ∧
     pagesOutcome (adminState s 0) none (admEnt s).vatId (createHoopPages (blk s)) = .ok) ∧
    (let s := adm 0x80 1 0 0xFFFF [0x20000, 0, 4, 0] dev
     got s 0x80 ∧ (admEnt s).subop = 1 ∧ (admEnt s).vatId = 0xFFFF ∧ createEvqCheck (adminState s 0) 0 (admEnt s) (blk s) = none) ∧
    (let s := adm 0x81 0 0 0 [] (modHoop 0 (fun x => { x with enabled := false, idle := true }) (onHoop (ent 1) dev))
     got s 0x81 ∧ (admEnt s).subop = 0 ∧ hoopNamed (adminState s 0) 0 (hoopNumber (admEnt s)) = none ∧ (s.hoop 0).migrating = false ∧
     (s.hoop 0).enabled = false ∧ (s.hoop 0).idle = true ∧ hoopNumber (admEnt s) = 0) ∧
    (let s := adm 0x81 1 0 0 [] (modEvq 0 (fun _ => { present := true, fn := .pf 0, log2 := 4 }) dev)
     got s 0x81 ∧ (admEnt s).subop = 1 ∧ hoopNumber (admEnt s) = 0 ∧ evqBlockOf s 0 = hcWheelOf s 0 ∧ (s.evq 0).present = true ∧
     ownsFn 0 (s.evq 0).fn = true ∧ evqNamed (adminState s 0) 0 = false) ∧
    (let s := adm 0x82 0 0 0 [] (onHoop (ent 1) dev)
     got s 0x82 ∧ hoopNamed (adminState s 0) 0 (hoopNumber (admEnt s)) = none ∧ (s.hoop (hoopNumber (admEnt s))).enabled = true) := by
  decide +kernel

theorem witness_VatCommandsComplete :
    (let s := adm 0x83 0 0 2 [0x2001, 1, 0, 0] dev
     got s 0x83 ∧ (admEnt s).flag 0 = false ∧ createVatCheck (adminState s 0) 0 (admEnt s) (blk s) = none) ∧
    (let s := adm 0x83 0 1 2 [0, 0] dev
     got s 0x83 ∧ (admEnt s).flag 0 = true ∧ createVatCheck (adminState s 0) 0 (admEnt s) (blk s) = none) ∧
    (let s := adm 0x84 0 0 1 [] (onHoop (ent 1) dev)
     got s 0x84 ∧ destroyVatCheck (adminState s 0) 0 (admEnt s).vatId = none) := by
  decide +kernel

theorem witness_RecipeLoadsComplete :
    (let s := adm 0x85 2 0 0 [0x4000, imgT.length, 2 ^ 32 + 1, 0] (writeBytes (hostLoc 0 0x4000) imgT dev)
     let u := adminState s 0
     let q := blk s
     got s 0x85 ∧ lrBlockOk (admEnt s) q = true ∧ namesOwn u 0 (lrFn q) = true ∧ lrEarly u (hcWheelOf s 0) (admEnt s) q = none ∧
     inputOk u 0 (qw q 0) (lrBytes q) = true ∧ recipeError (lrImage u 0 q) (lrBytes q) = none ∧
     (placeAll u (lrImage u 0 q) (lrSlices u (hcWheelOf s 0) q) (lrReplicas q)).isSome = true) ∧
    (let s := adm 0x86 2 0 0 [] (withRecipe imgT dev)
     got s 0x86 ∧ (recipeOf s (adminFn 0) (admEnt s).subop).isSome = true ∧ recipeBusy s (adminFn 0) (admEnt s).subop = false ∧
     ∀ x ∈ s.wk.recipes, x.fn = adminFn 0 → x.unloadBy = none) ∧
    (let s := onHoop (ent 5 2) (adm 0x86 2 0 0 [] (withRecipe imgT dev))
     got s 0x86 ∧ (recipeOf s (adminFn 0) (admEnt s).subop).isSome = true ∧ recipeBusy s (adminFn 0) (admEnt s).subop = true) := by
  decide +kernel

theorem witness_WheelCommandsComplete :
    (let s := adm 0x87 0 0 0 [3, 0] dev
     got s 0x87 ∧ bitOf (qw (blk s) 0) 16 = false ∧ wheelCheck (adminState s 0) 0 (blk s) = none) ∧
    (let s := adm 0x87 0 0 0 [3 + 65536, 0] (modWheel 3 (fun w => { w with present := true }) dev)
     got s 0x87 ∧ bitOf (qw (blk s) 0) 16 = true ∧ wheelCheck (adminState s 0) 0 (blk s) = none) := by
  decide +kernel

theorem witness_BindsAreAccepted :
    let two := modWheel 3 (fun w => { w with present := true }) dev
    (let s := adm 0x88 0 0 0 [1 + 0x3000, 1, 0, 0] two; got s 0x88 ∧ bindCheck (adminState s 0) 0 (blk s) = none ∧ bOp (blk s) = 1) ∧
    (let s := adm 0x88 0 0 0 [2 + 0x3000, 0, 0x10001, 0] two; got s 0x88 ∧ bindCheck (adminState s 0) 0 (blk s) = none ∧ bOp (blk s) = 2) ∧
    (let s := adm 0x88 0 0 0 [3 + 0x3000, 0, 0x10001, 0] two; got s 0x88 ∧ bindCheck (adminState s 0) 0 (blk s) = none ∧ bOp (blk s) = 3) ∧
    (let s := adm 0x88 0 0 0 [4 + 0x3000, 0, 1, 0] two; got s 0x88 ∧ bindCheck (adminState s 0) 0 (blk s) = none ∧ bOp (blk s) = 4) ∧
    (let s := adm 0x88 0 0 0 [5, 0, 2, 0] (vf0 .running dev); got s 0x88 ∧ bindCheck (adminState s 0) 0 (blk s) = none ∧ bOp (blk s) = 5) ∧
    (let s := adm 0x88 0 0 0 [6, 0, 0, 0] (vf0 .running dev); got s 0x88 ∧ bindCheck (adminState s 0) 0 (blk s) = none ∧ bOp (blk s) = 6) ∧
    (let s := adm 0x88 0 0 0 [7 + 0x3000, 0, 0, 0] two; got s 0x88 ∧ bindCheck (adminState s 0) 0 (blk s) = none ∧ bOp (blk s) = 7) := by
  decide +kernel

theorem witness_AdminCommandCompleteEnds :
    let on (q : List W64) := cur (.bind q) (adm 0x88 0 0 0 [] dev)
    ((s : State) → s = on [0x3001, 1] → (s.admin 0).cur.isSome = true ∧ peerBusy s [0x3001, 1] = false ∧ bindQuiet s 0 [0x3001, 1] = true) ∧
    (∀ q ∈ [[(0x3002 : W64)], [0x3003], [0x3004], [5]], ((on q).admin 0).cur.isSome = true ∧ bindQuiet (on q) 0 q = true) ∧
    (let s := cur .fwActivate (adm 0x93 0 0 0 [] dev); (s.admin 0).cur.isSome = true ∧ s.st.mramBlocked = false) ∧
    ((cur .loadRecipe (adm 0x85 0 0 0 [] dev)).admin 0).cur.isSome = true := by
  refine ⟨fun s h => ?_, by decide +kernel, by decide +kernel, by decide +kernel⟩
  subst h; decide +kernel

/-- Whether accesses of hoop 0's segment 0 in vat 1 pass the gate. -/
def gateOpen (s : State) (l : List (Nat × Nat × Access)) : Bool :=
  match gateSeg (.seg 0 0 0) 1 l s with
  | (.go _, _) => true
  | _ => false

theorem witness_ReportsComplete :
    (let s := adm 0x89 0 0 0 [] dev; got s 0x89 ∧ (capTable (adminState s 0) (adminFn 0)).length ≤ outLen (admEnt s) ∧ outLen (admEnt s) ≠ 0) ∧
    (let s := adm 0x89 0 0 0 [] dev (fun e => { e with operand := 0 }); got s 0x89 ∧ outLen (admEnt s) = 0) ∧
    (let e := { ent 0x89 0 0 0 with operand := 0x10000 }; let s := onHoop e dev; let n := (capTable s (.pf 0)).length
     segLive s 0 0 0 = some (e, .todo) ∧ e.opcode = 0x89 ∧ n ≤ outLen e ∧ outLen e ≠ 0 ∧
     gateOpen s [(e.dst.toNat, n, .write)] = true) ∧
    (∀ c ∈ [0, 1], let s := adm 0x8A 0 c 0 [] { dev with wh.devmgr := none }
     got s 0x8A ∧ (summary (adminState s 0) (adminFn 0)).length ≤ outLen (admEnt s) ∧ outLen (admEnt s) ≠ 0) := by
  decide +kernel

theorem witness_ReportsComplete_entry :
    (let e := { ent 0x8A 0 0 0 with operand := 0x10000 }; let s := onHoop e { dev with wh.devmgr := none }
     let n := (summary s (.pf 0)).length
     segLive s 0 0 0 = some (e, .todo) ∧ e.opcode = 0x8A ∧ e.flag 0 = false ∧ n ≤ outLen e ∧ outLen e ≠ 0 ∧
     gateOpen s [(e.dst.toNat, n, .write)] = true) := by
  decide +kernel

/-- Session 7 with virtual function 0 is established. -/
def session (s : State) : State := { s with se.migs := [{ num := 7, fn := .vf 0 0, established := true }] }

/-- The entry's operand names virtual function 0 and session 7. -/
def moves (e : Entry) : Entry := { e with operand := 7 * 2 ^ 32 + 2048 * 2 ^ 16, lenStride := 8192 }

theorem witness_MovingAFunctionCompletes :
    (let s := adm 0x8B 0 0 0 [] (vf0 .running dev) moves
     got s 0x8B ∧ namesVf s 0 (movedId (admEnt s)) = true ∧ (s.fnS (fnOfId (movedId (admEnt s)))).vfState = .running) ∧
    (let s := adm 0x8C 0 0 0 [] (session (vf0 .frozen dev)) moves
     got s 0x8C ∧ namesVf s 0 (movedId (admEnt s)) = true ∧ (goodSession s (movedSession (admEnt s)) (.vf 0 0)).isSome = true ∧
     (s.fnS (.vf 0 0)).vfState = .frozen ∧ imageBound (imageOf s (.vf 0 0)) ≤ (admEnt s).length) ∧
    (let s := adm 0x8C 0 0 0 [] (session (vf0 .frozen dev)) (fun e => { moves e with lenStride := 0 })
     got s 0x8C ∧ (admEnt s).length = 0) ∧
    (let s := adm 0x8D 0 0 0 [] (session (vf0 .running dev)) moves
     got s 0x8D ∧ namesVf s 0 (movedId (admEnt s)) = true) ∧
    (let s := adm 0x8E 0 0 0 [] (vf0 .frozen dev) moves
     got s 0x8E ∧ namesVf s 0 (movedId (admEnt s)) = true ∧ (s.fnS (fnOfId (movedId (admEnt s)))).vfState ≠ .running ∧
     (s.fnS (fnOfId (movedId (admEnt s)))).vfState ≠ .freezing) := by
  decide +kernel

theorem witness_TestsAndKeySessionsComplete :
    (let s := adm 0x8F 0 0 0 [0x4, 0] dev; got s 0x8F ∧ calCheck s (admEnt s) (blk s) = none) ∧
    (let s := adm 0x90 0 0 0 [0x10001, 0] dev
     got s 0x90 ∧ isDevmgr s (adminFn 0) = true ∧ (match selftestCheck s (admEnt s) (blk s) with | .ok _ => true | .error _ => false) = true ∧ s.sp.turn = none) ∧
    (let s := adm 0x91 0 0 0 [0x08000001, 0] (vf0 .running dev)
     got s 0x91 ∧ ksOp (blk s) = 1 ∧ namesVf s 0 (ksFn (blk s)) = true ∧ ksFieldsOk (admEnt s) (blk s) = true ∧
     (s.se.migs.filter (fun m => !m.spent)).length < 64 ∧ (∀ m ∈ s.se.migs, m.num ≠ s.se.nextMig) ∧ ksRole (blk s) = false) ∧
    (let s := adm 0x91 0 0 0 [0x08000101, 8, 0] (vf0 .running dev)
     got s 0x91 ∧ ksOp (blk s) = 1 ∧ namesVf s 0 (ksFn (blk s)) = true ∧ ksFieldsOk (admEnt s) (blk s) = true ∧ ksRole (blk s) = true) ∧
    (let s := adm 0x91 0 0 0 [2 + 7 * 2 ^ 32, 8, 0] (session (vf0 .running dev))
     got s 0x91 ∧ ksOp (blk s) = 2 ∧ (ownMig s 0 (ksSession (blk s))).isSome = true ∧ ksFieldsOk (admEnt s) (blk s) = true) ∧
    (let s := adm 0x91 0 0 0 [3 + 7 * 2 ^ 32, 0] (session (vf0 .running dev))
     got s 0x91 ∧ ksOp (blk s) = 3 ∧ (ownMig s 0 (ksSession (blk s))).isSome = true ∧ ksFieldsOk (admEnt s) (blk s) = true) := by
  decide +kernel

theorem witness_FirmwareCommandsComplete :
    (let s := adm 0x92 0 0 0 [0x4000, 64] dev (fun e => { e with dst := 0, operand := 0 })
     got s 0x92 ∧ fwEarly (adminState s 0) 0 (admEnt s) (blk s) = none ∧
     inputOk (adminState s 0) 0 (fwAddr (blk s)) (fwBytes (blk s)) = true) ∧
    (let s := adm 0x93 0 0 0 [] { dev with st.fwPending := true, st.fwSlots := [(1, { valid := true })] }
     got s 0x93 ∧ isDevmgr s (adminFn 0) = true ∧ s.st.fwPending = true ∧ s.sp.affStandby = true ∧ s.sp.secStandby = true ∧
     (s.fwSlot (fwOther s)).valid = true ∧ s.st.fwSvn ≤ (s.fwSlot (fwOther s)).svn) := by
  decide +kernel

/-- Eight words of a ring slot: OWN set, opcode NOP. -/
def slotWords : List Byte := natLe 8 0x10010 ++ natLe 48 0 ++ natLe 8 0x8000000000000000

/-- Hoop 0 with its ring at scratchpad offset 0x100000 and one entry to fetch. -/
def ringed (s : State) : State :=
  s |> onHoop (ent 1) |> modHoop 0 (fun x => { x with ringBase := spad 0x100000, headAddr := spad 0x4000, entries := [], tail := 1 })
    |> writeBytes (scratchLoc 0x100000) slotWords

/-- An entry fetched with OWN = 0. -/
def unowned : Entry := { phase := .fetched }

theorem witness_DoorbellsMoveTheTail :
    let s := ringed dev
    pageHoop s (.pf 0) 0 = some 0 ∧ dbDead s 0 = false ∧ dbGone s 0 = false ∧
    tailOk (s.hoop 0).log2 (s.hoop 0).head (s.hoop 0).tail 16 = true ∧ tailOk (s.hoop 0).log2 (s.hoop 0).head (s.hoop 0).tail 17 = false ∧
    dbDead (modHoop 0 (fun x => { x with enabled := false }) s) 0 = true ∧
    pageHoop (modHoop 0 (fun x => { x with enabled := false }) s) (.pf 0) 0 = some 0 ∧
    (s.hoop 0).tail.toNat % 4 = 1 ∧ dbTaken s 0 ((s.hoop 0).tail + 1) = true ∧ (s.hoop 0).pushed.length < 4 ∧ (s.hoop 0).migrating = false ∧
    (let u := adm 0x84 0 0 0 [] dev
     adminOf (.pf 0) = some 0 ∧ tlpDropped u 0 none = false ∧ (u.fnS (.pf 0)).dstate3 = false ∧ (u.admin 0).enable = true ∧
     (u.admin 0).ringFault = false ∧ tailOk (u.admin 0).log2 (u.admin 0).head (u.admin 0).tail 16 = true) := by
  decide +kernel

theorem witness_FetchedEntriesAreTaken :
    (let s := ringed dev; let u := dropOwner (.ring (.data 0)) s; let x := s.hoop 0
     x.doneAhead.contains x.fetchNext = false ∧ pushedAt x x.fetchNext = none ∧
     fetchDone x = false ∧ lookupIn (some (sliceOf 0)) u x.vat (slotAddr x x.fetchNext) .read = .ok (scratchLoc 0x100000) ∧ homeUp u (homeOf (scratchLoc 0x100000)) = true ∧
     poisonedAt u (scratchLoc 0x100000) 64 = false) ∧
    (let s := modAdmin 0 (fun x => { x with entries := [] }) (adm 0x84 0 0 0 [] dev); let x := s.admin 0
     x.running = true ∧ x.ringFault = false ∧ x.fetchNext ≠ x.tail ∧ (x.fetchNext - x.head).toNat < 64 ∧ homeUp s (.host 0) = true ∧
     poisonedAt s (adminSlot s 0 x.fetchNext) 64 = false) ∧
    (let s := modHoop 0 (fun x => { x with entries := [unowned], fetchNext := 1 }) (ringed dev)
     (s.hoop 0).entries.filter (fun e => e.phase = .fetched && !e.own) = [unowned] ∧
     lookupIn (some (sliceOf 0)) s (s.hoop 0).vat (slotAddr (s.hoop 0) 0) .read = .ok (scratchLoc 0x100000) ∧ homeUp s (homeOf (scratchLoc 0x100000)) = true ∧
     poisonedAt s (scratchLoc 0x100000) 64 = false ∧ (readEntry 0 0 unowned.again (qwords 8 (readBytes s (scratchLoc 0x100000) 64))).own = true) ∧
    (let s := modAdmin 0 (fun x => { x with entries := [unowned] }) (adm 0x84 0 0 0 [] (writeBytes (hostLoc 0 0x10000) slotWords dev))
     (s.admin 0).entries.filter (fun e => e.phase = .fetched && !e.own) = [unowned] ∧ homeUp s (.host 0) = true ∧
     poisonedAt s (adminSlot s 0 0) 64 = false ∧ (entryOfWords 0 0 (qwords 8 (readBytes s (adminSlot s 0 0) 64))).own = true) := by
  decide +kernel

theorem witness_EntriesStartAndEnd :
    (let s := onHoop { ent 1 with phase := .ready, segs := [] } dev
     canStart (takePushed 0 4 s) 0 0 = true ∧ (entryOf (takePushed 0 4 s) 0 0).map (·.status) = some .ok ∧
     groupOf (takePushed 0 4 s) 0 = none) ∧
    (let s := adm 0x84 0 0 0 [] dev (fun e => { e with phase := .ready }); adminCanStart s 0 0 = true) ∧
    (let e := { ent 1 with segs := [.busy] }; let s := onHoop e dev
     entryOf s 0 0 = some e ∧ e.phase = .started ∧ e.epoch = (s.hoop 0).epoch ∧ e.segs[0]? = some .busy ∧ segMayEnd s 0 e 0 = true ∧
     e.opcode ≠ 0x0F ∧ countsOperands e.opcode = false ∧ e.opcode ≠ 0x0E ∧ e.opcode ≠ 0x0B ∧ (s.hoop 0).whey ≠ 0xFFFFFFFF) ∧
    (let s := modHoop 0 (fun x => { x with pubTimer := true, head := 1 }) (ringed dev)
     (s.hoop 0).present = true ∧ (s.hoop 0).pubTimer = true ∧ (s.hoop 0).head ≠ (s.hoop 0).pub ∧
     waitsFor s (.head 0) = false ∧ lookupIn (some (sliceOf 0)) s (s.hoop 0).vat (s.hoop 0).headAddr .write = .ok (scratchLoc 0x4000) ∧
     homeUp s (homeOf (scratchLoc 0x4000)) = true ∧ ownedGate (.head 0) (s.hoop 0).vat (s.hoop 0).headAddr (scratchLoc 0x4000) 8 s = (true, s)) := by
  decide +kernel

theorem witness_FunctionsVatsAndHoopsGoOn :
    (let s := modFnS (.vf 0 0) (fun f => { f with freezeBy := some 0 }) (vf0 .freezing dev)
     (s.fnS (.vf 0 0)).vfState = .freezing ∧ (s.fnS (.vf 0 0)).freezeBy = some 0) ∧
    (let s := modVat 1 (fun _ => { st := .aborting, fn := .pf 0 }) dev
     (s.vat 1).st = .aborting ∧ hoopsWith s (fun y => y.vat = 1) = [] ∧ (s.vat 1).destroyBy = none ∧ (s.vat 1).faultEvqValid = false) ∧
    (let s := modVat 1 (fun _ => { st := .aborting, fn := .pf 0, destroyBy := some 0 }) dev
     (s.vat 1).st = .aborting ∧ hoopsWith s (fun y => y.vat = 1) = [] ∧ (s.vat 1).destroyBy = some 0 ∧ (s.vat 1).faultEvqValid = false) ∧
    (let s := { modVat 1 (fun _ => { st := .idle, fn := .pf 0 }) dev with wk.vatWait := [1] }
     s.wk.vatWait = [1] ∧ freeSlot s = some 0) ∧
    (let s : State := onHoop (ent 1) dev; let s : State := { s with wk.vatWait := [2] }
     (s.vat 1).st = .resident ∧ (s.vat 1).slot.isSome = true ∧ s.wk.vatWait ≠ []) ∧
    (let s := modHoop 0 (fun x => { x with migrating := true }) (onHoop (ent 1) dev)
     (s.hoop 0).present = true ∧ (s.hoop 0).migrating = true ∧ oldUnitDone s (s.hoop 0) = true) := by
  decide +kernel

/-- Watcher 0 and polled wait 0 watch the fence at address va of vat 1. -/
def watching (va : W64) (s : State) : State :=
  let y : Watcher := { vat := 1, va := va }
  { s with wk.watchers := [(0, y)], wk.polls := [(0, y)] }

theorem witness_WatchersReadTheirFence :
    (∀ c ∈ [(watching 0x00F0000000001000 (onHoop (ent 1) dev), scratchLoc 0x1000), (watching 0 (mapped (onHoop (ent 1) dev)), 0x5000)],
     let s := c.1; let pa := c.2
     tabHas s.wk.watchers 0 = true ∧ tabHas s.wk.polls 0 = true ∧ s.watcher 0 = s.pollWait 0 ∧
     (let y := s.watcher 0
      lookupIn (some (watchSeat y)) s y.vat y.va.toNat .read = .ok pa ∧ homeUp s (homeOf pa) = true ∧
      cohPort s y.vat y.va.toNat = none ∧ filterHits s { va := y.va.toNat, pa := pa, len := 8, need := .read } = []) ∧
     poisonedAt s pa 8 = false ∧ waitsFor s (.watcher 0) = false ∧ waitsFor s (.poll 0) = false) ∧
    tgtOf (homeOf (scratchLoc 0x1000)) = none ∧ tgtOf (homeOf 0x5000) ≠ none := by
  decide +kernel

theorem witness_TranslationsComplete :
    (let q : AtsReq := { tag := 3, vat := 1 }; let s : State := onHoop (ent 1) dev; let s : State := { s with xl.atsReqs := [q] }
     s.xl.atsReqs.find? (fun q => q.port = 0 && q.tag = 3) = some q ∧ q.stale = false ∧ (s.vat q.vat).st ≠ .free ∧
     q.invals = [] ∧ tlpDropped s 0 (some q.page) = false ∧ grantsNeed q.need true true = true) ∧
    (let w : Walk := { vat := 1 }; let s : State := mapped (onHoop (ent 1) dev); let s : State := { s with xl.walks := [w] }
     s.xl.walks.find? (fun w => w.vat = 1 && w.va.toNat / 4096 = (0 : W64).toNat / 4096) = some w ∧
     (match walkVat s 1 0 false with | .leaf _ _ _ => true | .fault _ => false) = true ∧ walkVat s 1 0 true = .fault 0x0A) ∧
    mayManage dev (.pf 0) = true := by
  decide +kernel

theorem witness_PageRequestsEnd :
    (let s : State := { dev with xl.pageReqs := [{ index := 2, vat := 1 }] }
     (∃ r, pageReqOf s 0 2 = some r ∧ r.dead = false) ∧ tlpDropped s 0 none = false) ∧
    (let s : State := { dev with xl.pageReqs := [{ index := 2, vat := 1, dead := true }] }
     (∃ r, pageReqOf s 0 2 = some r ∧ r.dead = true) ∧ tlpDropped s 0 none = false) := by
  exact ⟨⟨⟨{ index := 2, vat := 1 }, by decide +kernel⟩, by decide +kernel⟩, ⟨{ index := 2, vat := 1, dead := true }, by decide +kernel⟩, by decide +kernel⟩

theorem witness_InvalidationsComplete :
    (tlpDropped dev 0 none = false ∧ hostMode dev 0 = true ∧ (dev.hc 0).lost = false ∧ (dev.hc 0).linkUp = true ∧
      (dev.xl.invals.filter (fun x => x.port = 0)).length < 32 ∧ dev.xl.invals.any (fun x => x.port = 0 && x.itag = 31) = false) ∧
    (let v : Inval := { itag := 4, len := 4096 }; let s : State := { dev with xl.invals := [v] }
     s.xl.invals.find? (fun x => x.port = 0 && x.itag = 4) = some v ∧ invalBusy s v = false) := by
  decide +kernel

theorem witness_HostRequestsEnd :
    (let s := asked { tgt := .host 0, owner := .watcher 0 } dev; hostReq s 0 3 = some { tgt := .host 0, owner := .watcher 0, tag := 3 } ∧
      ∀ x, tlpDropped s 0 (some x) = false) ∧
    (let s := asked { tgt := .host 0, owner := .adminInput 0 } dev; (hostReq s 0 3).isSome = true) ∧
    (let s := asked { tgt := .host 16 } dev; (hostReq s 16 3).isSome = true) := by
  exact ⟨⟨by decide +kernel, fun _ => rfl⟩, by decide +kernel, by decide +kernel⟩

theorem witness_Bar2AccessesComplete :
    tlpDropped dev 0 none = false ∧ bar2Ok dev (.pf 0) (2 ^ 27 - 8) 8 = true ∧ bar2Poisoned dev (2 ^ 27 - 8) 8 = false ∧
    bar2Poisoned { dev with m.poison := [scratchLoc (2 ^ 27 - 8) / 64] } (2 ^ 27 - 8) 8 = true ∧
    8 ≤ (dev.hc (pfOf (.pf 0))).mps ∧ (dev.hc (pfOf (.pf 0))).mps < 8192 ∧ barAtomicWidth .fetchAdd 8 = true ∧
    barAtomicWidth .cas 16 = true ∧ barAtomicWidth .swap 16 = false ∧ bar2Ok dev (.pf 0) 0 16 = true ∧
    bar2Poisoned dev 0 16 = false ∧ readNat dev (scratchLoc 0) 16 = 0 % 2 ^ (8 * 16) ∧
    readNat dev (scratchLoc 0) 16 ≠ 5 % 2 ^ (8 * 16) ∧ bar2Ok dev (.pf 0) (2 ^ 27) 1 = false := by
  decide +kernel

theorem witness_HostPortRequestsComplete :
    dev.tm.boot = .running ∧ tlpDropped dev 0 none = false ∧ cfgFn dev 0 0 = some (.pf 0) ∧ cfgFn dev 0 1 = none ∧
    dev.lk.buLinkUp = true ∧ cfgFn dev 16 0 = some .bu ∧ cfgFn dev 16 1 = none ∧ State.reset.tm.boot = .held ∧
    tlpDropped State.reset 15 none = false ∧ hostMode dev 0 = true ∧ (dev.hc 0).linkUp = true ∧ portSwitching dev 0 = false ∧
    (let s := modFibre 1 (fun m => { m with switching := some 0 }) dev
     hostMode s 0 = true ∧ (s.hc 0).linkUp = true ∧ portSwitching s 0 = true) := by
  decide +kernel

theorem witness_HostLinksRiseAndFall :
    (let s := { dev with lk.hc := [(0, { linkEn := true })], lk.rsh := [(0, { trained := true })] }
     hostMode s 0 = true ∧ (s.hc 0).linkEn = true ∧ (s.hc 0).safe = false ∧ (s.hc 0).linkUp = false ∧ (s.rsh 0).trained = true) ∧
    hostMode dev 0 = true ∧ (dev.hc 0).linkUp = true ∧
    (let s := modHc 0 (fun x => { x with tearing := true }) dev
     ((forAll (lostVats s 0) finishTear s).hc 0).tearing = true ∧ lostVats (forAll (lostVats s 0) finishTear s) 0 = []) := by
  decide +kernel

theorem witness_VirtualFunctionsComeAndGo :
    (hostMode dev 0 = true ∧ (dev.hc 0).vfEnable = false ∧ 513 ≤ dev.lk.vfFree) ∧
    (let s := { dev with lk.vfFree := 3 }; hostMode s 0 = true ∧ (s.hc 0).vfEnable = false ∧ s.lk.vfFree < 4) ∧
    (let s := modHc 0 (fun x => { x with vfEnable := true, numVfs := 1 }) (vf0 .running dev)
     (s.hc 0).vfEnable = true ∧ ((fnsOfPort s 0).filter isVf).all (quiesced s) = true ∧ (s.fnS (.vf 0 0)).granted = true ∧
     quiesced s (.vf 0 0) = true) ∧
    (let s := modHc 0 (fun x => { x with vfEnable := true, numVfs := 1 }) (vf0 .freezing dev)
     (s.hc 0).vfEnable = true ∧ ((fnsOfPort s 0).filter isVf).all (quiesced s) = false ∧ (s.fnS (.vf 0 0)).granted = true ∧
     quiesced s (.vf 0 0) = false) := by
  decide +kernel

theorem witness_IdeStreamsAreManaged :
    (let s := { dev with se.spdm := [(.doe 0, { secured := true })] }; doeSecured s 0 = true) ∧
    (let s := modIde 0 4 (fun x => { x with keySet := 1, going := some 0 }) dev
     (ideOf s 0 4).keySet.getLsbD 0 = true ∧ hostMode s 0 = true ∧ (ideOf s 0 4).going.isSome = true) := by
  decide +kernel

/-- The base point of P-384. -/
def basePoint : EcPoint :=
  { x := 0xaa87ca22be8b05378eb1c71ef320ad746e1d3b628ba79b9859f741e082542a385502f25dbf55296c3a545e3872760ab7
    y := 0x3617de4a96262c6f5d9e98bf9292dc29f8f41dbd289a147ce9da3113b5f0b8c00a60b1ce1d7e819d7a431d7c90ea0e5f }

theorem witness_TheResponderAnswers :
    chOpen dev (.doe 0) = true ∧ chOpen dev .mctp = true ∧ mayMeasure dev (.doe 0) 16 = true ∧ measBusy dev 16 = false ∧
    (let s := { dev with se.spdm := [(.doe 0, { negotiated := true })] }
     chOpen s (.doe 0) = true ∧ (spdmOf s (.doe 0)).negotiated = true ∧ (spdmOf s (.doe 0)).secured = false) ∧
    pointError basePoint = none ∧ pointError { x := 0, y := 0 } = some 0x12 ∧ pointError { x := 1, y := 1 } = some 0x13 ∧
    pointError { x := p384, y := 1 } = some 0x11 ∧ (spdmOf { dev with se.spdm := [(.doe 0, { keyed := true })] } (.doe 0)).keyed = true := by
  decide +kernel

/-- The window cache of port 0 holds line 0x40 in a state. -/
def cached (st : Mesi) (s : State) : State := { s with cx.cohLines := [{ addr := 0x40, st := st, data := List.replicate 64 7 }] }

theorem witness_CoherentLinesFollowTheHost :
    (∀ st ∈ [Mesi.m, .e, .s, .i], evictOf (cached st dev) 0 0x40 = none ∧ cohState (cached st dev) 0 0x40 = st) ∧
    (∀ st ∈ [Mesi.m, .i], let s : State := { dev with cx.evict := [{ addr := 0x40, st := st }] }
     evictOf s 0 0x40 = some { addr := 0x40, st := st } ∧ cohState s 0 0x40 = .i) ∧
    (∀ st ∈ [Mesi.fillS, .fillE], cohState (cached st dev) 0 0x40 = st) ∧ Mesi.e ≠ .fillS ∧ Mesi.e ≠ .fillE := by
  decide +kernel

/-- Window 0 of CXL port 0 covers 256 MiB of device memory at 0. -/
def windowed (s : State) : State := modHc 0 (fun x => { x with cxl := true, hdm0 := 0x8000000000000000 ||| 28 }) s

/-- The filter's entry of a line of port 1, with its snoop under way. -/
def copyOf (line : Nat) (inv : Bool) : Filt := { port := 1, line := line, excl := true, snooping := true, inv := inv }

theorem witness_HostManagedMemoryIsServed :
    (let s := windowed dev
     hostMode s 0 = true ∧ (s.hc 0).cxl = true ∧ hdmLine s 0 0 (2 ^ 28 - 1) = some (2 ^ 28 - 64) ∧ homeUp s (homeOf (2 ^ 28 - 64)) = true ∧
     isHot s (2 ^ 28 - 64) = false ∧ hdmHits s 0 (2 ^ 28 - 64) false = [] ∧ hdmHits s 0 (2 ^ 28 - 64) true = [] ∧
     filterFull s 0 (2 ^ 28 - 64) = false ∧ hdmLine s 0 0 (2 ^ 28) = none) ∧
    (let s := { windowed dev with cx.filter := [copyOf (2 ^ 28 - 64) true] }
     hdmHits s 0 (2 ^ 28 - 64) false ≠ [] ∧ hdmHits s 0 (2 ^ 28 - 64) true ≠ []) ∧
    (let s := modAcd 0 (fun p => { p with rates := (List.range 8).map (fun k => (k, 0)) }) (windowed dev)
     isHot s (2 ^ 28 - 64) = true ∧ homeUp s (homeOf (2 ^ 28 - 64)) = true ∧ hdmHits s 0 (2 ^ 28 - 64) true = [] ∧
     filterFull s 0 (2 ^ 28 - 64) = false) ∧
    (let s := modAcd 0 (fun p => { p with up := false }) (windowed dev)
     (s.hc 0).cxl = true ∧ hdmLine s 0 0 0 = some 0 ∧ homeUp s (homeOf 0) = false) ∧
    (∀ b ∈ [true, false], let s : State := { dev with cx.filter := [copyOf 64 b] }
     s.cx.filter.find? (fun f => f.port = 1 && f.line = 64 && f.snooping) = some (copyOf 64 b)) := by
  decide +kernel

/-- A filter of n copies of line 0. -/
def filled (n : Nat) : State := { windowed dev with cx.filter := List.replicate n (copyOf 0 true) }

theorem full_filled (n : Nat) (h : 2097152 ≤ n) : filterFull (filled n) 0 (2 ^ 28 - 64) = true ∧
    hdmHits (filled n) 0 (2 ^ 28 - 64) false = [] ∧ hdmHits (filled n) 0 (2 ^ 28 - 64) true = [] := by
  simp [hdmHits, filterFull, filled, copyOf, h]

theorem witness_HostManagedMemoryIsServed_full : filterFull (filled 2097152) 0 (2 ^ 28 - 64) = true :=
  (full_filled _ (Nat.le_refl _)).1

theorem witness_FarMemoryComesAndGoes :
    (let s := { dev with lk.rsh := [(1, { trained := true })] }
     hostMode s 1 = false ∧ (s.hc 1).linkEn = true ∧ (s.hc 1).safe = false ∧ (s.hc 1).linkUp = false ∧ (s.rsh 1).trained = true) ∧
    (let s := modHc 1 (fun x => { x with linkUp := true, farOk := true }) dev
     hostMode s 1 = false ∧ (s.hc 1).linkUp = true ∧ (s.hc 1).farOk = true ∧ (s.hc 1).ready = false) ∧
    (reqTo (asked { tgt := .far 1 } dev) (.far 1) 3).isSome = true := by
  decide +kernel

/-- Port 1 trains. -/
def training (s : State) : State := modAcd 1 (fun _ => { linkEn := true, training := true }) s

theorem witness_AcdoicLinksTrainAndFail :
    (let s := training dev
     (s.acd 1).training = true ∧ paramsOk 0x2280114000000001 0x108001010 0 = false ∧
     paramsOk 0x2280114000000000 0x108001010 0 = true ∧ 8 ≤ (bitsSet 16 (~~~ (s.acd 1).dead).toNat).length) ∧
    (let s := modAcd 1 (fun x => { x with dead := 0x1FF }) (training dev)
     (s.acd 1).training = true ∧ (bitsSet 16 (~~~ (s.acd 1).dead).toNat).length < 8) ∧
    ((dev.acd 0).up = true ∧ (dev.acd 0).modules.getLsbD 15 = true ∧ (dev.acd 0).rxSeq = 0) ∧
    (let s := modAcd 0 (fun x => { x with modules := 0x7FFF }) dev
     (s.acd 0).up = true ∧ (s.acd 0).modules.getLsbD 15 = false ∧ (s.acd 0).dead.getLsbD 15 = false) := by
  decide +kernel

theorem witness_DieAnswersEndRequests :
    (∀ k ∈ [ReqKind.read, .write, .atomic], (acdReq (asked { tgt := .acd 0, kind := k } dev) 0 3 k).isSome = true) ∧
    (let s := { asked { tgt := .acd 0, kind := .cond, owner := .core } dev with af.affCond := some (0, [1]) }
     (acdReq s 0 3 .cond).isSome = true ∧ s.af.affCond.isSome = true ∧ (coreResv s 0).isSome = false ∧
     (coreResv { s with wk.resvs := [(2048, { owner := .core 0, granule := 0 })] } 0).isSome = true) ∧
    reqTo (asked { tgt := .acd 0 } dev) (.acd 0) 4 = none ∧
    (let s := modAcd 0 (fun x => { x with launches := [(5, {}), (6, { ended := some .ok })] }) dev
     tabHas (s.acd 0).launches 5 = true ∧ (tabGet {} (s.acd 0).launches 5).ended = none ∧
     (tabGet {} (s.acd 0).launches 6).ended ≠ none ∧ tabHas (s.acd 0).launches 7 = false) ∧
    (let s := asked { tgt := .acd 0, sent := false } dev
     (s.lk.reqs.find? (fun r => r.tagged && r.tgt = .acd 0 && r.tag = 3 && !r.sent)).isSome = true ∧ isHot s 0 = false ∧
     isHot (modAcd 0 (fun p => { p with rates := (List.range 8).map (fun k => (k, 0)) }) s) 0 = true) := by
  decide +kernel

/-- Launch 5 of hoop 0's entry is on Acdoic port 0. -/
def launched (l : Launch) (s : State) : State := modAcd 0 (fun x => { x with launches := [(5, l)] }) (onHoop { ent 14 with dst := 0 } s)

/-- The translation of vat 1's page 0 leads to node 9 behind peer port 0. -/
def farther (s : State) : State :=
  { modWheel 0 (fun w => { w with fdomValid := true }) (mapped s) with
    pr.routes := [(9, { mask := 1, links := 1 })]
    xl.xlats := [{ vat := 1, page := 0, size := 4096, pa := 2 ^ 51 + 9 * 2 ^ 38, rd := true, wr := true, at_ := true, slices := [0, 32] }] }

/-- Launch 5 runs an entry whose fence stands at va of vat 1. -/
def fenced (va : W64) (s : State) : State := modEntry 0 0 (fun e => { e with dst := va, fenceVal := 6 }) (launched {} s)

/-- Whether launch 5's fence can be raised once its accesses pass the gate, and whether that waits for an answer. -/
def fenceRaised (s : State) : Option (Bool × Bool) :=
  (entryOf s 0 0).map (fun e =>
    let u := raiseFence (.seg 0 0 0) 0 0 e.dst e.fenceVal (gateSeg (.seg 0 0 0) 1 [(e.dst.toNat, 8, .atomic)] s).2
    (gateOpen s [(e.dst.toNat, 8, .atomic)], waitsFor u (.seg 0 0 0)))

theorem witness_LaunchesEnd :
    liveLaunch (launched { sent := true } dev) 0 5 = some { sent := true } ∧
    (entryOf (launched {} dev) 0 0).map (fun e => (e.phase, e.dst)) = some (.started, 0) ∧
    (liveLaunch (fenced 0x00F0000000001000 dev) 0 5).isSome = true ∧
    fenceRaised (fenced 0x00F0000000001000 dev) = some (true, false) ∧ fenceRaised (farther (fenced 0x10 dev)) = some (true, true) ∧
    (entryOf (modEntry 0 0 (fun e => { e with phase := .written }) (launched {} dev)) 0 0).map (·.phase) = some .written ∧
    liveLaunch (launched { sent := true, retry := true } dev) 0 5 = some { sent := true, retry := true } ∧
    launchHeld (launched { sent := true } dev) 0 { sent := true } = false ∧
    launchHeld (modAcd 0 (fun x => { x with rates := [(1, 0)] }) (launched {} dev)) 0 {} = true := by
  decide +kernel

theorem witness_DieReportsTakeEffect :
    ((dev.acd 0).up = true ∧ 7 < (dev.acd 0).stackCount ∧ (dev.acd 0).claims.length < 256 ∧ tabHas (dev.acd 0).claims 0 = false) ∧
    liveLaunch (countFault (acdSrc 0 3) (acdErr 0 0x8 dev)) 0 5 = none ∧
    (liveLaunch (countFault (acdSrc 0 3) (acdErr 0 0x8 (launched {} dev))) 0 5).isSome = true ∧
    claimHits dev 0 0 = [] ∧
    (let s : State := { dev with cx.filter := [copyOf 64 true] }
     claimHits (modAcd 0 (fun p => { p with claims := tabSet p.claims 0 { line := 64, write := true } }) s) 0 0 ≠ []) := by
  decide +kernel

/-- A packet to this node from node 9, of a request at offset 0 of export 0. -/
def pkt (payload : List Byte) : Pkt :=
  { tc := 2, hops := 0, dst := 5, src := 9, fdom := 0, tag := 3, len := 8, wide := true, atop := 1, reason := 0, offset := 0, payload := payload }

/-- Export 0 gives the scratchpad's first 4 KiB with every right. -/
def exporting (s : State) : State := { s with pr.exports := [(0, { q0 := 1657 })] }

/-- A write of the same class and pair waits. -/
def waitingOn (s : State) : State := { s with pr.waiting := [(0x03, pkt [1, 2])] }

theorem witness_PeerRequestsAreServed :
    PeerServes (exporting dev) 0 0x01 (pkt []) (2 ^ 52) ∧ PeerServes (exporting dev) 0 0x03 (pkt [1, 2]) (2 ^ 52) ∧
    PeerServes (exporting dev) 0 0x05 (pkt (List.replicate 24 0)) (2 ^ 52) := by
  decide +kernel

theorem witness_PeerRequestsAreServed_atomic :
    let s := exporting dev; let k := pkt (List.replicate 24 0)
    (atShape k).2.2 * (atShape k).1 = 8 ∧ k.payload.length = 16 + (atShape k).2.2 * (atShape k).2.1 ∧
     (atShape k).2.2 ≠ 0 ∧ 2 ^ 52 % (atShape k).1 = 0 ∧ atopKnown k.atop = true ∧
     s.wk.peerJournals.find? (fun j => j.2.key = atKey k) = none ∧
     (s.wk.peerJournals.filter (fun j => j.1 = homeQuad (homeOf (2 ^ 52)))).length < 1024 ∧
     (({ s with wk.peerJournals := [(0, { key := atKey k })] } : State).wk.peerJournals.find? (fun j => j.2.key = atKey k)).isSome = true := by
  decide +kernel

theorem witness_PeerRequestsAreServed_refused :
    exportCheck dev 0 0 8 .read = .error 0x01 ∧ exportCheck dev 0 0 8 .write = .error 0x01 ∧ exportCheck dev 0 0 8 .atomic = .error 0x01 := by
  exact ⟨rfl, rfl, rfl⟩

theorem witness_PeerRequestsAreServed_behind :
    heldBack dev (pkt []) = false ∧ heldBack (waitingOn dev) (pkt []) = true ∧
    (let s : State := { exporting dev with m.poison := [2 ^ 52 / 64] }
     exportCheck s 0 0 8 .read = .ok (2 ^ 52) ∧ poisonedAt s (2 ^ 52) (pktAccess 0x01 (pkt [])).2 = true) ∧
    (pkt []).dst = dev.pr.nodeId ∧ { pkt [] with dst := 6 }.dst ≠ dev.pr.nodeId ∧ (dev.peerP 1).up = false := by
  decide +kernel

theorem witness_PeerAnswersEndRequests :
    (∀ k ∈ [ReqKind.read, .write, .atomic],
      (reqOfPkt (asked { tgt := .peer 9, kind := k, owner := .seg 0 0 0, hop := some 0 } dev) (pkt []) k).isSome = true) ∧
    (let s := asked { tgt := .peer 9, kind := .atomic, owner := .seg 0 0 0 } (onHoop (ent 9) dev)
     entryOf s 0 0 = some (ent 9) ∧ (0 : BitVec 8) = (s.hoop 0).epoch ∧ (ent 9).opcode = 0x09 ∧ (ent 9).flag 1 = false) ∧
    (ent 9 0 2).flag 1 = true ∧ ((modHoop 0 (fun x => { x with epoch := 1 }) (onHoop (ent 9) dev)).hoop 0).epoch ≠ 0 ∧
    launchTag (launched {} dev) 0 0 0 = some 5 ∧
    peerReq (asked { tgt := .peer 9, hop := some 0 } dev) 3 = some { tgt := .peer 9, hop := some 0, tag := 3 } ∧
    (let r : Req := { tgt := .peer 9, hop := some 0, tag := 3, sent := false, pkt := some (pkt []) }
     peerReq (asked r dev) 3 = some r ∧ nextHop (asked r dev) r.wheel 9 = none ∧ nextHop (asked r (farther dev)) r.wheel 9 = some 0) ∧
    (dev.peerP 0).up = true := by
  decide +kernel

/-- Group 2 of hoop 0: tag 1, parent node 9, one child; member of the current instance. -/
def grouped (root : Bool) (s : State) : State :=
  { s with pr.colls := [(2, { q0 := BitVec.ofNat 64 (2 ^ 63 + 2 ^ 40 + 9 * 2 ^ 13 + 2 ^ 9 + (if root then 2 ^ 8 else 0)), joins := [9] })] }

/-- A packet of group 2's current instance. -/
def groupPkt (payload : List Byte) : Pkt := { pkt payload with offset := 2 ^ 30 }

theorem witness_HoldsAndGroupMessagesAreTaken :
    ((modAcd 0 (fun x => { x with holdSince := some 0 }) dev).acd 0).holdSince = some 0 ∧ (dev.acd 0).holdTimedOut = false ∧
    (dev.acd 0).up = true ∧
    (let s := grouped false dev
     groupTagged s (groupPkt []) = some 2 ∧ (groupPkt []).src ≠ s.pr.nodeId ∧ (groupPkt []).dst = s.pr.nodeId ∧
     sameInst s 2 (groupPkt []) = true ∧ (s.coll 2).root = false ∧ (s.coll 2).agreed = none ∧ (s.coll 2).enable = true) ∧
    waitsOnPeer (modColl 2 (fun x => { x with closing := some 0 }) (grouped false dev)) 2 = true ∧
    waitsOnPeer (modColl 2 (fun x => { x with closing := some 0 }) (grouped true dev)) 2 = true ∧
    ((grouped true dev).coll 2).root = true ∧ ((grouped false dev).coll 2).ready = false := by
  decide +kernel

theorem witness_PeerLinksCarryFrames :
    (dev.peerP 0).up = true ∧ ((modPeerP 0 (fun x => { x with replay := [1] }) dev).peerP 0).replay ≠ [] ∧
    (let s := { dev with lk.peer := [(0, { en := true })], lk.rsh := [(16, { trained := true })] }
     (s.peerP 0).en = true ∧ (s.peerP 0).up = false ∧ (s.peerP 0).safe = false ∧ (s.rsh (16 + 0)).trained = true ∧
     s.pr.nodeValid = true ∧ 9 ≠ s.pr.nodeId ∧ 5 = s.pr.nodeId) := by
  decide +kernel

theorem witness_OpticsFollowTheirEvents :
    (let s := { dev with st.calValid := [0] }
     Crossing.rx01 ≠ .other ∧ rshEn s 0 = true ∧ rshSafe s 0 = false ∧ (s.rsh 0).trained = false ∧ 0 ∈ s.st.calValid ∧ portLit s 0 = true ∧ 8 ≤ lanesUp s 0 0 ∧
     8 ≤ lanesUp s 0 1) ∧
    (rshEn dev 16 = true ∧ rshSafe dev 16 = false ∧ (dev.rsh 16).trained = false ∧ 16 ∉ dev.st.calValid) ∧
    (let s := { dev with lk.rsh := [(0, { trained := true })] }
     isTxFibre 0 = true ∧ (s.rsh (fibreOf 0).1).trained = true ∧ (fibreMap s 0).switching = none) ∧
    (∀ b ∈ [true, false], let s := modFibre 0 (fun m => { m with switching := some 2, started := b }) dev
     (fibreMap s 0).switching = some 2 ∧ (fibreMap s 0).started = b) ∧
    dev.lk.laserIn.getLsbD 7 = true ∧ clkNum .rosham ∉ dev.pin.refclkLost ∧ clkNum .bringUp ∉ dev.pin.refclkLost := by
  decide +kernel

theorem witness_RennetEventsAreCounted :
    srcExists 0xF67 = true ∧ isSramSrc 0xF67 = false ∧ isSramSrc 0x95F = true ∧ srcExists 0x95F = true ∧
    tabGet 0 dev.sp.sramRows 0x95F < 4 ∧ 4 ≤ tabGet 0 { dev with sp.sramRows := [(0x95F, 4)] }.sp.sramRows 0x95F ∧
    (dev.rsrc 1).severe = false ∧ (dev.rsrc 1).count < threshOf dev 1 ∧
    ((modRsrc 1 (fun q => { q with severe := true }) dev).rsrc 1).severe = true ∧
    (let s := { dev with rn.gates := [.affineur] }; Unit_.affineur ∈ s.rn.gates ∧ Unit_.affineur ∉ s.rn.gatesClosed) ∧
    (let s := { dev with st.mramWaits := [.cfg] }; s.st.mramWaits = [.cfg]) := by
  decide +kernel

theorem witness_RennetEventsAreCounted_store :
    (∀ b ∈ [true, false], let s := { dev with st.logPending := [{}], st.mramBlocked := b, st.cfgDirty := true, sp.mramSpare := 0 }
     s.st.logPending = [{}] ∧ MramJob.log ∉ s.st.mramWaits ∧ MramJob.cfg ∉ s.st.mramWaits ∧ s.st.mramBlocked = b ∧ s.st.cfgDirty = true ∧
     s.sp.mramSpare = 0 ∧ s.st.log.length < 16384) ∧
    (let s := { dev with st.logPending := [{}], sp.mramSpare := 3 }
     s.sp.mramSpare ≠ 0 ∧ (countFault 0x0F3 (logCommit s)).sp.mramSpare = 2 ∧
     (countFault 0x0F3 (logCommit (modRsrc 0x0F3 (fun q => { q with thresh := some 5 }) s))).sp.mramSpare = 3) ∧
    dev.sp.turnEn = true ∧ dev.sp.turn = none ∧ turnUnit dev 1 3 = some 1536 ∧ (1, 3) ∉ dev.sp.deferred ∧
    ({ dev with sp.turn := some {} }).sp.turn = some {} ∧
    (∀ b ∈ [true, false],
     let w : AdminWork := { idx := 0, kind := .calibrate [2], status := .ok, doneBytes := 0, ports := [2], dst := 0 }
     let s := modAdmin 0 (fun x => { x with cur := some w }) { dev with st.mramBlocked := b }
     (calWork s 2).isSome = true ∧ s.st.mramWaits = [] ∧ s.st.mramBlocked = b) := by
  decide +kernel

theorem witness_SuppliesAndTimersTakeEffect :
    dev.st.logicLow = false ∧ dev.st.photLow = false ∧ dev.st.mramBlocked = false ∧ dev.pin.thermTrip = false ∧
    dev.tm.boot ≠ .deepRest ∧ dev.tm.boot ≠ .deepWake ∧ ({ dev with tm.boot := .deepRest }).tm.boot = .deepRest ∧ dev.tm.timeKnown = true ∧
    (let m : MigSession := { num := 7, fn := .vf 0 0, established := true }; m ∈ (session dev).se.migs ∧ m.established = true) := by
  decide +kernel

/-- Every physical function is in D3hot. -/
def asleep (s : State) : State := { s with ev.fns := (List.range 16).map (fun p => (.pf p, { dstate3 := true })) }

theorem witness_DeviceStartsAndRests :
    ({ dev with tm.timeKnown := false }).tm.timeKnown = false ∧ dev.tm.timeKnown = true ∧ dev.tm.boot = .running ∧ (dev.admin 16).cur = none ∧
    isUp dev = true ∧ clkNum .bringUp ∉ dev.pin.refclkLost ∧
    (let s := modAcd 1 (fun x => { x with up := true }) { dev with st.vatStore := [0] }
     s.st.vatStore = [0] ∧ (List.range 4).find? (fun r => r ≠ 0 && (s.acd r).up && !(s.acd r).safe) = some 1) ∧
    (let s := asleep dev
     (s.fnS .bu).dstate3 = false ∧ isDevmgr s .bu = true ∧ s.tm.boot = .running ∧ s.tm.restEnter = false ∧ restRefusal false s = 0 ∧
     restRefusal true s = 0) ∧
    (tlpDropped dev 0 none = false ∧ tlpDropped (asleep dev) 16 none = false ∧ (dev.fnS (.pf 0)).dstate3 = false ∧
     isDevmgr dev (.pf 0) = true ∧ dev.tm.restEnter = false ∧ restRefusal false dev ≠ 0 ∧ restRefusal true dev ≠ 0) ∧
    (let s := { dev with tm.restEnter := true }
     s.tm.boot = .running ∧ s.tm.restEnter = true ∧ s.tm.restDeep = false ∧ causeOn s .waken = true) ∧
    (∀ b ∈ [true, false], let s := { dev with tm.restEnter := true, tm.restDeep := b }
     s.tm.restEnter = true ∧ s.sp.turn = none ∧ s.tm.restDeep = b ∧
     watchedPending { s with tm.restEnter := false, tm.refused := 0, tm.boot := .rest } = []) ∧
    (∀ b ∈ [Boot.rest, .deepRest], let s := { dev with tm.boot := b, cv.caveAlarmEn := true }
     s.tm.boot = b ∧ causeOn s .waken = true ∧ causeOn s .alarm = true ∧ s.cv.caveWakeEn = true ∧ s.cv.caveAlarmEn = true ∧ s.tm.restEnter = false) ∧
    isFixed .waken = true ∧ isFixed .alarm = true ∧ ({ dev with tm.boot := .deepWake }).tm.boot = .deepWake := by
  decide +kernel

/-- Event hoop e of a function, in a state, with one record not consumed. -/
def evHoop (e : Nat) (f : Fn) (i : IntState) (s : State) : State :=
  modEvq e (fun _ => { present := true, fn := f, log2 := 4, wr := 1, writers := [0], en := true, tmask := 1, ist := i, msgDue := true }) s

theorem witness_InterruptCommandsTakeEffect :
    ((evHoop 1 (.pf 0) .armed dev).evq 1).ist = .armed ∧ ((evHoop 1 (.pf 0) .armed dev).evq 1).en = true ∧
    (let s := evHoop 1 (.pf 0) .signalled dev
     (s.evq 1).msgDue = true ∧ (s.fnS (s.evq 1).fn).dstate3 = false ∧ (∀ r ∈ s.ev.heldRecs, r.1 ≠ 1) ∧ fastAhead s 1 = false) ∧
    2047 < vectorCount (.pf 0) ∧ tlpDropped dev 0 none = false ∧ tlpDropped dev 16 none = false ∧
    (let s := modFnS (.pf 0) (fun f => { f with claimQ := [(0, [1])] }) dev
     (s.fnS (.pf 0)).dstate3 = false ∧ isVf (.pf 0) = false ∧ tabGet [] (s.fnS (.pf 0)).claimQ 0 = [1] ∧
     tabGet [] (s.fnS (.pf 0)).claimQ 1 = []) ∧
    (let s := evHoop 1 (.pf 0) .claimed dev; let v : W64 := 0x10001
     ((s.evq 1).present && (s.evq 1).fn = .pf 0 && (s.evq 1).ist = .claimed && isFastEvq 1 = false) = true ∧ field v.toNat 27 16 = 1 ∧
     readInRange (s.evq 1) (field v.toNat 15 0) = true ∧ readInRange (s.evq 1) 9 = false) ∧
    (let s := evHoop 4095 (.pf 0) .claimed dev; let v : W64 := 0xFFF0001
     ((s.evq 4095).present && (s.evq 4095).fn = .pf 0 && (s.evq 4095).ist = .claimed && isFastEvq 4095) = true ∧ field v.toNat 27 16 = 4095 ∧
     readInRange (s.evq 4095) (field v.toNat 15 0) = true) ∧
    (let s := evHoop 1 (.vf 0 0) .claimed (vf0 .running dev); let v : W64 := 0x10001
     isVf (.vf 0 0) = true ∧ (s.fnS (.vf 0 0)).dstate3 = false ∧
     ((s.evq 1).present && (s.evq 1).fn = .vf 0 0 && (s.evq 1).ist = .claimed && isFastEvq 1 = false) = true ∧
     readInRange (s.evq 1) (field v.toNat 15 0) = true) ∧
    (let s := onHoop (ent 1) dev; bankSource s (.pf 0) (64 * 0 + 0) = some 0 ∧ bankSource dev (.pf 0) (64 * 288 + 63) = some 18495 ∧ fastSlotOf s 0 = none) ∧
    fastSrcOk (onHoop (ent 1) dev) 0 255 0x8000000000000000 = true ∧ fastSrcOk dev 0 255 0x8000000000000000 = false := by
  decide +kernel

theorem witness_EnablesAndWritesTakeEffect :
    (let s := modHoop 0 (fun x => { x with enabled := false, idle := true }) (onHoop (ent 1) dev)
     pageHoop s (.pf 0) 0 = some 0 ∧ (s.hoop 0).present = true ∧ (s.hoop 0).enabled = false ∧ (s.hoop 0).idle = true ∧
     (s.hoop 0).ringFault = false ∧ sliceSafe s (sliceOf 0) = false ∧ tlpDropped s 0 none = false ∧ tlpDropped s 16 none = false) ∧
    (adminOf (.pf 3) = some 3 ∧ (dev.fnS (.pf 3)).dstate3 = false ∧ (dev.admin 3).enable = false ∧ (dev.admin 3).running = false ∧
     (dev.admin 3).ringFault = false ∧ adminCfgOk 3 (dev.admin 3) = true ∧ adminCfgOk 3 { dev.admin 3 with log2 := 13 } = false) ∧
    (isDevmgr dev (.pf 0) = true ∧ srcExists 0 = true ∧ mayManage dev (.pf 0) = true ∧ (dev.hc 2).linkEn = false ∧ (dev.hc 0).linkEn = true ∧
     dev.tm.recovery = false ∧ (dev.acd 3).linkEn = false ∧ (dev.acd 0).linkEn = true ∧ (dev.acd 0).safe = false ∧
     (dev.peerP 15).en = false ∧ (dev.peerP 0).en = true) ∧
    ((dev.coll 2).enable = false ∧ collWriter dev (.pf 0) 2 (0 ||| 0x8000000000000000) = true) ∧
    (let s := grouped false (onHoop (ent 1) dev)
     (s.coll 2).enable = true ∧ collWriter s (.pf 0) 2 0 = true ∧ (s.hoop (s.coll 2).hoop).present = true ∧
     (s.hoop (s.coll 2).hoop).idle = false) ∧
    ((grouped false dev).hoop ((grouped false dev).coll 2).hoop).present = false ∧
    (field (15 : W64).toNat 3 0 < 16 ∧ hostMode dev 15 = true ∧ hcWheelOf dev 15 = 0) ∧
    (hitsForeign dev (.pf 0) 0x1000000 8 = false ∧ rungPages (.pf 0) (enabledAt 0x1000000 (List.replicate 8 (some 1))) ≠ [] ∧
     hitsForeign (modWheel 3 (fun w => { w with present := true }) { dev with wh.sliceWheel := [(0, 3)] }) (.pf 0) 0x1000000 8 = true ∧
     ((modFnS (.pf 0) (fun x => { x with dstate3 := true }) dev).fnS (.pf 0)).dstate3 = true ∧
     rungPages (.pf 0) (enabledAt 0x10000 (List.replicate 4 (some 1))) = [] ∧
     badAdminTail (.pf 0) (enabledAt 0x10000 (List.replicate 4 (some 1))) = true) ∧
    (let data : List (Option Byte) := List.replicate 8 (some 1)
     hitsForeign dev (.pf 0) 0x40010 8 = false ∧ rungPages (.pf 0) (enabledAt 0x40010 data) = [] ∧
     badAdminTail (.pf 0) (enabledAt 0x40010 data) = false ∧ (touched (.pf 0) (enabledAt 0x40010 data)).all (wholeReg (enabledAt 0x40010 data)) = true) := by
  decide +kernel

/-- A store barrier, or with full a full barrier, waits for a store to a held stack. -/
def barred (full : Bool) : State :=
  modAcd 0 (fun p => { p with rates := (List.range 8).map (fun k => (k, 0)) })
    { dev with af.barSt := true, af.barFull := full, af.affBuf := [(0, 1)] }

theorem witness_CoreAccessesComplete :
    (affPlaced (2 ^ 52 + 2 ^ 27 - 1) 1 = true ∧ coreGo dev = dev ∧ dev.af.barFull = false ∧
      ∀ b ∈ [true, false], affLoadWaits (ntFlush (2 ^ 52) 8 (when b (affInval (2 ^ 52) 8) (takeFree 1 dev))) (2 ^ 52) 8 = false ∧
        affLoadWaits (ntFlush 0 8 (when b (affInval 0 8) (takeFree 1 (barred false)))) 0 8 = true) ∧
    (affPlaced 0 1 = true ∧ (coreGo (barred true)).af.barFull = true ∧ (coreGo (barred false)).af.barSt = true) ∧
    (resvHome (2 ^ 52) = some 0 ∧ dev.af.affCond = none ∧
      (let u := affInval (granuleOf (2 ^ 52)) (granuleLen (2 ^ 52)) (drainStores (ntFlush (granuleOf (2 ^ 52)) (granuleLen (2 ^ 52)) dev))
       affLoadWaits u (granuleOf (2 ^ 52)) (granuleLen (2 ^ 52)) = false ∧ u.af.affBuf = [] ∧
       affReadable (loseResv isCoreResv (affRead (2 ^ 52) 64 u)) (granuleOf (2 ^ 52)) = true)) ∧
    (resvHome (2 ^ 51) = none ∧ affPlaced (2 ^ 51) 1 = true) ∧
    (∀ n ∈ [8, 65], let u := ntRoom (ntNew dev 0 n) dev; u.af.ntLines.length + ntNew u 0 n ≤ 8) ∧
    (let s := { barred false with af.barSt := false, af.affBuf := [], af.ntLines := (List.range 8).map (fun k => { addr := 64 * k }) }
     let u := ntRoom (ntNew s 1024 8) s
     8 < u.af.ntLines.length + ntNew u 1024 8) ∧
    (let u := drainStores (ntFlush (2 ^ 52) 1 dev)
     u.af.affCond = none ∧ u.af.barSt = false ∧ u.af.affBuf = [] ∧ u.af.ntLines = [] ∧ coreResv u (2 ^ 52) = none) ∧
    (∀ a ∈ [2 ^ 52, 0], let s := { dev with wk.resvs := [(0, { owner := .core 0, granule := a })] }
      let u := drainStores (ntFlush a 1 s)
      (coreResv u a).isSome = true ∧ affPlaced a 1 = true ∧ isHot u a = false ∧ (freeTag u (.acd 0)).isSome = true) ∧
    homeOf 0 = .acd 0 ∧ homeOf (2 ^ 52) = .slice 0 ∧
    (let s : State := { dev with wk.resvs := [(0, { owner := .core 0, granule := 64 })] }
     (s.wk.resvs.find? (fun x => x.1 = 0 && x.2.granule = 64)).isSome = true) ∧
    (let s := { dev with af.ntLines := [{ addr := 64 }] }; s.af.ntLines.find? (fun l => l.addr = 64) = some { addr := 64 }) := by
  decide +kernel

theorem witness_PushActsAsADoorbell :
    let s := ringed dev
    pageHoop s (.pf 0) 0 = some 0 ∧ (s.hoop 0).tail.toNat % 4 = 1 ∧ dbTaken s 0 ((s.hoop 0).tail + 1) = true ∧
    (s.hoop 0).pushed.length < 4 ∧ (s.hoop 0).migrating = false := by
  decide +kernel

theorem witness_NopHasNoEffectAndCompletesWithOk :
    let s := onHoop (ent 16) dev
    segLive s 0 0 0 = some (ent 16, .todo) ∧ (ent 16).opcode = 0x10 ∧ (ent 16).segs = [.todo] ∧ (ent 16).cause = none ∧
    (ent 16).flagged = false ∧ (ent 16).stops = [] ∧ ∀ r ∈ s.lk.reqs, r.owner ≠ .seg 0 0 0 ∧ r.tagged = true := by
  decide +kernel

theorem witness_AbsmaxIsTheLargestMagnitude :
    (floatFmt 8).isSome = true ∧ (decodeVal 8 0xFF = .nan ∧ 0xFF < 2 ^ widthOf 8) ∧
    (decodeVal 9 0xFC = .inf true ∧ 0xFC < 2 ^ widthOf 9) ∧
    (decodeVal 12 0xF = .fin true 3 1 ∧ 0xF < 2 ^ widthOf 12) ∧
    (let n : RNode := rNode (image 5 32 0 (node 0x29 0x08 0x08 0x8000 0 1 0 0xFF 0)) 0
     n.op = 0x29 ∧ n.fmtA = 8 ∧ laneList (widthOf 8) (([5] : List Nat).take n.count) ≠ []) := by
  decide +kernel

theorem witness_FabsFminAndFmaxOfALane :
    decodeVal 12 8 = .fin true 0 (-1) ∧ decodeVal 12 0 = .fin false 0 (-1) ∧ decodeVal 2 0x7FC00001 = .nan ∧ 0x7FC00001 < 2 ^ widthOf 2 ∧
    (∀ op ∈ [0x23, 0x24, 0x25], (rNode (image 5 32 0 (node op 0x02 0x02 0x8000 0 1 0 0xFF 0)) 0).op = op ∧
      (rNode (image 5 32 0 (node op 0x02 0x02 0x8000 0 1 0 0xFF 0)) 0).fmtA = 2) := by
  decide +kernel


/-! ### The well-formedness smoke: each check refuses a command that names what the Hivik does not have -/

/-- A well-formed packet, and the ways to break it. -/
def pkt0 : Pkt :=
  { tc := 0, hops := 0, dst := 5, src := 9, fdom := 0, tag := 1, len := 64, wide := false, atop := 0, reason := 0, offset := 0, payload := [] }

theorem test_illFormed_rings :
    [Instr.copy 16384 0 0, .copy 0 0 64, .fenceSignal 16384 0, .headPublishTimer 16384, .createHoop 17, .adminCommandComplete 17,
      .fwUpdate 17 true, .queryCaps (.admin 17), .resync (.entry 16384 0), .doorbell (.pf 16) 0 0, .doorbell (.pf 0) 16384 0,
      .push (.pf 0) 0 4 (List.replicate 8 0), .push (.pf 0) 0 0 [], .push (.pf 0) 16384 0 (List.replicate 8 0),
      .adminDoorbell (.vf 0 512) 0, .ringFetch (.data 16384) 1, .ringFetch (.admin 0) 0, .ringFetch (.admin 0) 17,
      .entryStart (.admin 17) 0, .hoopEnable (.pf 0) 16384].all (fun i => !i.wellFormed) = true := by
  decide +kernel

theorem test_illFormed_translation :
    [Instr.vatLoad 65536, .watcherPoll 2048, .hotReset 16, .farTimeout 16 0, .pageRequestResponse 16 0 .success, .priTimeout 0 512,
      .invalidateRequest 16 0 (.pf 0) none 0 1, .invalidateRequest 0 32 (.pf 0) none 0 1,
      .invalidateRequest 0 0 (.vf 16 0) none 0 1, .invalidateRequest 0 0 (.pf 0) (some 1048576) 0 1,
      .invalidateRequest 0 0 (.pf 0) none (2 ^ 64) 1, .invalidateRequest 0 0 (.pf 0) none 0 0,
      .invalidateCompletion 0 32].all (fun i => !i.wellFormed) = true := by
  decide +kernel

theorem test_illFormed_host :
    [Instr.hostCompletion 17 0 .success, .hostCompletion 0 16384 .success, .completionTimeout 17 0, .bar2Read (.pf 0) (2 ^ 27) 1,
      .bar2Read (.pf 0) 0 0, .bar2Write (.pf 0) (2 ^ 27) [] false, .bar2AtomicOp (.pf 0) ⟨false, 2⟩ .swap 4 0 0, .bar2AtomicOp (.pf 0) ⟨false, 0⟩ .swap 16 0 0,
      .bar2AtomicOp (.pf 16) ⟨true, 0⟩ .cas 8 0 0, .configRequest ⟨17, 0, .priReset⟩, .configRequest ⟨0, 513, .priReset⟩, .vfFlr 0 512, .vfEnableSet 0 513, .l0pRequest 0 17, .ideKmKeyProg 0 5 0, .ideKmKSetGo 0 0 2,
      .ideCheckFailed 0 5, .getMeasurements .bu 256, .keyExchange (.doe 16) ⟨0, 0⟩, .spdmRequest (.peer 16) .heartbeat,
      .cacheFillGo 0 0 .e [], .hdmRequest 0 2 0 .readShared].all (fun i => !i.wellFormed) = true := by
  decide +kernel

theorem test_illFormed_ports :
    [Instr.acdWrAck 4 0, .acdLaneFailure 0 16 true, .acdModuleRejoin 4 0, .thermal 0 8 0, .thermal 0 0 256, .fault 0 4 0 0 0, .fault 0 0 0 0 16,
      .rdReq 16 pkt0, .rdReq 0 { pkt0 with tc := 4 }, .rdReq 0 { pkt0 with hops := 8 }, .rdReq 0 { pkt0 with dst := 8192 },
      .rdReq 0 { pkt0 with src := 8192 }, .rdReq 0 { pkt0 with fdom := 4096 }, .rdReq 0 { pkt0 with tag := 8192 },
      .rdReq 0 { pkt0 with len := 4097 }, .rdReq 0 { pkt0 with atop := 32 }, .rdReq 0 { pkt0 with reason := 128 },
      .rdReq 0 { pkt0 with offset := 2 ^ 38 }, .rdReq 0 { pkt0 with payload := List.replicate 4097 0 }, .progressTimeout 256,
      .peerSessionEstablished 0 8192 true, .roshamTrained ⟨32, .straight⟩, .roshamTrained ⟨15, .rx01⟩, .swap 96 0 0, .swap 0 8 0, .swap 0 0 9, .mark 96 0, .done 0 8,
      .laserInputFault 8].all (fun i => !i.wellFormed) = true := by
  decide +kernel

theorem test_illFormed_device :
    [Instr.sourceEvent 4096 ⟨false, []⟩ true, .sourceEvent 0 ⟨true, [0]⟩ true, .sourceEvent 0x100 ⟨true, [1024]⟩ true, .writeGateClosed (.ladle 4 0), .writeGateClosed (.engine 0 5), .writeGateClosed (.cell 2048),
      .writeGateClosed (.walker 72), .writeGateClosed (.acdPort 4), .turnDue 5 0, .turnDue 1 4, .turnDue 12 0, .buLinkTrained 7 1,
      .buLinkTrained 1 3, .coalesceTimeout 4096, .msixUnmask (.pf 0) (.vecMask 2048 true), .claimRead (.pf 0) 2048, .maskSet (.pf 0) 322 0,
      .evqRouteWrite (.pf 0) 4096 0, .fastSrcWrite (.pf 0) 256 0, .srcForce (.pf 0) 4096, .hcLinkEnable (.pf 0) 16, .retrain (.pf 0) 4,
      .collGroupDisable (.pf 0) 256, .routeWrite (.pf 0) 8192 0, .hdmWinWrite (.pf 0) 0 2 0, .registerWrite (.pf 0) 0 [] false,
      .affLoad 0 0, .affStore 0 [], .affConditionalStore 0 60 (List.replicate 8 0), .affConditionalStore 0 128 [0],
      .affConditionalStore 0 0 []].all (fun i => !i.wellFormed) = true := by
  decide +kernel

theorem test_wellFormed_accepts :
    [Instr.copy 16383 0 63, .push (.pf 15) 0 3 (List.replicate 8 0), .vatLoad 65535, .hostCompletion 16 16383 .poisoned,
      .bar2AtomicOp (.pf 0) ⟨true, 16⟩ .cas 16 0 0, .rdReq 0 pkt0, .thermal 3 7 255, .swap 95 7 8, .turnDue 11 3, .barLd, .coldStart,
      .affConditionalStore 0 56 (List.replicate 8 0)].all Instr.wellFormed = true := by
  decide +kernel


/-! ### Numbers of the spec's worked examples -/

/-- The worked block of R177: elements under scale code 127, RNE. -/
theorem test_cvtMx_block :
    [0x4072DB3333333333, 0xC028800000000000, 0, 0x3F50624DD2F1A9FC, 0x4058533333333333, 0xC071800000000000, 0x4004000000000000,
      0x3D8A636641C4DF1A].map (cvtMx 1 8 0 0 0 127) = [0x79, 0xD4, 0x00, 0x01, 0x6C, 0xF9, 0x42, 0x00] := by
  decide +kernel

/-- Its scale codes: amax 301.7 gives 0x7F and amax 0.05 gives 0x72, under which 0.05 becomes 0x7D. -/
theorem test_scaleMx_block :
    scaleMx 1 8 0x4072DB3333333333 = 0x7F ∧ scaleMx 1 8 0x3FA999999999999A = 0x72 ∧
    cvtMx 1 8 0 0 0 0x72 0x3FA999999999999A = 0x7D := by
  decide +kernel

/-- Four gradient shards: VALUE has bits 149 and 126, STATE 0, and the result is 0x3F800001. -/
theorem test_accumulate_shards :
    let a := [0x3F800000, 0x33800000, 0x33800000, 0x80000000].foldl (fun a x => accApply a (decodeVal 2 x)) ⟨false, 0, 0⟩
    a = ⟨false, 2 ^ 149 + 2 ^ 126, 0⟩ ∧ accResolve a 2 0 = (0x3F800001, false) := by
  decide +kernel

/-- The check value of CRC-32C over the digits 1 to 9. -/
theorem test_crc32c_check : crc32c [0x31, 0x32, 0x33, 0x34, 0x35, 0x36, 0x37, 0x38, 0x39] = 0xE3069283 := by
  decide +kernel

/-! ### Single commands -/

/-- What a command leaves of the machine, or the machine before it where it stops. -/
def after (i : Instr) (s : State) : State :=
  match exec i s with
  | .next t => t
  | _ => s

/-- Tables of the worked walk: compute-die memory behind Acdoic port 1. -/
def walked : State :=
  dev |> modVat 0x12 (fun _ => { st := .resident, fn := .pf 0, slot := some 0, rootValid := true, root := 0x10000100000 })
    |> writeBytes 0x10000100000 (natLe 8 0x10000101001) |> writeBytes 0x10000101000 (natLe 8 0x10000102001)
    |> writeBytes 0x10000102020 (natLe 8 0x10000103001) |> writeBytes 0x10000103800 (natLe 8 0x10000104001)
    |> writeBytes 0x10000104900 ((List.range 16).flatMap (fun k => natLe 8 (0x1045670003F + 0x1000 * k)))
    |> modAcd 1 (fun x => { x with linkEn := true, up := true, paramsValid := true, stackLog2 := 34, stackCount := 8 })

/-- The worked walk: a 64 KiB leaf of a consistent group gives P = 0x010456700000. -/
theorem test_walk :
    (match walkVat walked 0x12 0x120123456 false with
     | .leaf l _ _ => (l.pa, l.size, l.rd, l.wr, l.at_) == (0x10456700000, 65536, true, true, true)
     | _ => false) = true := by
  decide +kernel

/-- COPY moves the segment's bytes. -/
theorem test_copy_moves :
    readBytes (after (.copy 0 0 0) (writeBytes (scratchLoc 0) [1, 2, 3, 4, 5, 6, 7, 8] (onHoop (ent 1) dev))) (scratchLoc 0x1000) 8 =
      [1, 2, 3, 4, 5, 6, 7, 8] := by
  decide +kernel

/-- FENCE_SIGNAL raises the fence from 5 to 6. -/
theorem test_fenceSignal_max :
    let e := { ent 10 with fenceVal := 6 }
    readBytes (after (.fenceSignal 0 0) (writeBytes (scratchLoc 0x1000) (natLe 8 5) (onHoop e dev))) (scratchLoc 0x1000) 8 = natLe 8 6 := by
  decide +kernel

/-- A fence that stands higher keeps its value. -/
theorem test_fenceSignal_keeps :
    let e := { ent 10 with fenceVal := 6 }
    readBytes (after (.fenceSignal 0 0) (writeBytes (scratchLoc 0x1000) (natLe 8 9) (onHoop e dev))) (scratchLoc 0x1000) 8 = natLe 8 9 := by
  decide +kernel

/-- A doorbell moves the tail within the ring and not past it. -/
theorem test_doorbell_tail :
    ((after (.doorbell (.pf 0) 0 3) (ringed dev)).hoop 0).tail = 3 ∧ ((after (.doorbell (.pf 0) 0 17) (ringed dev)).hoop 0).tail = 1 := by
  decide +kernel

/-- A push is taken only on slot T mod 4. -/
theorem test_push_slot :
    ((after (.push (.pf 0) 0 1 (List.replicate 8 0)) (ringed dev)).hoop 0).tail = 2 ∧
    ((after (.push (.pf 0) 0 2 (List.replicate 8 0)) (ringed dev)).hoop 0).tail = 1 := by
  decide +kernel

/-- A thermal report sets the rate of the stack that it names (R327). -/
theorem test_thermal_hold : tabGet 0xFF ((after (.thermal 0 2 0) dev).acd 0).rates 2 = 0 := by
  decide +kernel

/-- The device identifies itself (worked accesses: VERSION 0x00020001, IDENT 0x4B554856). -/
theorem test_ident_version : regRead dev (.pf 3) 4 = 0x00020001 ∧
    barRead dev (.pf 3) 0 (List.replicate 8 true) = some ([0x56, 0x48, 0x55, 0x4B, 1, 0, 2, 0].map some) := by
  decide +kernel

/-- BAR.FULL performs the stores before it (R231). -/
theorem test_barFull_drains :
    readBytes (after .barFull { dev with af.affBuf := [(scratchLoc 0x200, 7), (scratchLoc 0x201, 8)] }) (scratchLoc 0x200) 2 = [7, 8] := by
  decide +kernel

/-- An absent address stops the processor's load, and only that. -/
theorem test_affLoad_absent :
    (match exec (.affLoad (2 ^ 53) 8) dev with | .fault .absentAddress => true | _ => false) = true ∧
    (match exec (.affReservedLoad (scratchLoc 0)) dev with | .next _ => true | _ => false) = true := by
  decide +kernel

/-- A host link that trains at 128 GT/s comes up; its loss takes it down. -/
theorem test_host_link_down : ((after (.hostLinkDown 0) dev).hc 0).linkUp = false := by
  decide +kernel

/-- An empty queue lets one tick of 40 ns pass (log entry 4). -/
theorem test_idle_tick :
    (match step { dev with tm.timeKnown := true, tm.deviceTime := 80 } with | .next t => t.tm.deviceTime == 120 | _ => false) = true := by
  decide +kernel


end Sys2Proof.Tests
end

section
/-! The idle step: what one 40 ns period of the Cave's clock changes, and what it leaves alone (log entry 4). -/

namespace Sys2Proof.Machine

open Sys2Proof

theorem step_of_pending_nil {s : State} (h : s.pending = []) : step s = .next (tick s) := by
  simp [step, h]

theorem tick_deviceTime_of_timeKnown {s : State} (h : s.tm.timeKnown = true) :
    (tick s).tm.deviceTime = (s.tm.deviceTime + 40) % 2 ^ 64 := by
  simp [tick, h]

theorem tick_of_timeKnown_eq_false {s : State} (h : s.tm.timeKnown = false) : tick s = s := by
  simp [tick, h]

/-- The mask 44 names the areas that a tick may change: time (4), the Cave (8) and the events (32). -/
theorem same_tick (s : State) : Same 44 s (tick s) := tick_same (Same.refl s) (by decide)

theorem Area.testBit_tick_mask {p : Area} (htime : p ≠ .time) (hcave : p ≠ .cave) (hevents : p ≠ .events) :
    (44 : Nat).testBit (Area.bit p) = false := by
  cases p with
  | time => exact absurd rfl htime
  | cave => exact absurd rfl hcave
  | events => exact absurd rfl hevents
  | _ => decide

theorem tick_pending (s : State) : (tick s).pending = s.pending := (same_tick s).pending

theorem area_same_tick (s : State) (p : Area) (htime : p ≠ .time) (hcave : p ≠ .cave) (hevents : p ≠ .events) :
    p.same s (tick s) :=
  (same_tick s).part p (Area.testBit_tick_mask htime hcave hevents)

/-- Settles O2: the idle step is tick, and tick's footprint is the time, the Cave and the events. -/
theorem idleStepIsOneTick : Obligations.IdleStepIsOneTick := by
  unfold Obligations.IdleStepIsOneTick
  intro s hs
  exact ⟨tick s, step_of_pending_nil hs, tick_deviceTime_of_timeKnown, tick_of_timeKnown_eq_false, tick_pending s,
    area_same_tick s⟩

end Sys2Proof.Machine
end

section
/-! Fence reads: what the commands on armed waits do where the fence word has its translation and no coherent window or host
stands between (R39 to R41). -/

namespace Sys2Proof.Machine

open Sys2Proof

/-- The fence word of y is found at location pa: its translation is there, its home serves it, it lies in no coherent window and
no host holds its line for writing. -/
structure FenceReached (s : State) (y : Watcher) (pa : Nat) : Prop where
  found : lookupIn (some (watchSeat y)) s y.vat y.va.toNat .read = .ok pa
  served : homeUp s (homeOf pa) = true
  noWindow : cohPort s y.vat y.va.toNat = none
  noHolder : filterHits s { va := y.va.toNat, pa := pa, len := 8, need := .read } = []

/-- Watcher w keeps the value that its fence had. -/
def watcherSaw (w : Nat) (val : W64) (s : State) : State := modWatcher w (fun x => { x with lastVal := val }) s

/-- Polled wait k keeps the value that its fence had. -/
def pollSaw (k : Nat) (val : W64) (s : State) : State := modPollWait k (fun x => { x with lastVal := val }) s

theorem watcherSaw_lastVal (w : Nat) (val : W64) (s : State) : ((watcherSaw w val s).watcher w).lastVal = val := by
  simp [watcherSaw]

theorem pollSaw_lastVal (k : Nat) (val : W64) (s : State) : ((pollSaw k val s).pollWait k).lastVal = val := by
  simp [pollSaw]

theorem readWatcher_of_tabHas {s : State} {w : Nat} (h : tabHas s.wk.watchers w = true) :
    readWatcher w s = readFence (.watcher w) (some w) (s.watcher w) false (watcherSaw w) s := if_pos h

theorem readPoll_of_tabHas {s : State} {k : Nat} (h : tabHas s.wk.polls k = true) :
    readPoll k s = readFence (.poll k) none (s.pollWait k) false (pollSaw k) s := if_pos h

theorem exec_watcherReread (w : Nat) (s : State) : exec (.watcherReread w) s = .next (readWatcher w s) := rfl

theorem exec_watcherPoll_of_tabHas {s : State} {w : Nat} (h : tabHas s.wk.watchers w = true) :
    exec (.watcherPoll w) s = .next (readWatcher w s) := congrArg Host.Outcome.next (if_pos h)

theorem exec_hoopEnginePoll (k : Nat) (s : State) : exec (.hoopEnginePoll k) s = .next (readPoll k s) := rfl

theorem askXlate_of_ok {s : State} {k v va pa : Nat} {need : Access} (h : lookupIn (some k) s v va need = .ok pa) :
    askXlate k v va need s = s := by
  simp [askXlate, h]

/-- A fence in the scratchpad is read at once, and its value reaches the waits (R37, R40). -/
theorem readFence_of_inside {s : State} {y : Watcher} {pa : Nat} (hf : FenceReached s y pa) (o : Owner) (x : Option Nat)
    (put : W64 → State → State) (hin : tgtOf (homeOf pa) = none) (hpoison : poisonedAt s pa 8 = false) :
    readFence o x y false put s =
      fenceSeen x y.waits (BitVec.ofNat 64 (readNat s pa 8)) (put (BitVec.ofNat 64 (readNat s pa 8)) s) := by
  simp [readFence, askXlate_of_ok hf.found, hf.found, hf.served, hf.noWindow, hf.noHolder, hin, hpoison]

/-- The read of a fence behind a port or node is sent, unless one is outstanding already (R39, R41). -/
theorem readFence_of_outside {s : State} {y : Watcher} {pa : Nat} (hf : FenceReached s y pa) {o : Owner} (x : Option Nat)
    (put : W64 → State → State) (hout : tgtOf (homeOf pa) ≠ none) (hfree : waitsFor s o = false) :
    readFence o x y false put s = askFence o y pa s := by
  have hsome : (tgtOf (homeOf pa)).isSome = true := Option.isSome_iff_ne_none.2 hout
  simp [readFence, askXlate_of_ok hf.found, hf.found, hf.served, hf.noWindow, hf.noHolder, hout, hsome, hfree]

/-- Settles O28: an armed watcher or polled wait whose fence word is reached reads it in the scratchpad, and asks for it
elsewhere. -/
theorem watchersReadTheirFence : Obligations.WatchersReadTheirFence := by
  unfold Obligations.WatchersReadTheirFence
  refine ⟨fun s w pa harmed => ?_, fun s k pa harmed => ?_⟩
  · intro y hfound hup hcoh hhits
    have hf : FenceReached s y pa := ⟨hfound, hup, hcoh, hhits⟩
    rw [exec_watcherPoll_of_tabHas harmed, exec_watcherReread, readWatcher_of_tabHas harmed]
    refine ⟨fun hin hpoison => ?_, fun hout hfree => ?_⟩
    · rw [readFence_of_inside hf (.watcher w) (some w) (watcherSaw w) hin hpoison]
      exact ⟨_, rfl, rfl, watcherSaw_lastVal w _ s⟩
    · rw [readFence_of_outside hf (some w) (watcherSaw w) hout hfree]
      exact ⟨rfl, rfl⟩
  · intro y hfound hup hcoh hhits
    have hf : FenceReached s y pa := ⟨hfound, hup, hcoh, hhits⟩
    rw [exec_hoopEnginePoll, readPoll_of_tabHas harmed]
    exact ⟨fun hin hpoison =>
        ⟨_, congrArg _ (readFence_of_inside hf (.poll k) none (pollSaw k) hin hpoison), pollSaw_lastVal k _ s⟩,
      fun hout hfree => congrArg _ (readFence_of_outside hf none (pollSaw k) hout hfree)⟩

end Sys2Proof.Machine
end

section
/-! Reports: how QUERY_CAPS and RESYNC deliver their bytes on an admin hoop and on a data hoop (R48, R120, R458 to R460). -/

namespace Sys2Proof.Machine

open Sys2Proof

/-! ### Sizing -/

theorem sizeOf_zero (m : Nat) : sizeOf 0 m = .size := by simp [sizeOf]

theorem sizeOf_of_le {n m : Nat} (hfit : m ≤ n) (hn : n ≠ 0) : sizeOf n m = .fits := by
  simp [sizeOf, hn, Nat.not_lt.2 hfit]

/-! ### The admin entry in progress -/

theorem adminCur_of_adminEntry {s : State} {a op : Nat} {e : Entry} (h : adminEntry s a op = some e) : adminCur s a = some e := by
  unfold adminEntry at h
  split at h
  next e' hcur =>
    split at h
    · rw [hcur, h]
    · cases h
  next => cases h

theorem adminCur_of_wk_admins_eq {s t : State} (h : t.wk.admins = s.wk.admins) (a : Nat) : adminCur t a = adminCur s a := by
  simp [adminCur, State.admin, h]

theorem adminHold_of_adminCur {s : State} {a : Nat} {e : Entry} (h : adminCur s a = some e) (k : AdminKind) (st : Status)
    (n : Nat) :
    adminHold a k st n s = modAdmin a (fun x => { x with
      cur := some { idx := e.idx, kind := k, status := st, doneBytes := n, ports := [], dst := 0 } }) s := by
  simp [adminHold, h]

theorem adminState_wk (s : State) (a : Nat) : (adminState s a).wk = s.wk :=
  (dropOwner_same (c := 1026) (Same.refl s) (by decide)).part .work (by decide)

theorem adminState_mem (s : State) (a : Nat) : (adminState s a).m.mem = s.m.mem :=
  ((dropOwner_same (c := 1026) (Same.refl s) (by decide)).part .memory (by decide)).1

theorem adminOut_wk (a p : Nat) (bs : List Byte) (s : State) : (adminOut a p bs s).wk = s.wk :=
  (adminOut_same (c := 3) (Same.refl s) (by decide)).part .work (by decide)

theorem adminRun_of_adminGot {s : State} {a op : Nat} {e : Entry} {q : List W64} (h : AdminGot s a op e q)
    {sel : Entry → List W64 → Bool} (hsel : sel e q = true) (act : Entry → List W64 → State → State) :
    adminRun a op sel act s = act e q (adminState s a) := by
  obtain ⟨hentry, hinput, rfl⟩ := h
  rcases hinput with hnone | hok
  · simp [adminRun, hentry, hsel, hnone, adminState]
  · simp [adminRun, hentry, hsel, hok, adminState]

theorem adminCur_adminState_of_adminGot {s : State} {a op : Nat} {e : Entry} {q : List W64} (h : AdminGot s a op e q) :
    adminCur (adminState s a) a = some e := by
  obtain ⟨hentry, -, -⟩ := h
  rw [adminCur_of_wk_admins_eq (congrArg WorkS.admins (adminState_wk s a)) a, adminCur_of_adminEntry hentry]

/-! ### The fault bits that a RESYNC clears (R206, R459) -/

/-- A vat with its fault bits, CAUSE and FAULT_VA cleared. -/
def Vat.withoutFaults (x : Vat) : Vat :=
  { x with xlateSeen := false, rindSeen := false, pageReqSeen := false, partialSeen := false, cause := 0, faultVa := 0 }

theorem clearVatFaults_vat (vs : List Nat) (s : State) (x : Nat) :
    (clearVatFaults vs s).vat x = if x ∈ vs then Vat.withoutFaults (s.vat x) else s.vat x := by
  induction vs generalizing s with
  | nil => rfl
  | cons v vs ih =>
    have hstep : clearVatFaults (v :: vs) s = clearVatFaults vs (modVat v Vat.withoutFaults s) := rfl
    rw [hstep, ih]
    by_cases hx : x = v
    · subst hx
      simp [Vat.withoutFaults]
    · simp [modVat_other _ _ _ _ hx, hx]

theorem clearVatFaults_wk_admins (vs : List Nat) (s : State) : (clearVatFaults vs s).wk.admins = s.wk.admins := by
  induction vs generalizing s with
  | nil => rfl
  | cons v vs ih => exact ih (modVat v Vat.withoutFaults s)

/-! ### A report on an admin hoop -/

theorem adminReport_of_outLen_zero {e : Entry} (h : outLen e = 0) (a : Nat) (bs : List Byte) (post : State → State) (long : Bool)
    (s : State) :
    adminReport a e bs post long s =
      if long then adminHold a .resync .ok bs.length s else adminFinish a .ok false bs.length s := by
  simp only [adminReport, h, sizeOf_zero]

theorem adminReport_of_fits {e : Entry} {bs : List Byte} (hfit : bs.length ≤ outLen e) (hn : outLen e ≠ 0) (a : Nat)
    (post : State → State) (long : Bool) (s : State) :
    adminReport a e bs post long s =
      if long then adminHold a .resync .ok bs.length (adminOut a e.dst.toNat bs (post s))
      else adminFinish a .ok false bs.length (adminOut a e.dst.toNat bs (post s)) := by
  simp only [adminReport, sizeOf_of_le hfit hn]

/-! ### A report on a data hoop (R83, R493) -/

theorem entryOf_of_segLive {s : State} {h : Nat} {i : W32} {j : Nat} {e : Entry} {g : SegState}
    (hlive : segLive s h i j = some (e, g)) : entryOf s h i = some e := by
  unfold segLive at hlive
  split at hlive
  next => cases hlive
  next e' hentry =>
    split at hlive
    next => cases hlive
    next g' _ =>
      split at hlive
      · cases hlive
        exact hentry
      · cases hlive

theorem entryReport_of_outLen_zero {s : State} {op h : Nat} {i : W32} {e : Entry} (hlive : segLive s h i 0 = some (e, .todo))
    (hop : e.opcode = op) (hn : outLen e = 0) (bs : State → List Byte) (post : State → State) :
    entryReport op h i bs post s = finishEntry h i .ok false (bs s).length s := by
  simp [entryReport, hlive, hop, hn, sizeOf_zero]

theorem busySeg_mem (h : Nat) (i : W32) (j : Nat) (ps : List Part) (s : State) : (busySeg h i j ps s).m.mem = s.m.mem :=
  ((busySeg_same (c := 9266) (Same.refl s) (by decide)).part .memory (by decide)).1

/-- A report whose output passes the gate stands at DST, whether or not its writes await answers. -/
theorem entryReport_of_go {s g : State} {op h : Nat} {i : W32} {e : Entry} {ps : List Part} {bs : State → List Byte}
    (hlive : segLive s h i 0 = some (e, .todo)) (hop : e.opcode = op) (hfit : (bs s).length ≤ outLen e) (hn : outLen e ≠ 0)
    (hgate : gateSeg (.seg h i 0) (s.hoop h).vat [(e.dst.toNat, (bs s).length, .write)] s = (.go ps, g))
    (post : State → State) :
    ∃ u, entryReport op h i bs post s =
        (if waitsFor u (.seg h i 0) then u else finishEntry h i .ok false (bs s).length u) ∧
      u.m.mem = (vstore (s.hoop h).vat .write e.dst.toNat (bs s) (post g)).m.mem := by
  refine ⟨busySeg h i 0 ps (modEntry h i (fun e => { e with report := (bs s).length })
    (vstore (s.hoop h).vat .write e.dst.toNat (bs s) (post g))), ?_, busySeg_mem ..⟩
  simp [entryReport, hlive, hop, sizeOf_of_le hfit hn, hgate, reportSent]

/-! ### The four forms of the commands -/

/-- What RESYNC leaves to ADMIN_COMMAND_COMPLETE: status OK and the n bytes of its report (R460). -/
def resyncWork (e : Entry) (n : Nat) : AdminWork :=
  { idx := e.idx, kind := .resync, status := .ok, doneBytes := n, ports := [], dst := 0 }

/-- RESYNC on an admin hoop, its report of n bytes delivered in state s, is left in progress. -/
def resyncHeld (a : Nat) (e : Entry) (n : Nat) (s : State) : State :=
  modAdmin a (fun x => { x with cur := some (resyncWork e n) }) s

theorem resyncHeld_cur (a : Nat) (e : Entry) (n : Nat) (s : State) :
    ((resyncHeld a e n s).admin a).cur = some (resyncWork e n) := by
  simp [resyncHeld]

theorem resyncHeld_vat (a : Nat) (e : Entry) (n : Nat) (s : State) (x : Nat) : (resyncHeld a e n s).vat x = s.vat x := rfl

theorem adminOut_vat (a p : Nat) (bs : List Byte) (s : State) (x : Nat) : (adminOut a p bs s).vat x = s.vat x := by
  simp [State.vat, adminOut_wk]

theorem exec_queryCaps_admin {s : State} {a : Nat} {e : Entry} {q : List W64} (h : AdminGot s a 0x89 e q) :
    exec (.queryCaps (.admin a)) s =
      .next (adminReport a e (capTable (adminState s a) (adminFn a)) id false (adminState s a)) :=
  congrArg Host.Outcome.next (adminRun_of_adminGot h rfl _)

theorem exec_resync_admin {s : State} {a : Nat} {e : Entry} {q : List W64} (h : AdminGot s a 0x8A e q) :
    exec (.resync (.admin a)) s =
      .next (adminReport a e (summary (adminState s a) (adminFn a))
        (when (e.flag 0) (clearVatFaults (scopeVats (adminState s a) (adminFn a)))) true (adminState s a)) :=
  congrArg Host.Outcome.next (adminRun_of_adminGot h rfl _)

theorem exec_resync_admin_of_outLen_zero {s : State} {a : Nat} {e : Entry} {q : List W64} (h : AdminGot s a 0x8A e q)
    (hn : outLen e = 0) :
    exec (.resync (.admin a)) s =
      .next (resyncHeld a e (summary (adminState s a) (adminFn a)).length (adminState s a)) := by
  rw [exec_resync_admin h, adminReport_of_outLen_zero hn, if_pos rfl,
    adminHold_of_adminCur (adminCur_adminState_of_adminGot h)]
  rfl

/-- Neither the output nor the clearing of fault bits touches the admin hoops. -/
theorem adminCur_adminOut_clearVatFaults (a p : Nat) (bs : List Byte) (clear : Bool) (vs : List Nat) (s : State) :
    adminCur (adminOut a p bs (when clear (clearVatFaults vs) s)) a = adminCur s a := by
  refine adminCur_of_wk_admins_eq ((congrArg WorkS.admins (adminOut_wk ..)).trans ?_) a
  cases clear with
  | true => exact clearVatFaults_wk_admins vs s
  | false => rfl

theorem exec_resync_admin_of_fits {s : State} {a : Nat} {e : Entry} {q : List W64} (h : AdminGot s a 0x8A e q)
    (hfit : (summary (adminState s a) (adminFn a)).length ≤ outLen e) (hn : outLen e ≠ 0) :
    exec (.resync (.admin a)) s =
      .next (resyncHeld a e (summary (adminState s a) (adminFn a)).length
        (adminOut a e.dst.toNat (summary (adminState s a) (adminFn a))
          (when (e.flag 0) (clearVatFaults (scopeVats (adminState s a) (adminFn a))) (adminState s a)))) := by
  rw [exec_resync_admin h, adminReport_of_fits hfit hn, if_pos rfl,
    adminHold_of_adminCur ((adminCur_adminOut_clearVatFaults ..).trans (adminCur_adminState_of_adminGot h))]
  rfl

theorem exec_queryCaps_entry (h : Nat) (i : W32) (s : State) :
    exec (.queryCaps (.entry h i)) s = .next (entryReport 0x89 h i (fun s => capTable s (s.hoop h).fn) id s) := rfl

theorem exec_resync_entry {s : State} {h : Nat} {i : W32} {e : Entry} (hentry : entryOf s h i = some e) :
    exec (.resync (.entry h i)) s =
      .next (entryReport 0x8A h i (fun s => summary s (s.hoop h).fn)
        (when (e.flag 0) (clearVatFaults (scopeVats s (s.hoop h).fn))) s) := by
  have hflag : (entryOf s h i).elim false (fun e => e.flag 0) = e.flag 0 := by rw [hentry]; rfl
  rw [← hflag]
  rfl

/-- Settles O20: each form of the two commands runs its report, and the report's bytes stand where its sizing puts them. -/
theorem reportsComplete : Obligations.ReportsComplete := by
  unfold Obligations.ReportsComplete
  refine ⟨fun s a e q h => ?queryCapsAdmin, fun s a e q h => ?resyncAdmin, fun s h i e hlive hn => ?entryLength,
    fun s h i e ps g bs hlive hfit hn hgate => ?entryOutput⟩
  case queryCapsAdmin =>
    intro u bs
    rw [exec_queryCaps_admin h]
    exact ⟨fun hn => congrArg _ (adminReport_of_outLen_zero hn ..), fun hfit hn => congrArg _ (adminReport_of_fits hfit hn ..)⟩
  case resyncAdmin =>
    intro u bs work
    refine ⟨fun hn => ⟨_, exec_resync_admin_of_outLen_zero h hn, resyncHeld_cur .., adminState_mem s a⟩, fun hfit hn => ?_⟩
    intro v
    refine ⟨_, exec_resync_admin_of_fits h hfit hn, resyncHeld_cur .., rfl, fun hflag x hx => ?_⟩
    rw [resyncHeld_vat, adminOut_vat, when, if_pos hflag, clearVatFaults_vat, if_pos hx]
    exact ⟨rfl, rfl, rfl, rfl, rfl, rfl⟩
  case entryLength =>
    refine ⟨fun hop => ?_, fun hop => ?_⟩
    · rw [exec_queryCaps_entry]
      exact congrArg _ (entryReport_of_outLen_zero hlive hop hn _ _)
    · rw [exec_resync_entry (entryOf_of_segLive hlive)]
      exact congrArg _ (entryReport_of_outLen_zero hlive hop hn _ _)
  case entryOutput =>
    refine ⟨fun hop hbs => ?_, fun hop hbs => ?_⟩
    · subst hbs
      obtain ⟨u, hu, hmem⟩ := entryReport_of_go (bs := fun s => capTable s (s.hoop h).fn) hlive hop hfit hn hgate id
      rw [exec_queryCaps_entry]
      exact ⟨u, congrArg _ hu, by simpa only [id_eq] using hmem⟩
    · subst hbs
      obtain ⟨u, hu, hmem⟩ := entryReport_of_go (bs := fun s => summary s (s.hoop h).fn) hlive hop hfit hn hgate
        (when (e.flag 0) (clearVatFaults (scopeVats s (s.hoop h).fn)))
      rw [exec_resync_entry (entryOf_of_segLive hlive)]
      exact ⟨u, congrArg _ hu, by simpa only [when] using hmem⟩

end Sys2Proof.Machine
end

section
/-! Hoops: what doorbells, pushes, fetches, own re-reads, starts, segment ends and head publication do (R60 to R76, R113). -/

namespace Sys2Proof.Machine

open Sys2Proof

/-! ### What a hoop's table keeps -/

theorem hoop_of_wk_eq {s t : State} (h : t.wk = s.wk) (k : Nat) : t.hoop k = s.hoop k := by
  simp only [State.hoop, h]

theorem admin_of_wk_eq {s t : State} (h : t.wk = s.wk) (a : Nat) : t.admin a = s.admin a := by
  simp only [State.admin, h]

theorem modHoop_hoop (k : Nat) (g : Hoop → Hoop) (s : State) (k' : Nat) :
    (modHoop k g s).hoop k' = if k' = k then g (s.hoop k) else s.hoop k' := by
  by_cases hk : k' = k
  · subst hk
    simp
  · simp [hk, modHoop_other]

/-- Replacing an entry by one that a test judges alike leaves the keys that pass the test. -/
theorem map_fst_filter_tabSet {κ α : Type} [DecidableEq κ] (p : α → Bool) {d : α} (hd : p d = false)
    {t : List (κ × α)} {q : κ} {v : α} (hv : p v = p (tabGet d t q)) :
    ((tabSet t q v).filter (fun e => p e.2)).map (·.1) = (t.filter (fun e => p e.2)).map (·.1) := by
  induction t with
  | nil => simpa [tabSet, tabGet, hd] using hv
  | cons e r ih =>
    obtain ⟨k, w⟩ := e
    by_cases hk : k = q
    · subst hk
      have hvw : p v = p w := by simpa [tabGet] using hv
      cases hw : p w <;> simp [tabSet, hvw, hw]
    · have hr := ih (by simpa [tabGet, hk] using hv)
      cases hw : p w <;> simp [tabSet, hk, hw, hr]

theorem hoopsWith_modHoop {g : Hoop → Hoop} {p : Hoop → Bool} (hpres : ∀ x, (g x).present = x.present)
    (hp : ∀ x, p (g x) = p x) (k : Nat) (s : State) : hoopsWith (modHoop k g s) p = hoopsWith s p :=
  map_fst_filter_tabSet (fun x : Hoop => x.present && p x) (d := {}) rfl (by simp only [hpres, hp]; rfl)

/-! ### Doorbells and pushes (R61 to R63) -/

/-- Hoop h with the tail at v, no longer idle. -/
def setTail (h : Nat) (v : W32) (s : State) : State := modHoop h (fun x => { x with tail := v, idle := false }) s

/-- Hoop h with the pushed words kept as the content of the entry at the tail. -/
def offerPush (h : Nat) (w : List W64) (s : State) : State :=
  modHoop h (fun x => { x with pushed := x.pushed ++ [(x.tail, w)] }) s

theorem dbTaken_iff {s : State} {h : Nat} {v : W32} :
    dbTaken s h v = true ↔ dbDead s h = false ∧ dbGone s h = false ∧
      tailOk (s.hoop h).log2 (s.hoop h).head (s.hoop h).tail v = true := by
  simp [dbTaken, and_assoc]

theorem ne_tail_of_tailOk {n : Nat} {head tail v : W32} (h : tailOk n head tail v = true) : v ≠ tail := by
  simp only [tailOk, Bool.and_eq_true, decide_eq_true_eq] at h
  exact h.1.1

theorem ringTail_of_dbDead {s : State} {h : Nat} (hdead : dbDead s h = true) (v : W32) :
    ringTail h v s = modHoop h (fun x => { x with dbDisabled := true }) s := by
  simp [ringTail, hdead]

theorem ringTail_of_dbTaken {s : State} {h : Nat} {v : W32} (htaken : dbTaken s h v = true) :
    ringTail h v s = askRing h (setTail h v s) := by
  obtain ⟨hdead, hgone, hok⟩ := dbTaken_iff.1 htaken
  simp [ringTail, hdead, hgone, hok, ne_tail_of_tailOk hok, setTail]

theorem ringTail_of_tailOk_eq_false {s : State} {h : Nat} {v : W32} (hdead : dbDead s h = false) (hgone : dbGone s h = false)
    (hne : v ≠ (s.hoop h).tail) (hok : tailOk (s.hoop h).log2 (s.hoop h).head (s.hoop h).tail v = false) :
    ringTail h v s = modHoop h (fun x => { x with tailRange := true }) s := by
  simp [ringTail, hdead, hgone, hok, hne]

theorem exec_doorbell_of_pageHoop {s : State} {f : Fn} {n h : Nat} (hpage : pageHoop s f n = some h) (v : W64) :
    exec (.doorbell f n v) s = .next (ringTail h (v.setWidth 32) s) := by
  show execDoorbell f n v s = _
  simp only [execDoorbell, hpage]

theorem exec_push_of_pageHoop {s : State} {f : Fn} {n h : Nat} (hpage : pageHoop s f n = some h) (slot : Nat)
    (w : List W64) : exec (.push f n slot w) s = .next (pushEntry h slot w s) := by
  show execPush f n slot w s = _
  simp only [execPush, hpage]

theorem pushEntry_of_ne_slot {s : State} {h slot : Nat} (hslot : slot ≠ (s.hoop h).tail.toNat % 4) (w : List W64) :
    pushEntry h slot w s = modHoop h (fun x => { x with pushMismatch := true }) s := if_pos hslot

/-- Whether a push at the tail of hoop h finds room in the buffer of R63. -/
def pushRoom (s : State) (h : Nat) : Bool :=
  dbTaken s h ((s.hoop h).tail + 1) && (s.hoop h).pushed.length < 4 && !(s.hoop h).migrating

theorem pushRoom_iff {s : State} {h : Nat} :
    pushRoom s h = true ↔ dbTaken s h ((s.hoop h).tail + 1) = true ∧ (s.hoop h).pushed.length < 4 ∧
      (s.hoop h).migrating = false := by
  simp [pushRoom, and_assoc]

theorem pushEntry_of_slot {s : State} {h slot : Nat} (hslot : slot = (s.hoop h).tail.toNat % 4) (w : List W64) :
    pushEntry h slot w s = ringTail h ((s.hoop h).tail + 1) (when (pushRoom s h) (offerPush h w) s) :=
  if_neg (not_not_intro hslot)

theorem dbTaken_offerPush (h : Nat) (w : List W64) (s : State) (v : W32) :
    dbTaken (offerPush h w s) h v = dbTaken s h v := by
  simp only [dbTaken, dbDead, dbGone, offerPush, modHoop_self]
  rfl

/-- A part of the hoops other than their pushed words is as it was. -/
theorem offerPush_hoop {α : Type} (π : Hoop → α) (hπ : ∀ x l, π { x with pushed := l } = π x) (h : Nat) (w : List W64)
    (s : State) (k : Nat) : π ((offerPush h w s).hoop k) = π (s.hoop k) := by
  rw [offerPush, modHoop_hoop]
  split
  next hk => rw [hk, hπ]
  next => rfl

theorem pageHoop_offerPush (h : Nat) (w : List W64) (s : State) (f : Fn) (n : Nat) :
    pageHoop (offerPush h w s) f n = pageHoop s f n := by
  have hpresent := offerPush_hoop Hoop.present (fun _ _ => rfl) h w s
  have hfn := offerPush_hoop Hoop.fn (fun _ _ => rfl) h w s
  have hslot := offerPush_hoop Hoop.vfSlot (fun _ _ => rfl) h w s
  have hof : hoopsOf (offerPush h w s) f = hoopsOf s f :=
    hoopsWith_modHoop (g := fun x => { x with pushed := x.pushed ++ [(x.tail, w)] }) (fun _ => rfl) (fun _ => rfl) h s
  cases f <;> simp only [pageHoop, hpresent, hfn, hslot, hof] <;> rfl

/-- Settles O57: a push to the tail's slot is the doorbell of T + 1 on the state that keeps the pushed words, where the buffer
takes them. -/
theorem pushActsAsADoorbell : Obligations.PushActsAsADoorbell := by
  unfold Obligations.PushActsAsADoorbell
  intro s f n k ws h hpage T offered
  refine ⟨fun hslot => ?accepted, fun hslot => ⟨_, exec_push_of_pageHoop hpage k ws, pushEntry_of_ne_slot hslot ws⟩⟩
  case accepted =>
    have hwidth : ((T + 1).setWidth 64).setWidth 32 = T + 1 := by bv_omega
    refine ⟨_, when (pushRoom s h) (offerPush h ws) s, exec_push_of_pageHoop hpage k ws, ?_, ?_, ?_⟩
    · have hpage' : pageHoop (when (pushRoom s h) (offerPush h ws) s) f n = some h := by
        unfold when
        split
        · rw [pageHoop_offerPush, hpage]
        · exact hpage
      rw [exec_doorbell_of_pageHoop hpage', hwidth, pushEntry_of_slot hslot]
    · cases hroom : pushRoom s h with
      | false => exact Or.inl rfl
      | true => exact Or.inr rfl
    · intro htaken hlen hmig
      rw [pushRoom_iff.2 ⟨htaken, hlen, hmig⟩]
      rfl

theorem exec_push_of_room {s : State} {f : Fn} {n slot h : Nat} (hpage : pageHoop s f n = some h)
    (hslot : slot = (s.hoop h).tail.toNat % 4) (hroom : pushRoom s h = true) (w : List W64) :
    exec (.push f n slot w) s = .next (askRing h (setTail h ((s.hoop h).tail + 1) (offerPush h w s))) := by
  obtain ⟨htaken, -, -⟩ := pushRoom_iff.1 hroom
  rw [exec_push_of_pageHoop hpage, pushEntry_of_slot hslot, hroom, when, if_pos rfl,
    ringTail_of_dbTaken ((dbTaken_offerPush ..).trans htaken)]

theorem inD0_of_reached {s : State} {f : Fn} (htlp : tlpDropped s (pfOf f) none = false) (hd0 : (s.fnS f).dstate3 = false)
    (g : State → State) : inD0 f g s = g s := by
  simp [inD0, fromHost, htlp, hd0]

theorem adminTail_of_tailOk {s : State} {a : Nat} {v : W32} (hen : (s.admin a).enable = true)
    (hfault : (s.admin a).ringFault = false)
    (hok : tailOk (s.admin a).log2 (s.admin a).head (s.admin a).tail v = true) :
    adminTail a v s = askAdmin a (modAdmin a (fun x => { x with tail := v }) s) := by
  simp [adminTail, hen, hfault, hok, ne_tail_of_tailOk hok]

theorem exec_adminDoorbell_of_adminOf {f : Fn} {a : Nat} (h : adminOf f = some a) (v : W64) (s : State) :
    exec (.adminDoorbell f v) s = .next (inD0 f (adminTail a (v.setWidth 32)) s) := by
  show execAdminDoorbell f v s = _
  simp only [execAdminDoorbell, h]

/-- Settles O24: each case of a doorbell, a push and an admin doorbell is one of the cases of ringTail, pushEntry and
adminTail. -/
theorem doorbellsMoveTheTail : Obligations.DoorbellsMoveTheTail := by
  unfold Obligations.DoorbellsMoveTheTail
  refine ⟨?taken, ?range, ?dead, ?push, ?mismatch, ?admin⟩
  case taken =>
    intro s f n v h hpage hdead hgone hok
    refine ⟨setTail h (v.setWidth 32) s, ?_, by simp [setTail], by simp [setTail], by simp [setTail]⟩
    rw [exec_doorbell_of_pageHoop hpage, ringTail_of_dbTaken (dbTaken_iff.2 ⟨hdead, hgone, hok⟩)]
  case range =>
    intro s f n v h hpage hdead hgone hne hok
    refine ⟨_, exec_doorbell_of_pageHoop hpage v, ?_⟩
    rw [ringTail_of_tailOk_eq_false hdead hgone hne hok]
    simp
  case dead =>
    intro s f n v h hpage hdead
    refine ⟨_, exec_doorbell_of_pageHoop hpage v, ?_⟩
    rw [ringTail_of_dbDead hdead]
    simp
  case push =>
    intro s f n slot ws h hpage hslot htaken hlen hmig
    exact ⟨_, exec_push_of_room hpage hslot (pushRoom_iff.2 ⟨htaken, hlen, hmig⟩) ws, by simp [setTail],
      by simp [setTail, offerPush]⟩
  case mismatch =>
    intro s f n slot ws h hpage hslot
    refine ⟨_, exec_push_of_pageHoop hpage slot ws, ?_⟩
    rw [pushEntry_of_ne_slot hslot]
    simp
  case admin =>
    intro s f a v ha htlp hd0 hen hfault hok
    refine ⟨modAdmin a (fun x => { x with tail := v.setWidth 32 }) s, ?_, by simp⟩
    rw [exec_adminDoorbell_of_adminOf ha, inD0_of_reached htlp hd0, adminTail_of_tailOk hen hfault hok]

end Sys2Proof.Machine
end

section
/-! Fetch: the entries that RING_FETCH and OWN_REREAD take (R64). -/

namespace Sys2Proof.Machine

open Sys2Proof

theorem dropOwner_wk (o : Owner) (s : State) : (dropOwner o s).wk = s.wk :=
  (dropOwner_same (c := 1026) (Same.refl s) (by decide)).part .work (by decide)

theorem dropOwner_mem (o : Owner) (s : State) : (dropOwner o s).m.mem = s.m.mem :=
  ((dropOwner_same (c := 1026) (Same.refl s) (by decide)).part .memory (by decide)).1

theorem readBytes_of_mem_eq {s t : State} (h : t.m.mem = s.m.mem) (a n : Nat) : readBytes t a n = readBytes s a n := by
  simp only [readBytes, byteAt, h]

theorem entryOfWords_idx (i : W32) (ep : BitVec 8) (w : List W64) : (entryOfWords i ep w).idx = i := rfl

/-- Slot address va of hoop h's ring is found at location pa, which can be read. -/
structure SlotReached (s : State) (h va pa : Nat) : Prop where
  found : lookupIn (some (sliceOf h)) s (s.hoop h).vat va .read = .ok pa
  served : homeUp s (homeOf pa) = true
  clean : poisonedAt s pa 64 = false

/-- The next entry of hoop h is read from its ring: more is to be fetched, it is not complete already, and no pushed copy of it
stands. -/
structure FetchesFromRing (x : Hoop) : Prop where
  more : fetchDone x = false
  notDone : x.doneAhead.contains x.fetchNext = false
  notPushed : pushedAt x x.fetchNext = none

theorem fetchEntries_one {s : State} {h pa : Nat} (hx : FetchesFromRing (s.hoop h))
    (hslot : SlotReached s h (slotAddr (s.hoop h) (s.hoop h).fetchNext) pa) :
    fetchEntries h 1 s = takeWords h (qwords 8 (readBytes s pa 64)) s := by
  obtain ⟨hmore, hnot, hpushed⟩ := hx
  obtain ⟨hfound, hserved, hclean⟩ := hslot
  simp only [fetchEntries, hmore, hnot, hpushed, askXlate_of_ok hfound, hfound, hserved, hclean]
  rfl

theorem exec_ringFetch_data (h n : Nat) (s : State) :
    exec (.ringFetch (.data h) n) s =
      .next (tryIdle h (askRing h (fetchEntries h (min 16 n) (dropOwner (.ring (.data h)) s)))) := rfl

theorem exec_ringFetch_admin (a n : Nat) (s : State) :
    exec (.ringFetch (.admin a) n) s =
      .next (askAdmin a (fetchAdmin a (min 16 n) (dropOwner (.ring (.admin a)) s))) := rfl

/-- Entry e of admin hoop a has been fetched. -/
def adminFetched (a : Nat) (e : Entry) (s : State) : State :=
  modAdmin a (fun x => { x with fetchNext := e.idx + 1, entries := x.entries ++ [e] }) s

/-- Admin hoop a runs, and one more entry of its ring may be fetched. -/
structure AdminFetches (x : AdminHoop) : Prop where
  running : x.running = true
  noFault : x.ringFault = false
  more : x.fetchNext ≠ x.tail
  room : (x.fetchNext - x.head).toNat < 64

theorem fetchAdmin_one {s : State} {a : Nat} (hx : AdminFetches (s.admin a)) (hup : homeUp s (.host a) = true)
    (hclean : poisonedAt s (adminSlot s a (s.admin a).fetchNext) 64 = false) {e : Entry}
    (he : e = entryOfWords (s.admin a).fetchNext 0
      (qwords 8 (readBytes s (adminSlot s a (s.admin a).fetchNext) 64))) :
    fetchAdmin a 1 s = when e.own (adminValidate a e) (adminFetched a e s) := by
  obtain ⟨hrun, hfault, hmore, hroom⟩ := hx
  subst he
  simp only [fetchAdmin, hrun, hfault, hmore, Nat.not_le.2 hroom, hup, hclean]
  rfl

theorem exec_ownReread_data (h : Nat) (s : State) :
    exec (.ownReread (.data h)) s =
      .next (forAll ((s.hoop h).entries.filter (fun e => e.phase = .fetched && !e.own)) (rereadEntry h) s) := rfl

theorem exec_ownReread_admin (a : Nat) (s : State) :
    exec (.ownReread (.admin a)) s =
      .next (forAll ((s.admin a).entries.filter (fun e => e.phase = .fetched && !e.own)) (rereadAdmin a) s) := rfl

theorem forAll_singleton {α : Type} (x : α) (f : α → State → State) (s : State) : forAll [x] f s = f x s := rfl

theorem rereadEntry_of_own {s : State} {h pa : Nat} {e : Entry} (hslot : SlotReached s h (slotAddr (s.hoop h) e.idx) pa)
    (hown : (readEntry e.idx e.epoch e.again (qwords 8 (readBytes s pa 64))).own = true) :
    rereadEntry h e s = validate h e.idx
      (modEntry h e.idx (fun _ => readEntry e.idx e.epoch e.again (qwords 8 (readBytes s pa 64))) s) := by
  obtain ⟨hfound, hserved, hclean⟩ := hslot
  simp only [rereadEntry, askXlate_of_ok hfound, hfound, hserved, hclean, hown]
  rfl

/-- Admin hoop a with entry e in the place of the entry of its index. -/
def adminReplaced (a : Nat) (e : Entry) (s : State) : State :=
  modAdmin a (fun x => { x with entries := x.entries.map (fun y => if y.idx = e.idx then e else y) }) s

theorem rereadAdmin_of_own {s : State} {a : Nat} {e y : Entry} (hup : homeUp s (.host a) = true)
    (hclean : poisonedAt s (adminSlot s a e.idx) 64 = false)
    (hy : y = entryOfWords e.idx 0 (qwords 8 (readBytes s (adminSlot s a e.idx) 64))) (hown : y.own = true) :
    rereadAdmin a e s = adminValidate a y (adminReplaced a y s) := by
  have hidx : y.idx = e.idx := by rw [hy, entryOfWords_idx]
  simp only [rereadAdmin, hup, hclean, ← hy, hown, adminReplaced, hidx]
  rfl

/-- Settles O25: one entry fetched is one round of fetchEntries or fetchAdmin, and one re-read is rereadEntry or rereadAdmin. -/
theorem fetchedEntriesAreTaken : Obligations.FetchedEntriesAreTaken := by
  unfold Obligations.FetchedEntriesAreTaken
  refine ⟨?fetchData, ?fetchAdmin, ?rereadData, ?rereadAdmin⟩
  case fetchData =>
    intro s h pa u x hmore hnot hpushed hfound hserved hclean
    have hx : u.hoop h = x := hoop_of_wk_eq (dropOwner_wk _ s) h
    rw [exec_ringFetch_data, show min 16 1 = 1 from rfl,
      fetchEntries_one (s := u) (h := h) (by rw [hx]; exact ⟨hmore, hnot, hpushed⟩)
        ⟨by rw [hx]; exact hfound, hserved, hclean⟩]
  case fetchAdmin =>
    intro s a x pa e v hrun hfault hmore hroom hup hclean
    have hx : v.admin a = x := admin_of_wk_eq (dropOwner_wk _ s) a
    have hpa : adminSlot v a x.fetchNext = pa := by simp only [adminSlot, hx]; rfl
    have he : e = entryOfWords x.fetchNext 0 (qwords 8 (readBytes v pa 64)) := by
      rw [readBytes_of_mem_eq (dropOwner_mem _ s)]
    refine ⟨adminFetched a e v, ?_, ?_, ?_⟩
    · rw [exec_ringFetch_admin, show min 16 1 = 1 from rfl,
        fetchAdmin_one (e := e) (by rw [hx]; exact ⟨hrun, hfault, hmore, hroom⟩) hup (by rw [hx, hpa]; exact hclean)
          (by rw [hx, hpa, he])]
    · rw [adminFetched, modAdmin_self, hx]
    · have hidx : e.idx = x.fetchNext := entryOfWords_idx ..
      rw [adminFetched, modAdmin_self, hidx]
  case rereadData =>
    intro s h e pa hone hfound hserved hclean y hown
    rw [exec_ownReread_data, hone, forAll_singleton, rereadEntry_of_own ⟨hfound, hserved, hclean⟩ hown]
  case rereadAdmin =>
    intro s a e hone hup hclean y hown
    refine ⟨adminReplaced a y s, ?_, ?_⟩
    · rw [exec_ownReread_admin, hone, forAll_singleton, rereadAdmin_of_own hup hclean rfl hown]
    · have hidx : y.idx = e.idx := entryOfWords_idx ..
      rw [adminReplaced, modAdmin_self, hidx]

end Sys2Proof.Machine
end

section
/-! Entries: their start, the end of their segments and the publication of their head (R67, R71, R113). -/

namespace Sys2Proof.Machine

open Sys2Proof

/-! ### Start of a data entry (R67, R69) -/

theorem groupOf_of_pr_eq {s t : State} (h : t.pr = s.pr) (k : Nat) : groupOf t k = groupOf s k := by
  simp only [groupOf, h]

theorem forAll_modHoop_hoop (g : Nat → Hoop → Hoop) {l : List Nat} {h : Nat} (hl : h ∉ l) (s : State) :
    (forAll l (fun k => modHoop k (g k)) s).hoop h = s.hoop h := by
  induction l generalizing s with
  | nil => rfl
  | cons k l ih =>
    have hk : h ≠ k := List.ne_of_not_mem_cons hl
    exact (ih (List.not_mem_of_not_mem_cons hl) (modHoop k (g k) s)).trans (modHoop_other k (g k) s h hk)

theorem takeTurn_hoop (h : Nat) (s : State) : (takeTurn h s).hoop h = { s.hoop h with passed := 0 } := by
  simp only [takeTurn, modHoop_self]
  rw [forAll_modHoop_hoop (fun g x => { x with passed := if (contenders s (engineOf h)).contains g then x.passed + 1 else 0 })
    (by simp)]
  rfl

theorem takeTurn_pr (h : Nat) (s : State) : (takeTurn h s).pr = s.pr :=
  (takeTurn_same (c := 16) (Same.refl s) (by decide)).part .peers (by decide)

theorem holdPages_wk (k : Nat) (s : State) : (holdPages k s).wk = s.wk :=
  (holdPages_same (c := 514) (Same.refl s) (by decide)).part .work (by decide)

/-- Entry e of hoop h as it starts under epoch ep, cut into n segments, on the slices that state t gives it. -/
def beginEntry (t : State) (h n : Nat) (ep : BitVec 8) (e : Entry) : Entry :=
  { e with
    phase := .started, begun := true, segs := List.replicate n .todo, segDone := List.replicate n 0
    slices := usableSlices t h e, epoch := ep }

theorem startEntry_of_ok {s : State} {h : Nat} {i : W32} {e : Entry} (hentry : entryOf s h i = some e) (hok : e.status = .ok)
    (hgroup : groupOf s h = none) :
    ∃ u, startEntry h i s =
        holdPages (sliceOf h) (modEntry h i (beginEntry (takeTurn h s) h (segCount s h e) (s.hoop h).epoch) u) ∧
      u.hoop h = { s.hoop h with passed := 0 } := by
  unfold startEntry
  rw [hentry]
  dsimp only
  rw [if_neg (not_not_intro hok)]
  split
  next g hg =>
    have hnone := (groupOf_of_pr_eq (takeTurn_pr h s) h).trans hgroup
    exact absurd (hg.symm.trans hnone) nofun
  next => exact ⟨_, rfl, takeTurn_hoop h s⟩

theorem mem_map_ite_idx {f : Entry → Entry} {l : List Entry} {i : W32} {y : Entry}
    (hy : y ∈ l.map (fun e => if e.idx = i then f e else e)) (hi : y.idx = i) : ∃ e, y = f e := by
  obtain ⟨e, -, he⟩ := List.mem_map.1 hy
  by_cases hidx : e.idx = i
  · exact ⟨e, by rw [← he, if_pos hidx]⟩
  · rw [if_neg hidx] at he
    exact absurd (he ▸ hi) hidx

theorem modEntry_hoop (h : Nat) (i : W32) (f : Entry → Entry) (s : State) :
    (modEntry h i f s).hoop h =
      { s.hoop h with entries := (s.hoop h).entries.map (fun e => if e.idx = i then f e else e) } := modHoop_self ..

theorem exec_entryStart_of_canStart {s : State} {h : Nat} {i : W32} (hcan : canStart (takePushed h 4 s) h i = true) :
    exec (.entryStart (.data h) i) s = .next (startEntry h i (takePushed h 4 s)) := by
  show execEntryStart (.data h) i s = _
  simp only [execEntryStart, hcan, if_true]

/-! ### Start of an admin entry (R82) -/

/-- Admin hoop a with entry i started. -/
def adminBegun (a : Nat) (i : W32) (s : State) : State :=
  modAdmin a (fun x => { x with
    idle := false, entries := x.entries.map (fun e => if e.idx = i then { e with phase := .started } else e) }) s

theorem addReq_wk (t : Tgt) (o : Owner) (k : ReqKind) (a n : Nat) (ep : BitVec 8) (s : State) :
    (addReq t o k a n ep s).wk = s.wk :=
  (addReq_same (c := 1026) (Same.refl s) (by decide)).part .work (by decide)

theorem startAdmin_wk (a : Nat) (i : W32) (s : State) : (startAdmin a i s).wk = (adminBegun a i s).wk := by
  simp only [startAdmin]
  split
  · split
    · rfl
    · exact addReq_wk ..
  · rfl

theorem exec_entryStart_of_adminCanStart {s : State} {a : Nat} {i : W32} (hcan : adminCanStart s a i = true) :
    exec (.entryStart (.admin a) i) s = .next (startAdmin a i s) := congrArg Host.Outcome.next (if_pos hcan)

/-! ### The end of a segment (R113) -/

/-- Segment j of entry e of hoop h has moved its data under the hoop's epoch. -/
structure SegMoved (s : State) (h : Nat) (e : Entry) (j : Nat) : Prop where
  started : e.phase = .started
  current : e.epoch = (s.hoop h).epoch
  busy : e.segs[j]? = some .busy

theorem exec_segmentDone_ok {s : State} {h : Nat} {i : W32} {j : Nat} {e : Entry} (hentry : entryOf s h i = some e)
    (hmoved : SegMoved s h e j) (hend : segMayEnd s h e j = true) (hop : e.opcode ≠ 0x0F) :
    exec (.segmentDone h i j .ok) s = .next (doneSeg h i j s) := by
  obtain ⟨hstarted, hcurrent, hbusy⟩ := hmoved
  show execSegmentDone h i j .ok s = _
  simp [execSegmentDone, hentry, hstarted, hcurrent, hbusy, hend, hop, when]

theorem exec_segmentDone_failed {s : State} {h : Nat} {i : W32} {j : Nat} {e : Entry} (hentry : entryOf s h i = some e)
    (hmoved : SegMoved s h e j) (hlaunch : e.opcode ≠ 0x0E) (hwait : e.opcode ≠ 0x0B) (n : Nat) :
    exec (.segmentDone h i j (.failed n)) s = .next (failSeg h i j .target
      (if countsOperands e.opcode then knownBytes e j else min n (segBytes s h e j)) s) := by
  obtain ⟨hstarted, hcurrent, hbusy⟩ := hmoved
  show execSegmentDone h i j (.failed n) s = _
  simp [execSegmentDone, hentry, hstarted, hcurrent, hbusy, hlaunch, hwait]

theorem exec_segmentDone_late {s : State} {h : Nat} {i : W32} {e : Entry} (hentry : entryOf s h i = some e) (j : Nat) :
    exec (.segmentDone h i j .late) s = .next (toWhey h s) := by
  show execSegmentDone h i j .late s = _
  simp only [execSegmentDone, hentry]

/-! ### The head (R71) -/

/-- A word written to memory changes there what storeAt changes; what else follows is the request that carries it. -/
theorem ctrlWrite_same_storeAt (o : Owner) (w tc pa : Nat) (bs : List Byte) (ep : BitVec 8) (s : State) :
    Same 1026 (storeAt pa bs s) (ctrlWrite o w tc pa bs ep s) := by
  unfold ctrlWrite
  dsimp only
  split
  · exact hostPut_same (Same.refl _) (by decide)
  · exact sendPeer_same (Same.refl _) (by decide)
  · exact addReq_same (Same.refl _) (by decide)
  · exact addReq_same (Same.refl _) (by decide)
  · exact Same.refl _

theorem loseResv_hoops (p : Nat × Resv → Bool) (s : State) : (loseResv p s).wk.hoops = s.wk.hoops := by
  have hsame : Same 1026 { s with wk.resvs := s.wk.resvs.filter (fun r => !p r) } (loseResv p s) :=
    foldl_same (Same.refl _) (fun _ _ ht => freeWatch_same ht (by decide))
  have hwk := hsame.part .work (by decide)
  simp only [Area.same] at hwk
  rw [hwk]

theorem storeAt_hoops (a : Nat) (bs : List Byte) (s : State) : (storeAt a bs s).wk.hoops = s.wk.hoops := by
  unfold storeAt
  split
  · rfl
  · exact loseResv_hoops _ (writeBytes a bs s)

theorem ctrlWrite_hoop (o : Owner) (w tc pa : Nat) (bs : List Byte) (ep : BitVec 8) (s : State) (k : Nat) :
    (ctrlWrite o w tc pa bs ep s).hoop k = s.hoop k := by
  have hwk : (ctrlWrite o w tc pa bs ep s).wk = (storeAt pa bs s).wk :=
    (ctrlWrite_same_storeAt o w tc pa bs ep s).part .work (by decide)
  simp only [State.hoop, hwk, storeAt_hoops]

theorem ctrlWrite_mem (o : Owner) (w tc pa : Nat) (bs : List Byte) (ep : BitVec 8) (s : State) :
    (ctrlWrite o w tc pa bs ep s).m.mem = (storeAt pa bs s).m.mem :=
  ((ctrlWrite_same_storeAt o w tc pa bs ep s).part .memory (by decide)).1

/-- Hoop h's head word stands written at location pa, and its head is the one last published. -/
def headPut (h pa : Nat) (s : State) : State :=
  let x := s.hoop h
  ctrlWrite (.head h) (vatWheel s x.vat) (tcOf s h) pa (natLe 8 (headWord x)) x.epoch s
    |> modHoop h (fun x => { x with pub := x.head, pubDue := false, pubTimer := false })

/-- Hoop h's head has moved past the one last published, no publication is under way, and its head word at location pa can be
written at once. -/
structure HeadReached (s : State) (h pa : Nat) : Prop where
  moved : (s.hoop h).head ≠ (s.hoop h).pub
  free : waitsFor s (.head h) = false
  found : lookupIn (some (sliceOf h)) s (s.hoop h).vat (s.hoop h).headAddr .write = .ok pa
  served : homeUp s (homeOf pa) = true
  gate : ownedGate (.head h) (s.hoop h).vat (s.hoop h).headAddr pa 8 s = (true, s)

theorem publishHead_of_reached {s : State} {h pa : Nat} (hh : HeadReached s h pa) :
    publishHead h s = if waitsFor (headPut h pa s) (.head h) then headPut h pa s else headOver h (headPut h pa s) := by
  obtain ⟨hmoved, hfree, hfound, hserved, hgate⟩ := hh
  simp only [publishHead, hfree, hmoved, askXlate_of_ok hfound, hfound, hserved, hgate, Bool.not_true, Bool.and_false,
    Bool.false_eq_true, if_false]
  rfl

theorem exec_headPublishTimer_of_due {s : State} {h : Nat} (hpresent : (s.hoop h).present = true)
    (hdue : (s.hoop h).pubTimer = true) : exec (.headPublishTimer h) s = .next (publishHead h s) := by
  show execHeadPublishTimer h s = _
  simp [execHeadPublishTimer, hpresent, hdue]

/-- Settles O26: a start is startEntry or startAdmin, a segment's end doneSeg, failSeg or toWhey, and a publication headPut and
what follows it. -/
theorem entriesStartAndEnd : Obligations.EntriesStartAndEnd := by
  unfold Obligations.EntriesStartAndEnd
  refine ⟨?startData, ?startAdmin, ?segmentEnds, ?segmentFails, ?segmentLate, ?head⟩
  case startData =>
    intro s h i e u hcan hentry hok hgroup
    obtain ⟨v, hstart, hv⟩ := startEntry_of_ok hentry hok hgroup
    refine ⟨_, exec_entryStart_of_canStart hcan, fun y hy hi => ?_⟩
    rw [hstart, hoop_of_wk_eq (holdPages_wk ..), modEntry_hoop] at hy ⊢
    dsimp only at hy
    obtain ⟨z, rfl⟩ := mem_map_ite_idx hy hi
    exact ⟨rfl, rfl, rfl, (congrArg Hoop.epoch hv).symm⟩
  case startAdmin =>
    intro s a i hcan
    have hadmin : (startAdmin a i s).admin a = (adminBegun a i s).admin a := admin_of_wk_eq (startAdmin_wk a i s) a
    refine ⟨_, exec_entryStart_of_adminCanStart hcan, ?_, fun y hy hi => ?_⟩
    · rw [hadmin, adminBegun, modAdmin_self]
    · rw [hadmin, adminBegun, modAdmin_self] at hy
      obtain ⟨z, rfl⟩ := mem_map_ite_idx (f := fun e => { e with phase := .started }) hy hi
      rfl
  case segmentEnds =>
    intro s h i j e hentry hstarted hcurrent hbusy hend hop
    exact exec_segmentDone_ok hentry ⟨hstarted, hcurrent, hbusy⟩ hend hop
  case segmentFails =>
    intro s h i j e n hentry hstarted hcurrent hbusy hlaunch hwait
    exact exec_segmentDone_failed hentry ⟨hstarted, hcurrent, hbusy⟩ hlaunch hwait n
  case segmentLate =>
    intro s h i j e hentry hroom
    refine ⟨_, exec_segmentDone_late hentry j, ?_, ?_⟩
    · rw [toWhey, modHoop_self, if_neg hroom]
    · rw [toWhey, modHoop_self]
  case head =>
    intro s h pa x hpresent hdue hmoved hfree hfound hserved hgate
    refine ⟨headPut h pa s, ?_, ?_, ctrlWrite_mem ..⟩
    · rw [exec_headPublishTimer_of_due hpresent hdue, publishHead_of_reached ⟨hmoved, hfree, hfound, hserved, hgate⟩]
    · rw [headPut, modHoop_self, ctrlWrite_hoop]

end Sys2Proof.Machine
end

section
/-! The end of a long-running admin command: BIND, the change-over of the firmware, and the commands whose status is decided
(R82, R416 to R421, R451). -/

namespace Sys2Proof.Machine

open Sys2Proof

theorem exec_adminCommandComplete_of_cur {s : State} {a : Nat} {w : AdminWork} (hcur : (s.admin a).cur = some w) :
    exec (.adminCommandComplete a) s = .next (adminComplete a w s) := by
  show execAdminCommandComplete a s = _
  simp only [execAdminCommandComplete, hcur]

/-! ### BIND (R416, R418) -/

/-- The effect of a BIND's OP. -/
def bindEffect (a : Nat) (q : List W64) (s : State) : State :=
  match bOp q with
  | 1 => bindMoveEffect q s
  | 2 => bindVatsEffect q s
  | 3 => bindEvqsEffect q s
  | 4 => bindShareEffect q s
  | _ => vfGrantEffect a q s

theorem finishBind_of_quiet {s : State} {a : Nat} {q : List W64} (hmove : bOp q = 1 → peerBusy s q = false)
    (hquiet : bindQuiet s a q = true) : finishBind a q s = rescan (bindEnd a .ok (bindEffect a q s)) := by
  have hgo : (decide (bOp q = 1) && peerBusy s q) = false := by
    by_cases hop : bOp q = 1
    · rw [hmove hop, Bool.and_false]
    · rw [decide_eq_false hop, Bool.false_and]
  simp only [finishBind, hgo, hquiet, Bool.not_true, Bool.false_eq_true, if_false]
  rfl

theorem exec_adminCommandComplete_of_bind {s : State} {a : Nat} {w : AdminWork} {q : List W64}
    (hcur : (s.admin a).cur = some w) (hkind : w.kind = .bind q) (hmove : bOp q = 1 → peerBusy s q = false)
    (hquiet : bindQuiet s a q = true) :
    exec (.adminCommandComplete a) s = .next (rescan (bindEnd a .ok (bindEffect a q s))) := by
  rw [exec_adminCommandComplete_of_cur hcur]
  simp only [adminComplete, hkind, finishBind_of_quiet hmove hquiet]

theorem tabGet_setAll (d : Nat) (ks : List Nat) (w : Nat) (t : List (Nat × Nat)) (k : Nat) :
    tabGet d (setAll t ks w) k = if k ∈ ks then w else tabGet d t k := by
  induction ks generalizing t with
  | nil => rfl
  | cons j ks ih =>
    have hstep : setAll t (j :: ks) w = setAll (tabSet t j w) ks w := rfl
    rw [hstep, ih]
    by_cases hk : k = j
    · subst hk
      simp [tabGet_tabSet_self]
    · simp [hk, tabGet_tabSet_other _ _ _ _ _ hk]

theorem tabGet_bindVatsEffect {q : List W64} {b : Nat} (hb : b ∈ bBlocks q) (s : State) :
    tabGet 0 (bindVatsEffect q s).wh.vatBlock b = bTo q :=
  (tabGet_setAll 0 (bBlocks q) (bTo q) s.wh.vatBlock b).trans (if_pos hb)

theorem tabGet_bindEvqsEffect {q : List W64} {b : Nat} (hb : b ∈ bBlocks q) (s : State) :
    tabGet 0 (bindEvqsEffect q s).wh.evqBlock b = bTo q :=
  (tabGet_setAll 0 (bBlocks q) (bTo q) s.wh.evqBlock b).trans (if_pos hb)

theorem vfGrantEffect_fnS (a : Nat) (q : List W64) (s : State) :
    ∃ n, (vfGrantEffect a q s).fnS (.vf a (bVf q)) = { s.fnS (.vf a (bVf q)) with
      grVats := bVats q, grHoops := bHoops q, grEvqs := bEvqs q, capsGen := n } := by
  simp only [vfGrantEffect, when]
  split
  · exact ⟨_, by rw [bumpCaps, modFnS_self, modFnS_self]⟩
  · exact ⟨_, modFnS_self ..⟩

/-! ### The change-over of the firmware (R451) -/

theorem switchCore_st (s : State) : (switchCore s).st = s.st :=
  (switchCore_same (c := 35859) (Same.refl s) (by decide)).part .store (by decide)

theorem fwSwitch_st (s : State) : (fwSwitch s).st = { s.st with
    fwActive := fwOther s, fwRunning := fwOther s, fwSvn := (s.fwSlot (fwOther s)).svn, fwPending := false } := switchCore_st _

/-- Settles O19: a BIND ends with its effect, the firmware's change-over with the other slot, and every other command with the
status that it decided. -/
theorem adminCommandCompleteEnds : Obligations.AdminCommandCompleteEnds := by
  unfold Obligations.AdminCommandCompleteEnds
  refine ⟨?move, ?blocks, ?firmware, ?decided⟩
  case move =>
    intro s a w q hcur hkind hop hfree hquiet
    rw [exec_adminCommandComplete_of_bind hcur hkind (fun _ => hfree) hquiet]
    simp only [bindEffect, hop]
  case blocks =>
    intro s a w q hcur hkind hquiet
    have hend (hop : bOp q ≠ 1) := exec_adminCommandComplete_of_bind hcur hkind (fun h => absurd h hop) hquiet
    refine ⟨fun hop => ?vats, fun hop => ?evqs, fun hop => ?share, fun hop => ?grant⟩
    case vats =>
      refine ⟨_, hend (by omega), fun b hb => ?_⟩
      simp only [bindEffect, hop, tabGet_bindVatsEffect hb]
    case evqs =>
      refine ⟨_, hend (by omega), fun b hb => ?_⟩
      simp only [bindEffect, hop, tabGet_bindEvqsEffect hb]
    case share =>
      refine ⟨_, hend (by omega), ?_⟩
      simp only [bindEffect, hop, bindShareEffect, modWheel_self, and_self]
    case grant =>
      refine ⟨_, hend (by omega), ?_⟩
      obtain ⟨n, hn⟩ := vfGrantEffect_fnS a q s
      simp only [bindEffect, hop, hn, and_self]
  case firmware =>
    intro s a w hcur hkind hopen
    refine ⟨fwSwitch s, ?_, ?_⟩
    · rw [exec_adminCommandComplete_of_cur hcur]
      simp [adminComplete, hkind, hopen]
    · rw [fwSwitch_st]
      exact ⟨rfl, rfl, rfl, rfl⟩
  case decided =>
    intro s a w hcur hkind
    rw [exec_adminCommandComplete_of_cur hcur]
    rcases hkind with hk | hk | hk | ⟨f, hk⟩ | ⟨f, hk⟩ | ⟨f, hk⟩ | ⟨n, hk⟩ <;> simp only [adminComplete, hk]

end Sys2Proof.Machine
end

section
/-! Enables, disables and register writes (R78, R84, R262, R265, R273, R275, R283, R315, R329, R355, R383, R384, R408, R462 to
R473). -/

namespace Sys2Proof.Machine

open Sys2Proof

/-! ### Hoops and admin hoops (R78, R84) -/

theorem exec_hoopEnable_of_pageHoop {s : State} {f : Fn} {n h : Nat} (hpage : pageHoop s f n = some h) :
    exec (.hoopEnable f n) s = .next (enableHoop h s) := by
  show execHoopEnable f n s = _
  simp only [execHoopEnable, hpage]

theorem enableHoop_of_idle {s : State} {h : Nat} (hpresent : (s.hoop h).present = true) (hoff : (s.hoop h).enabled = false)
    (hidle : (s.hoop h).idle = true) (hfault : (s.hoop h).ringFault = false) (hsafe : sliceSafe s (sliceOf h) = false) :
    enableHoop h s =
      askRing h (modHoop h (fun x => { x with enabled := true, idle := false, pubTimer := x.head ≠ x.pub }) s) := by
  simp [enableHoop, hpresent, hoff, hidle, hfault, hsafe]

theorem exec_adminEnable_of_adminOf {f : Fn} {a : Nat} (ha : adminOf f = some a) (s : State) :
    exec (.adminEnable f) s = .next (inD0 f (adminStart a) s) := by
  show execAdminEnable f s = _
  simp only [execAdminEnable, ha]

theorem exec_adminDisable_of_adminOf {f : Fn} {a : Nat} (ha : adminOf f = some a) (s : State) :
    exec (.adminDisable f) s = .next (inD0 f (adminOff a) s) := by
  show execAdminDisable f s = _
  simp only [execAdminDisable, ha]

theorem adminStart_admin_of_ok {s : State} {a : Nat} (hoff : (s.admin a).enable = false)
    (hstopped : (s.admin a).running = false) (hfault : (s.admin a).ringFault = false)
    (hcfg : adminCfgOk a (s.admin a) = true) :
    (adminStart a s).admin a = { s.admin a with
      enable := true, running := true, idle := true, cfgErr := false, head := 0, tail := 0, pub := 0, fetchNext := 0
      entries := [], cur := none } := by
  simp [adminStart, hoff, hstopped, hfault, hcfg]

theorem adminStart_admin_of_bad {s : State} {a : Nat} (hoff : (s.admin a).enable = false)
    (hstopped : (s.admin a).running = false) (hfault : (s.admin a).ringFault = false)
    (hcfg : adminCfgOk a (s.admin a) = false) : (adminStart a s).admin a = { s.admin a with cfgErr := true } := by
  simp [adminStart, hoff, hstopped, hfault, hcfg]

/-! ### Ports, by the device manager (R262, R275, R315, R329, R355) -/

theorem next_of_mayManage {s : State} {f : Fn} (h : mayManage s f = true) (t : State) :
    (Host.Outcome.next (if mayManage s f then t else s) : Host.Outcome State Fault Refusal) = .next t :=
  congrArg _ (if_pos h)

/-- A part of the state that f keeps is kept where f is done only on a condition. -/
theorem proj_when {α : Type} (π : State → α) {f : State → State} (hf : ∀ s, π (f s) = π s) (b : Bool) (s : State) :
    π (when b f s) = π s := by
  cases b with
  | false => rfl
  | true => exact hf s

theorem hcEnable_of_off {s : State} {p : Nat} (hoff : (s.hc p).linkEn = false) (hrec : s.tm.recovery = false) :
    (hcEnable p s).hc p = { s.hc p with linkEn := true, modeAct := (s.hc p).far, cxlAct := (s.hc p).cxlEn } ∧
      (hcEnable p s).st.cfgDirty = true := by
  have hgo : ((s.hc p).linkEn || s.tm.recovery) = false := by rw [hoff, hrec, Bool.or_false]
  simp only [hcEnable, hgo, Bool.false_eq_true, if_false]
  exact ⟨(proj_when (State.hc · p) (fun _ => by rfl) ..).trans (modHc_self ..),
    proj_when (fun t => t.st.cfgDirty) (fun _ => by rfl) ..⟩

/-- Host-class port p with LINK_EN at 0, before its link goes down. -/
def hcOff (p : Nat) (s : State) : State := modHc p (fun x => { x with linkEn := false }) { s with st.cfgDirty := true }

theorem hcDisable_of_on {s : State} {p : Nat} (hon : (s.hc p).linkEn = true) :
    hcDisable p s = modRsh p (fun x => { x with trained := false }) (when (s.hc p).linkUp (hcDown p) (hcOff p s)) := by
  simp only [hcDisable, hon, Bool.not_true, Bool.false_eq_true, if_false]
  rfl

theorem acdEnable_of_off {s : State} {q : Nat} (hoff : (s.acd q).linkEn = false) (hrec : s.tm.recovery = false) :
    (acdEnable q s).acd q = { s.acd q with linkEn := true, training := !(s.acd q).safe } := by
  have hgo : ((s.acd q).linkEn || s.tm.recovery) = false := by rw [hoff, hrec, Bool.or_false]
  simp only [acdEnable, hgo, Bool.false_eq_true, if_false, modAcd_self]
  rfl

theorem acdDisable_of_on {s : State} {q : Nat} (hon : (s.acd q).linkEn = true) :
    ((acdDisable q s).acd q).linkEn = false ∧ ((acdDisable q s).acd q).training = false := by
  simp only [acdDisable, hon, Bool.not_true, Bool.false_eq_true, if_false, modAcd_self, and_self]

theorem acdRetrain_of_on {s : State} {q : Nat} (hon : (s.acd q).linkEn = true) (hsafe : (s.acd q).safe = false) :
    ((acdRetrain q s).acd q).training = true ∧ ((acdRetrain q s).acd q).retrain = true := by
  simp only [acdRetrain, hon, hsafe, Bool.not_true, Bool.or_false, Bool.false_eq_true, if_false, modAcd_self, and_self]

theorem peerEnable_of_off {s : State} {p : Nat} (hoff : (s.peerP p).en = false) (hrec : s.tm.recovery = false) :
    ((peerEnable p s).peerP p).en = true ∧ (peerEnable p s).st.cfgDirty = true := by
  have hgo : ((s.peerP p).en || s.tm.recovery) = false := by rw [hoff, hrec, Bool.or_false]
  simp only [peerEnable, hgo, Bool.false_eq_true, if_false]
  exact ⟨congrArg PeerPort.en ((proj_when (State.peerP · p) (fun _ => by rfl) ..).trans (modPeerP_self ..)),
    proj_when (fun t => t.st.cfgDirty) (fun _ => by rfl) ..⟩

/-- Peer port p with EN at 0, before it goes down. -/
def peerOff (p : Nat) (s : State) : State := modPeerP p (fun x => { x with en := false }) { s with st.cfgDirty := true }

theorem peerDisable_of_on {s : State} {p : Nat} (hon : (s.peerP p).en = true) :
    peerDisable p s = peerDown p (peerOff p s) := by
  simp only [peerDisable, hon, Bool.not_true, Bool.false_eq_true, if_false]
  rfl

/-! ### Collective groups (R265, R273) -/

theorem sendColl_coll (type g dst payload n : Nat) (s : State) (k : Nat) :
    (sendColl type g dst payload n s).coll k = s.coll k := by
  have hpr : (sendColl type g dst payload n s).pr = s.pr :=
    (sendColl_same (c := 1026) (Same.refl s) (by decide)).part .peers (by decide)
  simp only [State.coll, hpr]

theorem tryReady_q0 (g : Nat) (s : State) : ((tryReady g s).coll g).q0 = (s.coll g).q0 := by
  rw [tryReady, modColl_self]

theorem collWrite_q0_of_msb {s : State} {g : Nat} {v : W64} (hoff : (s.coll g).enable = false) (hv : v.msb = true) :
    ((collWrite g v s).coll g).q0 = v &&& collMask := by
  simp only [collWrite, hoff, hv, Bool.not_false, if_true]
  rw [tryReady_q0, proj_when (State.coll · g) (fun t => sendColl_coll _ _ _ _ _ t g), modColl_self]

theorem msb_or_enable (v : W64) : (v ||| 0x8000000000000000).msb = true := by
  rw [BitVec.msb_or, show (0x8000000000000000 : W64).msb = true from by decide, Bool.or_true]

theorem collWrite_enable {s : State} {g : Nat} {v : W64} (hoff : (s.coll g).enable = false) (hv : v.msb = true) :
    ((collWrite g v s).coll g).enable = true := by
  have hbit : v.getLsbD 63 = true := (BitVec.msb_eq_getLsbD_last v).symm.trans hv
  rw [Coll.enable, collWrite_q0_of_msb hoff hv, BitVec.getLsbD_and, hbit]
  rfl

theorem exec_collGroupEnable_of_writer {s : State} {f : Fn} {g : Nat} {v : W64}
    (hw : collWriter s f g (v ||| 0x8000000000000000) = true) :
    exec (.collGroupEnable f g v) s = .next (collWrite g (v ||| 0x8000000000000000) s) := congrArg _ (if_pos hw)

theorem exec_collGroupDisable_of_writer {s : State} {f : Fn} {g : Nat} (hon : (s.coll g).enable = true)
    (hw : collWriter s f g 0 = true) : exec (.collGroupDisable f g) s = .next (collWrite g 0 s) := by
  show execCollGroupDisable f g s = _
  simp only [execCollGroupDisable, hon, hw, Bool.and_self, if_true]

theorem collWrite_zero_of_busy {s : State} {g : Nat} (hon : (s.coll g).enable = true)
    (hpresent : (s.hoop (s.coll g).hoop).present = true) (hbusy : (s.hoop (s.coll g).hoop).idle = false) :
    collWrite g 0 s = modColl g (fun x => { x with ending := true }) s := by
  simp [collWrite, hon, hpresent, hbusy]

theorem collWrite_zero_of_idle {s : State} {g : Nat} (hon : (s.coll g).enable = true)
    (hidle : (s.hoop (s.coll g).hoop).present = false ∨ (s.hoop (s.coll g).hoop).idle = true) :
    collWrite g 0 s = endGroup g s := by
  simp [collWrite, hon, hidle]

/-! ### The device manager (R408) -/

theorem devmgrSet_of_host {s : State} {d : Nat} (hd : d < 16) (hmode : hostMode s d = true) (hwheel : hcWheelOf s d = 0) :
    devmgrSet d s = modWheel 0 (fun w => { w with manager := d }) { s with wh.devmgr := some d, st.cfgDirty := true } := by
  simp [devmgrSet, hd, hmode, hwheel]

/-! ### REGISTER_WRITE (R286, R287, R471, R473) -/

theorem exec_registerWrite_of_poisoned {s : State} {f : Fn} (htlp : tlpDropped s (pfOf f) none = false) (off : Nat)
    (data : List (Option Byte)) :
    exec (.registerWrite f off data true) s = .next (when (pfOf f < 16) (fun s =>
      countFault (0xA00 + 8 * pfOf f + 2) (emit (.aer (pfOf f) 1) (hcErr (pfOf f) 0x2 s))) s) := by
  show execRegisterWrite f off data true s = _
  simp only [execRegisterWrite, htlp, Bool.false_eq_true, if_false, if_true]

theorem exec_registerWrite_of_rejected {s : State} {f : Fn} {off : Nat} {data : List (Option Byte)}
    (htlp : tlpDropped s (pfOf f) none = false)
    (hrej : (s.fnS f).dstate3 = true ∨ hitsForeign s f off data.length = true) :
    exec (.registerWrite f off data false) s = .next (bar2Reject f s) := by
  show execRegisterWrite f off data false s = _
  simp [execRegisterWrite, htlp, hrej]

/-- A write that reaches function f's own registers: its TLP is taken, f is in D0, and no page of another wheel is touched. -/
structure WriteReaches (s : State) (f : Fn) (off : Nat) (data : List (Option Byte)) : Prop where
  taken : tlpDropped s (pfOf f) none = false
  inD0 : (s.fnS f).dstate3 = false
  own : hitsForeign s f off data.length = false

theorem exec_registerWrite_of_rung {s : State} {f : Fn} {off : Nat} {data : List (Option Byte)}
    (hreach : WriteReaches s f off data) (hrung : rungPages f (enabledAt off data) ≠ []) :
    exec (.registerWrite f off data false) s =
      .next (ringWrite f off data (enabledAt off data) (rungPages f (enabledAt off data)) s) := by
  obtain ⟨htlp, hd0, hown⟩ := hreach
  show execRegisterWrite f off data false s = _
  simp [execRegisterWrite, htlp, hd0, hown, hrung]

theorem exec_registerWrite_of_badAdminTail {s : State} {f : Fn} {off : Nat} {data : List (Option Byte)}
    (hreach : WriteReaches s f off data) (hrung : rungPages f (enabledAt off data) = [])
    (hbad : badAdminTail f (enabledAt off data) = true) {a : Nat} (ha : adminOf f = some a) :
    exec (.registerWrite f off data false) s = .next (modAdmin a (fun x => { x with dbBadWidth := true }) s) := by
  obtain ⟨htlp, hd0, hown⟩ := hreach
  show execRegisterWrite f off data false s = _
  simp [execRegisterWrite, htlp, hd0, hown, hrung, hbad, ha]

theorem exec_registerWrite_of_class {s : State} {f : Fn} {off : Nat} {data : List (Option Byte)}
    (hreach : WriteReaches s f off data) (hrung : rungPages f (enabledAt off data) = [])
    (hgood : badAdminTail f (enabledAt off data) = false) :
    exec (.registerWrite f off data false) s = .next (classWrite f off data (enabledAt off data) s) := by
  obtain ⟨htlp, hd0, hown⟩ := hreach
  show execRegisterWrite f off data false s = _
  simp [execRegisterWrite, htlp, hd0, hown, hrung, hgood]

theorem classWrite_of_whole {f : Fn} {l : List Nat} (hwhole : (touched f l).all (wholeReg l) = true) (off : Nat)
    (data : List (Option Byte)) (s : State) :
    classWrite f off data l s = forAll (touched f l) (fun r => regWrite f r.1 (regValue off data r)) s := by
  have hnone : (touched f l).filter (fun r => !wholeReg l r) = [] :=
    List.filter_eq_nil_iff.2 (fun r hr => by simp [List.all_eq_true.1 hwhole r hr])
  simp only [classWrite, hnone, List.isEmpty_nil, if_true]

/-- Settles O55: each command is one of the cases of the operation that it runs, once its right is checked. -/
theorem enablesAndWritesTakeEffect : Obligations.EnablesAndWritesTakeEffect := by
  unfold Obligations.EnablesAndWritesTakeEffect
  refine ⟨?hoop, ?function, ?ports, ?groupOn, ?groupOff, ?devmgr, ?register⟩
  case hoop =>
    intro s f n h hpage hpresent hoff hidle hfault hsafe
    refine ⟨_, (exec_hoopEnable_of_pageHoop hpage).trans
      (congrArg _ (enableHoop_of_idle hpresent hoff hidle hfault hsafe)), ?_, ?_⟩ <;> rw [modHoop_self]
  case function =>
    intro s f htlp hd0
    refine ⟨fun a ha => ⟨fun hoff hstopped hfault => ⟨fun hcfg => ?start, fun hcfg => ?bad⟩, ?off⟩,
      fun src hmgr hsrc => ⟨?clear, ?force⟩⟩
    case start =>
      refine ⟨adminStart a s, ?_, ?_⟩
      · rw [exec_adminEnable_of_adminOf ha, inD0_of_reached htlp hd0]
      · rw [adminStart_admin_of_ok hoff hstopped hfault hcfg]
        exact ⟨rfl, rfl, rfl, rfl, rfl⟩
    case bad =>
      refine ⟨adminStart a s, ?_, ?_⟩
      · rw [exec_adminEnable_of_adminOf ha, inD0_of_reached htlp hd0]
      · rw [adminStart_admin_of_bad hoff hstopped hfault hcfg]
        exact ⟨hoff, rfl⟩
    case off =>
      refine ⟨adminOff a s, ?_, congrArg AdminHoop.enable (modAdmin_self ..)⟩
      rw [exec_adminDisable_of_adminOf ha, inD0_of_reached htlp hd0]
    case clear =>
      show execSrcStatusClear f src s = _
      simp [execSrcStatusClear, inD0_of_reached htlp hd0, hmgr, hsrc]
    case force =>
      show execSrcForce f src s = _
      simp [execSrcForce, inD0_of_reached htlp hd0, hmgr, hsrc]
  case ports =>
    intro s f hmgr
    refine ⟨fun p hoff hrec => ?hcOn, fun p hon => ?hcOff, fun q hoff hrec => ?acdOn, fun q hon => ?acdOff,
      fun q hon hsafe => ?retrain, fun p hoff hrec => ?peerOn, fun p hon => ?peerOff, fun n v => ?route, fun p k v => ?hdm⟩
    case hcOn =>
      obtain ⟨hport, hdirty⟩ := hcEnable_of_off hoff hrec
      refine ⟨hcEnable p s, next_of_mayManage hmgr _, ?_⟩
      rw [hport]
      exact ⟨rfl, hdirty, rfl, rfl⟩
    case hcOff =>
      refine ⟨hcOff p s, (next_of_mayManage hmgr _).trans (congrArg _ (hcDisable_of_on hon)), ?_, rfl⟩
      exact congrArg HcPort.linkEn (modHc_self ..)
    case acdOn =>
      refine ⟨acdEnable q s, next_of_mayManage hmgr _, ?_⟩
      rw [acdEnable_of_off hoff hrec]
      exact ⟨rfl, rfl⟩
    case acdOff => exact ⟨acdDisable q s, next_of_mayManage hmgr _, acdDisable_of_on hon⟩
    case retrain => exact ⟨acdRetrain q s, next_of_mayManage hmgr _, acdRetrain_of_on hon hsafe⟩
    case peerOn => exact ⟨peerEnable p s, next_of_mayManage hmgr _, peerEnable_of_off hoff hrec⟩
    case peerOff =>
      refine ⟨peerOff p s, (next_of_mayManage hmgr _).trans (congrArg _ (peerDisable_of_on hon)), ?_⟩
      exact congrArg PeerPort.en (modPeerP_self ..)
    case route => exact next_of_mayManage hmgr _
    case hdm => exact next_of_mayManage hmgr _
  case groupOn =>
    intro s f g v hoff hw
    exact ⟨exec_collGroupEnable_of_writer hw, collWrite_enable hoff (msb_or_enable v)⟩
  case groupOff =>
    intro s f g hon hw
    rw [exec_collGroupDisable_of_writer hon hw]
    exact ⟨fun hpresent hbusy => congrArg _ (collWrite_zero_of_busy hon hpresent hbusy),
      fun hidle => congrArg _ (collWrite_zero_of_idle hon hidle)⟩
  case devmgr =>
    intro s v hd hmode hwheel
    refine ⟨devmgrSet (field v.toNat 3 0) s, rfl, ?_⟩
    rw [devmgrSet_of_host hd hmode hwheel]
    exact ⟨rfl, congrArg Wheel.manager (modWheel_self ..)⟩
  case register =>
    intro s f off data htlp l write
    refine ⟨fun hpf => ?host, fun hpf => ?bringUp, fun hrej => exec_registerWrite_of_rejected htlp hrej,
      fun hd0 hown => ?reached⟩
    case host =>
      rw [exec_registerWrite_of_poisoned htlp, when, if_pos (decide_eq_true hpf)]
    case bringUp =>
      rw [exec_registerWrite_of_poisoned htlp, when, if_neg (by simpa using hpf)]
    case reached =>
      have hreach : WriteReaches s f off data := ⟨htlp, hd0, hown⟩
      refine ⟨exec_registerWrite_of_rung hreach, fun a hrung hbad ha => ?_, fun hrung hgood hwhole => ?_⟩
      · exact exec_registerWrite_of_badAdminTail hreach hrung hbad ha
      · exact (exec_registerWrite_of_class hreach hrung hgood).trans (congrArg _ (classWrite_of_whole hwhole off data s))

end Sys2Proof.Machine
end

section
/-! Data commands: a segment that passes the gate moves its data, and the commands of one piece (R90 to R112). -/

namespace Sys2Proof.Machine

open Sys2Proof

/-! ### A segment that passes the gate -/

theorem stopSeg_of_segFault_none {s : State} {h : Nat} {i : W32} {j : Nat} {e : Entry} {x : SegState}
    (hlive : segLive s h i j = some (e, x)) (hfault : segFault s h e j = none) : stopSeg h i j s = s := by
  simp only [stopSeg, hlive, hfault]

theorem itoM_mem (v : Nat) (ps : List Part) (s : State) : (itoM v ps s).m.mem = s.m.mem :=
  ((itoM_same (c := 2050) (Same.refl s) (by decide)).part .memory (by decide)).1

/-- A segment that the gate lets go moves its data at once, and its requests are outstanding. -/
theorem runSegWith_of_segGoes {s g t : State} {op h : Nat} {i : W32} {j : Nat} {e : Entry} {ps : List Part}
    {move : Entry → State → Moved} (hgoes : SegGoes s h i j op e ps g) (hmove : move e (segState g h i j) = .ok t)
    (sent : State → Entry → List Part → List Part) :
    runSegWith op h i j sent move s = busySeg h i j (sent g e ps) (itoM (g.hoop h).vat (sent g e ps) t) := by
  obtain ⟨hlive, hop, hfault, hgate, hpeer⟩ := hgoes
  have hmoved : moveSeg h i j .todo ps (sent g e ps) (move e) g =
      busySeg h i j (sent g e ps) (itoM (g.hoop h).vat (sent g e ps) t) := by
    rw [segState] at hmove
    simp only [moveSeg, hpeer, hmove, Bool.and_false, Bool.false_eq_true, if_false]
  simp only [runSegWith, stopSeg_of_segFault_none hlive hfault, hlive, hop, hgate, hmoved]
  simp

theorem runSegWith_mem_of_segGoes {s g t : State} {op h : Nat} {i : W32} {j : Nat} {e : Entry} {ps : List Part}
    {move : Entry → State → Moved} (hgoes : SegGoes s h i j op e ps g) (hmove : move e (segState g h i j) = .ok t)
    (sent : State → Entry → List Part → List Part) : (runSegWith op h i j sent move s).m.mem = t.m.mem := by
  rw [runSegWith_of_segGoes hgoes hmove, busySeg_mem, itoM_mem]

theorem runSeg_mem_of_segGoes {s g t : State} {op h : Nat} {i : W32} {j : Nat} {e : Entry} {ps : List Part}
    {move : Entry → State → Moved} (hgoes : SegGoes s h i j op e ps g) (hmove : move e (segState g h i j) = .ok t) :
    (runSeg op h i j move s).m.mem = t.m.mem := runSegWith_mem_of_segGoes hgoes hmove _

/-! ### COPY, FILL, GATHER, SCATTER (R90 to R94) -/

theorem exec_scatter_of_turn {s : State} {h : Nat} {i : W32} {j : Nat} (hturn : scatterTurn s h i j = true) :
    exec (.scatter h i j) s = .next (runSeg 0x04 h i j (moveScatter h j) s) := congrArg Host.Outcome.next (if_pos hturn)

/-- Settles O10: the memory of a segment that goes is that of its move, which each opcode states. -/
theorem movesComplete : Obligations.MovesComplete := by
  unfold Obligations.MovesComplete
  refine ⟨fun s h i j e ps g hgoes => ?copy, fun s h i j e ps g hgoes => ?fill, fun s h i j e ps g hgoes => ?gather,
    fun s h i j e ps g u hgoes hturn hmove => ?scatter⟩
  case copy => exact ⟨_, rfl, runSeg_mem_of_segGoes (move := moveCopy h j) hgoes rfl⟩
  case fill => exact ⟨_, rfl, runSeg_mem_of_segGoes (move := moveFill h j) hgoes rfl⟩
  case gather => exact ⟨_, rfl, runSeg_mem_of_segGoes (move := moveGather h j) hgoes rfl⟩
  case scatter => exact ⟨_, exec_scatter_of_turn hturn, runSeg_mem_of_segGoes hgoes hmove⟩

/-! ### TRANSFORM, REDUCE, ACCUMULATE, RESOLVE (R96 to R99) -/

/-- With a working replica, a segment of TRANSFORM or REDUCE moves (R153). -/
theorem moveRecipe_of_segReplicas {s : State} {h : Nat} {e : Entry} {j : Nat} (hreps : segReplicas s h e j ≠ []) (i : W32)
    (bases : Entry → List Nat) : ∃ u, moveRecipe h i j bases e s = .ok u := by
  refine ⟨_, if_neg ?_⟩
  simpa using hreps

/-- RESOLVE always moves: it writes the values that an earlier run kept, or resolves its accumulators (R99, R100). -/
theorem moveResolve_ok (h : Nat) (i : W32) (j : Nat) (e : Entry) (s : State) : ∃ u, moveResolve h i j e s = .ok u := by
  unfold moveResolve
  dsimp only
  split
  · exact ⟨_, rfl⟩
  · exact ⟨_, rfl⟩

/-- Settles O11: the recipe commands move where a replica serves them, and RESOLVE always does. -/
theorem recipeCommandsComplete : Obligations.RecipeCommandsComplete := by
  unfold Obligations.RecipeCommandsComplete
  refine ⟨fun s h i j e ps g hgoes hreps => ?transform, fun s h i j e ps g hgoes hreps => ?reduce,
    fun s h i j e ps g u hgoes hmove => ?accumulate, fun s h i j e ps g hgoes => ?resolve⟩
  case transform =>
    obtain ⟨u, hmove⟩ := moveRecipe_of_segReplicas hreps i (fun e => [e.src.toNat])
    exact ⟨_, u, rfl, hmove, runSeg_mem_of_segGoes hgoes hmove⟩
  case reduce =>
    obtain ⟨u, hmove⟩ := moveRecipe_of_segReplicas hreps i (fun e => e.opsRead.map (·.toNat))
    exact ⟨_, u, rfl, hmove, runSeg_mem_of_segGoes hgoes hmove⟩
  case accumulate => exact ⟨_, rfl, runSeg_mem_of_segGoes hgoes hmove⟩
  case resolve =>
    obtain ⟨u, hmove⟩ := moveResolve_ok h i j e (segState g h i j)
    exact ⟨_, u, rfl, hmove, runSeg_mem_of_segGoes hgoes hmove⟩

/-! ### ATOMIC, FENCE_SIGNAL, FENCE_WAIT (R38, R39, R102) -/

/-- A fence that is not another node's is raised to the maximum at once (R38). -/
theorem raiseFence_of_here {s : State} {h : Nat} {va : W64} {pa : Nat}
    (hfound : lookup s (s.hoop h).vat va.toNat .atomic = .ok pa) (hhere : ∀ n, homeOf pa ≠ .peer n) (o : Owner) (i : W32)
    (val : W64) :
    raiseFence o h i va val s = if readNat s pa 8 < val.toNat then storeAt pa (natLe 8 val.toNat) s else s := by
  cases hhome : homeOf pa with
  | peer n => exact absurd hhome (hhere n)
  | _ => simp only [raiseFence, hfound, hhome]

theorem exec_fenceWait_of_unarmed {s : State} {h : Nat} {i : W32} {e : Entry} (hlive : segLive s h i 0 = some (e, .todo))
    (hop : e.opcode = 0x0B) (harmed : waitArmed s h i = false) : exec (.fenceWait h i) s = .next (armWait h i e s) := by
  show execFenceWait h i s = _
  simp [execFenceWait, hlive, hop, harmed]

/-- Settles O12: ATOMIC always moves, FENCE_SIGNAL moves by raising its fence, and FENCE_WAIT arms its wait. -/
theorem atomicsAndFencesComplete : Obligations.AtomicsAndFencesComplete := by
  unfold Obligations.AtomicsAndFencesComplete
  refine ⟨fun s h i j e ps g hgoes => ?atomic, fun s h i e ps g pa hgoes => ?signal,
    fun s h i e hlive hop harmed => exec_fenceWait_of_unarmed hlive hop harmed⟩
  case atomic => exact ⟨_, _, rfl, rfl, runSeg_mem_of_segGoes (move := moveAtomic h i j) hgoes rfl⟩
  case signal =>
    intro u hfound hhere
    refine ⟨_, rfl, (runSeg_mem_of_segGoes (move := moveSignal h i) hgoes rfl).trans ?_⟩
    rw [raiseFence_of_here hfound hhere]

/-! ### LAUNCH, INVALIDATE, NOP (R105, R109, R111) -/

theorem sendAcd_launches (q msg tag addr : Nat) (x : W64) (s : State) :
    ((sendAcd q msg tag addr x s).acd q).launches = (s.acd q).launches := by
  simp [sendAcd, emit, State.acd, tabGet_tabSet_self]

/-- Sending the message of a launch leaves the entry that holds its tag. -/
theorem sendLaunch_holder (q tag : Nat) (e : Entry) (pa : Nat) (s : State) :
    (tabGet {} ((sendLaunch q tag e pa s).acd q).launches tag).hoop = (tabGet {} (s.acd q).launches tag).hoop ∧
      (tabGet {} ((sendLaunch q tag e pa s).acd q).launches tag).idx = (tabGet {} (s.acd q).launches tag).idx := by
  unfold sendLaunch
  split
  · exact ⟨rfl, rfl⟩
  · simp [sendAcd_launches, tabGet_tabSet_self]

/-- Entry i of hoop h with its one piece under way, holding launch tag n of port q. -/
def launchTaken (q n h : Nat) (i : W32) (s : State) : State :=
  modEntry h i (fun e => { e with segs := [.busy] })
    (modAcd q (fun p => { p with launches := tabSet p.launches n { hoop := h, idx := i } }) s)

theorem launchTaken_holder (q n h : Nat) (i : W32) (s : State) :
    tabGet {} ((launchTaken q n h i s).acd q).launches n = { hoop := h, idx := i } := by
  have hacd : (launchTaken q n h i s).acd q =
      (modAcd q (fun p => { p with launches := tabSet p.launches n { hoop := h, idx := i } }) s).acd q := rfl
  rw [hacd, modAcd_self, tabGet_tabSet_self]

theorem exec_launch_of_firstFree {s : State} {h : Nat} {i : W32} {e : Entry} {n : Nat}
    (hlive : segLive s h i 0 = some (e, .todo)) (hop : e.opcode = 0x0E) (hnew : launchTag s (field e.subop 3 0) h i = none)
    (hup : (s.acd (field e.subop 3 0)).up = true) (hsafe : (s.acd (field e.subop 3 0)).safe = false)
    (hfree : firstFree 256 (tabHas (s.acd (field e.subop 3 0)).launches) = some n) :
    exec (.launch h i) s = .next (sendLaunch (field e.subop 3 0) n e (launchBlock s h e)
      (launchTaken (field e.subop 3 0) n h i s)) := by
  show execLaunch h i s = _
  simp [execLaunch, hlive, hop, runLaunch, hnew, hup, hsafe, hfree, launchTaken]

/-- The state without the translations that an INVALIDATE of hoop h removes: those of its vat, or of its range (R109). -/
def xlatsDropped (h : Nat) (e : Entry) (s : State) : State :=
  if bitOf e.subop 0 then dropAsid (s.hoop h).vat s else dropRange (s.hoop h).vat e.dst.toNat e.length s

theorem exec_invalidate_of_busy {s : State} {h : Nat} {i : W32} {e : Entry} (hlive : segLive s h i 0 = some (e, .todo))
    (hop : e.opcode = 0x0F) (hbusy : vatBusy (xlatsDropped h e s) (s.hoop h).vat = true) :
    exec (.invalidate h i) s =
      .next (rescan (modEntry h i (fun e => { e with segs := [.busy] }) (xlatsDropped h e s))) := by
  rw [xlatsDropped] at hbusy ⊢
  show execInvalidate h i s = _
  simp only [execInvalidate, hlive, hop, ne_eq, not_true, if_false, hbusy, if_true]

theorem exec_invalidate_of_idle {s : State} {h : Nat} {i : W32} {e : Entry} (hlive : segLive s h i 0 = some (e, .todo))
    (hop : e.opcode = 0x0F) (hidle : vatBusy (xlatsDropped h e s) (s.hoop h).vat = false) :
    exec (.invalidate h i) s = .next (rescan (doneSeg h i 0 (xlatsDropped h e s))) := by
  rw [xlatsDropped] at hidle ⊢
  show execInvalidate h i s = _
  simp only [execInvalidate, hlive, hop, ne_eq, not_true, if_false, hidle, Bool.false_eq_true]

theorem exec_nop_of_segLive {s : State} {h : Nat} {i : W32} {e : Entry} (hlive : segLive s h i 0 = some (e, .todo))
    (hop : e.opcode = 0x10) : exec (.nop h i) s = .next (doneSeg h i 0 s) := by
  show execNop h i s = _
  simp [execNop, hlive, hop]

/-- Settles O13: PREFETCH and ADVISE move as every segment does, LAUNCH takes its tag before its message leaves, and INVALIDATE
and NOP are their one step. -/
theorem otherDataCommandsComplete : Obligations.OtherDataCommandsComplete := by
  unfold Obligations.OtherDataCommandsComplete
  refine ⟨fun s h i j e ps g u hgoes hmove => ⟨_, rfl, runSegWith_mem_of_segGoes hgoes hmove _⟩,
    fun s h i j e ps g u hgoes hmove => ⟨_, rfl, runSegWith_mem_of_segGoes hgoes hmove _⟩,
    fun s h i e n hlive hop => ?launch, fun s h i e hlive hop => ?invalidate,
    fun s h i e hlive hop => exec_nop_of_segLive hlive hop⟩
  case launch =>
    intro q hnew hup hsafe hfree
    refine ⟨_, exec_launch_of_firstFree hlive hop hnew hup hsafe hfree, ?_⟩
    obtain ⟨hhoop, hidx⟩ := sendLaunch_holder q n e (launchBlock s h e) (launchTaken q n h i s)
    rw [hhoop, hidx, launchTaken_holder]
    exact ⟨rfl, rfl⟩
  case invalidate => exact ⟨exec_invalidate_of_busy hlive hop, exec_invalidate_of_idle hlive hop⟩

/-! ### A NOP that no other work of its entry accompanies (R105) -/

theorem giveTags_of_tagged {s : State} (htagged : ∀ r ∈ s.lk.reqs, r.tagged = true) : giveTags s = s := by
  have hnone : s.lk.reqs.filter (fun r => !r.tagged) = [] := List.filter_eq_nil_iff.2 (fun r hr => by simp [htagged r hr])
  rw [giveTags, hnone]
  rfl

theorem dropOwner_of_unserved {s : State} {o : Owner} (hreqs : ∀ r ∈ s.lk.reqs, r.owner ≠ o ∧ r.tagged = true) :
    dropOwner o s = s := by
  have hall : s.lk.reqs.filter (fun r => !decide (r.owner = o)) = s.lk.reqs :=
    List.filter_eq_self.2 (fun r hr => by simp [(hreqs r hr).1])
  rw [dropOwner, dropReqs, hall]
  exact giveTags_of_tagged (fun r hr => (hreqs r hr).2)

theorem idx_of_entryOf {s : State} {h : Nat} {i : W32} {e : Entry} (hentry : entryOf s h i = some e) : e.idx = i := by
  simpa using List.find?_some hentry

theorem entryOf_modEntry {s : State} {h : Nat} {i : W32} {e : Entry} (hentry : entryOf s h i = some e) {f : Entry → Entry}
    (hf : ∀ x, (f x).idx = x.idx) : entryOf (modEntry h i f s) h i = some (f e) := by
  have hidx : ∀ x : Entry, (decide ((if x.idx = i then f x else x).idx = i)) = decide (x.idx = i) := by
    intro x
    split
    · rw [hf]
    · rfl
  unfold entryOf at hentry ⊢
  rw [modEntry_hoop, List.find?_map]
  simp only [Function.comp_def, hidx, hentry, Option.map_some]
  rw [if_pos (idx_of_entryOf hentry)]

theorem phase_of_segLive {s : State} {h : Nat} {i : W32} {j : Nat} {e : Entry} {g : SegState}
    (hlive : segLive s h i j = some (e, g)) : e.phase = .started := by
  have hentry := entryOf_of_segLive hlive
  simp only [segLive, hentry] at hlive
  split at hlive
  next => cases hlive
  next =>
    split at hlive
    next hcond =>
      simp only [Bool.and_eq_true, decide_eq_true_eq] at hcond
      obtain ⟨⟨⟨⟨-, hphase⟩, -⟩, -⟩, -⟩ := hcond
      exact hphase
    next => cases hlive

/-- An entry whose one segment is done, with no cause of failure and no overflow, ends with OK. -/
theorem settle_of_done {s : State} {h : Nat} {i : W32} {e : Entry} (hentry : entryOf s h i = some e)
    (hphase : e.phase = .started) (hsegs : e.segs = [.done]) (hcause : e.cause = none) (hflag : e.flagged = false) :
    settle h i s = finishEntry h i .ok false (okBytes e) s := by
  simp [settle, hentry, hphase, hsegs, entryOutcome, hcause, hflag, when]

theorem okBytes_nop {e : Entry} (hop : e.opcode = 0x10) : okBytes e = 0 := by
  simp only [okBytes, hop]

theorem doneSeg_of_no_stop {s : State} {h : Nat} {i : W32} {e : Entry} (hentry : entryOf s h i = some e) (hstops : e.stops = [])
    (j : Nat) :
    doneSeg h i j s =
      holdPages (sliceOf h) (settle h i (dropOwner (.seg h i j) (modEntry h i
        (fun e => { e with segs := e.segs.set j .done, segDone := e.segDone.set j (segBytes s h e j) }) s))) := by
  simp [doneSeg, hentry, hstops]

/-- Settles O58: no stop and no request stands in the way, so the done segment settles its entry at once. -/
theorem nopHasNoEffectAndCompletesWithOk : Obligations.NopHasNoEffectAndCompletesWithOk := by
  unfold Obligations.NopHasNoEffectAndCompletesWithOk
  intro s h i e hlive hop hsegs hcause hflag hstops hreqs u
  have hentry := entryOf_of_segLive hlive
  have hu : entryOf u h i = some { e with segs := e.segs.set 0 .done, segDone := e.segDone.set 0 (segBytes s h e 0) } :=
    entryOf_modEntry hentry (fun _ => rfl)
  have hfree : dropOwner (.seg h i 0) u = u := dropOwner_of_unserved hreqs
  have hend : settle h i u = finishEntry h i .ok false 0 u := by
    have hphase := phase_of_segLive hlive
    rw [settle_of_done hu hphase (by simp [hsegs]) hcause hflag, okBytes_nop]
    exact hop
  rw [exec_nop_of_segLive hlive hop, doneSeg_of_no_stop hentry hstops]
  exact congrArg (fun t => Host.Outcome.next (holdPages (sliceOf h) t)) ((congrArg (settle h i) hfree).trans hend)

end Sys2Proof.Machine
end

section
/-! Hoop commands of the admin hoop: what CREATE_HOOP, DESTROY_HOOP and DISABLE_HOOP make of the hoop that they name (R77, R79,
R81, R119). -/

namespace Sys2Proof.Machine

open Sys2Proof

/-! ### What an admin command's state keeps -/

theorem adminState_ev (s : State) (a : Nat) : (adminState s a).ev = s.ev :=
  (dropOwner_same (c := 1026) (Same.refl s) (by decide)).part .events (by decide)

theorem adminState_wh (s : State) (a : Nat) : (adminState s a).wh = s.wh :=
  (dropOwner_same (c := 1026) (Same.refl s) (by decide)).part .wheels (by decide)

theorem adminState_hoop (s : State) (a k : Nat) : (adminState s a).hoop k = s.hoop k := hoop_of_wk_eq (adminState_wk s a) k

theorem adminState_vat (s : State) (a v : Nat) : (adminState s a).vat v = s.vat v := by
  simp only [State.vat, adminState_wk]

theorem adminState_evq (s : State) (a n : Nat) : (adminState s a).evq n = s.evq n := by
  simp only [State.evq, adminState_ev]

theorem adminState_fnS (s : State) (a : Nat) (f : Fn) : (adminState s a).fnS f = s.fnS f := by
  simp only [State.fnS, adminState_ev]

theorem tabGet_tabDel_self {κ α : Type} [DecidableEq κ] (d : α) (t : List (κ × α)) (q : κ) : tabGet d (tabDel t q) q = d := by
  induction t with
  | nil => rfl
  | cons e r ih =>
    obtain ⟨k, v⟩ := e
    by_cases hk : k = q
    · simpa [tabDel, hk] using ih
    · simpa [tabDel, tabGet, hk] using ih

/-- A command held for its end is under way as work of its kind. -/
theorem adminWaits_adminHold {s : State} {a : Nat} {e : Entry} (hcur : adminCur s a = some e) (k : AdminKind) (st : Status)
    (n : Nat) : AdminWaits (adminHold a k st n s) a k := by
  rw [adminHold_of_adminCur hcur]
  exact ⟨_, congrArg AdminHoop.cur (modAdmin_self ..), rfl⟩

theorem adminHold_ev (a : Nat) (k : AdminKind) (st : Status) (n : Nat) (s : State) : (adminHold a k st n s).ev = s.ev := by
  unfold adminHold
  split <;> rfl

/-! ### CREATE_HOOP (R119) -/

/-- The state with the data hoop of block q, for vat v. -/
def hoopMade (v : Nat) (q : List W64) (s : State) : State := modHoop (chNumber q) (fun _ => newHoop s v q) s

theorem exec_createHoop_of_pagesOk {s : State} {a : Nat} {e : Entry} {q : List W64} (h : AdminGot s a 0x80 e q)
    (hsub : e.subop = 0) (hcheck : createHoopCheck (adminState s a) a e q = none)
    (hpages : pagesOutcome (adminState s a) none e.vatId (createHoopPages q) = .ok) :
    exec (.createHoop a) s = .next (forgetFaults e.vatId (adminEnd a .ok (hoopMade e.vatId q (adminState s a)))) := by
  refine congrArg Host.Outcome.next ((adminRun_of_adminGot h (decide_eq_true hsub) _).trans ?_)
  simp only [hcheck, adminPages, hpages]
  rfl

/-- The state with the event hoop of block q, for vat v. -/
def evqMade (v : Nat) (q : List W64) (s : State) : State := modEvq (chNumber q) (fun _ => newEvq v q) s

theorem exec_createEventHoop_of_noVat {s : State} {a : Nat} {e : Entry} {q : List W64} (h : AdminGot s a 0x80 e q)
    (hsub : e.subop = 1) (hvat : e.vatId = 0xFFFF) (hcheck : createEvqCheck (adminState s a) a e q = none) :
    exec (.createEventHoop a) s = .next (adminEnd a .ok (evqMade e.vatId q (adminState s a))) := by
  refine congrArg Host.Outcome.next ((adminRun_of_adminGot h (decide_eq_true hsub) _).trans ?_)
  simp only [hcheck, if_pos hvat]
  rfl

/-! ### DESTROY_HOOP (R79, R81) -/

theorem killHoop_hoop (h : Nat) (s : State) : (killHoop h s).hoop h = {} := tabGet_tabDel_self ..

theorem killEvq_evq (n : Nat) (s : State) : (killEvq n s).evq n = {} := tabGet_tabDel_self ..

theorem killEvq_wk (n : Nat) (s : State) : (killEvq n s).wk = s.wk :=
  (killEvq_same (c := 32) (Same.refl s) (by decide)).part .work (by decide)

theorem exec_destroyHoop_of_idle {s : State} {a : Nat} {e : Entry} {q : List W64} (h : AdminGot s a 0x81 e q)
    (hsub : e.subop = 0) (hnamed : hoopNamed (adminState s a) a (hoopNumber e) = none)
    (hstill : (s.hoop (hoopNumber e)).migrating = false) (hoff : (s.hoop (hoopNumber e)).enabled = false)
    (hidle : (s.hoop (hoopNumber e)).idle = true) :
    exec (.destroyHoop a) s = .next (adminEnd a .ok (killHoop (hoopNumber e) (adminState s a))) := by
  refine congrArg Host.Outcome.next ((adminRun_of_adminGot h (decide_eq_true hsub) _).trans ?_)
  simp only [hnamed, adminState_hoop, hstill, hoff, hidle]
  rfl

theorem exec_destroyEventHoop_of_unnamed {s : State} {a : Nat} {e : Entry} {q : List W64} (h : AdminGot s a 0x81 e q)
    (hsub : e.subop = 1) (hrange : hoopNumber e < 4096) (hwheel : evqBlockOf s (hoopNumber e) = hcWheelOf s a)
    (hpresent : (s.evq (hoopNumber e)).present = true) (howns : ownsFn a (s.evq (hoopNumber e)).fn = true)
    (hunnamed : evqNamed (adminState s a) (hoopNumber e) = false) :
    exec (.destroyEventHoop a) s =
      .next (adminHold a (.destroyEvq (hoopNumber e)) .ok 0 (killEvq (hoopNumber e) (adminState s a))) := by
  refine congrArg Host.Outcome.next ((adminRun_of_adminGot h (decide_eq_true hsub) _).trans ?_)
  have hblock : evqBlockOf (adminState s a) (hoopNumber e) = hcWheelOf (adminState s a) a := by
    simp only [evqBlockOf, hcWheelOf, adminState_wh] at hwheel ⊢
    exact hwheel
  simp [Nat.not_le.2 hrange, hblock, adminState_evq, hpresent, howns, hunnamed]

/-! ### DISABLE_HOOP (R77) -/

/-- Admin hoop a's DISABLE_HOOP is under way: hoop h takes no further entry, and the command ends once it is idle. -/
def hoopOff (a h : Nat) (s : State) : State :=
  modHoop h (fun x => { x with enabled := false, disabling := true, disableBy := some a }) (adminHold a (.disable h) .ok 0 s)

theorem exec_disableHoop_of_enabled {s : State} {a : Nat} {e : Entry} {q : List W64} (h : AdminGot s a 0x82 e q)
    (hnamed : hoopNamed (adminState s a) a (hoopNumber e) = none) (hon : (s.hoop (hoopNumber e)).enabled = true) :
    exec (.disableHoop a) s =
      .next (tryIdle (hoopNumber e) (publishHead (hoopNumber e) (hoopOff a (hoopNumber e) (adminState s a)))) := by
  refine congrArg Host.Outcome.next ((adminRun_of_adminGot h rfl _).trans ?_)
  simp only [hnamed, adminState_hoop, hon, Bool.not_true, Bool.and_false, Bool.false_and, Bool.false_eq_true, if_false]
  rfl

/-- Settles O14: each command is the one change of its hoop, between the read of its block and its end. -/
theorem hoopCommandsComplete : Obligations.HoopCommandsComplete := by
  unfold Obligations.HoopCommandsComplete
  refine ⟨fun s a e q h hsub hcheck hpages => ?create, fun s a e q h hsub hvat hcheck => ?createEvent,
    fun s a e q h hsub hnamed hstill hoff hidle => ?destroy,
    fun s a e q h hsub hrange hwheel hpresent howns hunnamed => ?destroyEvent, fun s a e q h hnamed hon => ?disable⟩
  case create =>
    refine ⟨_, exec_createHoop_of_pagesOk h hsub hcheck hpages, ?_⟩
    have hmade : (hoopMade e.vatId q (adminState s a)).hoop (chNumber q) = newHoop (adminState s a) e.vatId q := modHoop_self ..
    rw [hmade]
    refine ⟨rfl, rfl, congrArg Vat.fn (adminState_vat s a e.vatId), rfl, rfl, rfl, rfl, rfl, rfl, rfl, rfl, rfl, rfl,
      fun k hk => ?_⟩
    rw [hoopMade, modHoop_other _ _ _ _ hk, adminState_hoop]
  case createEvent =>
    refine ⟨_, exec_createEventHoop_of_noVat h hsub hvat hcheck, ?_⟩
    have hmade : (evqMade e.vatId q (adminState s a)).evq (chNumber q) = newEvq e.vatId q := modEvq_self ..
    rw [hmade]
    refine ⟨rfl, if_pos hvat, rfl, rfl, fun n hn => ?_⟩
    rw [evqMade, modEvq_other _ _ _ _ hn, adminState_evq]
  case destroy =>
    exact ⟨_, exec_destroyHoop_of_idle h hsub hnamed hstill hoff hidle, congrArg Hoop.present (killHoop_hoop ..)⟩
  case destroyEvent =>
    have hcur : adminCur (killEvq (hoopNumber e) (adminState s a)) a = some e :=
      (adminCur_of_wk_admins_eq (congrArg WorkS.admins (killEvq_wk ..)) a).trans (adminCur_adminState_of_adminGot h)
    refine ⟨_, exec_destroyEventHoop_of_unnamed h hsub hrange hwheel hpresent howns hunnamed, ?_, adminWaits_adminHold hcur ..⟩
    rw [State.evq, adminHold_ev]
    exact congrArg EvHoop.present (killEvq_evq ..)
  case disable =>
    refine ⟨_, exec_disableHoop_of_enabled h hnamed hon, ?_⟩
    rw [hoopOff, modHoop_self]
    exact ⟨rfl, rfl, rfl, adminWaits_adminHold (adminCur_adminState_of_adminGot h) ..⟩

end Sys2Proof.Machine
end

section
/-! Moving a virtual function: FREEZE, SAVE_STATE, RESTORE_STATE and THAW (R122 to R125). -/

namespace Sys2Proof.Machine

open Sys2Proof

theorem forAll_keeps {α β : Type} {π : State → β} {f : α → State → State} (hf : ∀ x t, π (f x t) = π t) (l : List α)
    (s : State) : π (forAll l f s) = π s := by
  induction l generalizing s with
  | nil => rfl
  | cons x l ih => exact (ih (f x s)).trans (hf x s)

/-! ### FREEZE (R122) -/

theorem cancelPages_ev (p : PageReq → Bool) (s : State) : (cancelPages p s).ev = s.ev :=
  (cancelPages_same (c := 528) (Same.refl s) (by decide)).part .events (by decide)

theorem pageGone_wk_admins (v : Nat) (s : State) : (pageGone v s).wk.admins = s.wk.admins := by
  unfold pageGone
  split <;> rfl

theorem cancelPages_wk_admins (p : PageReq → Bool) (s : State) : (cancelPages p s).wk.admins = s.wk.admins :=
  forAll_keeps (π := fun t => t.wk.admins) (f := fun r : PageReq => pageGone r.vat) (fun r => pageGone_wk_admins r.vat) _ _

/-- The waits of hoop h are disarmed and stand ready to run again. -/
def waitsUndone (h : Nat) (s : State) : State := unstartWaits h (disarmHoop h s)

theorem forAll_waitsUndone_ev (l : List Nat) (s : State) : (forAll l waitsUndone s).ev = s.ev :=
  forAll_keeps (f := waitsUndone) (fun _ _ => rfl) l s

theorem forAll_waitsUndone_wk_admins (l : List Nat) (s : State) : (forAll l waitsUndone s).wk.admins = s.wk.admins :=
  forAll_keeps (π := fun t => t.wk.admins) (f := waitsUndone) (fun _ _ => rfl) l s

/-- Function f FREEZING for admin hoop a, before its work is looked at. -/
def freezeBegun (a : Nat) (f : Fn) (s : State) : State :=
  modFnS f (fun x => { x with vfState := .freezing, freezeBy := some a }) (adminHold a (.freeze f) .ok 0 s)

/-- Function f FREEZING for admin hoop a, once its waits are undone and the page requests that no entry in flight needs are cancelled. -/
def freezeLeft (a : Nat) (f : Fn) (s : State) : State :=
  let t := forAll (hoopsOf s f) waitsUndone (freezeBegun a f s)
  cancelPages (fun r => (t.vat r.vat).fn = f && !pageInFlight t r) t

theorem freezeLeft_fnS (a : Nat) (f : Fn) (s : State) :
    (freezeLeft a f s).fnS f = { (adminHold a (.freeze f) .ok 0 s).fnS f with vfState := .freezing, freezeBy := some a } := by
  simp only [freezeLeft, State.fnS, cancelPages_ev, forAll_waitsUndone_ev]
  exact modFnS_self ..

theorem freezeLeft_admin (a : Nat) (f : Fn) (s : State) (b : Nat) :
    (freezeLeft a f s).admin b = (adminHold a (.freeze f) .ok 0 s).admin b := by
  simp only [freezeLeft, State.admin, cancelPages_wk_admins, forAll_waitsUndone_wk_admins]
  rfl

theorem exec_freeze_of_running {s : State} {a : Nat} {e : Entry} {q : List W64} (h : AdminGot s a 0x8B e q)
    (hnames : namesVf (adminState s a) a (movedId e) = true) (hrun : (s.fnS (fnOfId (movedId e))).vfState = .running) :
    exec (.freeze a) s =
      .next (tryFrozen (fnOfId (movedId e)) (freezeLeft a (fnOfId (movedId e)) (adminState s a))) := by
  refine congrArg Host.Outcome.next ((adminRun_of_adminGot h rfl _).trans ?_)
  simp only [hnames, adminState_fnS, hrun, Bool.not_true, Bool.false_eq_true, ne_eq, not_true, if_false]
  rfl

/-! ### SAVE_STATE (R123) -/

/-- Function f SAVING, its SAVE_STATE left to ADMIN_COMMAND_COMPLETE with n bytes. -/
def saveHeld (a : Nat) (f : Fn) (n : Nat) (s : State) : State :=
  adminHold a (.saveState f) .ok n (modFnS f (fun x => { x with vfState := .saving }) s)

theorem saveHeld_fnS_vfState (a : Nat) (f : Fn) (n : Nat) (s : State) : ((saveHeld a f n s).fnS f).vfState = .saving := by
  rw [State.fnS, saveHeld, adminHold_ev]
  exact congrArg FnState.vfState (modFnS_self ..)

theorem saveHeld_cur {s : State} {a : Nat} {e : Entry} (hcur : adminCur s a = some e) (f : Fn) (n : Nat) :
    ((saveHeld a f n s).admin a).cur =
      some { idx := e.idx, kind := .saveState f, status := .ok, doneBytes := n, ports := [], dst := 0 } := by
  have hcur' : adminCur (modFnS f (fun x => { x with vfState := .saving }) s) a = some e := hcur
  rw [saveHeld, adminHold_of_adminCur hcur', modAdmin_self]

theorem saveHeld_mem (a : Nat) (f : Fn) (n : Nat) (s : State) : (saveHeld a f n s).m.mem = s.m.mem := by
  unfold saveHeld adminHold
  split <;> rfl

/-- The image of a function written at p under session m. -/
def imageOut (a p : Nat) (f : Fn) (m : MigSession) (s : State) : State :=
  modMig m.num (fun x => { x with images := x.images + 1 }) (adminOut a p (imageBytes s f m) s)

/-- A SAVE_STATE that finds its function, its session and the function's state good. -/
structure SaveGoes (s : State) (a : Nat) (e : Entry) (m : MigSession) : Prop where
  names : namesVf (adminState s a) a (movedId e) = true
  session : goodSession (adminState s a) (movedSession e) (fnOfId (movedId e)) = some m
  still : (s.fnS (fnOfId (movedId e))).vfState = .frozen ∨ (s.fnS (fnOfId (movedId e))).vfState = .saving

/-- A SAVE_STATE that nothing refuses saves, and only its sizing remains to be told apart. -/
theorem exec_saveState_of_saveGoes {s : State} {a : Nat} {e : Entry} {q : List W64} {m : MigSession}
    (h : AdminGot s a 0x8C e q) (hgoes : SaveGoes s a e m) {f : Fn} (hf : f = fnOfId (movedId e)) {bs : List Byte}
    (hbs : bs = imageBytes (adminState s a) f m) :
    exec (.saveState a) s = .next (if e.length = 0 then saveHeld a f bs.length (adminState s a)
      else if e.length < bs.length then adminEnd a .malformed (adminState s a)
      else saveHeld a f bs.length (imageOut a e.dst.toNat f m (adminState s a))) := by
  obtain ⟨hnames, hsession, hstill⟩ := hgoes
  subst hf hbs
  refine congrArg Host.Outcome.next ((adminRun_of_adminGot h rfl _).trans ?_)
  have hstate : (decide ((s.fnS (fnOfId (movedId e))).vfState ≠ .frozen) &&
      decide ((s.fnS (fnOfId (movedId e))).vfState ≠ .saving)) = false := by
    rcases hstill with hst | hst <;> simp [hst]
  simp only [hnames, hsession, adminState_fnS, Bool.not_true, Bool.false_eq_true, if_false, hstate]
  rfl

theorem adminCur_imageOut (a p : Nat) (f : Fn) (m : MigSession) (s : State) :
    adminCur (imageOut a p f m s) a = adminCur s a :=
  adminCur_of_wk_admins_eq (congrArg WorkS.admins (adminOut_wk a p (imageBytes s f m) s)) a

/-! ### RESTORE_STATE (R124) -/

theorem restoreFn_vfState (f : Fn) (i : FnImage) (s : State) : ((restoreFn f i s).fnS f).vfState = .restored :=
  congrArg FnState.vfState (modFnS_self ..)

/-- The outcome of RESTORE_STATE's check on the image that the entry's input holds (R124). -/
def imageChecked (s : State) (a : Nat) (e : Entry) : Except Status FnImage :=
  restoreCheck s e (fnOfId (movedId e)) (readBytes s (hostLoc a e.src.toNat) e.length)

theorem exec_restoreState_of_ok {s : State} {a : Nat} {e : Entry} {q : List W64} {i : FnImage} (h : AdminGot s a 0x8D e q)
    (hnames : namesVf (adminState s a) a (movedId e) = true) (hcheck : imageChecked (adminState s a) a e = .ok i) :
    exec (.restoreState a) s = .next (adminHold a (.restoreState (fnOfId (movedId e))) .ok 0
      (modMig (movedSession e) (fun m => { m with spent := true }) (restoreFn (fnOfId (movedId e)) i (adminState s a)))) := by
  rw [imageChecked] at hcheck
  refine congrArg Host.Outcome.next ((adminRun_of_adminGot h rfl _).trans ?_)
  simp only [hnames, hcheck, Bool.not_true, Bool.false_eq_true, if_false]

theorem exec_restoreState_of_error {s : State} {a : Nat} {e : Entry} {q : List W64} {st : Status} (h : AdminGot s a 0x8D e q)
    (hnames : namesVf (adminState s a) a (movedId e) = true) (hcheck : imageChecked (adminState s a) a e = .error st) :
    exec (.restoreState a) s = .next (adminEnd a st (adminState s a)) := by
  rw [imageChecked] at hcheck
  refine congrArg Host.Outcome.next ((adminRun_of_adminGot h rfl _).trans ?_)
  simp only [hnames, hcheck, Bool.not_true, Bool.false_eq_true, if_false]

/-! ### THAW (R125) -/

theorem exec_thaw_of_still {s : State} {a : Nat} {e : Entry} {q : List W64} (h : AdminGot s a 0x8E e q)
    (hnames : namesVf (adminState s a) a (movedId e) = true) (hrun : (s.fnS (fnOfId (movedId e))).vfState ≠ .running)
    (hfreeze : (s.fnS (fnOfId (movedId e))).vfState ≠ .freezing) :
    exec (.thaw a) s =
      .next (thawFn (fnOfId (movedId e)) (adminHold a (.thaw (fnOfId (movedId e))) .ok 0 (adminState s a))) := by
  refine congrArg Host.Outcome.next ((adminRun_of_adminGot h rfl _).trans ?_)
  simp [hnames, adminState_fnS, hrun, hfreeze]

/-- Settles O21: each command, its function named and its state fit, is the one change that it makes of the function. -/
theorem movingAFunctionCompletes : Obligations.MovingAFunctionCompletes := by
  unfold Obligations.MovingAFunctionCompletes
  refine ⟨fun s a e q h => ?freeze, fun s a e q m h => ?save, fun s a e q h => ?restore, fun s a e q h => ?thaw⟩
  case freeze =>
    intro f hnames hrun
    refine ⟨_, exec_freeze_of_running h hnames hrun, ?_, ?_, ?_⟩
    · rw [freezeLeft_fnS]
    · rw [freezeLeft_fnS]
    · obtain ⟨w, hw, hkind⟩ := adminWaits_adminHold (adminCur_adminState_of_adminGot h) (.freeze f) .ok 0
      exact ⟨w, by rw [freezeLeft_admin, hw], hkind⟩
  case save =>
    intro f u bs work hnames hsession hstill
    have hcur : adminCur u a = some e := adminCur_adminState_of_adminGot h
    have hexec := exec_saveState_of_saveGoes (bs := bs) h ⟨hnames, hsession, hstill⟩ rfl rfl
    refine ⟨fun hzero => ?_, fun hlen hfit => ?_⟩
    · rw [hexec, if_pos hzero]
      exact ⟨_, rfl, saveHeld_fnS_vfState .., saveHeld_cur hcur .., (saveHeld_mem ..).trans (adminState_mem s a)⟩
    · rw [hexec, if_neg hlen, if_neg (Nat.not_lt.2 hfit)]
      exact ⟨_, rfl, saveHeld_fnS_vfState .., saveHeld_cur ((adminCur_imageOut ..).trans hcur) .., saveHeld_mem ..⟩
  case restore =>
    intro f u hnames
    split
    next i hcheck => exact ⟨exec_restoreState_of_ok h hnames hcheck, restoreFn_vfState ..⟩
    next st hcheck => exact exec_restoreState_of_error h hnames hcheck
  case thaw =>
    intro f hnames hrun hfreeze
    exact ⟨_, exec_thaw_of_still h hnames hrun hfreeze, adminWaits_adminHold (adminCur_adminState_of_adminGot h) ..,
      (adminHold_ev ..).trans (adminState_ev s a)⟩

end Sys2Proof.Machine
end

section
/-! Functions, vats and hoops that go on after a wait (R31 to R33, R50, R74, R122). -/

namespace Sys2Proof.Machine

open Sys2Proof

/-! ### Vats (R31, R32, R50) -/

theorem tabGet_map {κ α : Type} [DecidableEq κ] {d : α} {f : α → α} (hd : f d = d) (t : List (κ × α)) (q : κ) :
    tabGet d (t.map (fun x => (x.1, f x.2))) q = f (tabGet d t q) := by
  induction t with
  | nil => exact hd.symm
  | cons e r ih =>
    obtain ⟨k, v⟩ := e
    by_cases hk : k = q <;> simp [tabGet, hk, ih]

/-- The slot times of every vat end with the waiting period; nothing else of a vat changes (R32). -/
theorem leaveWait_vat (v : Nat) (s : State) (x : Nat) :
    (leaveWait v s).vat x =
      if (s.wk.vatWait.filter (· ≠ v)).isEmpty then { s.vat x with expired := false } else s.vat x := by
  simp only [leaveWait, State.vat]
  split
  · exact tabGet_map (f := fun y : Vat => { y with expired := false }) rfl s.wk.vats x
  · rfl

theorem tryEvict_of_no_wait {s : State} (hwait : s.wk.vatWait = []) : tryEvict s = s := by
  simp [tryEvict, hwait]

theorem killVat_vat_st (v : Nat) (s : State) : ((killVat v s).vat v).st = .free := by
  have hnone : ∀ t : State, ({ t with wk.vats := tabDel t.wk.vats v } : State).vat v = {} := fun t => tabGet_tabDel_self ..
  simp only [killVat, leaveWait_vat, hnone]
  split <;> rfl

/-- An ABORTING vat without hoops and without a fault event hoop has nothing left to write: it becomes FREE (R50). -/
theorem finishTear_of_no_hoops {s : State} {v : Nat} (hst : (s.vat v).st = .aborting)
    (hhoops : hoopsWith s (fun y => y.vat = v) = []) (hevq : (s.vat v).faultEvqValid = false) :
    finishTear v s =
      match (s.vat v).destroyBy with
      | some a => adminEnd a .ok (tryEvict (killVat v s))
      | none => tryEvict (killVat v s) := by
  cases hby : (s.vat v).destroyBy with
  | _ => simp [finishTear, hst, hhoops, hevq, hby, forAll, when]

theorem exec_vatLoad_of_turn {s : State} {v k : Nat} (hwait : s.wk.vatWait = [v]) (hslot : freeSlot s = some k) :
    exec (.vatLoad v) s = .next (loadVat v k s) := by
  show execVatLoad v s = _
  simp [execVatLoad, hwait, hslot]

/-- Vat v in slot k, before it leaves the waiting list. -/
def vatPlaced (v k : Nat) (s : State) : State :=
  modVat v (fun x => { x with
    st := if x.st = .pinned then .pinned else .resident
    slot := some k, loadedAt := s.tm.deviceTime, lastUse := s.wk.useStamp + 1, expired := false })
    { s with wk.useStamp := s.wk.useStamp + 1 }

theorem vatPlaced_vat (v k : Nat) (s : State) :
    (vatPlaced v k s).vat v = { s.vat v with
      st := if (s.vat v).st = .pinned then .pinned else .resident
      slot := some k, loadedAt := s.tm.deviceTime, lastUse := s.wk.useStamp + 1, expired := false } := modVat_self ..

theorem leaveWait_vatPlaced_vatWait {s : State} {v : Nat} (hwait : s.wk.vatWait = [v]) (k : Nat) :
    (leaveWait v (vatPlaced v k s)).wk.vatWait = [] := by
  simp [leaveWait, vatPlaced, hwait]

theorem loadVat_of_only_wait {s : State} {v : Nat} (hwait : s.wk.vatWait = [v]) (k : Nat) :
    loadVat v k s = leaveWait v (vatPlaced v k s) := tryEvict_of_no_wait (leaveWait_vatPlaced_vatWait hwait k)

theorem exec_vatSlotExpiry_of_resident {s : State} {v : Nat} (hst : (s.vat v).st = .resident)
    (hslot : (s.vat v).slot.isSome = true) (hwait : s.wk.vatWait ≠ []) :
    exec (.vatSlotExpiry v) s = .next (tryEvict (modVat v (fun x => { x with expired := true }) s)) := by
  show execVatSlotExpiry v s = _
  simp [execVatSlotExpiry, hst, hslot, hwait]

/-! ### Functions and hoops (R74, R122) -/

theorem exec_freezeTimeout_of_freezing {s : State} {f : Fn} {a : Nat} (hst : (s.fnS f).vfState = .freezing)
    (hby : (s.fnS f).freezeBy = some a) : exec (.freezeTimeout f) s = .next (adminEnd a .busy (thawFn f s)) := by
  show execFreezeTimeout f s = _
  simp [execFreezeTimeout, hst, hby]

theorem dropReqs_wk (p : Req → Bool) (s : State) : (dropReqs p s).wk = s.wk :=
  (dropReqs_same (c := 1026) (Same.refl s) (by decide)).part .work (by decide)

/-- Hoop x placed anew: its entries up to mark r run again from its head (R74). -/
def Hoop.replaced (r : W32) (x : Hoop) : Hoop :=
  { x with
    migrating := false, oldUnit := none, entries := [], pushed := [], doneAhead := [], fetchNext := x.head
    resumeTo := if r = x.head then none else some r }

/-- Hoop h placed anew, the requests of its entries and of its ring dropped and its waits disarmed. -/
def hoopPlaced (r : W32) (h : Nat) (s : State) : State :=
  modHoop h (Hoop.replaced r) (dropOwner (.ring (.data h)) (disarmHoop h
    ((s.hoop h).entries.foldl (fun t e => dropReqs (reqOfEntry h e.idx) t) s)))

theorem hoopPlaced_hoop (r : W32) (h : Nat) (s : State) : (hoopPlaced r h s).hoop h = Hoop.replaced r (s.hoop h) := by
  have hdrained : ((s.hoop h).entries.foldl (fun t e => dropReqs (reqOfEntry h e.idx) t) s).wk = s.wk :=
    forAll_keeps (f := fun e : Entry => dropReqs (reqOfEntry h e.idx)) (fun e => dropReqs_wk (reqOfEntry h e.idx)) _ s
  rw [hoopPlaced, modHoop_self, hoop_of_wk_eq (dropOwner_wk ..)]
  exact congrArg (Hoop.replaced r) (hoop_of_wk_eq hdrained h)

/-- A hoop resumes by asking for its ring once its placement is new; its group's closing entry runs again (R74). -/
theorem resumeHoop_eq_askRing (r : W32) (h : Nat) (s : State) :
    ∃ u, resumeHoop r h s = askRing h u ∧ u.hoop h = Hoop.replaced r (s.hoop h) := by
  refine ⟨match groupOf (hoopPlaced r h s) h with
    | some g => modColl g (fun c => { c with closing := none }) (hoopPlaced r h s)
    | none => hoopPlaced r h s, rfl, ?_⟩
  split <;> exact hoopPlaced_hoop r h s

theorem exec_hoopResume_of_drained {s : State} {h : Nat} (hpresent : (s.hoop h).present = true)
    (hmoved : (s.hoop h).migrating = true) (hdone : oldUnitDone s (s.hoop h) = true) :
    exec (.hoopResume h) s = .next (tryIdle h (resumeHoop (startedTo (s.hoop h)) h s)) := by
  show execHoopResume h s = _
  simp [execHoopResume, hpresent, hmoved, hdone]

/-- Settles O27: each event, where its wait is over, is one use of the operation that lets the work go on. -/
theorem functionsVatsAndHoopsGoOn : Obligations.FunctionsVatsAndHoopsGoOn := by
  unfold Obligations.FunctionsVatsAndHoopsGoOn
  refine ⟨fun s f a hst hby => exec_freezeTimeout_of_freezing hst hby, fun s v hst hhoops hevq => ?teardown,
    fun s v k hwait hslot => ?load, fun s v hst hslot hwait => ?expiry, fun s h => ?resume⟩
  case teardown =>
    exact ⟨killVat v s, congrArg Host.Outcome.next (finishTear_of_no_hoops hst hhoops hevq), killVat_vat_st v s⟩
  case load =>
    refine ⟨_, exec_vatLoad_of_turn hwait hslot, ?_⟩
    rw [loadVat_of_only_wait hwait, leaveWait_vat, vatPlaced_vat]
    refine ⟨?_, leaveWait_vatPlaced_vatWait hwait k, ?_⟩ <;> split <;> rfl
  case expiry =>
    refine ⟨_, exec_vatSlotExpiry_of_resident hst hslot hwait, ?_⟩
    rw [modVat_self]
    exact ⟨rfl, rfl⟩
  case resume =>
    intro x hpresent hmoved hdone
    obtain ⟨u, hresume, hu⟩ := resumeHoop_eq_askRing (startedTo x) h s
    refine ⟨u, by rw [exec_hoopResume_of_drained hpresent hmoved hdone, hresume], ?_⟩
    rw [hu]
    exact ⟨rfl, rfl, rfl, rfl⟩

end Sys2Proof.Machine
end

section
/-! Recipe commands of the admin hoop: what LOAD_RECIPE and UNLOAD_RECIPE make of the recipes that are loaded (R150 to R152). -/

namespace Sys2Proof.Machine

open Sys2Proof

/-! ### LOAD_RECIPE (R150) -/

/-- A command held for its end, in full: what it is, and the status and DONE_BYTES that it will carry. -/
theorem adminHold_cur {s : State} {a : Nat} {e : Entry} (hcur : adminCur s a = some e) (k : AdminKind) (st : Status)
    (n : Nat) : ((adminHold a k st n s).admin a).cur =
      some { idx := e.idx, kind := k, status := st, doneBytes := n, ports := [], dst := 0 } := by
  rw [adminHold_of_adminCur hcur, modAdmin_self]

theorem adminHold_recipes (a : Nat) (k : AdminKind) (st : Status) (n : Nat) (s : State) :
    (adminHold a k st n s).wk.recipes = s.wk.recipes := by
  unfold adminHold
  split <;> rfl

theorem adminHold_hoops (a : Nat) (k : AdminKind) (st : Status) (n : Nat) (s : State) :
    (adminHold a k st n s).wk.hoops = s.wk.hoops := by
  unfold adminHold
  split <;> rfl

/-- The recipe that LOAD_RECIPE of entry e and block q loads, with replicas reps. -/
def lrRecipe (u : State) (a : Nat) (e : Entry) (q : List W64) (reps : List Replica) : Recipe :=
  { fn := fnOfId (lrFn q), handle := e.subop, image := lrImage u a q, replicas := reps }

/-- A LOAD_RECIPE that steps 1 to 6 of R150 let pass and whose replicas are reps. -/
structure LoadGoes (u : State) (a : Nat) (e : Entry) (q : List W64) (reps : List Replica) : Prop where
  block : lrBlockOk e q = true
  names : namesOwn u a (lrFn q) = true
  early : lrEarly u (hcWheelOf u a) e q = none
  input : inputOk u a (qw q 0) (lrBytes q) = true
  image : recipeError (lrImage u a q) (lrBytes q) = none
  placed : placeAll u (lrImage u a q) (lrSlices u (hcWheelOf u a) q) (lrReplicas q) = some reps

/-- Recipe r loaded, and its result written where entry e has an output buffer. -/
def recipeLoaded (a : Nat) (e : Entry) (r : Recipe) (s : State) : State :=
  when (outLen e ≠ 0) (adminOut a e.dst.toNat (recipeResult 0 0 r.replicas r.image))
    { s with wk.recipes := s.wk.recipes ++ [r] }

theorem recipeLoaded_wk (a : Nat) (e : Entry) (r : Recipe) (s : State) :
    (recipeLoaded a e r s).wk = { s.wk with recipes := s.wk.recipes ++ [r] } := by
  unfold recipeLoaded when
  split
  · exact adminOut_wk ..
  · rfl

theorem adminCur_recipeLoaded (a : Nat) (e : Entry) (r : Recipe) (s : State) :
    adminCur (recipeLoaded a e r s) a = adminCur s a :=
  adminCur_of_wk_admins_eq (by rw [recipeLoaded_wk]) a

theorem exec_loadRecipe_of_loadGoes {s : State} {a : Nat} {e : Entry} {q : List W64} {reps : List Replica}
    (h : AdminGot s a 0x85 e q) (hgoes : LoadGoes (adminState s a) a e q reps) :
    exec (.loadRecipe a) s = .next (adminHold a .loadRecipe .ok 0
      (recipeLoaded a e (lrRecipe (adminState s a) a e q reps) (adminState s a))) := by
  obtain ⟨hblock, hnames, hearly, hinput, himage, hplaced⟩ := hgoes
  refine congrArg Host.Outcome.next ((adminRun_of_adminGot h rfl _).trans ?_)
  simp only [hblock, hnames, hearly, hinput, himage, hplaced, Bool.not_true, Bool.false_eq_true, if_false]
  rfl

/-! ### UNLOAD_RECIPE (R152) -/

/-- Whether a recipe is the one under handle n of function f. -/
def Recipe.isAt (f : Fn) (n : Nat) (x : Recipe) : Bool := x.fn = f && x.handle = n

/-- A recipe once admin hoop a's UNLOAD_RECIPE of handle n of function f is accepted. -/
def Recipe.unloading (a : Nat) (f : Fn) (n : Nat) (x : Recipe) : Recipe :=
  if x.isAt f n then { x with unloadBy := some a } else x

theorem Recipe.isAt_unloading (a : Nat) (f : Fn) (n : Nat) (x : Recipe) : (x.unloading a f n).isAt f n = x.isAt f n := by
  unfold Recipe.unloading
  split <;> rfl

theorem Recipe.unloading_of_not_isAt {f : Fn} {n : Nat} {x : Recipe} (h : x.isAt f n = false) (a : Nat) :
    x.unloading a f n = x := by
  simp [Recipe.unloading, h]

/-- Of function f's recipes, none of them unloading before, the one that now is lies under the handle, for admin hoop a. -/
theorem Recipe.of_mem_map_unloading {l : List Recipe} {a : Nat} {f : Fn} {n : Nat} {y : Recipe}
    (hfree : ∀ x ∈ l, x.fn = f → x.unloadBy = none) (hy : y ∈ l.map (Recipe.unloading a f n)) (hfn : y.fn = f)
    (hun : y.unloadBy.isSome = true) : y.handle = n ∧ y.unloadBy = some a := by
  obtain ⟨x, hx, rfl⟩ := List.mem_map.1 hy
  cases hat : x.isAt f n with
  | true =>
    simp only [Recipe.unloading, hat, if_true]
    simp only [Recipe.isAt, Bool.and_eq_true, decide_eq_true_eq] at hat
    exact ⟨hat.2, trivial⟩
  | false =>
    rw [Recipe.unloading_of_not_isAt hat] at hfn hun
    simp [hfree x hx hfn] at hun

theorem filter_not_isAt_map_unloading (l : List Recipe) (a : Nat) (f : Fn) (n : Nat) :
    (l.map (Recipe.unloading a f n)).filter (fun x => !x.isAt f n) = l.filter (fun x => !x.isAt f n) := by
  induction l with
  | nil => rfl
  | cons x l ih =>
    cases hat : x.isAt f n with
    | true => simp [Recipe.isAt_unloading, hat, ih]
    | false => simp [Recipe.unloading_of_not_isAt hat, hat, ih]

/-- The unloading of handle n of function f accepted on admin hoop a: it waits for the entries in flight that run the recipe. -/
def unloadBegun (a : Nat) (f : Fn) (n : Nat) (s : State) : State :=
  adminHold a (.unload f n) .ok 0 { s with wk.recipes := s.wk.recipes.map (Recipe.unloading a f n) }

theorem unloadBegun_recipes (a : Nat) (f : Fn) (n : Nat) (s : State) :
    (unloadBegun a f n s).wk.recipes = s.wk.recipes.map (Recipe.unloading a f n) := adminHold_recipes ..

theorem recipeBusy_of_hoops_eq {s t : State} (h : t.wk.hoops = s.wk.hoops) (f : Fn) (n : Nat) :
    recipeBusy t f n = recipeBusy s f n := by
  simp only [recipeBusy, h]

theorem recipeBusy_adminState (s : State) (a : Nat) (f : Fn) (n : Nat) :
    recipeBusy (adminState s a) f n = recipeBusy s f n :=
  recipeBusy_of_hoops_eq (congrArg WorkS.hoops (adminState_wk s a)) f n

theorem recipeOf_adminState (s : State) (a : Nat) (f : Fn) (n : Nat) : recipeOf (adminState s a) f n = recipeOf s f n := by
  simp only [recipeOf, adminState_wk]

theorem recipeBusy_unloadBegun (a : Nat) (g : Fn) (m : Nat) (s : State) (f : Fn) (n : Nat) :
    recipeBusy (unloadBegun a g m s) f n = recipeBusy s f n := recipeBusy_of_hoops_eq (adminHold_hoops ..) f n

theorem adminWaits_unloadBegun {s : State} {a : Nat} {e : Entry} (hcur : adminCur s a = some e) (f : Fn) (n : Nat) :
    AdminWaits (unloadBegun a f n s) a (.unload f n) :=
  adminWaits_adminHold (s := { s with wk.recipes := s.wk.recipes.map (Recipe.unloading a f n) }) hcur ..

theorem exec_unloadRecipe_of_loaded {s : State} {a : Nat} {e : Entry} {q : List W64} {r : Recipe}
    (h : AdminGot s a 0x86 e q) (hloaded : recipeOf s (adminFn a) e.subop = some r) :
    exec (.unloadRecipe a) s =
      .next (tryUnload (adminFn a) (unloadBegun a (adminFn a) e.subop (adminState s a))) := by
  refine congrArg Host.Outcome.next ((adminRun_of_adminGot h rfl _).trans ?_)
  simp only [recipeOf_adminState, hloaded]
  rfl

/-- The recipe under handle n of function f is gone, and its cells with it. -/
def recipeFreed (f : Fn) (n : Nat) (s : State) : State :=
  { s with wk.recipes := s.wk.recipes.filter (fun x => !x.isAt f n) }

/-- Where every recipe of f that is unloading is still run, all of them stay. -/
theorem tryUnload_of_busy {f : Fn} {s : State}
    (hbusy : ∀ x ∈ s.wk.recipes, x.fn = f → x.unloadBy.isSome = true → recipeBusy s f x.handle = true) :
    tryUnload f s = s := by
  have hnone : s.wk.recipes.find? (fun r => r.fn = f && r.unloadBy.isSome && !recipeBusy s f r.handle) = none := by
    simpa [List.find?_eq_none] using hbusy
  simp only [tryUnload, hnone]

/-- Where handle n is the one that is unloading, for admin hoop a, and nothing runs it, it goes. -/
theorem tryUnload_of_idle {f : Fn} {n a : Nat} {s : State}
    (honly : ∀ x ∈ s.wk.recipes, x.fn = f → x.unloadBy.isSome = true → x.handle = n ∧ x.unloadBy = some a)
    (hsome : ∃ x ∈ s.wk.recipes, x.fn = f ∧ x.unloadBy.isSome = true) (hidle : recipeBusy s f n = false) :
    tryUnload f s = adminEnd a .ok (recipeFreed f n s) := by
  obtain ⟨x, hx, hfn, hun⟩ := hsome
  cases hfind : s.wk.recipes.find? (fun r => r.fn = f && r.unloadBy.isSome && !recipeBusy s f r.handle) with
  | none =>
    have hstays := List.find?_eq_none.1 hfind x hx
    obtain ⟨hhandle, -⟩ := honly x hx hfn hun
    simp [hfn, hun, hhandle, hidle] at hstays
  | some y =>
    have hy := List.find?_some hfind
    simp only [Bool.and_eq_true, decide_eq_true_eq] at hy
    obtain ⟨⟨hyfn, hyun⟩, -⟩ := hy
    obtain ⟨rfl, hby⟩ := honly y (List.mem_of_find?_eq_some hfind) hyfn hyun
    simp only [tryUnload, hfind, hby]
    rfl

/-- A recipe found under a handle is, once its unloading begins, an unloading recipe of its function. -/
theorem exists_unloading_of_recipeOf {s : State} {f : Fn} {n : Nat} {r : Recipe} (h : recipeOf s f n = some r) (a : Nat) :
    ∃ x ∈ s.wk.recipes.map (Recipe.unloading a f n), x.fn = f ∧ x.unloadBy.isSome = true := by
  have hr := List.find?_some h
  simp only [Bool.and_eq_true, decide_eq_true_eq] at hr
  obtain ⟨⟨hfn, hhandle⟩, -⟩ := hr
  have hat : r.isAt f n = true := by simp [Recipe.isAt, hfn, hhandle]
  refine ⟨_, List.mem_map_of_mem (List.mem_of_find?_eq_some h), ?_⟩
  simp [Recipe.unloading, hat, hfn]

/-- Once its unloading begins, the recipe under the handle is the only one of its function that is unloading. -/
theorem unloading_of_unloadBegun {s : State} {f : Fn} (hfree : ∀ x ∈ s.wk.recipes, x.fn = f → x.unloadBy = none) (a n : Nat) :
    ∀ x ∈ (unloadBegun a f n s).wk.recipes, x.fn = f → x.unloadBy.isSome = true → x.handle = n ∧ x.unloadBy = some a := by
  rw [unloadBegun_recipes]
  exact fun x => Recipe.of_mem_map_unloading hfree

theorem tryUnload_unloadBegun_of_idle {s : State} {a n : Nat} {f : Fn} {r : Recipe}
    (hfree : ∀ x ∈ s.wk.recipes, x.fn = f → x.unloadBy = none) (hloaded : recipeOf s f n = some r)
    (hidle : recipeBusy s f n = false) :
    tryUnload f (unloadBegun a f n s) = adminEnd a .ok (recipeFreed f n (unloadBegun a f n s)) := by
  refine tryUnload_of_idle (unloading_of_unloadBegun hfree a n) ?_ ((recipeBusy_unloadBegun ..).trans hidle)
  rw [unloadBegun_recipes]
  exact exists_unloading_of_recipeOf hloaded a

theorem tryUnload_unloadBegun_of_busy {s : State} {a n : Nat} {f : Fn}
    (hfree : ∀ x ∈ s.wk.recipes, x.fn = f → x.unloadBy = none) (hbusy : recipeBusy s f n = true) :
    tryUnload f (unloadBegun a f n s) = unloadBegun a f n s := by
  refine tryUnload_of_busy fun x hx hfn hun => ?_
  obtain ⟨hhandle, -⟩ := unloading_of_unloadBegun hfree a n x hx hfn hun
  rw [hhandle, recipeBusy_unloadBegun, hbusy]

theorem recipeFreed_unloadBegun_recipes (a : Nat) (f : Fn) (n : Nat) (s : State) :
    (recipeFreed f n (unloadBegun a f n s)).wk.recipes = s.wk.recipes.filter (fun x => !x.isAt f n) := by
  rw [recipeFreed, unloadBegun_recipes]
  exact filter_not_isAt_map_unloading ..

/-- Settles O16: a load adds its recipe before its result is written, and an unloading marks its own recipe, the one that
tryUnload then finds unless an entry in flight runs it. -/
theorem recipeLoadsComplete : Obligations.RecipeLoadsComplete := by
  unfold Obligations.RecipeLoadsComplete
  refine ⟨fun s a e q reps h => ?load, fun s a e q r h => ?unload⟩
  case load =>
    intro u img hblock hnames hearly hinput himage hplaced
    have hcur : adminCur u a = some e := adminCur_adminState_of_adminGot h
    refine ⟨_, exec_loadRecipe_of_loadGoes h ⟨hblock, hnames, hearly, hinput, himage, hplaced⟩,
      adminHold_cur ((adminCur_recipeLoaded ..).trans hcur) .., ?_⟩
    rw [adminHold_recipes, recipeLoaded_wk, adminState_wk]
    rfl
  case unload =>
    intro f mine hloaded hfree
    rw [exec_unloadRecipe_of_loaded h hloaded]
    rw [← recipeOf_adminState s a] at hloaded
    rw [← recipeBusy_adminState s a]
    rw [← adminState_wk s a] at hfree ⊢
    exact ⟨fun hidle => ⟨_, congrArg Host.Outcome.next (tryUnload_unloadBegun_of_idle hfree hloaded hidle),
        recipeFreed_unloadBegun_recipes ..⟩,
      fun hbusy => ⟨_, congrArg Host.Outcome.next (tryUnload_unloadBegun_of_busy hfree hbusy),
        adminWaits_unloadBegun (adminCur_adminState_of_adminGot h) .., unloadBegun_recipes ..⟩⟩

end Sys2Proof.Machine
end

section
/-! Floating-point lanes of the Culture fabric: their magnitudes and their order, which FABS, FMIN, FMAX and ABSMAX use (R163,
R164, R173, R174). -/

namespace Sys2Proof.Machine

open Sys2Proof

/-! ### Formats (R163, R164) -/

/-- The codes of the floating-point formats. -/
def floatCodes : List Nat := [0x01, 0x02, 0x03, 0x04, 0x08, 0x09, 0x0A, 0x0B, 0x0C]

theorem mem_floatCodes {f : Nat} {g : FloatFmt} (h : floatFmt f = some g) : f ∈ floatCodes := by
  unfold floatFmt at h
  split at h <;> simp_all [floatCodes]

/-- A format is a sign bit, then an exponent of at least one bit, then the fraction. -/
theorem widthOf_of_floatFmt {f : Nat} {g : FloatFmt} (h : floatFmt f = some g) :
    widthOf f = g.ebits + g.mbits + 1 ∧ 0 < g.ebits := by
  have table : ∀ f ∈ floatCodes, ∀ g ∈ floatFmt f, widthOf f = g.ebits + g.mbits + 1 ∧ 0 < g.ebits := by decide
  exact table f (mem_floatCodes h) g h

/-- A format with a NaN has a canonical one, and its sign bit is clear. -/
theorem canonicalNan_of_floatFmt {f : Nat} {g : FloatFmt} (h : floatFmt f = some g) :
    ((g.hasInf || g.topNan) = true → g.nan.isSome = true) ∧ g.nan.getD 0 < 2 ^ (widthOf f - 1) := by
  have table : ∀ f ∈ floatCodes, ∀ g ∈ floatFmt f,
      ((g.hasInf || g.topNan) = true → g.nan.isSome = true) ∧ g.nan.getD 0 < 2 ^ (widthOf f - 1) := by decide
  exact table f (mem_floatCodes h) g h

theorem packIn_nan {f : Nat} {g : FloatFmt} (h : floatFmt f = some g) (mode : Nat) : packIn f mode .nan = g.nan.getD 0 := by
  simp [packIn, h, packVal]

/-! ### The magnitude of a lane -/

/-- A value with its sign cleared. -/
def Val.clearSign : Val → Val
  | .nan => .nan
  | .inf _ => .inf false
  | .fin _ m e => .fin false m e

/-- The exponent field below the sign. -/
theorem field_exponent {g : FloatFmt} (he : 0 < g.ebits) (x : Nat) :
    field x (g.ebits + g.mbits - 1) g.mbits = x / 2 ^ g.mbits % 2 ^ g.ebits := by
  rw [field, show g.ebits + g.mbits - 1 + 1 - g.mbits = g.ebits by omega]

theorem field_exponent_mod {g : FloatFmt} (he : 0 < g.ebits) (x : Nat) :
    field (x % 2 ^ (g.ebits + g.mbits)) (g.ebits + g.mbits - 1) g.mbits = field x (g.ebits + g.mbits - 1) g.mbits := by
  rw [field_exponent he, field_exponent he, Nat.add_comm, Nat.pow_add, Nat.mod_mul_right_div_self, Nat.mod_mod]

theorem bitOf_mod_two_pow_self (x i : Nat) : bitOf (x % 2 ^ i) i = false := by
  simp [bitOf, Nat.div_eq_of_lt (Nat.mod_lt x (Nat.two_pow_pos i))]

/-- The bits below the sign of a lane are its value without its sign. -/
theorem decodeVal_mod {f : Nat} {g : FloatFmt} (h : floatFmt f = some g) (x : Nat) :
    decodeVal f (x % 2 ^ (widthOf f - 1)) = (decodeVal f x).clearSign := by
  obtain ⟨hw, he⟩ := widthOf_of_floatFmt h
  have hfrac : x % 2 ^ (g.ebits + g.mbits) % 2 ^ g.mbits = x % 2 ^ g.mbits :=
    Nat.mod_mod_of_dvd x (Nat.pow_dvd_pow 2 (Nat.le_add_left ..))
  simp only [decodeVal, h, hw, Nat.add_sub_cancel, field_exponent_mod he, bitOf_mod_two_pow_self, hfrac]
  split_ifs <;> rfl

theorem decodeVal_clearSign_of_lt {f x : Nat} {g : FloatFmt} (h : floatFmt f = some g) (hx : x < 2 ^ (widthOf f - 1)) :
    (decodeVal f x).clearSign = decodeVal f x := by
  rw [← decodeVal_mod h, Nat.mod_eq_of_lt hx]

/-- A zero has no bit set below its sign. -/
theorem mod_eq_zero_of_decodeVal_zero {f x : Nat} {g : FloatFmt} (h : floatFmt f = some g) {neg : Bool} {e : Int}
    (hx : decodeVal f x = .fin neg 0 e) : x % 2 ^ (widthOf f - 1) = 0 := by
  obtain ⟨hw, he⟩ := widthOf_of_floatFmt h
  simp only [decodeVal, h, field_exponent he] at hx
  have hbits : x / 2 ^ g.mbits % 2 ^ g.ebits = 0 ∧ x % 2 ^ g.mbits = 0 := by
    split_ifs at hx with hinf hfrac htop hexp
    · obtain ⟨-, hm, -⟩ := Val.fin.inj hx
      exact ⟨hexp, hm⟩
    · obtain ⟨-, hm, -⟩ := Val.fin.inj hx
      exact absurd (Nat.eq_zero_of_add_eq_zero hm).1 (Nat.two_pow_pos _).ne'
  rw [hw, Nat.add_sub_cancel, Nat.add_comm, Nat.pow_add, Nat.mod_mul, hbits.1, hbits.2, Nat.mul_zero]

theorem decodeVal_zero {f : Nat} {g : FloatFmt} (h : floatFmt f = some g) :
    decodeVal f 0 = .fin false 0 (1 - g.bias - g.mbits) := by
  obtain ⟨-, he⟩ := widthOf_of_floatFmt h
  have htop : 0 ≠ 2 ^ g.ebits - 1 := by have := Nat.one_lt_two_pow he.ne'; omega
  simp [decodeVal, h, field_exponent he, bitOf, htop]

/-! ### NaN -/

theorem nan_of_decodeVal_nan {f x : Nat} {g : FloatFmt} (h : floatFmt f = some g) (hx : decodeVal f x = .nan) :
    g.nan = some (packIn f 0 .nan) := by
  have hsome : g.nan.isSome = true := by
    refine (canonicalNan_of_floatFmt h).1 ?_
    simp only [decodeVal, h] at hx
    split_ifs at hx with hinf hfrac htop
    · exact Bool.or_eq_true_iff.mpr (.inl (Bool.and_eq_true_iff.mp hinf).1)
    · simp_all
  rw [packIn_nan h]
  exact (Option.some_get hsome).symm.trans (congrArg some (Option.get_eq_getD g.nan))

/-! ### FABS (R174) -/

theorem fabs_of_nan {f x : Nat} (hx : decodeVal f x = .nan) : fabs f x = packIn f 0 .nan := by
  simp [fabs, hx]

theorem fabs_of_ne_nan {f x : Nat} (hx : decodeVal f x ≠ .nan) : fabs f x = x % 2 ^ (widthOf f - 1) := by
  unfold fabs
  split
  · contradiction
  · rfl

theorem fabs_lt {f : Nat} {g : FloatFmt} (h : floatFmt f = some g) (x : Nat) : fabs f x < 2 ^ (widthOf f - 1) := by
  by_cases hx : decodeVal f x = .nan
  · rw [fabs_of_nan hx, packIn_nan h]
    exact (canonicalNan_of_floatFmt h).2
  · rw [fabs_of_ne_nan hx]
    exact Nat.mod_lt _ (Nat.two_pow_pos _)

/-! ### FMIN and FMAX (R174) -/

theorem fmin_of_nan {f x y : Nat} (hnan : decodeVal f x = .nan ∨ decodeVal f y = .nan) : fmin f x y = packIn f 0 .nan := by
  unfold fmin
  split <;> simp_all

theorem fmax_of_nan {f x y : Nat} (hnan : decodeVal f x = .nan ∨ decodeVal f y = .nan) : fmax f x y = packIn f 0 .nan := by
  unfold fmax
  split <;> simp_all

theorem fmin_of_ne_nan {f x y : Nat} (hx : decodeVal f x ≠ .nan) (hy : decodeVal f y ≠ .nan) :
    fmin f x y = if valLt (decodeVal f y) (decodeVal f x) then y else x := by
  unfold fmin
  split
  · contradiction
  · contradiction
  · rfl

theorem fmax_of_ne_nan {f x y : Nat} (hx : decodeVal f x ≠ .nan) (hy : decodeVal f y ≠ .nan) :
    fmax f x y = if valLt (decodeVal f x) (decodeVal f y) then y else x := by
  unfold fmax
  split
  · contradiction
  · contradiction
  · rfl

theorem valLt_negZero_posZero (e : Int) :
    valLt (.fin true 0 e) (.fin false 0 e) = true ∧ valLt (.fin false 0 e) (.fin true 0 e) = false := by
  simp [valLt]

/-! ### The order of magnitudes -/

/-- The size of a value, its sign left out; that of NaN says nothing. -/
def Val.size : Val → WithTop ℚ
  | .nan => 0
  | .inf _ => ⊤
  | .fin _ m e => ((m * 2 ^ e : ℚ) : WithTop ℚ)

@[simp] theorem Val.size_clearSign (v : Val) : v.clearSign.size = v.size := by
  cases v <;> rfl

/-- Both significands scaled to a common exponent compare as the values do. -/
theorem scaled_lt_iff {m k : Nat} {e f q : Int} (he : q ≤ e) (hf : q ≤ f) :
    m * 2 ^ (e - q).toNat < k * 2 ^ (f - q).toNat ↔ (m * 2 ^ e : ℚ) < k * 2 ^ f := by
  have scaled : ∀ {n : Nat} {i : Int}, q ≤ i → ((n * 2 ^ (i - q).toNat : Nat) : ℚ) * 2 ^ q = n * 2 ^ i := by
    intro n i hi
    rw [Nat.cast_mul, Nat.cast_pow, Nat.cast_two, ← zpow_natCast, Int.toNat_of_nonneg (by omega), mul_assoc,
      ← zpow_add₀ two_ne_zero, Int.sub_add_cancel]
  rw [← scaled he, ← scaled hf, mul_lt_mul_iff_left₀ (by positivity), Nat.cast_lt]

/-- Without their signs, values are ordered by their sizes. -/
theorem valLt_clearSign_iff {u v : Val} (hu : u ≠ .nan) (hv : v ≠ .nan) :
    valLt u.clearSign v.clearSign = true ↔ u.size < v.size := by
  match u, v with
  | .inf _, .inf _ => simp [Val.clearSign, valLt, Val.size]
  | .inf _, .fin _ _ _ => simp [Val.clearSign, valLt, Val.size]
  | .fin _ _ _, .inf _ => simp only [Val.clearSign, valLt, Val.size, WithTop.coe_lt_top, Bool.not_false]
  | .fin _ m e, .fin _ k f =>
    rw [Val.size, Val.size, WithTop.coe_lt_coe, ← scaled_lt_iff (min_le_left e f) (min_le_right e f)]
    simp only [Val.clearSign, valLt, Bool.false_eq_true, if_false, one_mul, Bool.and_false, Bool.false_and, Bool.or_false,
      decide_eq_true_eq, Nat.cast_lt]

/-! ### ABSMAX (R173) -/

theorem absMax_of_nan {f x : Nat} {l : List Nat} (hmem : x ∈ l) (hx : decodeVal f x = .nan) : absMax f l = packIn f 0 .nan := by
  unfold absMax
  exact if_pos (by simpa using ⟨x, hmem, hx⟩)

theorem argmax_cons_cons {α β : Type} [LinearOrder β] (k : α → β) (a b : α) (l : List α) :
    List.argmax k (a :: b :: l) = List.argmax k ((if k a < k b then b else a) :: l) := by
  simp only [List.argmax, List.foldl_cons, List.argAux]
  split <;> rfl

/-- From the magnitude a, the fold of ABSMAX keeps the first of the largest magnitudes. -/
theorem foldl_fabs_eq_argmax {f : Nat} {g : FloatFmt} (h : floatFmt f = some g) {l : List Nat} {a : Nat}
    (hl : ∀ x ∈ l, decodeVal f x ≠ .nan) (ha : a < 2 ^ (widthOf f - 1)) (hnan : decodeVal f a ≠ .nan) :
    some (l.foldl (fun a x => if valLt (decodeVal f a) (decodeVal f (fabs f x)) then fabs f x else a) a) =
      List.argmax (fun x => (decodeVal f x).size) (a :: l.map (fabs f)) := by
  induction l generalizing a with
  | nil => rfl
  | cons x l ih =>
    obtain ⟨hx, hl⟩ := List.forall_mem_cons.mp hl
    have hfabs : decodeVal f (fabs f x) ≠ .nan := by
      rw [fabs_of_ne_nan hx, decodeVal_mod h]
      cases hv : decodeVal f x <;> simp_all [Val.clearSign]
    have horder := valLt_clearSign_iff hnan hfabs
    rw [decodeVal_clearSign_of_lt h ha, decodeVal_clearSign_of_lt h (fabs_lt h x)] at horder
    rw [List.map_cons, argmax_cons_cons, List.foldl_cons]
    simp only [horder]
    split
    · exact ih hl (fabs_lt h x) hfabs
    · exact ih hl ha hnan

/-- ABSMAX of a block without a NaN is the first of the largest among 0 and the magnitudes of its elements. -/
theorem absMax_eq_argmax {f : Nat} {g : FloatFmt} (h : floatFmt f = some g) {l : List Nat}
    (hl : ∀ x ∈ l, decodeVal f x ≠ .nan) :
    some (absMax f l) = List.argmax (fun x => (decodeVal f x).size) (0 :: l.map (fabs f)) := by
  rw [← foldl_fabs_eq_argmax h hl (Nat.two_pow_pos _) (by simp [decodeVal_zero h])]
  unfold absMax
  exact congrArg some (if_neg (by simpa using hl))

theorem absMax_mem {f : Nat} {g : FloatFmt} (h : floatFmt f = some g) {l : List Nat} (hl : ∀ x ∈ l, decodeVal f x ≠ .nan) :
    absMax f l = 0 ∨ ∃ x ∈ l, absMax f l = x % 2 ^ (widthOf f - 1) := by
  obtain hzero | hmem := List.mem_cons.mp (List.argmax_mem (absMax_eq_argmax h hl).symm)
  · exact .inl hzero
  · obtain ⟨x, hx, heq⟩ := List.mem_map.mp hmem
    exact .inr ⟨x, hx, heq.symm.trans (fabs_of_ne_nan (hl x hx))⟩

theorem absMax_lt {f : Nat} {g : FloatFmt} (h : floatFmt f = some g) {l : List Nat} (hl : ∀ x ∈ l, decodeVal f x ≠ .nan) :
    absMax f l < 2 ^ (widthOf f - 1) := by
  obtain hzero | ⟨x, -, heq⟩ := absMax_mem h hl
  · exact hzero ▸ Nat.two_pow_pos _
  · exact heq ▸ Nat.mod_lt _ (Nat.two_pow_pos _)

theorem size_le_size_absMax {f y : Nat} {g : FloatFmt} (h : floatFmt f = some g) {l : List Nat}
    (hl : ∀ x ∈ l, decodeVal f x ≠ .nan) (hy : y ∈ l) : (decodeVal f y).size ≤ (decodeVal f (absMax f l)).size := by
  have hle := List.le_of_mem_argmax (List.mem_cons_of_mem 0 (List.mem_map_of_mem hy)) (absMax_eq_argmax h hl).symm
  simpa only [fabs_of_ne_nan (hl y hy), decodeVal_mod h, Val.size_clearSign] using hle

theorem eq_inf_of_size_eq_top {v : Val} (hv : v.size = ⊤) : v.clearSign = .inf false := by
  cases v with
  | nan => exact absurd hv WithTop.zero_ne_top
  | inf neg => rfl
  | fin neg m e => exact absurd hv (WithTop.coe_ne_top)

theorem absMax_of_inf {f x : Nat} {g : FloatFmt} (h : floatFmt f = some g) {l : List Nat} (hl : ∀ x ∈ l, decodeVal f x ≠ .nan)
    (hmem : x ∈ l) {neg : Bool} (hx : decodeVal f x = .inf neg) : decodeVal f (absMax f l) = .inf false := by
  have htop : ⊤ ≤ (decodeVal f (absMax f l)).size := by simpa [hx, Val.size] using size_le_size_absMax h hl hmem
  rw [← decodeVal_clearSign_of_lt h (absMax_lt h hl)]
  exact eq_inf_of_size_eq_top (top_le_iff.mp htop)

/-- Where the result is 0 every element is a zero, so that one has it as its magnitude. -/
theorem absMax_eq_mod {f : Nat} {g : FloatFmt} (h : floatFmt f = some g) {l : List Nat} (hne : l ≠ [])
    (hfin : ∀ x ∈ l, ∃ neg m e, decodeVal f x = .fin neg m e) (hl : ∀ x ∈ l, decodeVal f x ≠ .nan) :
    ∃ x ∈ l, absMax f l = x % 2 ^ (widthOf f - 1) := by
  obtain hzero | hmem := absMax_mem h hl
  · obtain ⟨x, hx⟩ := List.exists_mem_of_ne_nil l hne
    obtain ⟨neg, m, e, hval⟩ := hfin x hx
    have hle := size_le_size_absMax h hl hx
    rw [hzero, decodeVal_zero h, hval, Val.size, Val.size, WithTop.coe_le_coe, Nat.cast_zero, zero_mul] at hle
    have hm : m = 0 := Nat.cast_nonpos.mp (nonpos_of_mul_nonpos_left hle (by positivity))
    exact ⟨x, hx, hzero.trans (mod_eq_zero_of_decodeVal_zero h (hm ▸ hval)).symm⟩
  · exact hmem

theorem valLt_absMax {f y : Nat} {g : FloatFmt} (h : floatFmt f = some g) {l : List Nat} (hl : ∀ x ∈ l, decodeVal f x ≠ .nan)
    (hnan : decodeVal f (absMax f l) ≠ .nan) (hy : y ∈ l) :
    valLt (decodeVal f (absMax f l)) (decodeVal f (y % 2 ^ (widthOf f - 1))) = false := by
  rw [decodeVal_mod h, ← decodeVal_clearSign_of_lt h (absMax_lt h hl), Bool.eq_false_iff, Ne,
    valLt_clearSign_iff hnan (hl y hy)]
  exact not_lt.mpr (size_le_size_absMax h hl hy)

/-! ### The nodes (R141) -/

theorem runNode_absmax (c : Blk) (k : Nat) {n : RNode} (a b d : List Nat) (s : State) (hop : n.op = 0x29) :
    runNode c k n a b d s = (([absMax n.fmtA (laneList (widthOf n.fmtA) (a.take n.count))], []), s) := by
  simp only [runNode, hop]

theorem runNode_fabs (c : Blk) (k : Nat) {n : RNode} (a b d : List Nat) (s : State) (hop : n.op = 0x25) :
    runNode c k n a b d s = ((map1 (widthOf n.fmtA) (fabs n.fmtA) a, []), s) := by
  simp only [runNode, hop]

theorem runNode_fmin (c : Blk) (k : Nat) {n : RNode} (a b d : List Nat) (s : State) (hop : n.op = 0x23) :
    runNode c k n a b d s = ((map2 (widthOf n.fmtA) (fmin n.fmtA) a b, []), s) := by
  simp only [runNode, hop]

theorem runNode_fmax (c : Blk) (k : Nat) {n : RNode} (a b d : List Nat) (s : State) (hop : n.op = 0x24) :
    runNode c k n a b d s = ((map2 (widthOf n.fmtA) (fmax n.fmtA) a b, []), s) := by
  simp only [runNode, hop]

/-- Settles O60: a lane's bits below the sign are its magnitude, and of two zeros the negative one is less. -/
theorem fabsFminAndFmaxOfALane : Obligations.FabsFminAndFmaxOfALane := by
  unfold Obligations.FabsFminAndFmaxOfALane
  intro f g h
  refine ⟨fun c k n a b d s hf => ?nodes, fun x y _ _ => ⟨?sign, ?absNan, ?absBits, ?minMaxNan, ?zeros⟩⟩
  case nodes =>
    subst hf
    exact ⟨runNode_fabs c k a b d s, runNode_fmin c k a b d s, runNode_fmax c k a b d s⟩
  case sign => exact Nat.testBit_lt_two_pow (fabs_lt h x)
  case absNan => exact fun hx => fabs_of_nan hx ▸ nan_of_decodeVal_nan h hx
  case absBits =>
    intro hx i hi
    simp [fabs_of_ne_nan hx, Nat.testBit_mod_two_pow, hi]
  case minMaxNan =>
    intro hnan
    rw [fmin_of_nan hnan, fmax_of_nan hnan, and_self]
    exact hnan.elim (nan_of_decodeVal_nan h) (nan_of_decodeVal_nan h)
  case zeros =>
    intro e hx hy
    obtain ⟨hlt, hge⟩ := valLt_negZero_posZero e
    simp [fmin_of_ne_nan, fmax_of_ne_nan, hx, hy, hlt, hge]

/-- Settles O59: the fold keeps the largest magnitude by size, where an infinity is the largest and a zero's bits are 0. -/
theorem absmaxIsTheLargestMagnitude : Obligations.AbsmaxIsTheLargestMagnitude := by
  unfold Obligations.AbsmaxIsTheLargestMagnitude
  intro f g l h hne _
  refine ⟨fun c k n a b d s hop hf hlanes => ?node, ?nan, ?inf, ?fin⟩
  case node =>
    subst hf
    simp only [runNode_absmax c k a b d s hop, hlanes, and_self]
  case nan =>
    rintro ⟨x, hmem, hx⟩
    exact absMax_of_nan hmem hx ▸ nan_of_decodeVal_nan h hx
  case inf =>
    rintro hl ⟨x, hmem, neg, hx⟩
    exact absMax_of_inf h hl hmem hx
  case fin =>
    intro hfin
    have hl : ∀ x ∈ l, decodeVal f x ≠ .nan := by
      intro x hx
      obtain ⟨neg, m, e, hval⟩ := hfin x hx
      simp [hval]
    obtain ⟨x, hx, heq⟩ := absMax_eq_mod h hne hfin hl
    refine ⟨x, hx, heq, fun y hy => valLt_absMax h hl ?_ hy⟩
    obtain ⟨neg, m, e, hval⟩ := hfin x hx
    simp [heq, decodeVal_mod h, hval, Val.clearSign]

end Sys2Proof.Machine
end

section
/-! Vat commands of the admin hoop: what CREATE_VAT and DESTROY_VAT make of the vat that they name (R33, R50, R53, R221). -/

namespace Sys2Proof.Machine

open Sys2Proof

/-- The state with the vat of block q. -/
def vatMade (w : Nat) (e : Entry) (q : List W64) (s : State) : State := modVat e.vatId (fun _ => newVat w e q) s

theorem adminState_hcWheelOf (s : State) (a p : Nat) : hcWheelOf (adminState s a) p = hcWheelOf s p := by
  simp only [hcWheelOf, adminState_wh]

theorem exec_createVat_of_free {s : State} {a : Nat} {e : Entry} {q : List W64} (h : AdminGot s a 0x83 e q)
    (hcheck : createVatCheck (adminState s a) a e q = none) :
    exec (.createVat a) s =
      .next (adminEnd a .ok (when (e.flag 0) (pinSlot e.vatId) (vatMade (hcWheelOf s a) e q (adminState s a)))) := by
  refine congrArg Host.Outcome.next ((adminRun_of_adminGot h rfl _).trans ?_)
  simp only [hcheck, adminState_hcWheelOf]
  rfl

theorem vatMade_vat (w : Nat) (e : Entry) (q : List W64) (s : State) :
    (vatMade w e q s).vat e.vatId = newVat w e q := modVat_self ..

/-- Vat v ABORTING for admin hoop a, its walks stopped. -/
def tearBegun (v a : Nat) (s : State) : State :=
  let t := modVat v (fun x => { x with st := .aborting, destroyBy := some a }) s
  { t with xl.walks := t.xl.walks.filter (fun w => w.vat ≠ v) }

/-- A teardown that a command begins is no silent one; the vat waits for a slot no longer (R50). -/
theorem startTear_of_not_free {s : State} {v : Nat} (hst : (s.vat v).st ≠ .free) (a : Nat) :
    startTear v false (some a) s = leaveWait v (tearBegun v a s) := by
  simp only [startTear, if_neg hst, Bool.or_false]
  rfl

theorem tearBegun_vat (v a : Nat) (s : State) :
    (tearBegun v a s).vat v = { s.vat v with st := .aborting, destroyBy := some a } :=
  modVat_self v (fun x => { x with st := .aborting, destroyBy := some a }) s

theorem leaveWait_tearBegun_wk_admins (v a : Nat) (s : State) : (leaveWait v (tearBegun v a s)).wk.admins = s.wk.admins := rfl

theorem adminWaits_of_wk_admins_eq {s t : State} (h : t.wk.admins = s.wk.admins) {a : Nat} {k : AdminKind}
    (hwaits : AdminWaits s a k) : AdminWaits t a k := by
  simpa only [AdminWaits, State.admin, h] using hwaits

/-- The first row of R53: a vat that DESTROY_VAT may name exists. -/
theorem st_ne_free_of_destroyVatCheck {s : State} {a v : Nat} (h : destroyVatCheck s a v = none) : (s.vat v).st ≠ .free := by
  intro hfree
  simp [destroyVatCheck, hfree] at h

theorem adminHold_vat (a : Nat) (k : AdminKind) (st : Status) (n : Nat) (s : State) (v : Nat) :
    (adminHold a k st n s).vat v = s.vat v := by
  unfold adminHold
  split <;> rfl

/-- The state in which DESTROY_VAT of vat v is under way, its teardown not yet begun. -/
def destroyHeld (a v : Nat) (s : State) : State := adminHold a (.destroyVat v) .ok 0 s

theorem exec_destroyVat_of_destroyVatCheck {s : State} {a : Nat} {e : Entry} {q : List W64} (h : AdminGot s a 0x84 e q)
    (hcheck : destroyVatCheck (adminState s a) a e.vatId = none) :
    exec (.destroyVat a) s = .next (leaveWait e.vatId (tearBegun e.vatId a (destroyHeld a e.vatId (adminState s a)))) := by
  have hst : ((destroyHeld a e.vatId (adminState s a)).vat e.vatId).st ≠ .free := by
    rw [destroyHeld, adminHold_vat]
    exact st_ne_free_of_destroyVatCheck hcheck
  refine congrArg Host.Outcome.next ((adminRun_of_adminGot h rfl _).trans ?_)
  rw [← startTear_of_not_free hst]
  simp only [hcheck]
  rfl

/-- Settles O15: each command is the one change of its vat, between the read of its block and its end. -/
theorem vatCommandsComplete : Obligations.VatCommandsComplete := by
  unfold Obligations.VatCommandsComplete
  refine ⟨fun s a e q h hpin hcheck => ?create, fun s a e q h hpin hcheck => ?createPinned, fun s a e q h hcheck => ?destroy⟩
  case create =>
    refine ⟨vatMade (hcWheelOf s a) e q (adminState s a), by rw [exec_createVat_of_free h hcheck, hpin]; rfl, ?_⟩
    rw [vatMade_vat]
    refine ⟨by simp [newVat, hpin], rfl, rfl, rfl, rfl, rfl, fun v hv => ?_⟩
    rw [vatMade, modVat_other _ _ _ _ hv, adminState_vat]
  case createPinned =>
    refine ⟨vatMade (hcWheelOf s a) e q (adminState s a), by rw [exec_createVat_of_free h hcheck, hpin]; rfl, ?_⟩
    rw [vatMade_vat]
    exact ⟨by simp [newVat, hpin], hpin, rfl, rfl⟩
  case destroy =>
    refine ⟨_, exec_destroyVat_of_destroyVatCheck h hcheck, ?_, ?_, ?waits⟩
    case waits =>
      refine adminWaits_of_wk_admins_eq (leaveWait_tearBegun_wk_admins ..) ?_
      exact adminWaits_adminHold (adminCur_adminState_of_adminGot h) ..
    all_goals
      rw [leaveWait_vat, tearBegun_vat]
      split <;> rfl

end Sys2Proof.Machine
end

section
/-! Translation: what Translation Completions, walks, flushes, page request answers and invalidations change (R202 to R216, R222,
R223). -/

namespace Sys2Proof.Machine

open Sys2Proof

/-! ### Filling the caches (R202, R209) -/

/-- A translation as the micro-TLB of slice k holds it, its newest. -/
def Xlat.takenBy (k : Nat) (x : Xlat) : Xlat := { x with slices := x.slices.filter (· ≠ k) ++ [k] }

theorem trimTlb_xlats_cons {s : State} {y : Xlat} {r : List Xlat} (h : s.xl.xlats = y :: r) (k : Nat) :
    ∃ l, (trimTlb k s).xl.xlats = y :: l := by
  unfold trimTlb
  split
  · exact ⟨r, h⟩
  · rw [h]
    exact ⟨_, rfl⟩

/-- The newest translation of a micro-TLB outlives the trimming that makes room for it (R209). -/
theorem mem_fillTlb (k : Nat) (x : Xlat) (s : State) : x.takenBy k ∈ (fillTlb k x s).xl.xlats := by
  obtain ⟨l, hl⟩ := trimTlb_xlats_cons (s := { s with xl.xlats := x.takenBy k :: s.xl.xlats.erase x }) rfl k
  refine List.mem_filter.2 ⟨?_, by simp [Xlat.takenBy]⟩
  exact hl ▸ List.mem_cons_self

theorem mem_addXlat (k : Nat) (x : Xlat) (s : State) : x.takenBy k ∈ (addXlat k x s).xl.xlats := mem_fillTlb ..

theorem trimTlb_walks (k : Nat) (s : State) : (trimTlb k s).xl.walks = s.xl.walks := by
  unfold trimTlb
  split
  · rfl
  · split <;> rfl

theorem trimAtc_walks (x : Xlat) (s : State) : (trimAtc x s).xl.walks = s.xl.walks := by
  unfold trimAtc
  dsimp only
  split <;> rfl

theorem addXlat_walks (k : Nat) (x : Xlat) (s : State) : (addXlat k x s).xl.walks = s.xl.walks := by
  unfold addXlat
  refine (trimTlb_walks k _).trans ?_
  unfold when
  split
  · exact trimAtc_walks x _
  · rfl

/-! ### Translation Completions (R203) -/

/-- The state in which Translation Request number tag of port p has ended. -/
def atsEnded (p tag : Nat) (s : State) : State :=
  { s with xl.atsReqs := s.xl.atsReqs.filter (fun y => !(y.port = p && y.tag = tag)) }

theorem exec_translationCompletion_of_find {s : State} {p tag : Nat} {r : AtsResp} {q : AtsReq}
    (hfind : s.xl.atsReqs.find? (fun q => q.port = p && q.tag = tag) = some q)
    (hkept : r = .error ∨ tlpDropped s p (some q.page) = false) :
    exec (.translationCompletion p tag r) s = .next (rescan (nextAts p (takeCompletion q r (atsEnded p tag s)))) := by
  have hkeep : (decide (r ≠ .error) && tlpDropped s p (some q.page)) = false := by
    rcases hkept with rfl | hkept
    · rfl
    · rw [hkept, Bool.and_false]
  show execTranslationCompletion p tag r s = _
  simp only [execTranslationCompletion, hfind, hkeep, Bool.false_eq_true, if_false]
  rfl

/-- A Translation Request whose vat still wants its answer, and whose page no Invalidate Request met. -/
structure AtsLive (s : State) (q : AtsReq) : Prop where
  fresh : q.stale = false
  vat : (s.vat q.vat).st ≠ .free
  unmet : q.invals = []

theorem meetsInval_of_no_invals {q : AtsReq} (h : q.invals = []) (r : AtsResp) : meetsInval q r = false := by
  simp [meetsInval, h]

theorem takeCompletion_error {s : State} {q : AtsReq} (h : AtsLive s q) :
    takeCompletion q .error s = addFault q.vat q.va q.need 0x08 s := by
  simp [takeCompletion, h.fresh, h.vat, meetsInval_of_no_invals h.unmet]

/-- What suffices for an access grants something. -/
theorem grants_of_grantsNeed {need : Access} {rd wr : Bool} (h : grantsNeed need rd wr = true) : (rd || wr) = true := by
  cases need <;> simp_all [grantsNeed]

theorem takeCompletion_grant {s : State} {q : AtsReq} (h : AtsLive s q) {rd wr : Bool} (hneed : grantsNeed q.need rd wr = true)
    (pa size : Nat) (u : Bool) : takeCompletion q (.grant pa size rd wr u) s = takeGrant q pa size rd wr u s := by
  simp [takeCompletion, h.fresh, h.vat, meetsInval_of_no_invals h.unmet, hneed, grants_of_grantsNeed hneed, when]

/-! ### Walks and flushes (R222, R223) -/

/-- The state in which walk w has ended. -/
def walkEnded (w : Walk) (s : State) : State := { s with xl.walks := s.xl.walks.erase w }

/-- The state with pointers c in the walk cache. -/
def withWalkCache (c : List WalkPtr) (s : State) : State := { s with xl.walkCache := c }

theorem cachePtrs_eq_withWalkCache (l : List WalkPtr) (s : State) : ∃ c, cachePtrs l s = withWalkCache c s := ⟨_, rfl⟩

theorem cachePtrs_xlats (l : List WalkPtr) (s : State) : (cachePtrs l s).xl.xlats = s.xl.xlats := by
  obtain ⟨c, hc⟩ := cachePtrs_eq_withWalkCache l s
  rw [hc, withWalkCache]

theorem cachePtrs_walks (l : List WalkPtr) (s : State) : (cachePtrs l s).xl.walks = s.xl.walks := by
  obtain ⟨c, hc⟩ := cachePtrs_eq_withWalkCache l s
  rw [hc, withWalkCache]

section
variable {s : State} {v : Nat} {va : W64} {w : Walk}
  (hfind : s.xl.walks.find? (fun w => w.vat = v && w.va.toNat / 4096 = va.toNat / 4096) = some w)
include hfind

theorem exec_walkComplete_of_leaf {poisoned : Bool} {x : Xlat} {b : Nat} {ptrs : List WalkPtr}
    (hwalk : walkVat (walkEnded w s) v w.va.toNat poisoned = .leaf x b ptrs) :
    exec (.walkComplete v va poisoned) s = .next (rescan (cachePtrs ptrs (addXlat w.slice x (walkEnded w s)))) := by
  rw [walkEnded] at hwalk
  show execWalkComplete v va poisoned s = _
  simp only [execWalkComplete, hfind, hwalk]
  rfl

theorem exec_walkComplete_of_fault {poisoned : Bool} {c : Nat}
    (hwalk : walkVat (walkEnded w s) v w.va.toNat poisoned = .fault c) :
    exec (.walkComplete v va poisoned) s = .next (rescan (addFault v w.va w.need c (walkEnded w s))) := by
  rw [walkEnded] at hwalk
  show execWalkComplete v va poisoned s = _
  simp only [execWalkComplete, hfind, hwalk]
  rfl

end

/-- The state in which every cache of translations is empty, but for what an Invalidate Request stops. -/
def cachesEmptied (s : State) : State := { s with xl.xlats := s.xl.xlats.filter (fun x => x.stopped), xl.walkCache := [] }

theorem exec_xlateFlush_of_mayManage {s : State} {f : Fn} (h : mayManage s f = true) :
    exec (.xlateFlush f) s = .next (rescan (cachesEmptied s)) :=
  congrArg Host.Outcome.next (if_pos h)

/-- Settles O29: each command ends its request or walk and takes the answer, before the change of translations lets work go on. -/
theorem translationsComplete : Obligations.TranslationsComplete := by
  unfold Obligations.TranslationsComplete
  refine ⟨fun s p tag r q hfind hkept => ?completion, fun s v va poisoned w hfind => ?walk, fun s f h => ?flush⟩
  case completion =>
    refine ⟨_, exec_translationCompletion_of_find hfind hkept, rfl, rfl, fun hfresh hvat hunmet => ?_⟩
    have hlive : AtsLive (atsEnded p tag s) q := ⟨hfresh, hvat, hunmet⟩
    have hport : q.port = p := by
      have hpred := List.find?_some hfind
      simp only [Bool.and_eq_true, decide_eq_true_eq] at hpred
      exact hpred.1
    refine ⟨?error, fun pa size rd wr hr hneed => ?grant⟩
    case error =>
      rintro rfl
      rw [takeCompletion_error hlive]
      rfl
    case grant =>
      rw [hr, takeCompletion_grant hlive hneed]
      exact ⟨_, mem_addXlat .., congrArg some hport, rfl, rfl, rfl, rfl, rfl, rfl, rfl, rfl⟩
  case walk =>
    intro g
    cases hwalk : walkVat g v w.va.toNat poisoned with
    | leaf x b ptrs =>
      refine ⟨_, exec_walkComplete_of_leaf hfind hwalk, ?ended, ?cached, ?faulted⟩
      case ended =>
        rw [cachePtrs_walks, addXlat_walks]
        rfl
      case cached =>
        rintro x b ptrs ⟨⟩
        rw [cachePtrs_xlats]
        exact ⟨x.takenBy w.slice, mem_addXlat .., rfl⟩
      case faulted => rintro c ⟨⟩
    | fault c =>
      refine ⟨_, exec_walkComplete_of_fault hfind hwalk, rfl, ?cached, ?faulted⟩
      case cached => rintro x b ptrs ⟨⟩
      case faulted =>
        rintro c ⟨⟩
        rfl
  case flush => exact ⟨_, exec_xlateFlush_of_mayManage h, rfl, rfl⟩

/-! ### Answers to page requests (R212, R213) -/

theorem pageGone_xl (v : Nat) (s : State) : (pageGone v s).xl = s.xl :=
  (pageGone_same (c := 16) (Same.refl s) (by decide)).part .xlat (by decide)

/-- Every hoop, slot and freeze that waited for page request r looks again, once its index is freed. -/
theorem exec_pageRequestResponse_of_live {s : State} {pf ix : Nat} {r : PageReq} (hreq : pageReqOf s pf ix = some r)
    (hkept : tlpDropped s pf none = false) (hlive : r.dead = false) (code : PrgCode) :
    exec (.pageRequestResponse pf ix code) s =
      .next (tryFrozen (s.vat r.vat).fn (tryEvict (rescan (freeIndex pf ix (takePrg r code s))))) := by
  show execPageRequestResponse pf ix code s = _
  simp [execPageRequestResponse, hreq, hkept, hlive]

theorem exec_pageRequestResponse_of_dead {s : State} {pf ix : Nat} {r : PageReq} (hreq : pageReqOf s pf ix = some r)
    (hkept : tlpDropped s pf none = false) (hdead : r.dead = true) (code : PrgCode) :
    exec (.pageRequestResponse pf ix code) s = .next (freeIndex pf ix s) := by
  show execPageRequestResponse pf ix code s = _
  simp [execPageRequestResponse, hreq, hkept, hdead]

/-- The state in which the page request with an index is dead, its index still in use. -/
def pageDead (pf ix : Nat) (s : State) : State :=
  { s with xl.pageReqs := s.xl.pageReqs.map (fun y => if y.pf = pf && y.index = ix then { y with dead := true } else y) }

theorem dead_of_mem_pageDead {s : State} {pf ix : Nat} {y : PageReq} (hy : y ∈ (pageDead pf ix s).xl.pageReqs)
    (hpf : y.pf = pf) (hix : y.index = ix) : y.dead = true := by
  obtain ⟨x, -, rfl⟩ := List.mem_map.1 hy
  by_cases hnamed : (x.pf = pf && x.index = ix) = true
  · simp only [hnamed, if_true]
  · rw [if_neg hnamed] at hpf hix
    exact absurd (by simp [hpf, hix]) hnamed

theorem exec_priTimeout_of_live {s : State} {pf ix : Nat} {r : PageReq} (hreq : pageReqOf s pf ix = some r)
    (hlive : r.dead = false) :
    exec (.priTimeout pf ix) s = .next (tryFrozen (s.vat r.vat).fn (tryEvict (rescan
      (addFault r.vat r.va r.need 0x09 (pageGone r.vat (pageDead pf ix s)))))) := by
  show execPriTimeout pf ix s = _
  simp only [execPriTimeout, hreq, hlive, Bool.false_eq_true, if_false]
  rfl

theorem exec_prgIndexFree_of_dead {s : State} {pf ix : Nat} {r : PageReq} (hreq : pageReqOf s pf ix = some r)
    (hdead : r.dead = true) : exec (.prgIndexFree pf ix) s = .next (freeIndex pf ix s) := by
  show execPrgIndexFree pf ix s = _
  simp [execPrgIndexFree, hreq, hdead]

/-- Settles O30: a live request's answer acts on its access once, and a dead one's only frees the index. -/
theorem pageRequestsEnd : Obligations.PageRequestsEnd := by
  unfold Obligations.PageRequestsEnd
  refine ⟨fun s pf ix r hreq hkept hlive => ?live, fun s pf ix r code hreq hkept hdead => ?dead,
    fun s pf ix r hreq hlive => ?timeout, fun s pf ix r hreq hdead => ?free⟩
  case live =>
    have hexec := exec_pageRequestResponse_of_live hreq hkept hlive
    exact ⟨hexec .invalid, hexec .success, hexec .failure⟩
  case dead => exact exec_pageRequestResponse_of_dead hreq hkept hdead code
  case timeout =>
    refine ⟨_, exec_priTimeout_of_live hreq hlive, fun y hy => ?_, ?_⟩
    · simp only [addFault, pageGone_xl] at hy
      exact dead_of_mem_pageDead hy
    · simp only [addFault, pageGone_xl]
      rfl
  case free => exact ⟨_, exec_prgIndexFree_of_dead hreq hdead, rfl⟩

/-! ### Invalidation (R214 to R216) -/

/-- The Translation Requests under way on the port of an Invalidate Request, those of its function and PASID with its range. -/
def markedBy (v : Inval) (r : AtsReq) : AtsReq :=
  if r.port = v.port && r.reqFn = v.reqFn && r.pasid = v.pasid then { r with invals := r.invals ++ [(v.lo, v.len)] } else r

/-- The state in which Invalidate Request v is under way. -/
def invalTaken (v : Inval) (s : State) : State :=
  modHc v.port (fun x => { x with invals := x.invals + 1 }) { s with
    xl.invals := s.xl.invals ++ [v]
    xl.xlats := s.xl.xlats.map (fun x => if invalMatches v x then { x with stopped := true } else x)
    xl.atsReqs := s.xl.atsReqs.map (markedBy v) }

/-- Port p can take an Invalidate Request with tag itag (R214, R215). -/
structure InvalFits (s : State) (p itag : Nat) : Prop where
  kept : tlpDropped s p none = false
  host : hostMode s p = true
  present : (s.hc p).lost = false
  up : (s.hc p).linkUp = true
  room : (s.xl.invals.filter (fun x => x.port = p)).length < 32
  fresh : s.xl.invals.any (fun x => x.port = p && x.itag = itag) = false

theorem exec_invalidateRequest_of_invalFits {s : State} {p itag : Nat} (h : InvalFits s p itag) (rf : Fn) (pasid : Option Nat)
    (addr len : Nat) :
    exec (.invalidateRequest p itag rf pasid addr len) s =
      .next (invalTaken { port := p, itag := itag, reqFn := rf, pasid := pasid, lo := addr, len := len } s) := by
  obtain ⟨hkept, hhost, hpresent, hup, hroom, hfresh⟩ := h
  show execInvalidateRequest p itag rf pasid addr len s = _
  simp only [execInvalidateRequest, hkept, hhost, hpresent, hup, hfresh, Nat.not_le.2 hroom, decide_false, Bool.not_true,
    Bool.or_false, Bool.false_eq_true, if_false]
  rfl

theorem mem_invals_of_mem_map_markedBy {v : Inval} {l : List AtsReq} {r : AtsReq} (hr : r ∈ l.map (markedBy v))
    (hport : r.port = v.port) (hfn : r.reqFn = v.reqFn) (hpasid : r.pasid = v.pasid) : (v.lo, v.len) ∈ r.invals := by
  obtain ⟨x, -, rfl⟩ := List.mem_map.1 hr
  by_cases hmet : (x.port = v.port && x.reqFn = v.reqFn && x.pasid = v.pasid) = true
  · simp [markedBy, hmet]
  · rw [markedBy, if_neg hmet] at hport hfn hpasid
    exact absurd (by simp [hport, hfn, hpasid]) hmet

/-- The state in which Invalidate Request v, with its port and tag, has ended and the translations that it stopped are gone. -/
def invalEnded (p itag : Nat) (v : Inval) (s : State) : State :=
  modHc p (fun x => { x with invals := x.invals - 1 }) { s with
    xl.invals := s.xl.invals.filter (fun x => !(x.port = p && x.itag = itag))
    xl.xlats := s.xl.xlats.filter (fun x => !(x.stopped && invalMatches v x)) }

theorem exec_invalidateCompletion_of_not_busy {s : State} {p itag : Nat} {v : Inval}
    (hfind : s.xl.invals.find? (fun x => x.port = p && x.itag = itag) = some v) (hidle : invalBusy s v = false) :
    exec (.invalidateCompletion p itag) s = .next (rescan (emit (.invalDone p itag) (invalEnded p itag v s))) := by
  show execInvalidateCompletion p itag s = _
  simp only [execInvalidateCompletion, hfind, hidle, Bool.false_eq_true, if_false]
  rfl

/-- Settles O31: the request marks what it meets and counts once, and its completion takes both back. -/
theorem invalidationsComplete : Obligations.InvalidationsComplete := by
  unfold Obligations.InvalidationsComplete
  refine ⟨fun s p itag rf pasid addr len hkept hhost hpresent hup hroom hfresh => ?request,
    fun s p itag v hfind hidle => ?completion⟩
  case request =>
    intro v
    refine ⟨_, exec_invalidateRequest_of_invalFits ⟨hkept, hhost, hpresent, hup, hroom, hfresh⟩ rf pasid addr len, rfl, rfl,
      fun r hr => mem_invals_of_mem_map_markedBy (v := v) hr, ?_⟩
    exact congrArg HcPort.invals (modHc_self ..)
  case completion =>
    exact ⟨_, exec_invalidateCompletion_of_not_busy hfind hidle, rfl, rfl, congrArg HcPort.invals (modHc_self ..)⟩

end Sys2Proof.Machine
end

section
/-! Memory and frames: what a write of bytes leaves in memory (R227), and what every command and every step leave alone. -/

namespace Sys2Proof.Machine

open Sys2Proof

/-! ### Bytes written and bytes read (R227) -/

theorem byteAt_writeBytes {s : State} (h : Safe s) (a : Nat) (bs : List Byte) (x : Nat) :
    byteAt (writeBytes a bs s) x = if a ≤ x ∧ x < a + bs.length then bs.getD (x - a) 0 else byteAt s x :=
  memByte_memPut s.m.mem h a bs x

theorem byteAt_writeBytes_of_outside {s : State} (h : Safe s) {a x : Nat} {bs : List Byte}
    (hx : x < a ∨ a + bs.length ≤ x) : byteAt (writeBytes a bs s) x = byteAt s x := by
  rw [byteAt_writeBytes h, if_neg (by omega)]

theorem readBytes_writeBytes {s : State} (h : Safe s) (a : Nat) (bs : List Byte) :
    readBytes (writeBytes a bs s) a bs.length = bs :=
  readBytes_put h a bs rfl

/-- Settles O8: under the canonical form a location holds the last byte put there. -/
theorem writtenBytesReadBack : Obligations.WrittenBytesReadBack := by
  unfold Obligations.WrittenBytesReadBack
  exact fun s a bs h => ⟨readBytes_writeBytes h a bs, fun _ hx => byteAt_writeBytes_of_outside h hx⟩

/-! ### The mask of a footprint -/

/-- The mask of Same that names the areas of a list. -/
def areaMask : List Area → Nat
  | [] => 0
  | p :: l => Nat.lor (2 ^ Area.bit p) (areaMask l)

theorem areasBut_nil_getElem_bit (p : Area) : (areasBut [])[Area.bit p]? = some p := by
  cases p <;> rfl

theorem Area.bit_injective : Function.Injective Area.bit := fun p q h =>
  Option.some.inj ((areasBut_nil_getElem_bit p).symm.trans (h ▸ areasBut_nil_getElem_bit q))

theorem testBit_areaMask_of_not_mem {p : Area} {l : List Area} (h : p ∉ l) : (areaMask l).testBit (Area.bit p) = false := by
  induction l with
  | nil => exact Nat.zero_testBit _
  | cons q l ih =>
    have hne : Area.bit q ≠ Area.bit p := fun e => h (Area.bit_injective e ▸ List.mem_cons_self)
    show (2 ^ Area.bit q ||| areaMask l).testBit (Area.bit p) = false
    rw [Nat.testBit_or, Nat.testBit_two_pow_of_ne hne, ih (fun m => h (List.mem_cons_of_mem _ m)), Bool.or_false]

/-! ### The frame of every command -/

/-- A command shares with its next state all that its footprint leaves out: the frame of each command's meaning lies within the
footprint that Instr.touches gives the command. -/
theorem exec_same_of_touches {m : Nat} (c : Instr) (s : State) (hm : Sub (areaMask c.touches) m) : SameOut m s (exec c s) := by
  cases c with dsimp only [exec, Instr.touches] at hm ⊢
  | copy => exact execCopy_same (.refl s)
  | fill => exact execFill_same (.refl s)
  | gather => exact execGather_same (.refl s)
  | scatter => exact execScatter_same (.refl s)
  | transform => exact execTransform_same (.refl s)
  | reduce => exact execReduce_same (.refl s)
  | accumulate => exact execAccumulate_same (.refl s)
  | resolve => exact execResolve_same (.refl s)
  | atomic => exact execAtomic_same (.refl s)
  | fenceSignal => exact execFenceSignal_same (.refl s)
  | fenceWait => exact execFenceWait_same (.refl s)
  | prefetch => exact execPrefetch_same (.refl s)
  | advise => exact execAdvise_same (.refl s)
  | launch => exact execLaunch_same (.refl s)
  | invalidate => exact execInvalidate_same (.refl s)
  | nop => exact execNop_same (.refl s)
  | createHoop => exact execCreateHoop_same (.refl s)
  | createEventHoop => exact execCreateEventHoop_same (.refl s)
  | destroyHoop => exact execDestroyHoop_same (.refl s)
  | destroyEventHoop => exact execDestroyEventHoop_same (.refl s)
  | disableHoop => exact execDisableHoop_same (.refl s)
  | createVat => exact execCreateVat_same (.refl s)
  | destroyVat => exact execDestroyVat_same (.refl s)
  | loadRecipe => exact execLoadRecipe_same (.refl s)
  | unloadRecipe => exact execUnloadRecipe_same (.refl s)
  | createWheel => exact execCreateWheel_same (.refl s)
  | deleteWheel => exact execDeleteWheel_same (.refl s)
  | bindMove => exact execBindMove_same (.refl s)
  | bindVats => exact execBindVats_same (.refl s)
  | bindEvqs => exact execBindEvqs_same (.refl s)
  | bindShare => exact execBindShare_same (.refl s)
  | vfGrant => exact execVfGrant_same (.refl s)
  | funcReset => exact execFuncReset_same (.refl s)
  | wheelReset => exact execWheelReset_same (.refl s)
  | queryCaps => exact execQueryCaps_same (.refl s)
  | resync => exact execResync_same (.refl s)
  | freeze => exact execFreeze_same (.refl s)
  | saveState => exact execSaveState_same (.refl s)
  | restoreState => exact execRestoreState_same (.refl s)
  | thaw => exact execThaw_same (.refl s)
  | calibrate => exact execCalibrate_same (.refl s)
  | selftest => exact execSelftest_same (.refl s)
  | keySessionOpen => exact execKeySessionOpen_same (.refl s)
  | keySessionStep => exact execKeySessionStep_same (.refl s)
  | keySessionClose => exact execKeySessionClose_same (.refl s)
  | fwUpdate => exact execFwUpdate_same (.refl s)
  | fwActivate => exact execFwActivate_same (.refl s)
  | doorbell => exact execDoorbell_same (.refl s)
  | push => exact execPush_same (.refl s)
  | adminDoorbell => exact execAdminDoorbell_same (.refl s)
  | ringFetch => exact execRingFetch_same (.refl s)
  | ownReread => exact execOwnReread_same (.refl s)
  | entryStart => exact execEntryStart_same (.refl s)
  | segmentDone => exact execSegmentDone_same (.refl s)
  | headPublishTimer => exact execHeadPublishTimer_same (.refl s)
  | freezeTimeout => exact execFreezeTimeout_same (.refl s)
  | vatTeardownComplete => exact execVatTeardownComplete_same (.refl s)
  | vatLoad => exact execVatLoad_same (.refl s)
  | vatSlotExpiry => exact execVatSlotExpiry_same (.refl s)
  | hoopResume => exact execHoopResume_same (.refl s)
  | watcherReread => exact execWatcherReread_same (.refl s)
  | watcherPoll => exact execWatcherPoll_same (.refl s)
  | hoopEnginePoll => exact execHoopEnginePoll_same (.refl s)
  | translationCompletion => exact execTranslationCompletion_same (.refl s)
  | walkComplete => exact execWalkComplete_same (.refl s)
  | pageRequestResponse => exact execPageRequestResponse_same (.refl s)
  | priTimeout => exact execPriTimeout_same (.refl s)
  | prgIndexFree => exact execPrgIndexFree_same (.refl s)
  | invalidateRequest => exact execInvalidateRequest_same (.refl s)
  | invalidateCompletion => exact execInvalidateCompletion_same (.refl s)
  | xlateFlush => exact execXlateFlush_same (.refl s)
  | hostCompletion => exact execHostCompletion_same (.refl s)
  | completionTimeout => exact execCompletionTimeout_same (.refl s)
  | bar2Read => exact execBar2Read_same (.refl s)
  | bar2Write => exact execBar2Write_same (.refl s)
  | bar2AtomicOp => exact execBar2AtomicOp_same (.refl s)
  | configRequest => exact execConfigRequest_same (.refl s)
  | hostLinkTrained => exact execHostLinkTrained_same (.refl s)
  | hostLinkDown => exact execHostLinkDown_same (.refl s)
  | hotReset => exact execHotReset_same (.refl s)
  | pfFlr => exact execPfFlr_same (.refl s)
  | vfFlr => exact execVfFlr_same (.refl s)
  | vfEnableSet => exact execVfEnableSet_same (.refl s)
  | vfEnableClear => exact execVfEnableClear_same (.refl s)
  | busMasterEnable => exact execBusMasterEnable_same (.refl s)
  | pmcsrDState => exact execPmcsrDState_same (.refl s)
  | l0pRequest => exact execL0pRequest_same (.refl s)
  | ideKmQuery => exact execIdeKmQuery_same (.refl s)
  | ideKmKeyProg => exact execIdeKmKeyProg_same (.refl s)
  | ideKmKSetGo => exact execIdeKmKSetGo_same (.refl s)
  | ideKmKSetStop => exact execIdeKmKSetStop_same (.refl s)
  | ideCheckFailed => exact execIdeCheckFailed_same (.refl s)
  | getMeasurements => exact execGetMeasurements_same (.refl s)
  | keyExchange => exact execKeyExchange_same (.refl s)
  | spdmRequest => exact execSpdmRequest_same (.refl s)
  | mctpMessage => exact execMctpMessage_same (.refl s)
  | snpData => exact execSnpData_same (.refl s)
  | snpInv => exact execSnpInv_same (.refl s)
  | snpCur => exact execSnpCur_same (.refl s)
  | goWritePull => exact execGoWritePull_same (.refl s)
  | goWritePullDrop => exact execGoWritePullDrop_same (.refl s)
  | cacheFillGo => exact execCacheFillGo_same (.refl s)
  | hdmRequest => exact execHdmRequest_same (.refl s)
  | biRsp => exact execBiRsp_same (.refl s)
  | biSnpTimeout => exact execBiSnpTimeout_same (.refl s)
  | farLinkUp => exact execFarLinkUp_same (.refl s)
  | farMediaReady => exact execFarMediaReady_same (.refl s)
  | farResponse => exact execFarResponse_same (.refl s)
  | farTimeout => exact execFarTimeout_same (.refl s)
  | farLinkDown => exact execFarLinkDown_same (.refl s)
  | dieParams => exact execDieParams_same (.refl s)
  | acdTrainTimeout => exact execAcdTrainTimeout_same (.refl s)
  | acdFlit => exact execAcdFlit_same (.refl s)
  | acdReplayTimeout => exact execAcdReplayTimeout_same (.refl s)
  | acdLaneFailure => exact execAcdLaneFailure_same (.refl s)
  | acdModuleRejoin => exact execAcdModuleRejoin_same (.refl s)
  | acdRdData => exact execAcdRdData_same (.refl s)
  | acdWrAck => exact execAcdWrAck_same (.refl s)
  | atData => exact execAtData_same (.refl s)
  | condAck => exact execCondAck_same (.refl s)
  | err => exact execErr_same (.refl s)
  | accept => exact execAccept_same (.refl s)
  | thermal => exact execThermal_same (.refl s)
  | fault => exact execFault_same (.refl s)
  | complete => exact execComplete_same (.refl s)
  | fenceHint => exact execFenceHint_same (.refl s)
  | claim => exact execClaim_same (.refl s)
  | launchResend => exact execLaunchResend_same (.refl s)
  | noAccept => exact execNoAccept_same (.refl s)
  | launchThermalTimeout => exact execLaunchThermalTimeout_same (.refl s)
  | acdRequestRelease => exact execAcdRequestRelease_same (.refl s)
  | holdBeacon => exact execHoldBeacon_same (.refl s)
  | holdTimeout => exact execHoldTimeout_same (.refl s)
  | holdSpaceDrain => exact execHoldSpaceDrain_same (.refl s)
  | rdReq => exact execRdReq_same (.refl s)
  | rdData => exact execRdData_same (.refl s)
  | wr => exact execWr_same (.refl s)
  | wrAck => exact execWrAck_same (.refl s)
  | atReq => exact execAtReq_same (.refl s)
  | atResp => exact execAtResp_same (.refl s)
  | nak => exact execNak_same (.refl s)
  | hold => exact execHold_same (.refl s)
  | stepDone => exact execStepDone_same (.refl s)
  | outcome => exact execOutcome_same (.refl s)
  | join => exact execJoin_same (.refl s)
  | reqTimeout => exact execReqTimeout_same (.refl s)
  | progressTimeout => exact execProgressTimeout_same (.refl s)
  | journalRetry => exact execJournalRetry_same (.refl s)
  | journalRecordExpiry => exact execJournalRecordExpiry_same (.refl s)
  | peerFrame => exact execPeerFrame_same (.refl s)
  | frameReplayTimeout => exact execFrameReplayTimeout_same (.refl s)
  | replayStuck => exact execReplayStuck_same (.refl s)
  | peerKeyRenewal => exact execPeerKeyRenewal_same (.refl s)
  | peerSessionEstablished => exact execPeerSessionEstablished_same (.refl s)
  | peerLinkDown => exact execPeerLinkDown_same (.refl s)
  | roshamTrained => exact execRoshamTrained_same (.refl s)
  | swap => exact execSwap_same (.refl s)
  | mark => exact execMark_same (.refl s)
  | done => exact execDone_same (.refl s)
  | laserInputFault => exact execLaserInputFault_same (.refl s)
  | lsrFlt => exact execLsrFlt_same (.refl s)
  | refclkLoss => exact execRefclkLoss_same (.refl s)
  | sourceEvent => exact execSourceEvent_same (.refl s)
  | windowExpiry => exact execWindowExpiry_same (.refl s)
  | writeGateClosed => exact execWriteGateClosed_same (.refl s)
  | logRecordWrite => exact execLogRecordWrite_same (.refl s)
  | mramWriteWaitTimeout => exact execMramWriteWaitTimeout_same (.refl s)
  | turnDue => exact execTurnDue_same (.refl s)
  | turnTestDone => exact execTurnTestDone_same (.refl s)
  | logicRailLow => exact execLogicRailLow_same (.refl s)
  | photRailLow => exact execPhotRailLow_same (.refl s)
  | rail18Low => exact execRail18Low_same (.refl s)
  | railRestored => exact execRailRestored_same (.refl s)
  | coreRailLoss => exact execCoreRailLoss_same (.refl s)
  | cavePowerLoss => exact execCavePowerLoss_same (.refl s)
  | thermTrip => exact execThermTrip_same (.refl s)
  | coldStart => exact execColdStart_same (.refl s)
  | warmReset => exact execWarmReset_same (.refl s)
  | buReset => exact execBuReset_same (.refl s)
  | buLinkTrained => exact execBuLinkTrained_same (.refl s)
  | portConfigCommit => exact execPortConfigCommit_same (.refl s)
  | vatStoreRemirror => exact execVatStoreRemirror_same (.refl s)
  | restEnter => exact execRestEnter_same (.refl s)
  | deepRestEnter => exact execDeepRestEnter_same (.refl s)
  | restWake => exact execRestWake_same (.refl s)
  | wakenAssert => exact execWakenAssert_same (.refl s)
  | caveAlarmMatch => exact execCaveAlarmMatch_same (.refl s)
  | deepRestWake => exact execDeepRestWake_same (.refl s)
  | coreRailsReady => exact execCoreRailsReady_same (.refl s)
  | timeRealign => exact execTimeRealign_same (.refl s)
  | powerWindow => exact execPowerWindow_same (.refl s)
  | energyWindow => exact execEnergyWindow_same (.refl s)
  | drbgReseed => exact execDrbgReseed_same (.refl s)
  | migSessionExpiry => exact execMigSessionExpiry_same (.refl s)
  | coalesceTimeout => exact execCoalesceTimeout_same (.refl s)
  | msixMessageSend => exact execMsixMessageSend_same (.refl s)
  | msixUnmask => exact execMsixUnmask_same (.refl s)
  | claimRead => exact execClaimRead_same (.refl s)
  | intDone => exact execIntDone_same (.refl s)
  | fastDone => exact execFastDone_same (.refl s)
  | vfIntDone => exact execVfIntDone_same (.refl s)
  | maskSet => exact execMaskSet_same (.refl s)
  | maskClr => exact execMaskClr_same (.refl s)
  | pendSet => exact execPendSet_same (.refl s)
  | pendClr => exact execPendClr_same (.refl s)
  | evqRouteWrite => exact execEvqRouteWrite_same (.refl s)
  | fastSrcWrite => exact execFastSrcWrite_same (.refl s)
  | hoopEnable => exact execHoopEnable_same (.refl s)
  | adminEnable => exact execAdminEnable_same (.refl s)
  | adminDisable => exact execAdminDisable_same (.refl s)
  | srcStatusClear => exact execSrcStatusClear_same (.refl s)
  | srcForce => exact execSrcForce_same (.refl s)
  | hcLinkEnable => exact execHcLinkEnable_same (.refl s)
  | hcLinkDisable => exact execHcLinkDisable_same (.refl s)
  | acdLinkEnable => exact execAcdLinkEnable_same (.refl s)
  | acdLinkDisable => exact execAcdLinkDisable_same (.refl s)
  | retrain => exact execRetrain_same (.refl s)
  | peerPortEnable => exact execPeerPortEnable_same (.refl s)
  | peerPortDisable => exact execPeerPortDisable_same (.refl s)
  | collGroupEnable => exact execCollGroupEnable_same (.refl s)
  | collGroupDisable => exact execCollGroupDisable_same (.refl s)
  | routeWrite => exact execRouteWrite_same (.refl s)
  | devmgrWrite => exact execDevmgrWrite_same (.refl s)
  | hdmWinWrite => exact execHdmWinWrite_same (.refl s)
  | registerWrite => exact execRegisterWrite_same (.refl s)
  | reservationTimeout => exact execReservationTimeout_same (.refl s)
  | ntLineTimeout => exact execNtLineTimeout_same (.refl s)
  | affLoad => exact execAffLoad_same (.refl s)
  | affStore => exact execAffStore_same (.refl s)
  | affNtStore => exact execAffNtStore_same (.refl s)
  | affReservedLoad => exact execAffReservedLoad_same (.refl s)
  | affConditionalStore => exact execAffConditionalStore_same (.refl s)
  | barLd => exact execBarLd_same (.refl s)
  | barSt => exact execBarSt_same (.refl s)
  | barFull => exact execBarFull_same (.refl s)
  | adminCommandComplete => exact execAdminCommandComplete_same (.refl s)
  | portCalibrationDone => exact execPortCalibrationDone_same (.refl s)
  | restEntryComplete => exact execRestEntryComplete_same (.refl s)
  | hostTeardownComplete => exact execHostTeardownComplete_same (.refl s)
  | joinAcknowledged => exact execJoinAcknowledged_same (.refl s)
  | refclkRestored => exact execRefclkRestored_same (.refl s)
  | laserInputRestored => exact execLaserInputRestored_same (.refl s)
  | thermTripCleared => exact execThermTripCleared_same (.refl s)
  | buLinkDown => exact execBuLinkDown_same (.refl s)
  | jtagAccess => exact execJtagAccess_same (.refl s)
theorem exec_same (c : Instr) (s : State) : SameOut (areaMask c.touches) s (exec c s) :=
  exec_same_of_touches c s (Nat.and_self _)

/-- Settles O6: an area that the footprint leaves out has no bit in the footprint's mask. -/
theorem everyCommandKeepsWhatItsFootprintLeavesOut : Obligations.EveryCommandKeepsWhatItsFootprintLeavesOut := by
  unfold Obligations.EveryCommandKeepsWhatItsFootprintLeavesOut
  exact fun c s t p ht hp => (exec_same c s t ht).part p (testBit_areaMask_of_not_mem hp)

/-! ### The canonical form of the memory -/

theorem exec_keeps_safe {c : Instr} {s t : State} (ht : exec c s = .next t) : Safe s → Safe t := (exec_same c s t ht).wf

theorem tick_keeps_safe (s : State) : Safe s → Safe (tick s) := (same_tick s).wf

theorem step_of_pending_cons {s : State} {c : Instr} {r : List Instr} (h : s.pending = c :: r) :
    step s = exec c { s with pending := r } := by
  simp [step, h]

/-- Settles O3: a step is a tick or one command, and neither leaves the canonical form. -/
theorem everyStepKeepsTheMemoryForm : Obligations.EveryStepKeepsTheMemoryForm := by
  unfold Obligations.EveryStepKeepsTheMemoryForm
  intro s t hs ht
  cases hq : s.pending with
  | nil =>
    rw [step_of_pending_nil hq] at ht
    cases ht
    exact tick_keeps_safe s hs
  | cons c r =>
    rw [step_of_pending_cons hq] at ht
    exact exec_keeps_safe ht hs

end Sys2Proof.Machine
end

section
/-! The Affineur core: its loads, stores, reserved loads, conditional stores and barriers (R230, R231, R240 to R245). -/

namespace Sys2Proof.Machine

open Sys2Proof

/-! ### Loads (R230, R240) -/

/-- What a load of the core finds: lines of the combining buffer that it overlaps have left, where they can. -/
def loadReady (a n : Nat) (s : State) : State := ntFlush a n (fwInval a n (coreGo s))

/-- The host lines that a read of the core waits for are asked for (R301). -/
def readAsks (a n : Nat) (s : State) : State := askHosts .core ((affLines a n).flatMap (fun l => affHits s .read l 64)) s

section
variable {s : State} {a n : Nat} (hplaced : affPlaced a n = true)
include hplaced

theorem exec_affLoad_of_barFull (hbar : (coreGo s).af.barFull = true) : exec (.affLoad a n) s = .next (coreGo s) := by
  show execAffLoad a n s = _
  simp [execAffLoad, hplaced, hbar]

theorem exec_affLoad_of_ready (hbar : (coreGo s).af.barFull = false) (hready : affLoadWaits (loadReady a n s) a n = false) :
    exec (.affLoad a n) s = .next (forAll (affLines a n) affFill (affRead a n (loadReady a n s))) := by
  show execAffLoad a n s = _
  rw [loadReady] at hready ⊢
  simp [execAffLoad, hplaced, hbar, hready]

theorem exec_affLoad_of_waits (hbar : (coreGo s).af.barFull = false) (hwaits : affLoadWaits (loadReady a n s) a n = true) :
    exec (.affLoad a n) s = .next (readAsks a n (loadReady a n s)) := by
  show execAffLoad a n s = _
  rw [loadReady] at hwaits ⊢
  simp [execAffLoad, readAsks, hplaced, hbar, hwaits]

end

/-! ### Stores (R230, R240, R241) -/

/-- The cached line and the store buffer hold a store of the core. -/
def storeTaken (a : Nat) (bs : List Byte) (s : State) : State :=
  takeFree 1 { affPatch a bs s with af.affBuf := s.af.affBuf ++ bs.mapIdx (fun i b => (a + i, b)) }

/-- The combining buffer with room for a store, as far as its oldest lines can leave. -/
def ntReady (a n : Nat) (s : State) : State := ntRoom (ntNew (coreGo s) a n) (coreGo s)

section
variable {s : State} {a : Nat} {bs : List Byte} (hplaced : affPlaced a bs.length = true)
include hplaced

theorem exec_affStore_of_barSt (hbar : (coreGo s).af.barSt = true) : exec (.affStore a bs) s = .next (coreGo s) := by
  show execAffStore a bs s = _
  simp [execAffStore, hplaced, hbar]

theorem exec_affStore_of_no_barrier (hbar : (coreGo s).af.barSt = false) :
    ∃ b, exec (.affStore a bs) s = .next (when b drainStores (storeTaken a bs (coreGo s))) := by
  refine ⟨decide (Config.freeNat (coreGo s).m.free % 2 = 0), ?_⟩
  show execAffStore a bs s = _
  simp [execAffStore, storeTaken, hplaced, hbar]

theorem exec_affNtStore_of_barSt (hbar : (coreGo s).af.barSt = true) : exec (.affNtStore a bs) s = .next (coreGo s) := by
  show execAffNtStore a bs s = _
  simp [execAffNtStore, hplaced, hbar]

theorem exec_affNtStore_of_room (hbar : (coreGo s).af.barSt = false)
    (hroom : (ntReady a bs.length s).af.ntLines.length + ntNew (ntReady a bs.length s) a bs.length ≤ 8) :
    exec (.affNtStore a bs) s = .next (ntBytes a bs (affInval a bs.length (ntReady a bs.length s))) := by
  show execAffNtStore a bs s = _
  rw [ntReady] at hroom ⊢
  simp [execAffNtStore, hplaced, hbar, Nat.not_lt.2 hroom]

theorem exec_affNtStore_of_full (hbar : (coreGo s).af.barSt = false)
    (hfull : 8 < (ntReady a bs.length s).af.ntLines.length + ntNew (ntReady a bs.length s) a bs.length) :
    exec (.affNtStore a bs) s = .next (ntReady a bs.length s) := by
  show execAffNtStore a bs s = _
  rw [ntReady] at hfull ⊢
  simp [execAffNtStore, hplaced, hbar, hfull]

end

/-! ### Reserved loads (R244, R245) -/

/-- What a reserved load finds: the core's earlier stores have left where they can, and its cache holds no line of the granule. -/
def resvReady (a n : Nat) (s : State) : State := affInval a n (drainStores (ntFlush a n (coreGo s)))

/-- A reserved load has read its granule and dropped the core's earlier reservation. -/
def resvRead (a n : Nat) (s : State) : State := loseResv isCoreResv (affRead a n (resvReady a n s))

/-- The state that a reserved load ends in, once it has read: it is reserved where its home answers and takes reservations. -/
def resvPerformed (addr : Nat) (s : State) : State :=
  match resvHome addr with
  | some home => when (affReadable s (granuleOf addr)) (affReserve home addr) s
  | none => s

theorem resvPerformed_of_reserves {addr home : Nat} {s : State} (hhome : resvHome addr = some home)
    (hreads : affReadable s (granuleOf addr) = true) : resvPerformed addr s = affReserve home addr s := by
  simp only [resvPerformed, hhome, hreads, when, if_true]

theorem resvPerformed_of_no_reservation {addr : Nat} {s : State}
    (hnone : resvHome addr = none ∨ affReadable s (granuleOf addr) = false) : resvPerformed addr s = s := by
  unfold resvPerformed
  rcases hnone with hnone | hnone
  · rw [hnone]
  · rw [hnone]
    split <;> rfl

section
variable {s : State} {addr : Nat} (hplaced : affPlaced addr 1 = true)
include hplaced

theorem exec_affReservedLoad_of_behind (hbehind : (coreGo s).af.barFull = true ∨ (coreGo s).af.affCond ≠ none) :
    exec (.affReservedLoad addr) s = .next (coreGo s) := by
  show execAffReservedLoad addr s = _
  rw [← Option.isSome_iff_ne_none] at hbehind
  simp [execAffReservedLoad, hplaced, hbehind]

variable (hbar : (coreGo s).af.barFull = false) (hcond : (coreGo s).af.affCond = none)
include hbar hcond

theorem exec_affReservedLoad_of_waits
    (hwaits : affLoadWaits (resvReady (granuleOf addr) (granuleLen addr) s) (granuleOf addr) (granuleLen addr) = true ∨
      (resvReady (granuleOf addr) (granuleLen addr) s).af.affBuf ≠ []) :
    exec (.affReservedLoad addr) s =
      .next (readAsks (granuleOf addr) (granuleLen addr) (resvReady (granuleOf addr) (granuleLen addr) s)) := by
  show execAffReservedLoad addr s = _
  rw [resvReady] at hwaits ⊢
  simp [execAffReservedLoad, readAsks, hplaced, hbar, hcond, hwaits]

theorem exec_affReservedLoad_of_ready
    (hready : affLoadWaits (resvReady (granuleOf addr) (granuleLen addr) s) (granuleOf addr) (granuleLen addr) = false)
    (hbuf : (resvReady (granuleOf addr) (granuleLen addr) s).af.affBuf = []) :
    exec (.affReservedLoad addr) s = .next (resvPerformed addr (resvRead (granuleOf addr) (granuleLen addr) s)) := by
  show execAffReservedLoad addr s = _
  rw [resvRead]
  rw [resvReady] at hready hbuf ⊢
  simp only [execAffReservedLoad, hplaced, hbar, hcond, hready, hbuf, Option.isSome_none, Bool.or_false, Bool.false_eq_true,
    if_true, if_false, List.isEmpty_nil, Bool.not_true]
  rfl

end

/-! ### Conditional stores (R245, R323) -/

/-- What a conditional store finds: the core's earlier stores have left where they can. -/
def condReady (a n : Nat) (s : State) : State := drainStores (ntFlush a n (coreGo s))

/-- A conditional store of the bytes at a is asked of die q with tag k, on watch slot w (R323). -/
def condAsked (q k w a : Nat) (bs : List Byte) (s : State) : State :=
  { s with af.affCond := some (a, bs), af.affOk := false, af.affCache := (affInval a bs.length s).af.affCache }
  |> addReq (.acd q) .core .cond a bs.length 0
  |> sendAcd q 0x05 k (w * 2 ^ 40 + a / 64 * 64 % 2 ^ 40) (byteMask (a % 64) bs.length)

/-- The state that a conditional store of the bytes at a ends in, once nothing holds it back (R245, R323). -/
def condPerformed (addr a : Nat) (bs : List Byte) (s : State) : State :=
  match coreResv s addr, homeOf addr with
  | some r, .acd q =>
    match freeTag s (.acd q) with
    | none => s
    | some k => if isHot s a then s else condAsked q k (r.watch.getD 0) a bs s
  | some _, _ => affInval a bs.length (loseResv isCoreResv (storeAt a bs { s with af.affOk := true }))
  | none, _ => { s with af.affOk := false }

theorem sendPacket_m (p type : Nat) (k : Pkt) (s : State) : (sendPacket p type k s).m = s.m := by
  simp only [sendPacket]
  split
  · rfl
  · split <;> rfl

theorem putReq_m (type : Nat) (r : Req) (s : State) : (putReq type r s).m = s.m := by
  unfold putReq
  split
  · rfl
  · exact sendPacket_m ..
  · rfl

theorem recordReq_m (r : Req) (s : State) : (recordReq r s).m = s.m := by
  simp only [recordReq]
  split
  · rfl
  · exact putReq_m ..

theorem addReq_m (t : Tgt) (o : Owner) (k : ReqKind) (a n : Nat) (ep : BitVec 8) (s : State) : (addReq t o k a n ep s).m = s.m :=
  forAll_keeps (π := State.m) (fun _ _ => recordReq_m ..) _ s

theorem addReq_af (t : Tgt) (o : Owner) (k : ReqKind) (a n : Nat) (ep : BitVec 8) (s : State) :
    (addReq t o k a n ep s).af = s.af :=
  (addReq_same (c := 1026) (Same.refl s) (by decide)).part .core (by decide)

theorem condAsked_m (q k w a : Nat) (bs : List Byte) (s : State) : (condAsked q k w a bs s).m = s.m := addReq_m ..

theorem condAsked_affCond (q k w a : Nat) (bs : List Byte) (s : State) : (condAsked q k w a bs s).af.affCond = some (a, bs) :=
  congrArg AffS.affCond (addReq_af ..)

section
variable {s : State} {addr : Nat} (a : Nat) (bs : List Byte)

theorem condPerformed_of_no_reservation (hresv : coreResv s addr = none) :
    condPerformed addr a bs s = { s with af.affOk := false } := by
  simp only [condPerformed, hresv]

theorem condPerformed_of_writes {r : Resv} (hresv : coreResv s addr = some r) (hhome : ∀ q, homeOf addr ≠ .acd q) :
    condPerformed addr a bs s =
      affInval a bs.length (loseResv isCoreResv (storeAt a bs { s with af.affOk := true })) := by
  unfold condPerformed
  cases hh : homeOf addr with
  | acd q => exact absurd hh (hhome q)
  | _ => rw [hresv]

theorem condPerformed_of_asks {r : Resv} {q k : Nat} (hresv : coreResv s addr = some r) (hhome : homeOf addr = .acd q)
    (htag : freeTag s (.acd q) = some k) (hhot : isHot s a = false) :
    condPerformed addr a bs s = condAsked q k (r.watch.getD 0) a bs s := by
  simp only [condPerformed, hresv, hhome, htag, hhot, Bool.false_eq_true, if_false]

end

/-- Nothing holds back a conditional store of n bytes at a: no conditional store, no barrier, no earlier store of the core and no line
of the combining buffer that overlaps it. -/
structure CondGoes (a n : Nat) (s : State) : Prop where
  noCond : (coreGo s).af.affCond = none
  noBar : (coreGo s).af.barSt = false
  stillNoCond : (condReady a n s).af.affCond = none
  stillNoBar : (condReady a n s).af.barSt = false
  noStore : (condReady a n s).af.affBuf = []
  noLine : ∀ l ∈ (condReady a n s).af.ntLines, overlap a n l.addr 64 = false

theorem CondGoes.not_behind {a n : Nat} {s : State} (h : CondGoes a n s) :
    ((coreGo s).af.affCond.isSome || (coreGo s).af.barSt) = false := by
  simp [h.noCond, h.noBar]

theorem CondGoes.not_held {a n : Nat} {s : State} (h : CondGoes a n s) :
    ((condReady a n s).af.affCond.isSome || (condReady a n s).af.barSt || !(condReady a n s).af.affBuf.isEmpty ||
      (condReady a n s).af.ntLines.any (fun l => overlap a n l.addr 64)) = false := by
  simpa [h.stillNoCond, h.stillNoBar, h.noStore] using h.noLine

section
variable {s : State} {addr off : Nat} {bs : List Byte} (hplaced : affPlaced addr 1 = true)
include hplaced

theorem exec_affConditionalStore_of_behind (hbehind : (coreGo s).af.affCond ≠ none ∨ (coreGo s).af.barSt = true) :
    exec (.affConditionalStore addr off bs) s = .next (coreGo s) := by
  show execAffConditionalStore addr off bs s = _
  rw [← Option.isSome_iff_ne_none] at hbehind
  simp [execAffConditionalStore, hplaced, hbehind]

theorem exec_affConditionalStore_of_stores (hcond : (coreGo s).af.affCond = none) (hbar : (coreGo s).af.barSt = false)
    (hbuf : (condReady (granuleOf addr + off) bs.length s).af.affBuf ≠ []) :
    exec (.affConditionalStore addr off bs) s = .next (condReady (granuleOf addr + off) bs.length s) := by
  show execAffConditionalStore addr off bs s = _
  rw [condReady] at hbuf ⊢
  simp [execAffConditionalStore, hplaced, hcond, hbar, hbuf]

theorem exec_affConditionalStore_of_goes (hgoes : CondGoes (granuleOf addr + off) bs.length s) :
    exec (.affConditionalStore addr off bs) s =
      .next (condPerformed addr (granuleOf addr + off) bs (condReady (granuleOf addr + off) bs.length s)) := by
  have hfirst := hgoes.not_behind
  have hfree := hgoes.not_held
  show execAffConditionalStore addr off bs s = _
  rw [condReady] at hfree ⊢
  simp only [execAffConditionalStore, hplaced, hfirst, hfree, Bool.false_eq_true, if_true, if_false]
  rfl

end

/-! ### Barriers (R231, R232, R241) -/

section
variable {s : State} (hdue : ∀ l ∈ s.af.ntLines, l.due = false)
include hdue

theorem forAll_due_ntLeave : forAll (s.af.ntLines.filter (·.due)) ntLeave s = s := by
  rw [List.filter_eq_nil_iff.2 fun l hl => by simp [hdue l hl]]
  rfl

theorem coreGo_of_no_barrier (hbar : s.af.barSt = false) : coreGo s = s := by
  simp [coreGo, forAll_due_ntLeave hdue, hbar]

/-- A barrier that waits ends once nothing of the core's stores is left (R231). -/
theorem coreGo_of_drained (hbar : s.af.barSt = true) (hbuf : (drainAll s).af.affBuf = [])
    (hline : (drainAll s).af.ntLines = []) (hcond : (drainAll s).af.affCond = none) :
    coreGo s = { drainAll s with af.barSt := false, af.barFull := false } := by
  simp [coreGo, forAll_due_ntLeave hdue, hbar, hbuf, hline, hcond]

theorem coreGo_of_undrained (hbar : s.af.barSt = true)
    (hleft : (drainAll s).af.affBuf ≠ [] ∨ (drainAll s).af.ntLines ≠ [] ∨ (drainAll s).af.affCond ≠ none) :
    coreGo s = drainAll s := by
  simp only [coreGo, forAll_due_ntLeave hdue, hbar]
  rcases hleft with hleft | hleft | hleft <;> simp [hleft]

end

/-! ### Timeouts (R140, R241, R244) -/

theorem exec_reservationTimeout_of_find {s : State} {home g : Nat} {y : Nat × Resv}
    (hfind : s.wk.resvs.find? (fun x => x.1 = home && x.2.granule = g) = some y) :
    exec (.reservationTimeout home g) s = .next (loseResv (fun x => decide (x = y)) s) := by
  show execReservationTimeout home g s = _
  simp only [execReservationTimeout, hfind]

theorem exec_ntLineTimeout_of_find {s : State} {line : Nat} {l : NtLine}
    (hfind : s.af.ntLines.find? (fun l => l.addr = line) = some l) : exec (.ntLineTimeout line) s = .next (ntLeave l s) := by
  show execNtLineTimeout line s = _
  simp only [execNtLineTimeout, hfind]

/-- Settles O56: each access is its equation for the case that holds, over the state in which the core's earlier work has gone on. -/
theorem coreAccessesComplete : Obligations.CoreAccessesComplete := by
  unfold Obligations.CoreAccessesComplete
  refine ⟨?load, ?store, ?ntStore, ?reservedLoad, ?conditionalStore, ?barriers, ?coreGo, ?reservation, ?ntLine⟩
  case load =>
    exact fun s a n h => ⟨exec_affLoad_of_barFull h, fun hbar => ⟨exec_affLoad_of_ready h hbar, exec_affLoad_of_waits h hbar⟩⟩
  case store =>
    exact fun s a bs h => ⟨exec_affStore_of_barSt h, exec_affStore_of_no_barrier h⟩
  case ntStore =>
    exact fun s a bs h => ⟨exec_affNtStore_of_barSt h, fun hbar =>
      ⟨exec_affNtStore_of_room h hbar, exec_affNtStore_of_full h hbar⟩⟩
  case reservedLoad =>
    refine fun s addr h => ⟨exec_affReservedLoad_of_behind h, fun hbar hcond =>
      ⟨exec_affReservedLoad_of_waits h hbar hcond, fun hready hbuf => ?_⟩⟩
    rw [exec_affReservedLoad_of_ready h hbar hcond hready hbuf]
    exact ⟨fun _ hhome hreads => congrArg _ (resvPerformed_of_reserves hhome hreads),
      fun hnone => congrArg _ (resvPerformed_of_no_reservation hnone)⟩
  case conditionalStore =>
    refine fun s addr off bs h => ⟨exec_affConditionalStore_of_behind h, fun hcond hbar hcond' hbar' =>
      ⟨exec_affConditionalStore_of_stores h hcond hbar, fun hbuf hline => ?_⟩⟩
    have hgoes : CondGoes (granuleOf addr + off) bs.length s := ⟨hcond, hbar, hcond', hbar', hbuf, hline⟩
    rw [exec_affConditionalStore_of_goes h hgoes]
    refine ⟨fun hresv => congrArg _ (condPerformed_of_no_reservation _ _ hresv),
      fun r hresv hhome => congrArg _ (condPerformed_of_writes _ _ hresv hhome), fun r q hresv hhome hhot htag => ?_⟩
    obtain ⟨k, hk⟩ := Option.ne_none_iff_exists'.1 htag
    exact ⟨_, congrArg _ (condPerformed_of_asks _ _ hresv hhome hk hhot), condAsked_affCond .., condAsked_m ..⟩
  case barriers => exact fun s => ⟨rfl, rfl, rfl⟩
  case coreGo =>
    exact fun s hdue => ⟨coreGo_of_no_barrier hdue, fun hbar => ⟨coreGo_of_drained hdue hbar, coreGo_of_undrained hdue hbar⟩⟩
  case reservation => exact fun s home g y => exec_reservationTimeout_of_find
  case ntLine => exact fun s line l => exec_ntLineTimeout_of_find

end Sys2Proof.Machine
end

section
/-! Packets of other nodes: their arrival at a port, the requests that are served, refused or wait, and the answers and timeouts that
end this node's own requests (R250 to R263). -/

namespace Sys2Proof.Machine

open Sys2Proof

/-! ### Arrival (R250, R257) -/

/-- A packet for this node is at port p, which carries it. -/
structure Arrives (s : State) (p : Nat) (k : Pkt) : Prop where
  up : (s.peerP p).up = true
  valid : s.pr.nodeValid = true
  here : k.dst = s.pr.nodeId

section
variable {s : State} {p : Nat} {k : Pkt} (type : Nat) (serve : State → State)

theorem Arrives.atNode_eq (h : Arrives s p k) : atNode p type k serve s = serve s := by
  simp [atNode, h.up, h.valid, h.here]

theorem atNode_of_other_node (hup : (s.peerP p).up = true) (hvalid : s.pr.nodeValid = true) (hdst : k.dst ≠ s.pr.nodeId) :
    atNode p type k serve s = forwardPkt type k s := by
  simp [atNode, hup, hvalid, hdst]

theorem atNode_of_not_carried (h : (s.peerP p).up = false ∨ s.pr.nodeValid = false) : atNode p type k serve s = s := by
  rcases h with h | h <;> simp [atNode, h]

end

/-- The commands by which a packet of a TYPE arrives at port p. -/
def arrivals (p : Nat) (k : Pkt) : List (Instr × Nat) :=
  [(.rdReq p k, 0x01), (.rdData p k, 0x02), (.wr p k, 0x03), (.wrAck p k, 0x04), (.atReq p k, 0x05), (.atResp p k, 0x06),
    (.nak p k, 0x07), (.hold p k, 0x10), (.stepDone p k, 0x11), (.outcome p k, 0x12), (.join p k, 0x13)]

theorem exec_of_mem_arrivals {p : Nat} {k : Pkt} {c : Instr × Nat} (hc : c ∈ arrivals p k) (s : State) :
    ∃ serve, exec c.1 s = .next (atNode p c.2 k serve s) := by
  simp only [arrivals, List.mem_cons, List.not_mem_nil, or_false] at hc
  rcases hc with rfl | rfl | rfl | rfl | rfl | rfl | rfl | rfl | rfl | rfl | rfl <;> exact ⟨_, rfl⟩

/-! ### Requests at their target (R251, R255, R259, R260) -/

section
variable {s : State} {type : Nat} {k : Pkt}

theorem peerServe_of_heldBack (h : heldBack s k = true) :
    peerServe type k s = { s with pr.waiting := s.pr.waiting ++ [(type, k)] } := if_pos h

theorem peerServe_of_tryServe {t : State} (hfree : heldBack s k = false) (htry : tryServe type k s = (true, t)) :
    peerServe type k s = t := by
  simp [peerServe, hfree, htry]

theorem tryServe_of_error {r : Nat} (hcheck : exportCheck s k.fdom k.offset (pktLen type k) (pktAccess type k).1 = .error r) :
    tryServe type k s = (true, nakPkt r k s) := by
  simp only [tryServe, hcheck]

theorem tryServe_of_poisoned {pa : Nat}
    (hcheck : exportCheck s k.fdom k.offset (pktLen type k) (pktAccess type k).1 = .ok pa) (hread : (pktAccess type k).1 ≠ .write)
    (hpoison : poisonedAt s pa (pktAccess type k).2 = true) : tryServe type k s = (true, nakPkt 0x07 k s) := by
  simp [tryServe, hcheck, hread, hpoison]

/-- The effect of a request that is admitted at location pa, where neither poison nor a host's copy stands in its way. -/
def serveChecked (type : Nat) (k : Pkt) (pa : Nat) (s : State) : Bool × State :=
  if type = 0x01 then serveRead k pa s else if type = 0x03 then serveWrite k pa s else serveAtomic k pa s

theorem tryServe_of_clean {pa : Nat}
    (hcheck : exportCheck s k.fdom k.offset (pktLen type k) (pktAccess type k).1 = .ok pa)
    (hpoison : (pktAccess type k).1 = .write ∨ poisonedAt s pa (pktAccess type k).2 = false)
    (hhits : filterHits s { va := 0, pa := pa, len := (pktAccess type k).2, need := (pktAccess type k).1 } = []) :
    tryServe type k s = serveChecked type k pa s := by
  have hclean : (decide ((pktAccess type k).1 ≠ .write) && poisonedAt s pa (pktAccess type k).2) = false := by
    rcases hpoison with h | h <;> simp [h]
  simp only [tryServe, hcheck, hclean, hhits, List.isEmpty_nil, Bool.not_true, Bool.false_eq_true, if_false]
  rfl

theorem atNode_of_peerServes {p pa : Nat} {t : State} (h : PeerServes s p type k pa)
    (hserve : isHot s pa = false → serveChecked type k pa s = (true, t)) : atNode p type k (peerServe type k) s = t := by
  obtain ⟨hup, hvalid, hdst, hfree, hcheck, hpoison, hhits, hcold⟩ := h
  rw [Arrives.atNode_eq _ _ ⟨hup, hvalid, hdst⟩]
  exact peerServe_of_tryServe hfree ((tryServe_of_clean hcheck hpoison hhits).trans (hserve hcold))

end

section
variable {s : State} {pa : Nat} (k : Pkt) (hcold : isHot s pa = false)
include hcold

theorem serveRead_of_cold : serveRead k pa s = (true, answerPkt 0x02 0 (readBytes s pa k.len) k s) := by
  simp [serveRead, hcold]

theorem serveWrite_of_cold : serveWrite k pa s = (true, answerPkt 0x04 0 [] k (storeAt pa k.payload s)) := by
  simp [serveWrite, hcold]

end

/-- AT_RESP once the operands of an AT_REQ have been applied, with the old values where RETURN is set. -/
def answerAtomic (k : Pkt) (r : List Byte × State) : State := answerPkt 0x06 0 (if k.ret then r.1 else []) k r.2

section
variable {s : State} {k : Pkt} {pa : Nat} (hlen : k.payload.length = 16 + (atShape k).2.2 * (atShape k).2.1)
  (hsome : (atShape k).2.2 ≠ 0) (halign : pa % (atShape k).1 = 0) (hatop : atopKnown k.atop = true) (hcold : isHot s pa = false)
include hlen hsome halign hatop hcold

/-- A later AT_REQ of a segment goes on from the mark of its journal record (R260). -/
theorem serveAtomic_of_journal {j : Nat × Journal} (hj : s.wk.peerJournals.find? (fun j => j.2.key = atKey k) = some j) :
    serveAtomic k pa s = (true, answerAtomic k (atApply k pa (tabGet 0 j.2.marks 0) s)) := by
  simp [serveAtomic, answerAtomic, hcold, hlen, hsome, halign, hatop, hj]

/-- The first AT_REQ of a segment takes a journal record (R260). -/
theorem serveAtomic_of_no_journal (hj : s.wk.peerJournals.find? (fun j => j.2.key = atKey k) = none)
    (hroom : (s.wk.peerJournals.filter (fun j => j.1 = homeQuad (homeOf pa))).length < 1024) :
    serveAtomic k pa s = (true, answerAtomic k (atApply k pa 0
      { s with wk.peerJournals := s.wk.peerJournals ++ [(homeQuad (homeOf pa), { key := atKey k })] })) := by
  simp [serveAtomic, answerAtomic, hcold, hlen, hsome, halign, hatop, hj, hroom]

end

/-- RD_REQ, WR and AT_REQ are the requests that a node serves. -/
theorem exec_request {s : State} {p type : Nat} {k : Pkt} {c : Instr} (h : Arrives s p k)
    (hc : (c = .rdReq p k ∧ type = 0x01) ∨ (c = .wr p k ∧ type = 0x03) ∨ (c = .atReq p k ∧ type = 0x05)) :
    exec c s = .next (peerServe type k s) := by
  rw [← h.atNode_eq type (peerServe type k)]
  rcases hc with ⟨rfl, rfl⟩ | ⟨rfl, rfl⟩ | ⟨rfl, rfl⟩ <;> rfl

/-- Settles O46: a request that passes its checks has its effect; the others wait, are NAKed or are forwarded. -/
theorem peerRequestsAreServed : Obligations.PeerRequestsAreServed := by
  unfold Obligations.PeerRequestsAreServed
  refine ⟨?read, ?write, ?atomic, ?checks, ?elsewhere⟩
  case read => exact fun s p k pa h => congrArg _ (atNode_of_peerServes h (serveRead_of_cold k))
  case write => exact fun s p k pa h => congrArg _ (atNode_of_peerServes h (serveWrite_of_cold k))
  case atomic =>
    exact fun s p k pa h hlen hsome halign hatop =>
      ⟨fun j hj => congrArg _ (atNode_of_peerServes h (serveAtomic_of_journal hlen hsome halign hatop · hj)),
        fun hj hroom => congrArg _ (atNode_of_peerServes h (serveAtomic_of_no_journal hlen hsome halign hatop · hj hroom))⟩
  case checks =>
    intro s p k c type hup hvalid hdst hc
    rw [exec_request ⟨hup, hvalid, hdst⟩ hc]
    exact ⟨fun hbehind => congrArg _ (peerServe_of_heldBack hbehind),
      fun r hfree hcheck => congrArg _ (peerServe_of_tryServe hfree (tryServe_of_error hcheck)),
      fun pa hfree hcheck hread hpoison => congrArg _ (peerServe_of_tryServe hfree (tryServe_of_poisoned hcheck hread hpoison))⟩
  case elsewhere =>
    intro s p k c hc
    obtain ⟨serve, hexec⟩ := exec_of_mem_arrivals hc s
    rw [hexec]
    exact ⟨fun hup hvalid hdst => congrArg _ (atNode_of_other_node _ _ hup hvalid hdst),
      fun hdown => congrArg _ (atNode_of_not_carried _ _ hdown)⟩

/-! ### Answers at the issuer (R254, R255, R259, R260) -/

section
variable {s : State} {p : Nat} {k : Pkt} {r : Req} (h : Arrives s p k)
include h

theorem exec_rdData_of_request (hreq : reqOfPkt s k .read = some r) :
    exec (.rdData p k) s = .next (ownerAnswered r.owner (writeBytes r.addr k.payload (dropTag r.tgt r.tag s))) :=
  congrArg _ ((h.atNode_eq _ _).trans (by simp only [takeData, hreq]))

theorem exec_wrAck_of_request (hreq : reqOfPkt s k .write = some r) :
    exec (.wrAck p k) s = .next (ownerAnswered r.owner (dropTag r.tgt r.tag s)) :=
  congrArg _ ((h.atNode_eq _ _).trans (by simp only [hreq]))

theorem exec_atResp_of_arrives : exec (.atResp p k) s = .next (takeAtResp k s) := congrArg _ (h.atNode_eq _ _)

theorem exec_nak_of_arrives : exec (.nak p k) s = .next (takeNak k s) := congrArg _ (h.atNode_eq _ _)

end

section
variable {s : State} {k : Pkt} {r : Req} {h : Nat} {i : W32} {j : Nat} {e : Entry}
  (hreq : reqOfPkt s k .atomic = some r) (howner : r.owner = .seg h i j)
  (hentry : entryOf (dropTag r.tgt r.tag s) h i = some e) (hrun : e.phase = .started)
include hreq howner hentry hrun

theorem takeAtResp_of_old_epoch (hepoch : r.epoch ≠ ((dropTag r.tgt r.tag s).hoop h).epoch) :
    takeAtResp k s = toWhey h (dropTag r.tgt r.tag s) := by
  simp [takeAtResp, hreq, howner, hentry, hrun, hepoch]

theorem takeAtResp_of_atomic (hepoch : r.epoch = ((dropTag r.tgt r.tag s).hoop h).epoch) (hop : e.opcode = 0x09) :
    takeAtResp k s =
      when (e.flag 1) (vstore ((dropTag r.tgt r.tag s).hoop h).vat .write e.src.toNat (k.payload.take e.width))
        (addDone h i j ((r.len - 16) / (if e.atop = 0x03 then 2 * e.width else e.width) * e.width) (dropTag r.tgt r.tag s)) := by
  simp [takeAtResp, hreq, howner, hentry, hrun, hepoch, hop, addDone]

theorem takeAtResp_of_launch {t : Nat} (hepoch : r.epoch = ((dropTag r.tgt r.tag s).hoop h).epoch) (hop : e.opcode = 0x0E)
    (htag : launchTag (dropTag r.tgt r.tag s) (field e.subop 3 0) h i = some t) :
    takeAtResp k s = endLaunch (field e.subop 3 0) t .ok (dropTag r.tgt r.tag s) := by
  simp [takeAtResp, hreq, howner, hentry, hrun, hepoch, hop, htag]

end

section
variable {s : State} {k : Pkt} {r : Req} (hreq : peerReq s k.tag = some r)
include hreq

theorem takeNak_of_holdFull (hreason : k.reason = 0x06) :
    takeNak k s = giveTags (modReq r.tgt r.tag (fun r => { r with held := true }) s) := by
  simp only [takeNak, hreq, hreason]

theorem takeNak_of_journalBusy (hreason : k.reason = 0x09) :
    takeNak k s = giveTags (modReq r.tgt r.tag (fun r => { r with sent := false }) s) := by
  simp only [takeNak, hreq, hreason]

/-- HOP_LIMIT and UNREACHABLE lose the node. -/
theorem takeNak_of_no_way {n : Nat} (hreason : k.reason = 0x04 ∨ k.reason = 0x05) (htgt : r.tgt = .peer n) :
    takeNak k s = loseNode n (modReq r.tgt r.tag (fun r => { r with held := true }) s) := by
  rcases hreason with hreason | hreason <;> simp only [takeNak, hreq, hreason, htgt]

theorem takeNak_of_other_reason (hreason : k.reason ∉ [0x04, 0x05, 0x06, 0x09]) :
    takeNak k s = ownerFails r.owner .target (dropTag r.tgt r.tag s) := by
  simp only [List.mem_cons, List.not_mem_nil, or_false, not_or] at hreason
  obtain ⟨hhop, hreach, hhold, hbusy⟩ := hreason
  -- The four inequalities take the match on REASON to its last arm.
  simp only [takeNak, hreq]

end

/-! ### Timeouts at the issuer (R260, R263) -/

section
variable {s : State} {tag : Nat} {r : Req} (hreq : peerReq s tag = some r)
include hreq

theorem exec_reqTimeout_of_sent {n p : Nat} (htgt : r.tgt = .peer n) (hhop : r.hop = some p) (hsent : r.sent = true)
    (hheld : r.held = false) : exec (.reqTimeout tag) s = .next (loseNode n (countFault (0xA80 + 8 * p + 3) s)) := by
  show execReqTimeout tag s = _
  simp [execReqTimeout, hreq, htgt, hhop, hsent, hheld]

theorem exec_journalRetry_of_unsent (hsent : r.sent = false) : exec (.journalRetry tag) s = .next (resend r s) := by
  show execJournalRetry tag s = _
  simp [execJournalRetry, hreq, hsent]

end

section
variable {s : State} {r : Req} {n : Nat} {k : Pkt} (htgt : r.tgt = .peer n) (hpkt : r.pkt = some k)
include htgt hpkt

theorem resend_of_nextHop {p : Nat} (hhop : nextHop s r.wheel n = some p) :
    resend r s = sendPacket p (typeOf r) k
      (modReq r.tgt r.tag (fun r => { r with held := false, sent := true, hop := some p }) s) := by
  simp only [resend, htgt, hpkt, hhop]

theorem resend_of_no_nextHop (hhop : nextHop s r.wheel n = none) : resend r s = s := by
  simp only [resend, htgt, hpkt, hhop]

end

/-- Settles O47: each answer and each timeout is its equation for the request that it names. -/
theorem peerAnswersEndRequests : Obligations.PeerAnswersEndRequests := by
  unfold Obligations.PeerAnswersEndRequests
  refine ⟨?answers, ?timeouts, ?expiry⟩
  case answers =>
    intro s p k r hup hvalid hdst
    have harr : Arrives s p k := ⟨hup, hvalid, hdst⟩
    rw [exec_atResp_of_arrives harr, exec_nak_of_arrives harr]
    refine ⟨exec_rdData_of_request harr, exec_wrAck_of_request harr, ?atResp, ?nak⟩
    case atResp =>
      intro h i j e hreq howner hentry hrun
      refine ⟨fun hepoch => congrArg _ (takeAtResp_of_old_epoch hreq howner hentry hrun hepoch), fun hepoch hop => ?_,
        fun t hepoch hop htag => congrArg _ (takeAtResp_of_launch hreq howner hentry hrun hepoch hop htag)⟩
      rw [takeAtResp_of_atomic hreq howner hentry hrun hepoch hop]
      exact ⟨fun hret => by rw [hret]; rfl, fun hret => by rw [hret]; rfl⟩
    case nak =>
      exact fun hreq => ⟨fun hr => congrArg _ (takeNak_of_holdFull hreq hr), fun hr => congrArg _ (takeNak_of_journalBusy hreq hr),
        fun n hr htgt => congrArg _ (takeNak_of_no_way hreq hr htgt), fun hr => congrArg _ (takeNak_of_other_reason hreq hr)⟩
  case timeouts =>
    refine fun s tag r n hreq htgt => ⟨fun p => exec_reqTimeout_of_sent hreq htgt, fun k hsent hpkt => ?_⟩
    rw [exec_journalRetry_of_unsent hreq hsent]
    exact ⟨fun p hhop => congrArg _ (resend_of_nextHop htgt hpkt hhop), fun hhop => congrArg _ (resend_of_no_nextHop htgt hpkt hhop)⟩
  case expiry => exact fun s q key => ⟨_, rfl, rfl⟩

end Sys2Proof.Machine
end

section
/-! Thermal holds and collective groups: beacons, timeouts and drains of a hold, the messages of a group, and the group whose peers
have gone silent (R265 to R271). -/

namespace Sys2Proof.Machine

open Sys2Proof

/-! ### The hold of a port (R269 to R271) -/

section
variable {s : State} {q us : Nat} (hhold : (s.acd q).holdSince = some us)
include hhold

theorem exec_holdBeacon_of_hold :
    exec (.holdBeacon q) s = .next (forAll (holdGroups s q)
      (fun g t => endHeld g (sendHold g s.pr.nodeId (holdAge s q) false none (ageHold q g t))) s) := by
  show execHoldBeacon q s = _
  simp only [execHoldBeacon, hhold, Option.isNone_some, Bool.false_eq_true, if_false]

theorem exec_holdTimeout_of_unreported (hnew : (s.acd q).holdTimedOut = false) :
    exec (.holdTimeout q) s = .next (forAll (holdGroups s q)
      (fun g t => endHeld g (collProgress g (ownReport g 0x41 (closeHolds g (ageHold q g t)))))
      (modAcd q (fun p => { p with holdTimedOut := true }) s)) := by
  show execHoldTimeout q s = _
  simp only [execHoldTimeout, hhold, hnew, Option.isNone_some, Bool.or_self, Bool.false_eq_true, if_false]

end

/-- Port q once what it holds for stacks whose rate is not 0 has been written. -/
def holdDrained (q : Nat) (s : State) : State :=
  modAcd q (fun p => { p with heldWr := p.heldWr.filter (fun w => rateOf s q (stackOf s q w.1) = 0) }) s

theorem holdDrained_heldWr (q : Nat) (s : State) :
    ((holdDrained q s).acd q).heldWr = (s.acd q).heldWr.filter (fun w => rateOf s q (stackOf s q w.1) = 0) :=
  congrArg AcdPort.heldWr (modAcd_self ..)

theorem exec_holdSpaceDrain_of_up {s : State} {q : Nat} (hup : (s.acd q).up = true) :
    exec (.holdSpaceDrain q) s = .next (serveAgain (tryEndHold q (holdDrained q s))) := congrArg _ (if_pos hup)

/-! ### Messages of a group (R265, R266, R269) -/

section
variable {s : State} {p g : Nat} {k : Pkt} (h : Arrives s p k) (hgroup : groupTagged s k = some g)
include h hgroup

theorem exec_hold_of_other_node (hother : k.src ≠ s.pr.nodeId) : exec (.hold p k) s = .next (takeHold p k g s) :=
  congrArg _ ((h.atNode_eq _ _).trans (by simp only [hgroup, hother, if_false]))

theorem exec_stepDone_of_sameInst (hinst : sameInst s g k = true) :
    exec (.stepDone p k) s = .next (endHeld g (collProgress g
      (when (leNat (k.payload.take 2) ≠ 0 && !tabHas (s.coll g).reports s.pr.nodeId) (ownReport g 0)
        (modColl g (fun x => { x with reports := tabSet x.reports k.src (leNat (k.payload.take 2)) }) s)))) :=
  congrArg _ ((h.atNode_eq _ _).trans (by simp only [hgroup, hinst, if_true]))

/-- Group g once the status c is agreed and passed to its children (R266). -/
def outcomeTaken (g c : Nat) (s : State) : State :=
  modColl g (fun x => { x with agreed := some c }) (forAll (s.coll g).joins (fun n => sendColl 0x12 g n c 8) s)

theorem exec_outcome_of_undecided (hmember : (s.coll g).root = false) (hinst : sameInst s g k = true)
    (hopen : (s.coll g).agreed = none) :
    exec (.outcome p k) s = .next (collProgress g (when (agreeOf [leNat (k.payload.take 2)] = 0x41) (closeHolds g)
      (endHeld g (outcomeTaken g (agreeOf [leNat (k.payload.take 2)]) s)))) := by
  have hgo : ((s.coll g).root || !sameInst s g k || (s.coll g).agreed.isSome) = false := by simp [hmember, hinst, hopen]
  exact congrArg _ ((h.atNode_eq _ _).trans (by simp only [hgroup, hgo, outcomeTaken, Bool.false_eq_true, if_false]))

/-- Group g with the node n among its joined children (R265). -/
def joined (g n : Nat) (s : State) : State :=
  modColl g (fun x => { x with joins := if x.joins.contains n then x.joins else x.joins ++ [n] }) s

theorem exec_join_of_group : exec (.join p k) s = .next (tryReady g (joined g k.src s)) :=
  congrArg _ ((h.atNode_eq _ _).trans (by simp only [hgroup, joined]))

end

theorem joined_joins (g n : Nat) (s : State) :
    ((joined g n s).coll g).joins = if n ∈ (s.coll g).joins then (s.coll g).joins else (s.coll g).joins ++ [n] := by
  simp [joined]

theorem exec_joinAcknowledged_of_member {s : State} {g : Nat} (hon : (s.coll g).enable = true) (hmember : (s.coll g).root = false) :
    exec (.joinAcknowledged g) s = .next (tryReady g (modColl g (fun x => { x with joinAck := true }) s)) := by
  show execJoinAcknowledged g s = _
  simp only [execJoinAcknowledged, hon, hmember, Bool.not_false, Bool.and_self, if_true]

/-! ### Silent peers (R268) -/

/-- Whether a request is one toward a peer, of an entry of group g's hoop. -/
def groupRequest (s : State) (g : Nat) (r : Req) : Bool :=
  match r.tgt with
  | .peer _ => workOf s (s.coll g).hoop r.owner
  | _ => false

/-- Group g once its requests and its incomplete entries have ended as if its peers were lost, and it has reported PEER_LOST. -/
def peersLost (g : Nat) (s : State) : State :=
  collProgress g (ownReport g 0x40 (closeHolds g (endOpen g (.peerLost false) .peerLost
    (failReqs (groupRequest s g) (fun r => .peerLost (r.sent && !r.held)) s))))

/-- Whether the member of group g can expect no agreed status: its parent cannot be reached, or it timed out before. -/
def parentLost (s : State) (g : Nat) : Bool :=
  !(s.coll g).root && ((firstHop (peersLost g s) (s.coll g).wheel (s.coll g).parent).isNone || !(s.coll g).ready)

/-- The member of group g takes PEER_LOST as the agreed status. -/
def agreePeerLost (g : Nat) (s : State) : State := collProgress g (modColl g (fun x => { x with agreed := some 0x40 }) s)

theorem exec_progressTimeout_of_waits {s : State} {g : Nat} (hon : (s.coll g).enable = true) (hwaits : waitsOnPeer s g = true) :
    exec (.progressTimeout g) s = .next (modColl g (fun x => { x with ready := false, left := true, joins := [], joinAck := false })
      (when (parentLost s g && ((peersLost g s).coll g).agreed.isNone) (agreePeerLost g) (peersLost g s))) := by
  show execProgressTimeout g s = _
  simp only [execProgressTimeout, hon, hwaits, Bool.not_true, Bool.or_self, Bool.false_eq_true, if_false]
  rfl

/-- Settles O48: each event of a hold and each message of a group is its equation. -/
theorem holdsAndGroupMessagesAreTaken : Obligations.HoldsAndGroupMessagesAreTaken := by
  unfold Obligations.HoldsAndGroupMessagesAreTaken
  refine ⟨?held, ?drain, ?messages, ?acknowledged, ?silent⟩
  case held => exact fun s q us hhold => ⟨exec_holdBeacon_of_hold hhold, exec_holdTimeout_of_unreported hhold⟩
  case drain => exact fun s q hup => ⟨_, exec_holdSpaceDrain_of_up hup, modAcd_m .., holdDrained_heldWr ..⟩
  case messages =>
    intro s p k g hup hvalid hdst hgroup
    have harr : Arrives s p k := ⟨hup, hvalid, hdst⟩
    exact ⟨exec_hold_of_other_node harr hgroup, exec_stepDone_of_sameInst harr hgroup, exec_outcome_of_undecided harr hgroup,
      _, exec_join_of_group harr hgroup, joined_joins ..⟩
  case acknowledged => exact fun s g => exec_joinAcknowledged_of_member
  case silent =>
    refine fun s g hon hwaits => ⟨_, exec_progressTimeout_of_waits hon hwaits, fun hcut hopen => ?_, fun hstay => if_neg ?_⟩
    · change parentLost s g = true at hcut
      change ((peersLost g s).coll g).agreed = none at hopen
      simp only [hcut, hopen, when, Option.isNone_none, Bool.and_self, if_true]
      rfl
    · change parentLost s g = false ∨ ((peersLost g s).coll g).agreed ≠ none at hstay
      rcases hstay with hstay | hstay <;> simp [hstay]

end Sys2Proof.Machine
end

section
/-! Requests to a host and its accesses to PF BAR2: completions, timeouts, and the reads, writes and AtomicOps that the scratchpad
serves or rejects (R285 to R287, R493). -/

namespace Sys2Proof.Machine

open Sys2Proof

theorem when_of_true {c : Bool} (h : c = true) (f : State → State) (s : State) : when c f s = f s := if_pos h

theorem when_of_false {c : Bool} (h : c = false) (f : State → State) (s : State) : when c f s = s :=
  if_neg (Bool.eq_false_iff.1 h)

/-! ### Answers of a host (R285, R287, R493) -/

/-- The work of a host request goes on after an answer in order; an admin command's input asks for the image that it names. -/
def hostReqAnswered (r : Req) (s : State) : State :=
  match r.owner with
  | .adminInput a => askImage a s
  | o => ownerAnswered o s

/-- A poisoned completion on a host-class port is an advisory AER entry and an event of the port's source (R287). -/
def poisonedCpl (p : Nat) (s : State) : State := countFault (0xA00 + 8 * p + 2) (emit (.aer p 2) s)

/-- A completion timeout on a host-class port: HC_ERR, AER and an event of the port's source (R287). -/
def timedOut (p : Nat) (s : State) : State := countFault (0xA00 + 8 * p + 1) (emit (.aer p 3) (hcErr p 0x4 s))

section
variable {r : Req} (s : State)

theorem hostReqAnswered_of_work (hwork : ∀ a, r.owner ≠ .adminInput a) : hostReqAnswered r s = ownerAnswered r.owner s := by
  unfold hostReqAnswered
  split
  next a howner => exact absurd howner (hwork a)
  next => rfl

theorem hostReqFails_of_work (hwork : ∀ a, r.owner ≠ .adminInput a) (refused : Bool) :
    hostReqFails r refused s = ownerFails r.owner .target s := by
  unfold hostReqFails
  split
  next a howner => exact absurd howner (hwork a)
  next => rfl

theorem hostReqAnswered_of_adminInput {a : Nat} (howner : r.owner = .adminInput a) : hostReqAnswered r s = askImage a s := by
  simp only [hostReqAnswered, howner]

theorem hostReqFails_of_adminInput {a : Nat} (howner : r.owner = .adminInput a) (refused : Bool) :
    hostReqFails r refused s = adminReadFails a refused s := by
  simp only [hostReqFails, howner]

end

section
variable {s : State} {p tag : Nat} {r : Req} (hreq : hostReq s p tag = some r)
include hreq

theorem exec_completionTimeout_of_hostReq :
    exec (.completionTimeout p tag) s =
      .next (hostReqFails r false (when (p < 16) (timedOut p) (dropTag (.host p) tag s))) := by
  show execCompletionTimeout p tag s = _
  simp only [execCompletionTimeout, hreq]
  rfl

variable (hkept : tlpDropped s p (some (r.addr - hostLoc p 0)) = false)
include hkept

theorem exec_hostCompletion_success :
    exec (.hostCompletion p tag .success) s = .next (hostReqAnswered r (dropTag (.host p) tag s)) := by
  show execHostCompletion p tag .success s = _
  simp only [execHostCompletion, hreq, hkept, Bool.false_eq_true, if_false]
  rfl

theorem exec_hostCompletion_refused {c : Cpl} (hc : c = .unsupported ∨ c = .abort) :
    exec (.hostCompletion p tag c) s = .next (hostReqFails r true (dropTag (.host p) tag s)) := by
  show execHostCompletion p tag c s = _
  rcases hc with rfl | rfl <;> simp only [execHostCompletion, hreq, hkept, Bool.false_eq_true, if_false]

theorem exec_hostCompletion_poisoned :
    exec (.hostCompletion p tag .poisoned) s =
      .next (hostReqFails r false (when (p < 16) (poisonedCpl p) (dropTag (.host p) tag s))) := by
  show execHostCompletion p tag .poisoned s = _
  simp only [execHostCompletion, hreq, hkept, Bool.false_eq_true, if_false]
  rfl

end

/-- Settles O32: each answer and the timeout is its equation, for the two kinds of work and the two kinds of port. -/
theorem hostRequestsEnd : Obligations.HostRequestsEnd := by
  unfold Obligations.HostRequestsEnd
  refine ⟨fun s p tag r hreq hkept => ?completion, fun s p tag r hreq => ?timeout⟩
  case completion =>
    intro u
    rw [exec_hostCompletion_success hreq hkept, exec_hostCompletion_refused hreq hkept (.inl rfl),
      exec_hostCompletion_refused hreq hkept (.inr rfl), exec_hostCompletion_poisoned hreq hkept]
    refine ⟨fun hwork => ?_, fun a howner => ?_, fun hp => ?_, fun hp => ?_⟩
    · rw [hostReqAnswered_of_work _ hwork, hostReqFails_of_work _ hwork]
      exact ⟨rfl, rfl, rfl⟩
    · rw [hostReqAnswered_of_adminInput _ howner, hostReqFails_of_adminInput _ howner]
      exact ⟨rfl, rfl, rfl⟩
    · rw [when_of_true (decide_eq_true hp)]
      rfl
    · rw [when_of_false (decide_eq_false hp.not_gt)]
  case timeout =>
    intro u
    rw [exec_completionTimeout_of_hostReq hreq]
    refine ⟨fun hp => ?_, fun hp => ?_⟩
    · rw [when_of_true (decide_eq_true hp)]
      rfl
    · rw [when_of_false (decide_eq_false hp.not_gt)]

/-! ### PF BAR2 (R286, R287, R391) -/

theorem bar2Answer_of_clean {s : State} {off n : Nat} (hclean : bar2Poisoned s off n = false) (f : Fn) :
    bar2Answer f off n s = emit (.barData f (readNat s (scratchLoc off) n) false) s := by
  simp only [bar2Answer, hclean, Bool.false_eq_true, if_false]

theorem bar2Answer_of_poisoned {s : State} {off n : Nat} (hpoison : bar2Poisoned s off n = true) (f : Fn) :
    bar2Answer f off n s = takeFree n (emit (.barData f (leNat (freeBytes n s)) true) s) := if_pos hpoison

theorem bar2Reject_m (f : Fn) (s : State) : (bar2Reject f s).m = s.m := by
  unfold bar2Reject when
  split <;> rfl

section
variable {s : State} {f : Fn} (hkept : tlpDropped s (pfOf f) none = false)
include hkept

theorem fromHost_of_kept (g : State → State) : fromHost f g s = g s := if_neg (Bool.eq_false_iff.1 hkept)

theorem exec_bar2Read_of_kept (off len : Nat) :
    exec (.bar2Read f off len) s = .next (if bar2Ok s f off len then bar2Answer f off len s else bar2Reject f s) :=
  congrArg _ (fromHost_of_kept hkept _)

theorem exec_bar2Write_of_clean (off : Nat) (data : List Byte) :
    exec (.bar2Write f off data false) s =
      .next (if !bar2Ok s f off data.length || (s.hc (pfOf f)).mps < data.length then bar2Reject f s else bar2Store off data s) :=
  congrArg _ (fromHost_of_kept hkept _)

theorem exec_bar2AtomicOp_of_rejected {a : BarPlace} {op : BarAtomic} {width : Nat}
    (hbad : a.bar0 = true ∨ bar2Ok s f a.off width = false ∨ barAtomicWidth op width = false) (operand compare : Nat) :
    exec (.bar2AtomicOp f a op width operand compare) s = .next (bar2Reject f s) := by
  have hrej : (a.bar0 || !bar2Ok s f a.off width || !barAtomicWidth op width) = true := by
    simpa [or_assoc] using hbad
  refine congrArg _ ((fromHost_of_kept hkept _).trans ?_)
  simp only [hrej, if_true]

theorem exec_bar2AtomicOp_of_clean {off width : Nat} {op : BarAtomic} (hok : bar2Ok s f off width = true)
    (hwidth : barAtomicWidth op width = true) (hclean : bar2Poisoned s off width = false) (operand compare : Nat) :
    exec (.bar2AtomicOp f ⟨false, off⟩ op width operand compare) s =
      .next (when (op ≠ .cas || decide (readNat s (scratchLoc off) width = compare % 2 ^ (8 * width)))
        (bar2Store off (natLe width (barAtomicNew op width (readNat s (scratchLoc off) width) operand compare)))
        (emit (.barData f (readNat s (scratchLoc off) width) false) s)) := by
  refine congrArg _ ((fromHost_of_kept hkept _).trans ?_)
  simp only [hok, hwidth, hclean, bar2Answer_of_clean hclean, Bool.not_true, Bool.or_self, Bool.false_eq_true, if_false]

end

/-- Settles O33: each access is its equation, and the rind check, the length or the width decides between effect and rejection. -/
theorem bar2AccessesComplete : Obligations.Bar2AccessesComplete := by
  unfold Obligations.Bar2AccessesComplete
  refine ⟨?read, ?write, ?atomic, ?rejected⟩
  case read =>
    intro s f off len hkept hok
    rw [exec_bar2Read_of_kept hkept, if_pos hok]
    exact ⟨fun hclean => congrArg _ (bar2Answer_of_clean hclean f),
      fun hpoison => ⟨_, congrArg _ (bar2Answer_of_poisoned hpoison f)⟩⟩
  case write =>
    intro s f off data hkept hok hmps
    rw [exec_bar2Write_of_clean hkept, if_neg (by simp [hok, hmps])]
  case atomic =>
    intro s f off op width a c hkept hok hwidth hclean old u
    rw [exec_bar2AtomicOp_of_clean hkept hok hwidth hclean]
    exact ⟨fun hstores => congrArg _ (when_of_true (by simpa using hstores) _ _),
      fun hcas hne => congrArg _ (when_of_false (by simpa [hcas] using hne) _ _)⟩
  case rejected =>
    intro s f off hkept
    refine ⟨bar2Reject_m f s, fun len hbad => ?_, fun data hbad => ?_,
      fun bar0 op width a c hbad => exec_bar2AtomicOp_of_rejected hkept hbad a c⟩
    · rw [exec_bar2Read_of_kept hkept, if_neg (by simp [hbad])]
    · rw [exec_bar2Write_of_clean hkept, if_pos (by simpa using hbad)]

end Sys2Proof.Machine
end

section
/-! Host-class ports: what their links, virtual functions and IDE streams do (R277 to R284, R289 to R291). -/

namespace Sys2Proof.Machine

open Sys2Proof

theorem hostMode_iff {s : State} {p : Nat} : hostMode s p = true ↔ (s.hc p).modeAct = false := by simp [hostMode]

theorem hcErr_err (p : Nat) (bits : BitVec 10) (s : State) : ((hcErr p bits s).hc p).err = (s.hc p).err ||| bits :=
  congrArg HcPort.err (modHc_self ..)

/-! ### Links (R277, R283, R284, R293) -/

/-- Port p's link comes up at x16: as CXL where both sides negotiate it, at 128 GT/s where that was trained and is allowed. -/
def linkRaised (p : Nat) (gts128 negCxl : Bool) (s : State) : State :=
  modHc p (fun x => { x with
    linkUp := true, cxl := x.cxlAct && negCxl, width := 16
    rate := if gts128 && !x.rateCap && !(x.cxlAct && negCxl) then 7 else 6 }) s

/-- Port p's link goes down, before its effects on what used it. -/
def linkFallen (p : Nat) (s : State) : State :=
  modRsh p (fun x => { x with trained := false })
    (modHc p (fun x => { x with linkUp := false, cxl := false, rate := 0, width := 0 }) s)

theorem linkFallen_linkUp (p : Nat) (s : State) : ((linkFallen p s).hc p).linkUp = false :=
  congrArg HcPort.linkUp (modHc_self p (fun x => { x with linkUp := false, cxl := false, rate := 0, width := 0 }) s)

theorem linkFallen_trained (p : Nat) (s : State) : ((linkFallen p s).rsh p).trained = false :=
  congrArg RshPort.trained (modRsh_self ..)

theorem hcDown_of_hostMode {s : State} {p : Nat} (hhost : hostMode s p = true) : hcDown p s = hostLoss p (linkFallen p s) :=
  if_neg (Bool.eq_false_iff.1 (hostMode_iff.1 hhost))

theorem hcDown_of_farMode {s : State} {p : Nat} (hfar : hostMode s p = false) : hcDown p s = farLoss p (linkFallen p s) :=
  if_pos (by simpa [hostMode] using hfar)

section
variable {s : State} {p : Nat} (hhost : hostMode s p = true)
include hhost

theorem exec_hostLinkTrained_of_down (hen : (s.hc p).linkEn = true) (hsafe : (s.hc p).safe = false)
    (hdown : (s.hc p).linkUp = false) (htrained : (s.rsh p).trained = true) (gts128 negCxl : Bool) :
    exec (.hostLinkTrained p gts128 negCxl) s = .next (tryFound p (linkRaised p gts128 negCxl s)) := by
  show execHostLinkTrained p gts128 negCxl s = _
  simp only [execHostLinkTrained, hhost, hen, hsafe, hdown, htrained, Bool.not_false, Bool.and_self, if_true]
  rfl

variable (hup : (s.hc p).linkUp = true)
include hup

theorem exec_hostLinkDown_of_up : exec (.hostLinkDown p) s = .next (hostLoss p (linkFallen p s)) := by
  show execHostLinkDown p s = _
  simp only [execHostLinkDown, hhost, hup, hcDown_of_hostMode hhost, Bool.and_self, if_true]

theorem exec_hotReset_of_up : exec (.hotReset p) s = .next (hostLoss p s) := by
  show execHotReset p s = _
  simp only [execHotReset, hhost, hup, Bool.and_self, if_true]

theorem exec_pfFlr_of_up : exec (.pfFlr p) s = .next (hostLoss p s) := by
  show execPfFlr p s = _
  simp only [execPfFlr, hhost, hup, Bool.and_self, if_true]

end

/-- The teardown of port p's lost host is complete. -/
def teardownEnded (p : Nat) (s : State) : State := modHc p (fun x => { x with tearing := false }) s

theorem exec_hostTeardownComplete_of_torn {s : State} {p : Nat}
    (htearing : ((forAll (lostVats s p) finishTear s).hc p).tearing = true)
    (hnone : lostVats (forAll (lostVats s p) finishTear s) p = []) :
    exec (.hostTeardownComplete p) s = .next (tryFound p (teardownEnded p (forAll (lostVats s p) finishTear s))) := by
  show execHostTeardownComplete p s = _
  simp only [execHostTeardownComplete, htearing, hnone, List.isEmpty_nil, Bool.and_self, if_true]
  rfl

/-- Settles O35: a link that rises or falls and a teardown that ends are their equations. -/
theorem hostLinksRiseAndFall : Obligations.HostLinksRiseAndFall := by
  unfold Obligations.HostLinksRiseAndFall
  refine ⟨?rise, ?fall, ?teardown⟩
  case rise =>
    intro s p g c hhost hen hsafe hdown htrained
    refine ⟨_, exec_hostLinkTrained_of_down hhost hen hsafe hdown htrained g c, ?_⟩
    rw [linkRaised, modHc_self]
    exact ⟨rfl, rfl, rfl, by simp only [Bool.and_eq_true, Bool.not_eq_true', and_assoc]⟩
  case fall =>
    exact fun s p hhost hup => ⟨⟨_, exec_hostLinkDown_of_up hhost hup, linkFallen_linkUp p s, linkFallen_trained p s⟩,
      exec_hotReset_of_up hhost hup, exec_pfFlr_of_up hhost hup⟩
  case teardown =>
    intro s p g htearing hnone
    exact ⟨_, exec_hostTeardownComplete_of_torn htearing hnone,
      congrArg HcPort.tearing (modHc_self ..), modHc_wk ..⟩

/-! ### Virtual functions (R281, R282) -/

/-- Port p takes n virtual functions from the pool. -/
def takeVfs (p n : Nat) (s : State) : State :=
  modHc p (fun x => { x with vfEnable := true, numVfs := n }) { s with lk.vfFree := s.lk.vfFree - n }

/-- The first n virtual functions of port p are granted, in their state after reset. -/
def grantVfs (p n : Nat) (s : State) : State :=
  forAll (List.range n) (fun i => modFnS (.vf p i) (fun _ => { granted := true })) s

theorem grantVfs_succ (p n : Nat) (s : State) :
    grantVfs p (n + 1) s = modFnS (.vf p n) (fun _ => { granted := true }) (grantVfs p n s) := by
  simp only [grantVfs, forAll, List.range_succ, List.foldl_append, List.foldl_cons, List.foldl_nil]

theorem grantVfs_lk (p n : Nat) (s : State) : (grantVfs p n s).lk = s.lk :=
  forAll_keeps (π := State.lk) (f := fun i => modFnS (.vf p i) (fun _ => { granted := true })) (fun _ _ => rfl) _ s

theorem grantVfs_granted {n i : Nat} (hi : i < n) (p : Nat) (s : State) : ((grantVfs p n s).fnS (.vf p i)).granted = true := by
  induction n with
  | zero => exact absurd hi (Nat.not_lt_zero i)
  | succ n ih =>
    rw [grantVfs_succ]
    rcases Nat.lt_succ_iff_lt_or_eq.1 hi with hlt | rfl
    · rw [modFnS_other _ _ _ _ (by simp [hlt.ne])]
      exact ih hlt
    · rw [modFnS_self]

section
variable {s : State} {p n : Nat} (hhost : hostMode s p = true) (hoff : (s.hc p).vfEnable = false)
include hhost hoff

theorem exec_vfEnableSet_of_free (hpool : n ≤ s.lk.vfFree) (htotal : n ≤ 512) :
    exec (.vfEnableSet p n) s = .next (grantVfs p n (takeVfs p n s)) := by
  show execVfEnableSet p n s = _
  simp only [execVfEnableSet, hhost, hoff, hpool, htotal, decide_true, Bool.not_true, Bool.or_self, Bool.and_self,
    Bool.false_eq_true, if_false, if_true]
  rfl

theorem exec_vfEnableSet_of_short (hshort : s.lk.vfFree < n ∨ 512 < n) :
    exec (.vfEnableSet p n) s = .next (hcErr p 0x20 s) :=
  congrArg _ ((if_neg (by simp [hhost, hoff])).trans (if_neg (by simpa [imp_iff_not_or] using hshort)))

end

section
variable {s : State} {p : Nat} (hon : (s.hc p).vfEnable = true)
include hon

theorem exec_vfEnableClear_of_quiesced (hquiet : ((fnsOfPort s p).filter isVf).all (quiesced s) = true) :
    exec (.vfEnableClear p) s = .next (returnVfs p (forAll ((fnsOfPort s p).filter isVf) flrVf s)) :=
  congrArg _ ((if_neg (by simp [hon])).trans (if_pos hquiet))

theorem exec_vfEnableClear_of_busy (hbusy : ((fnsOfPort s p).filter isVf).all (quiesced s) = false) :
    exec (.vfEnableClear p) s = .next (hcErr p 0x10 s) :=
  congrArg _ ((if_neg (by simp [hon])).trans (if_neg (Bool.eq_false_iff.1 hbusy)))

end

theorem returnVfs_hc (p : Nat) (s : State) :
    (returnVfs p s).hc p = { s.hc p with vfEnable := false, numVfs := 0, vfFlrReq := [] } := modHc_self ..

/-- The reset of virtual function v of port p is held until it is quiesced. -/
def recordFlr (p v : Nat) (s : State) : State :=
  modHc p (fun x => { x with vfFlrReq := if x.vfFlrReq.contains v then x.vfFlrReq else x.vfFlrReq ++ [v] }) s

theorem mem_vfFlrReq_recordFlr (p v : Nat) (s : State) : v ∈ ((recordFlr p v s).hc p).vfFlrReq := by
  rw [recordFlr, modHc_self]
  by_cases hv : v ∈ (s.hc p).vfFlrReq <;> simp [hv]

section
variable {s : State} {p v : Nat} (hgrant : (s.fnS (.vf p v)).granted = true)
include hgrant

theorem exec_vfFlr_of_quiesced (hquiet : quiesced s (.vf p v) = true) : exec (.vfFlr p v) s = .next (flrVf (.vf p v) s) :=
  congrArg _ ((if_neg (by simp [hgrant])).trans (if_pos hquiet))

theorem exec_vfFlr_of_busy (hbusy : quiesced s (.vf p v) = false) :
    exec (.vfFlr p v) s = .next (hcErr p 0x8 (recordFlr p v s)) :=
  congrArg _ ((if_neg (by simp [hgrant])).trans (if_neg (Bool.eq_false_iff.1 hbusy)))

end

/-- Settles O36: a grant and a reset happen where the pool and the functions allow them; the other requests are recorded. -/
theorem virtualFunctionsComeAndGo : Obligations.VirtualFunctionsComeAndGo := by
  unfold Obligations.VirtualFunctionsComeAndGo
  refine ⟨?set, ?clear, ?reset⟩
  case set =>
    refine fun s p n hhost hoff => ⟨fun hpool htotal => ⟨_, exec_vfEnableSet_of_free hhost hoff hpool htotal, ?_⟩,
      exec_vfEnableSet_of_short hhost hoff⟩
    have hport : (grantVfs p n (takeVfs p n s)).hc p = { s.hc p with vfEnable := true, numVfs := n } := by
      rw [State.hc, grantVfs_lk]
      exact modHc_self ..
    rw [hport, grantVfs_lk]
    exact ⟨rfl, rfl, rfl, fun i hi => grantVfs_granted hi p _⟩
  case clear =>
    exact fun s p hon => ⟨fun hquiet => ⟨exec_vfEnableClear_of_quiesced hon hquiet, congrArg HcPort.vfEnable (returnVfs_hc ..),
      congrArg HcPort.numVfs (returnVfs_hc ..)⟩, exec_vfEnableClear_of_busy hon⟩
  case reset =>
    refine fun s p v hgrant => ⟨exec_vfFlr_of_quiesced hgrant, fun hbusy => ⟨_, exec_vfFlr_of_busy hgrant hbusy, ?_, ?_⟩⟩
    · rw [hcErr, modHc_self]
      exact mem_vfFlrReq_recordFlr p v s
    · rw [hcErr_err, recordFlr, modHc_self]

/-! ### IDE (R289 to R291) -/

theorem ideOf_modIde (p k : Nat) (f : IdeStream → IdeStream) (s : State) : ideOf (modIde p k f s) p k = f (ideOf s p k) := by
  simp only [ideOf, modIde, modHc_self, tabGet_tabSet_self]

/-- Key set ks of a stream holds keys, and the stream is not in the Insecure state. -/
def ideProgrammed (p k ks : Nat) (s : State) : State :=
  modIde p k (fun x => { x with keySet := x.keySet ||| BitVec.ofNat 2 (2 ^ ks), insecure := false }) s

/-- Key set ks of a stream is in use. -/
def ideGoing (p k ks : Nat) (s : State) : State := modIde p k (fun x => { x with going := some ks }) s

/-- Key set ks of a stream is out of use and erased. -/
def ideStopped (p k ks : Nat) (s : State) : State :=
  modIde p k (fun x => { x with
    keySet := x.keySet &&& ~~~ BitVec.ofNat 2 (2 ^ ks), going := if x.going = some ks then none else x.going }) s

/-- A stream fails its check: it is in the Insecure state, and its port reports that. -/
def ideFailed (p k : Nat) (s : State) : State :=
  emit (.aer p 5) (hcErr p 0x40 (modIde p k (fun x => { x with insecure := true }) s))

theorem getLsbD_keySet (ks : Nat) (hks : ks < 2) (x : BitVec 2) :
    (x ||| BitVec.ofNat 2 (2 ^ ks)).getLsbD ks = true ∧ (x &&& ~~~ BitVec.ofNat 2 (2 ^ ks)).getLsbD ks = false := by
  interval_cases ks <;> revert x <;> decide

section
variable {s : State} {p : Nat} (hsecured : doeSecured s p = true)
include hsecured

theorem ideRun_of_secured (f : State → State) : ideRun p f s = f s := if_pos hsecured

theorem exec_ideKmQuery_of_secured : exec (.ideKmQuery p) s = .next (emit (.ide p "QUERY_RESP" 5) s) :=
  congrArg _ (ideRun_of_secured hsecured _)

variable {k ks : Nat} (hk : k < 5) (hks : ks < 2)
include hk hks

theorem exec_ideKmKeyProg_of_secured :
    exec (.ideKmKeyProg p k ks) s = .next (emit (.ide p "KP_ACK" k) (ideProgrammed p k ks s)) := by
  refine congrArg _ ((ideRun_of_secured hsecured _).trans ?_)
  simp only [hk, hks, decide_true, Bool.and_self, if_true]
  rfl

theorem exec_ideKmKSetGo_of_programmed (hkeys : (ideOf s p k).keySet.getLsbD ks = true) :
    exec (.ideKmKSetGo p k ks) s = .next (emit (.ide p "K_GOSTOP_ACK" k) (ideGoing p k ks s)) := by
  refine congrArg _ ((ideRun_of_secured hsecured _).trans ?_)
  simp only [hk, hks, hkeys, decide_true, Bool.and_self, if_true]
  rfl

theorem exec_ideKmKSetStop_of_secured :
    exec (.ideKmKSetStop p k ks) s = .next (emit (.ide p "K_GOSTOP_ACK" k) (ideStopped p k ks s)) := by
  refine congrArg _ ((ideRun_of_secured hsecured _).trans ?_)
  simp only [hk, hks, decide_true, Bool.and_self, if_true]
  rfl

end

theorem exec_ideCheckFailed_of_going {s : State} {p k : Nat} (hhost : hostMode s p = true)
    (hgoing : (ideOf s p k).going.isSome = true) :
    exec (.ideCheckFailed p k) s = .next (countFault (0xA00 + 8 * p + 3) (ideFailed p k s)) :=
  congrArg _ (if_pos (by simp [hhost, hgoing]))

/-- Settles O37: each IDE_KM message and a failed check is one change of the stream that it names. -/
theorem ideStreamsAreManaged : Obligations.IdeStreamsAreManaged := by
  unfold Obligations.IdeStreamsAreManaged
  refine ⟨fun s p hsecured => ⟨exec_ideKmQuery_of_secured hsecured,
      fun k ks hk hks => ⟨?program, fun hkeys => ?go, ?stop⟩⟩,
    fun s p k hhost hgoing => ?failed⟩
  case program =>
    have hstream : ideOf (ideProgrammed p k ks s) p k = _ := ideOf_modIde ..
    refine ⟨_, exec_ideKmKeyProg_of_secured hsecured hk hks, ?_, congrArg IdeStream.insecure hstream, rfl⟩
    exact (congrArg (fun x : IdeStream => x.keySet.getLsbD ks) hstream).trans (getLsbD_keySet ks hks _).1
  case go =>
    exact ⟨_, exec_ideKmKSetGo_of_programmed hsecured hk hks hkeys,
      congrArg IdeStream.going (ideOf_modIde p k (fun x => { x with going := some ks }) s)⟩
  case stop =>
    have hstream : ideOf (ideStopped p k ks s) p k = _ := ideOf_modIde ..
    refine ⟨_, exec_ideKmKSetStop_of_secured hsecured hk hks,
      (congrArg (fun x : IdeStream => x.keySet.getLsbD ks) hstream).trans (getLsbD_keySet ks hks _).2, ?_⟩
    show (ideOf (ideStopped p k ks s) p k).going ≠ some ks
    rw [hstream]
    by_cases hgoing : (ideOf s p k).going = some ks <;> simp [hgoing]
  case failed =>
    refine ⟨_, exec_ideCheckFailed_of_going hhost hgoing, ?_, ?_⟩
    · show (ideOf (hcErr p 0x40 _) p k).insecure = true
      rw [ideOf, hcErr, modHc_self]
      exact congrArg IdeStream.insecure (ideOf_modIde ..)
    · exact (hcErr_err ..).trans (by rw [modIde, modHc_self])

end Sys2Proof.Machine
end

section
/-! The coherent window cache: what snoops, evictions and fills do to its lines and to those in eviction buffers (R296 to R299). -/

namespace Sys2Proof.Machine

open Sys2Proof

/-! ### Lines of the coherent window cache and of the eviction buffers (R296, R298) -/

/-- A line is found in the table after a change of all lines that keeps which line each is. -/
theorem find?_map_line {p a : Nat} (g : CohLine → CohLine) (hport : ∀ l, (g l).port = l.port)
    (haddr : ∀ l, (g l).addr = l.addr) (ls : List CohLine) :
    (ls.map g).find? (fun l => l.port = p && l.addr = a) = (ls.find? (fun l => l.port = p && l.addr = a)).map g := by
  rw [List.find?_map]
  congr 2
  funext l
  simp only [Function.comp_apply, hport, haddr]

theorem find?_filter_not_line (p a : Nat) (ls : List CohLine) :
    (ls.filter (fun l => !(l.port = p && l.addr = a))).find? (fun l => l.port = p && l.addr = a) = none := by
  simp only [List.find?_eq_none, List.mem_filter]
  intro l hl hline
  simp [hline] at hl

theorem exists_line_of_cohState {s : State} {p a : Nat} (hline : cohState s p a ≠ .i) :
    ∃ l, s.cx.cohLines.find? (fun l => l.port = p && l.addr = a) = some l := by
  refine Option.ne_none_iff_exists'.1 (fun hnone => hline ?_)
  simp [cohState, hnone]

theorem cohState_setLine {s : State} {p a : Nat} (hline : cohState s p a ≠ .i) (st : Mesi) :
    cohState (setLine p a st s) p a = st := by
  obtain ⟨l, hl⟩ := exists_line_of_cohState hline
  have hhere := List.find?_some hl
  by_cases hst : st = .i
  · subst hst
    simp only [cohState, setLine, if_true, find?_filter_not_line, Option.map_none, Option.getD_none]
  · simp only [cohState, setLine, if_neg hst]
    rw [find?_map_line (fun l => if l.port = p && l.addr = a then { l with st := st } else l) (by intro l; split <;> rfl)
      (by intro l; split <;> rfl), hl, Option.map_some, Option.map_some, if_pos hhere, Option.getD_some]

theorem cohState_of_cx_eq {s t : State} (h : t.cx = s.cx) (p a : Nat) : cohState t p a = cohState s p a := by
  simp only [cohState, h]

theorem evictOf_of_evict_eq {s t : State} (h : t.cx.evict = s.cx.evict) (p a : Nat) : evictOf t p a = evictOf s p a := by
  simp only [evictOf, h]

theorem evictOf_endEvict (p a : Nat) (s : State) : evictOf (endEvict p a s) p a = none := find?_filter_not_line p a _

theorem evictOf_modEvict {g : CohLine → CohLine} (hport : ∀ l, (g l).port = l.port) (haddr : ∀ l, (g l).addr = l.addr)
    {s : State} {p a : Nat} {l : CohLine} (hl : evictOf s p a = some l) : evictOf (modEvict p a g s) p a = some (g l) := by
  have hhere := List.find?_some hl
  simp only [evictOf, modEvict]
  rw [find?_map_line (fun l => if l.port = p && l.addr = a then g l else l) (by intro l; split <;> simp [hport])
    (by intro l; split <;> simp [haddr])]
  unfold evictOf at hl
  rw [hl]
  exact congrArg some (if_pos hhere)

/-! ### Snoops (R298, R299) -/

/-- The window cache holds the line in M, E or S. -/
def isHeld (st : Mesi) : Bool := st = .m || st = .e || st = .s

theorem isHeld_iff {st : Mesi} : isHeld st = true ↔ st = .m ∨ st = .e ∨ st = .s := by simp [isHeld, or_assoc]

/-- The watchers of the fences in a line read them again. -/
def rereadLine (p a : Nat) (s : State) : State := forAll (watchersAt s (hostLoc p a) 64) readWatcher s

theorem lineHeld_eq (s : State) (p a : Nat) :
    lineHeld s p a = (isHeld (cohState s p a) || (evictOf s p a).elim false (fun l => l.st = .m)) := rfl

section
variable {s : State} {p a : Nat} {kept : Mesi → Mesi} {ofM ofE ofS : String}

theorem snoopLine_of_not_held (h : lineHeld s p a = false) : snoopLine p a kept ofM ofE ofS s = snoop p a kept ofM ofE ofS s :=
  if_neg (by simp [h])

theorem snoopLine_of_left {t : State} (hsnoop : snoop p a kept ofM ofE ofS s = t) (h : lineHeld t p a = true) :
    snoopLine p a kept ofM ofE ofS s = t := by
  subst hsnoop
  exact if_neg (by simp [h])

theorem snoopLine_of_taken {t : State} (hsnoop : snoop p a kept ofM ofE ofS s = t) (hheld : lineHeld s p a = true)
    (h : lineHeld t p a = false) : snoopLine p a kept ofM ofE ofS s = rereadLine p a t := by
  subst hsnoop
  exact if_pos (by simp [hheld, h])

end

/-- The answer to a snoop of a cached line, which is left in the state st. -/
def snoopHit (p a : Nat) (what : String) (st : Mesi) (bs : List Byte) (s : State) : State :=
  setLine p a st (emit (.d2h p what a bs false) s)

/-- The answer to a snoop of a line that the Hivik does not hold. -/
def snoopMiss (p a : Nat) (s : State) : State := emit (.d2h p "RspIHitI" a [] false) s

/-- The answer to a snoop of the line l in an eviction buffer, whose line is Invalid from then on. -/
def snoopBuffer (p a : Nat) (l : CohLine) (s : State) : State :=
  modEvict p a (fun l => { l with st := .i }) (emit (.d2h p "RspIFwdM" a l.data false) s)

section
variable {s : State} {p a : Nat} (hcached : isHeld (cohState s p a) = true) (what : String) (st : Mesi) (bs : List Byte)

include hcached in
theorem cohState_snoopHit : cohState (snoopHit p a what st bs s) p a = st := by
  refine cohState_setLine (s := emit _ s) (fun hi => ?_) st
  rw [show cohState s p a = .i from hi] at hcached
  exact absurd hcached (by decide)

theorem evictOf_snoopHit : evictOf (snoopHit p a what st bs s) p a = evictOf s p a := evictOf_of_evict_eq rfl p a

include hcached in
theorem lineHeld_snoopHit (hbuf : evictOf s p a = none) : lineHeld (snoopHit p a what st bs s) p a = isHeld st := by
  rw [lineHeld_eq, cohState_snoopHit hcached, evictOf_snoopHit, hbuf, Option.elim_none, Bool.or_false]

end

section
variable {s : State} {p a : Nat} (hbuf : evictOf s p a = none) {kept : Mesi → Mesi} {ofM ofE ofS : String}
include hbuf

theorem lineHeld_of_no_buffer : lineHeld s p a = isHeld (cohState s p a) := by
  rw [lineHeld_eq, hbuf, Option.elim_none, Bool.or_false]

theorem snoop_of_m (hst : cohState s p a = .m) :
    snoop p a kept ofM ofE ofS s = snoopHit p a ofM (kept .m) (lineBytes s p a) s := by
  simp only [snoop, hbuf, hst]
  rfl

theorem snoop_of_e (hst : cohState s p a = .e) : snoop p a kept ofM ofE ofS s = snoopHit p a ofE (kept .e) [] s := by
  simp only [snoop, hbuf, hst]
  rfl

theorem snoop_of_s (hst : cohState s p a = .s) : snoop p a kept ofM ofE ofS s = snoopHit p a ofS (kept .s) [] s := by
  simp only [snoop, hbuf, hst]
  rfl

theorem snoop_of_clean {st : Mesi} (hst : cohState s p a = st) (hclean : st = .e ∨ st = .s) (of : String) :
    snoop p a kept ofM of of s = snoopHit p a of (kept st) [] s := by
  rcases hclean with rfl | rfl
  · exact snoop_of_e hbuf hst
  · exact snoop_of_s hbuf hst

theorem snoopLine_of_absent (habsent : isHeld (cohState s p a) = false) :
    snoopLine p a kept ofM ofE ofS s = snoopMiss p a s := by
  rw [snoopLine_of_not_held ((lineHeld_of_no_buffer hbuf).trans habsent)]
  cases hst : cohState s p a with
  | m | e | s => exact absurd (hst ▸ habsent) (by decide)
  | i | fillS | fillE =>
    simp only [snoop, hbuf, hst]
    rfl

variable {what : String} {st : Mesi} {bs : List Byte} (hcached : isHeld (cohState s p a) = true)
  (hsnoop : snoop p a kept ofM ofE ofS s = snoopHit p a what st bs s)
include hcached hsnoop

theorem snoopLine_of_kept (hst : isHeld st = true) : snoopLine p a kept ofM ofE ofS s = snoopHit p a what st bs s :=
  snoopLine_of_left hsnoop ((lineHeld_snoopHit hcached what st bs hbuf).trans hst)

theorem snoopLine_of_lost (hst : isHeld st = false) :
    snoopLine p a kept ofM ofE ofS s = rereadLine p a (snoopHit p a what st bs s) :=
  snoopLine_of_taken hsnoop ((lineHeld_of_no_buffer hbuf).trans hcached) ((lineHeld_snoopHit hcached what st bs hbuf).trans hst)

end

section
variable {s : State} {p a : Nat} {l : CohLine} (hbuf : evictOf s p a = some l) {kept : Mesi → Mesi} {ofM ofE ofS : String}
  (hcached : isHeld (cohState s p a) = false)
include hbuf hcached

theorem snoopLine_of_buffered (hm : l.st = .m) : snoopLine p a kept ofM ofE ofS s = rereadLine p a (snoopBuffer p a l s) := by
  have hleft : evictOf (snoopBuffer p a l s) p a = some { l with st := .i } :=
    evictOf_modEvict (g := fun l => { l with st := .i }) (fun _ => rfl) (fun _ => rfl) ((evictOf_of_evict_eq rfl p a).trans hbuf)
  refine snoopLine_of_taken ?_ ?_ ?_
  · simp only [snoop, hbuf, if_pos hm]
    rfl
  · simp [lineHeld_eq, hbuf, hm]
  · rw [lineHeld_eq, hleft, show cohState (snoopBuffer p a l s) p a = cohState s p a from rfl, hcached]
    rfl

theorem snoopLine_of_invalid_buffer (hm : l.st ≠ .m) : snoopLine p a kept ofM ofE ofS s = snoopMiss p a s := by
  refine (snoopLine_of_not_held ?_).trans ?_
  · simp [lineHeld_eq, hbuf, hcached, hm]
  · simp only [snoop, hbuf, if_neg hm]
    rfl

end

/-- Each of the three snoops is a snoop of its line. -/
theorem exec_of_mem_snoops {c : Instr} {p a : Nat} (hc : c ∈ [Instr.snpData p a, .snpInv p a, .snpCur p a]) (s : State) :
    ∃ kept ofM ofE ofS, exec c s = .next (snoopLine p a kept ofM ofE ofS s) := by
  simp only [List.mem_cons, List.not_mem_nil, or_false] at hc
  rcases hc with rfl | rfl | rfl <;> exact ⟨_, _, _, _, rfl⟩

/-! ### Evictions and fills (R296, R298) -/

section
variable {s : State} {p a : Nat} {l : CohLine} (hbuf : evictOf s p a = some l)
include hbuf

theorem exec_goWritePull_of_buffered :
    exec (.goWritePull p a) s = .next (rescan (emit (.d2h p "Data" a l.data (l.st ≠ .m)) (endEvict p a s))) := by
  show execGoWritePull p a s = _
  simp only [execGoWritePull, hbuf]

theorem exec_goWritePullDrop_of_buffered : exec (.goWritePullDrop p a) s = .next (rescan (endEvict p a s)) := by
  show execGoWritePullDrop p a s = _
  simp only [execGoWritePullDrop, hbuf]

end

section
variable {s : State} {p a : Nat} (hwaits : cohState s p a = .fillS ∨ cohState s p a = .fillE) {st : Mesi}
include hwaits

theorem cohState_takeFill (data : List Byte) : cohState (takeFill p a st data s) p a = st := by
  have hline : cohState s p a ≠ .i := by rcases hwaits with h | h <;> simp [h]
  have hset : cohState (setLine p a st (writeBytes (hostLoc p a) data s)) p a = st :=
    cohState_setLine (s := writeBytes (hostLoc p a) data s) hline st
  simp only [cohState, takeFill] at hset ⊢
  rw [find?_map_line (fun l => if l.port = p && l.addr = a then { l with data := data } else l) (by intro l; split <;> rfl)
    (by intro l; split <;> rfl), Option.map_map]
  rw [show CohLine.st ∘ (fun l : CohLine => if l.port = p && l.addr = a then { l with data := data } else l) = CohLine.st from
    funext (fun l => by simp only [Function.comp_apply]; split <;> rfl)]
  exact hset

theorem exec_cacheFillGo_of_waits (hs : st ≠ .fillS) (he : st ≠ .fillE) (data : List Byte) :
    exec (.cacheFillGo p a st data) s =
      .next (rescan (forAll (watchersAt s (hostLoc p a) 64) readWatcher (takeFill p a st data s))) := by
  refine congrArg _ (if_pos ?_)
  rcases hwaits with h | h <;> simp [h, hs, he]

end

/-- Settles O39: a snoop's outcome follows the state of its line, and an eviction or a fill ends as its GO says. -/
theorem coherentLinesFollowTheHost : Obligations.CoherentLinesFollowTheHost := by
  unfold Obligations.CoherentLinesFollowTheHost
  refine ⟨fun s p a hbuf => ?cached, fun s p a l hbuf hm he hs c hc => ?buffered, fun s p a l hbuf => ?evicted,
    fun s p a st data hwaits hs he => ?filled⟩
  case cached =>
    refine ⟨fun hst => ?_, fun st hst hclean => ?_, fun st what bs hst => cohState_snoopHit (isHeld_iff.2 hst) what st bs,
      fun hm he hs c hc => ?_⟩
    · have hcached : isHeld (cohState s p a) = true := isHeld_iff.2 (.inl hst)
      exact ⟨congrArg _ (snoopLine_of_kept hbuf hcached (snoop_of_m hbuf hst) rfl),
        congrArg _ (snoopLine_of_lost hbuf hcached (snoop_of_m hbuf hst) rfl),
        congrArg _ (snoopLine_of_kept hbuf hcached (snoop_of_m hbuf hst) rfl)⟩
    · have hheld : isHeld st = true := isHeld_iff.2 (.inr hclean)
      have hcached : isHeld (cohState s p a) = true := hst ▸ hheld
      exact ⟨congrArg _ (snoopLine_of_kept hbuf hcached (snoop_of_clean hbuf hst hclean _) rfl),
        congrArg _ (snoopLine_of_lost hbuf hcached (snoop_of_clean hbuf hst hclean _) rfl),
        congrArg _ (snoopLine_of_kept hbuf hcached (snoop_of_clean hbuf hst hclean _) hheld)⟩
    · obtain ⟨kept, ofM, ofE, ofS, hexec⟩ := exec_of_mem_snoops hc s
      rw [hexec, snoopLine_of_absent hbuf (by simp [isHeld, hm, he, hs])]
      rfl
  case buffered =>
    obtain ⟨kept, ofM, ofE, ofS, hexec⟩ := exec_of_mem_snoops hc s
    have hcached : isHeld (cohState s p a) = false := by simp [isHeld, hm, he, hs]
    rw [hexec]
    exact ⟨fun hm => congrArg _ (snoopLine_of_buffered hbuf hcached hm),
      fun hm => congrArg _ (snoopLine_of_invalid_buffer hbuf hcached hm)⟩
  case evicted => exact ⟨evictOf_endEvict p a s, exec_goWritePull_of_buffered hbuf, exec_goWritePullDrop_of_buffered hbuf⟩
  case filled => exact ⟨exec_cacheFillGo_of_waits hwaits hs he data, cohState_takeFill hwaits data, rfl⟩

end Sys2Proof.Machine
end

section
/-! HDM windows: the requests of hosts, their answers to back-invalidation, and the host that does not answer (R300 to R302). -/

namespace Sys2Proof.Machine

open Sys2Proof

/-! ### Requests of hosts (R300, R301) -/

section
variable {s : State} {p off line : Nat} {read any : Bool} (go : State → State)

theorem hdmServe_of_hits (hhits : hdmHits s p line any ≠ []) :
    hdmServe p off line read any go s = askHosts (.hdm p off) ((hdmHits s p line any).map (·, any)) s :=
  if_pos (by simpa using hhits)

variable (hfree : hdmHits s p line any = [])
include hfree

theorem hdmServe_of_full (hread : read = true) (hfull : filterFull s p line = true) :
    hdmServe p off line read any go s = askHosts (.hdm p off) ((s.cx.filter.take 1).map (·, true)) s :=
  (if_neg (by simp [hfree])).trans (if_pos (by simp [hread, hfull]))

variable (hroom : (read && filterFull s p line) = false)
include hroom

theorem hdmServe_of_hot (hhot : isHot s line = true) : hdmServe p off line read any go s = s :=
  (if_neg (by simp [hfree])).trans ((if_neg (Bool.eq_false_iff.1 hroom)).trans (if_pos hhot))

theorem hdmServe_of_cold (hcold : isHot s line = false) : hdmServe p off line read any go s = go s :=
  (if_neg (by simp [hfree])).trans ((if_neg (Bool.eq_false_iff.1 hroom)).trans (if_neg (Bool.eq_false_iff.1 hcold)))

end

section
variable {s : State} {p win off : Nat} (hhost : hostMode s p = true) (hcxl : (s.hc p).cxl = true)
include hhost hcxl

theorem exec_hdmRequest_of_outside (hout : hdmLine s p win off = none) (op : HdmOp) :
    exec (.hdmRequest p win off op) s = .next (emit (.hdm p off [] true) (hcErr p 0x80 s)) := by
  show execHdmRequest p win off op s = _
  simp only [execHdmRequest, hhost, hcxl, hout, Bool.not_true, Bool.or_self, Bool.false_eq_true, if_false]

variable {line : Nat} (hline : hdmLine s p win off = some line)
include hline

theorem exec_hdmRequest_of_home_down (hdown : homeUp s (homeOf line) = false) (op : HdmOp) :
    exec (.hdmRequest p win off op) s = .next (emit (.hdm p off [] true) s) := by
  show execHdmRequest p win off op s = _
  simp only [execHdmRequest, hhost, hcxl, hline, hdown, Bool.not_true, Bool.not_false, Bool.or_self, Bool.false_eq_true, if_false,
    if_true]

variable (hup : homeUp s (homeOf line) = true)
include hup

theorem exec_hdmRequest_read {op : HdmOp} {excl : Bool}
    (hop : (op = .readShared ∧ excl = false) ∨ (op = .readExclusive ∧ excl = true)) :
    exec (.hdmRequest p win off op) s = .next (hdmRead p off line excl s) := by
  show execHdmRequest p win off op s = _
  rcases hop with ⟨rfl, rfl⟩ | ⟨rfl, rfl⟩ <;>
    simp only [execHdmRequest, hhost, hcxl, hline, hup, Bool.not_true, Bool.or_self, Bool.false_eq_true, if_false]

theorem exec_hdmRequest_write (data : List Byte) :
    exec (.hdmRequest p win off (.write data)) s =
      .next (hdmServe p off line false true (fun s => emit (.hdm p off [] false) (storeAt line data s)) s) := by
  show execHdmRequest p win off (.write data) s = _
  simp only [execHdmRequest, hhost, hcxl, hline, hup, Bool.not_true, Bool.or_self, Bool.false_eq_true, if_false]

end

/-! ### Back-invalidation (R301, R302) -/

/-- The host of port p keeps a shared copy of a line, which is no longer snooped. -/
def copyShared (p line : Nat) (s : State) : State :=
  { s with cx.filter := s.cx.filter.map (fun g =>
      if g.port = p && g.line = line then { g with excl := false, snooping := false, waiters := [] } else g) }

/-- The host of port p has not answered for a line: nothing waits for that line any more. -/
def snoopGivenUp (p line : Nat) (s : State) : State :=
  hcErr p 0x100 { s with cx.filter := s.cx.filter.map (fun g =>
      if g.port = p && g.line = line then { g with snooping := false, waiters := [] } else g) }

section
variable {s : State} {p line : Nat} {f : Filt}
  (hsnoop : s.cx.filter.find? (fun f => f.port = p && f.line = line && f.snooping) = some f)
include hsnoop

theorem exec_biRsp_of_inv (hinv : f.inv = true) (wb : Option (List Byte)) :
    exec (.biRsp p line wb) s = .next (rescan (dropFilter (fun g => g.port = p && g.line = line)
      ((wb.map (fun bs => storeAt line bs s)).getD s))) := by
  show execBiRsp p line wb s = _
  cases wb <;> simp only [execBiRsp, hsnoop, hinv, if_true, Option.map_some, Option.map_none, Option.getD_some, Option.getD_none]

theorem exec_biRsp_of_data (hdata : f.inv = false) (wb : Option (List Byte)) :
    exec (.biRsp p line wb) s = .next (rescan (forAll f.waiters releaseWaiter
      (copyShared p line ((wb.map (fun bs => storeAt line bs s)).getD s)))) := by
  show execBiRsp p line wb s = _
  cases wb <;>
    simp only [execBiRsp, hsnoop, hdata, Bool.false_eq_true, if_false, Option.map_some, Option.map_none, Option.getD_some,
      Option.getD_none] <;> rfl

theorem exec_biSnpTimeout_of_snooping :
    exec (.biSnpTimeout p line) s = .next (forAll f.waiters (fun o => ownerFails o .target) (snoopGivenUp p line s)) := by
  show execBiSnpTimeout p line s = _
  simp only [execBiSnpTimeout, hsnoop]
  rfl

end

/-- Settles O40: a request waits, asks, is answered or is stored by the four equations of its service. -/
theorem hostManagedMemoryIsServed : Obligations.HostManagedMemoryIsServed := by
  unfold Obligations.HostManagedMemoryIsServed
  refine ⟨?served, ?unserved, ?answered, ?silent⟩
  case served =>
    intro s p win off line hhost hcxl hline hup answer ask first
    refine ⟨fun op excl hop => ?read, fun data => ?write⟩
    case read =>
      rw [exec_hdmRequest_read hhost hcxl hline hup hop]
      exact ⟨fun hhits => congrArg _ (hdmServe_of_hits _ hhits),
        fun hfree hfull => congrArg _ (hdmServe_of_full _ hfree rfl hfull),
        fun hfree hroom hhot => congrArg _ (hdmServe_of_hot _ hfree hroom hhot),
        fun hfree hroom hcold => congrArg _ (hdmServe_of_cold _ hfree hroom hcold)⟩
    case write =>
      rw [exec_hdmRequest_write hhost hcxl hline hup]
      exact ⟨fun hhits => congrArg _ (hdmServe_of_hits _ hhits), fun hfree hhot => congrArg _ (hdmServe_of_hot _ hfree rfl hhot),
        fun hfree hcold => congrArg _ (hdmServe_of_cold _ hfree rfl hcold)⟩
  case unserved =>
    exact fun s p win off op hhost hcxl => ⟨fun hout => exec_hdmRequest_of_outside hhost hcxl hout op,
      fun line hline hdown => exec_hdmRequest_of_home_down hhost hcxl hline hdown op⟩
  case answered => exact fun s p line f wb hsnoop => ⟨(exec_biRsp_of_inv hsnoop · wb), (exec_biRsp_of_data hsnoop · wb)⟩
  case silent => exact fun s p line f hsnoop => ⟨_, exec_biSnpTimeout_of_snooping hsnoop, hcErr_err .., rfl⟩

end Sys2Proof.Machine
end

section
/-! Far-memory ports: their links, their media and the ends of the requests to them (R303 to R306). -/

namespace Sys2Proof.Machine

open Sys2Proof

/-- The link of far-memory port p comes up under a new key; decoder 0 is programmed over an expander that is a single logical
device with HDM-H. -/
def farRaised (p : Nat) (x : Expander) (s : State) : State :=
  when (x.single && x.hdmH) (emit (.far p "HDM_DECODER0" x.bytes)) (modHc p (fun y => { y with
    linkUp := true, cxl := true, rate := 6, width := 16, encKey := true, farOk := x.single && x.hdmH }) (drawKey s))

theorem emit_hc (o : Out) (s : State) (p : Nat) : (emit o s).hc p = s.hc p := rfl

theorem farRaised_hc (p : Nat) (x : Expander) (s : State) :
    (farRaised p x s).hc p =
      { s.hc p with linkUp := true, cxl := true, rate := 6, width := 16, encKey := true, farOk := x.single && x.hdmH } := by
  unfold farRaised when
  split
  · rw [emit_hc, modHc_self]
    rfl
  · rw [modHc_self]
    rfl

theorem farRaised_se (p : Nat) (x : Expander) (s : State) : (farRaised p x s).se = (drawKey s).se := by
  unfold farRaised when
  split <;> rfl

theorem farRaised_out (p : Nat) (x : Expander) (s : State) :
    (farRaised p x s).pin.out = if x.single && x.hdmH then s.pin.out ++ [.far p "HDM_DECODER0" x.bytes] else s.pin.out := by
  unfold farRaised when
  split <;> rfl

/-- The capacity of the expander behind port p, in units of 256 MiB, is known, and its media are ready. -/
def mediaReady (p bytes : Nat) (s : State) : State :=
  modHc p (fun x => { x with capacity := min 16384 (bytes / 2 ^ 28), ready := true }) s

section
variable {s : State} {p : Nat} (hfar : hostMode s p = false)
include hfar

theorem exec_farLinkUp_of_down (hen : (s.hc p).linkEn = true) (hsafe : (s.hc p).safe = false) (hdown : (s.hc p).linkUp = false)
    (htrained : (s.rsh p).trained = true) (x : Expander) :
    exec (.farLinkUp p x) s = .next (if x.isCxl then farRaised p x s else hcErr p 0x200 s) :=
  congrArg _ (if_neg (by simp [hfar, hen, hsafe, hdown, htrained]))

variable (hup : (s.hc p).linkUp = true)
include hup

theorem exec_farMediaReady_of_waiting (hok : (s.hc p).farOk = true) (hwait : (s.hc p).ready = false) (bytes : Nat) :
    exec (.farMediaReady p bytes) s = .next (mediaReady p bytes s) :=
  congrArg _ (if_neg (by simp [hfar, hup, hok, hwait]))

theorem exec_farLinkDown_of_up : exec (.farLinkDown p) s = .next (farLoss p (linkFallen p s)) :=
  congrArg _ ((if_pos (by simp [hfar, hup])).trans (hcDown_of_farMode hfar))

end

section
variable {s : State} {p tag : Nat} {r : Req} (hreq : reqTo s (.far p) tag = some r)
include hreq

theorem exec_farResponse_of_req (ok : Bool) :
    exec (.farResponse p tag ok) s = .next (if ok then ownerAnswered r.owner (dropTag (.far p) tag s)
      else ownerFails r.owner .target (dropTag (.far p) tag s)) := by
  show execFarResponse p tag ok s = _
  simp only [execFarResponse, hreq]

theorem exec_farTimeout_of_req :
    exec (.farTimeout p tag) s =
      .next (ownerFails r.owner .target (countFault (0xA00 + 8 * p + 1) (dropTag (.far p) tag s))) := by
  show execFarTimeout p tag s = _
  simp only [execFarTimeout, hreq]

end

/-- Settles O41: the link's rise and fall, the capacity and each end of a request are their equations. -/
theorem farMemoryComesAndGoes : Obligations.FarMemoryComesAndGoes := by
  unfold Obligations.FarMemoryComesAndGoes
  refine ⟨?rise, ?ready, ?ends, ?fall⟩
  case rise =>
    intro s p single hdmH bytes hfar hen hsafe hdown htrained
    refine ⟨⟨_, exec_farLinkUp_of_down hfar hen hsafe hdown htrained _, ?_⟩,
      exec_farLinkUp_of_down hfar hen hsafe hdown htrained _⟩
    rw [if_pos rfl, farRaised_hc, farRaised_se]
    refine ⟨rfl, rfl, rfl, rfl, fun hmld => (farRaised_out ..).trans (if_pos (by simpa using hmld)),
      fun hmld => (farRaised_out ..).trans (if_neg ?_)⟩
    obtain ⟨-, hdm⟩ := Bool.and_eq_true_iff.1 hmld
    simp [of_decide_eq_true hdm]
  case ready =>
    exact fun s p bytes hfar hup hok hwait => ⟨_, exec_farMediaReady_of_waiting hfar hup hok hwait bytes,
      congrArg HcPort.ready (modHc_self ..), congrArg HcPort.capacity (modHc_self ..)⟩
  case ends =>
    exact fun s p tag r hreq => ⟨exec_farResponse_of_req hreq true, exec_farResponse_of_req hreq false,
      exec_farTimeout_of_req hreq⟩
  case fall =>
    exact fun s p hfar hup => ⟨_, exec_farLinkDown_of_up hfar hup, linkFallen_linkUp p s, linkFallen_trained p s⟩

end Sys2Proof.Machine
end

section
/-! Acdoic links: training, flits, and modules that leave the stripe and rejoin it (R314 to R317, R326). -/

namespace Sys2Proof.Machine

open Sys2Proof

/-! ### Training (R315, R316) -/

theorem acdErr_acd (q : Nat) (bits : BitVec 8) (s : State) :
    (acdErr q bits s).acd q = { s.acd q with err := (s.acd q).err ||| bits } := modAcd_self ..

theorem trainFails_acd (q : Nat) (s : State) :
    (trainFails q s).acd q =
      { s.acd q with training := false, retrain := false, up := false, err := (s.acd q).err ||| 0x20 } := by
  rw [trainFails, acdErr_acd, modAcd_self]

section
variable {s : State} {q : Nat} (htrain : (s.acd q).training = true)
include htrain

theorem exec_dieParams_of_accepted {w0 w1 w2 : W64} (hparams : paramsOk w0.toNat w1.toNat w2.toNat = true)
    (hmodules : 8 ≤ (bitsSet 16 (~~~ (s.acd q).dead).toNat).length) :
    exec (.dieParams q w0 w1 w2) s =
      .next (sendRanges q (placeStore q (modAcd q (trained w0.toNat w1.toNat) s))) := by
  show execDieParams q w0 w1 w2 s = _
  simp only [execDieParams, htrain, hparams, hmodules, Bool.not_true, Bool.false_eq_true, if_false, decide_true, Bool.and_self,
    if_true]

theorem exec_dieParams_of_refused {w0 w1 w2 : W64}
    (hbad : paramsOk w0.toNat w1.toNat w2.toNat = false ∨ (bitsSet 16 (~~~ (s.acd q).dead).toNat).length < 8) :
    exec (.dieParams q w0 w1 w2) s = .next (trainFails q s) := by
  have hrefused : ¬ (paramsOk w0.toNat w1.toNat w2.toNat &&
      decide (8 ≤ (bitsSet 16 (~~~ (s.acd q).dead).toNat).length)) = true := by
    rcases hbad with hparams | hmodules
    · rw [hparams, Bool.false_and]
      exact Bool.false_ne_true
    · rw [decide_eq_false (Nat.not_le.2 hmodules), Bool.and_false]
      exact Bool.false_ne_true
  exact congrArg _ ((if_neg (by simp [htrain])).trans (if_neg hrefused))

theorem exec_acdTrainTimeout_of_training : exec (.acdTrainTimeout q) s = .next (trainFails q s) :=
  congrArg _ (if_pos htrain)

end

/-! ### Flits (R317, R326) -/

/-- A NAK that port q has taken: it replays from the flit after the one acknowledged, and counts the event. -/
def nakTaken (q : Nat) (f : Flit) (s : State) : State :=
  countFault (acdSrc q 2) (acdErr q 0x2 (emit (.acdReplay q (f.ack + 1)) s))

section
variable {s : State} {q : Nat} (hup : (s.acd q).up = true)
include hup

theorem exec_acdFlit_of_in_order {f : Flit} (hcrc : f.crcOk = true) (hseq : f.seq = (s.acd q).rxSeq) :
    exec (.acdFlit q f) s = .next (when f.nak (nakTaken q f) (modAcd q (flitTrailer f) s)) := by
  have hgood : ¬ (!f.crcOk || decide (f.seq ≠ (s.acd q).rxSeq)) = true := by simp [hcrc, hseq]
  exact congrArg _ ((if_neg (by simp [hup])).trans (if_neg hgood))

theorem exec_acdFlit_of_bad {f : Flit} (hbad : f.crcOk = false ∨ f.seq ≠ (s.acd q).rxSeq) :
    exec (.acdFlit q f) s = .next (emit (.acdNak q (s.acd q).rxSeq) s) := by
  have hnak : (!f.crcOk || decide (f.seq ≠ (s.acd q).rxSeq)) = true := by simpa using hbad
  exact congrArg _ ((if_neg (by simp [hup])).trans (if_pos hnak))

theorem exec_acdReplayTimeout_of_up : exec (.acdReplayTimeout q) s = .next (acdFails q s) := congrArg _ (if_pos hup)

end

/-! ### Modules of the stripe (R314) -/

/-- Module m has left port q's stripe, for good unless a redundant lane is left. -/
def moduleOut (q m : Nat) (spareLeft : Bool) (s : State) : State :=
  when (!spareLeft) (acdErr q 0x4) (modAcd q (fun p => { p with
    modules := p.modules &&& ~~~ BitVec.ofNat 16 (2 ^ m)
    dead := if spareLeft then p.dead else p.dead ||| BitVec.ofNat 16 (2 ^ m) }) s)

theorem moduleOut_acd (q m : Nat) (spareLeft : Bool) (s : State) :
    (moduleOut q m spareLeft s).acd q = { s.acd q with
      modules := (s.acd q).modules &&& ~~~ BitVec.ofNat 16 (2 ^ m)
      dead := if spareLeft then (s.acd q).dead else (s.acd q).dead ||| BitVec.ofNat 16 (2 ^ m)
      err := if spareLeft then (s.acd q).err else (s.acd q).err ||| 0x4 } := by
  cases spareLeft with
  | true => simp only [moduleOut, when, Bool.not_true, Bool.false_eq_true, if_false, if_true, modAcd_self]
  | false => simp only [moduleOut, when, Bool.not_false, Bool.false_eq_true, if_false, if_true, acdErr_acd, modAcd_self]

/-- Module m is back in port q's stripe by one more redundant lane. -/
def moduleBack (q m : Nat) (s : State) : State :=
  modAcd q (fun p => { p with
    modules := p.modules ||| BitVec.ofNat 16 (2 ^ m), repaired := tabSet p.repaired m (min 15 (tabGet 0 p.repaired m + 1)) }) s

section
variable {s : State} {q m : Nat} (hup : (s.acd q).up = true)
include hup

theorem exec_acdLaneFailure_of_in_stripe (hin : (s.acd q).modules.getLsbD m = true) (spareLeft : Bool) :
    exec (.acdLaneFailure q m spareLeft) s =
      let v := rennetEvent (acdSrc q 1) false true spareLeft false [] (moduleOut q m spareLeft s)
      .next (when (decide (modulesUp (v.acd q) < 8)) (acdFails q) v) :=
  congrArg _ (if_neg (by simp [hup, hin]))

theorem exec_acdModuleRejoin_of_repairable (hout : (s.acd q).modules.getLsbD m = false) (hdead : (s.acd q).dead.getLsbD m = false)
    (hm : m < 16) : exec (.acdModuleRejoin q m) s = .next (moduleBack q m s) :=
  congrArg _ (if_neg (by rw [hup, hout, hdead, decide_eq_false (Nat.not_le.2 hm)]; exact Bool.false_ne_true))

end

/-- Settles O42: training ends by its two outcomes, a flit is taken or NAKed, and the stripe changes as the modules' equations say. -/
theorem acdoicLinksTrainAndFail : Obligations.AcdoicLinksTrainAndFail := by
  unfold Obligations.AcdoicLinksTrainAndFail
  refine ⟨?training, ?flits, fun s q => exec_acdReplayTimeout_of_up, ?failure, ?rejoin⟩
  case training =>
    intro s q w0 w1 w2 htrain
    rw [trainFails_acd]
    refine ⟨fun hparams hmodules => ⟨_, exec_dieParams_of_accepted htrain hparams hmodules, ?_⟩,
      exec_dieParams_of_refused htrain, exec_acdTrainTimeout_of_training htrain, rfl, rfl, rfl⟩
    rw [modAcd_self]
    exact ⟨rfl, rfl, rfl, rfl, rfl, rfl, rfl⟩
  case flits =>
    intro s q f hup
    refine ⟨fun hcrc hseq => ?_, exec_acdFlit_of_bad hup⟩
    rw [exec_acdFlit_of_in_order hup hcrc hseq]
    exact ⟨fun hnak => by rw [hnak]; rfl, fun hnak => by rw [hnak]; rfl⟩
  case failure =>
    intro s q m spareLeft hup hin bit
    have hacd := moduleOut_acd q m spareLeft s
    exact ⟨moduleOut q m spareLeft s, congrArg AcdPort.modules hacd, congrArg AcdPort.dead hacd, congrArg AcdPort.err hacd,
      exec_acdLaneFailure_of_in_stripe hup hin spareLeft⟩
  case rejoin =>
    exact fun s q m hup hout hdead hm =>
      ⟨_, exec_acdModuleRejoin_of_repairable hup hout hdead hm, congrArg AcdPort.modules (modAcd_self ..)⟩

end Sys2Proof.Machine
end

section
/-! Answers of a compute die: the ends of the requests and of the conditional store that they name, and the release of held requests
(R320, R321, R323, R326, R327). -/

namespace Sys2Proof.Machine

open Sys2Proof

/-! ### Read data and acknowledgements (R320, R321) -/

section
variable {s : State} {q tag : Nat} {k : ReqKind} {r : Req}

theorem acdAnswer_of_req (hreq : acdReq s q tag k = some r) (f : Req → State → State) :
    acdAnswer q tag k f s = f r (dropTag (.acd q) tag s) := by
  simp only [acdAnswer, hreq]

theorem exec_acdRdData_of_req (hreq : acdReq s q tag .read = some r) (poisoned : Bool) :
    exec (.acdRdData q tag poisoned) s = .next (if poisoned then ownerFails r.owner .target (dropTag (.acd q) tag s)
      else ownerAnswered r.owner (dropTag (.acd q) tag s)) := congrArg _ (acdAnswer_of_req hreq _)

theorem exec_acdWrAck_of_req (hreq : acdReq s q tag .write = some r) :
    exec (.acdWrAck q tag) s = .next (ownerAnswered r.owner (dropTag (.acd q) tag s)) := congrArg _ (acdAnswer_of_req hreq _)

theorem exec_atData_of_req (hreq : acdReq s q tag .atomic = some r) :
    exec (.atData q tag) s = .next (ownerAnswered r.owner (dropTag (.acd q) tag s)) := congrArg _ (acdAnswer_of_req hreq _)

end

/-! ### The core's conditional store (R245, R323) -/

theorem dropTag_af (t : Tgt) (tag : Nat) (s : State) : (dropTag t tag s).af = s.af :=
  (dropTag_same (c := 1026) (Same.refl s) (by decide)).part .core (by decide)

theorem coreResv_dropTag (t : Tgt) (tag : Nat) (s : State) (a : Nat) : coreResv (dropTag t tag s) a = coreResv s a := by
  simp only [coreResv, dropTag, dropReqs_wk]

theorem loseResv_mem (p : Nat × Resv → Bool) (s : State) : (loseResv p s).m.mem = s.m.mem :=
  ((loseResv_same (c := 1042) (Same.refl s) (by decide)).part .memory (by decide)).1

theorem loseResv_af (p : Nat × Resv → Bool) (s : State) : (loseResv p s).af = s.af :=
  (loseResv_same (c := 1042) (Same.refl s) (by decide)).part .core (by decide)

theorem storeAt_af (a : Nat) (bs : List Byte) (s : State) : (storeAt a bs s).af = s.af :=
  (storeAt_same (c := 3091) (Same.refl s) (by decide)).part .core (by decide)

/-- Memory after a store is what its bytes leave there; the reservations and cached lines that follow are no memory. -/
theorem storeAt_mem (a : Nat) (bs : List Byte) (s : State) :
    (storeAt a bs s).m.mem = if cellOut s a then s.m.mem else (writeBytes a bs s).m.mem := by
  unfold storeAt
  split
  · rfl
  · exact loseResv_mem _ (writeBytes a bs s)

/-- The core's conditional store c has ended, stored where ok says so, and its reservation is used up. -/
def condEnded (c : Nat × List Byte) (ok : Bool) (s : State) : State :=
  loseResv (fun x => isCoreResv x && overlap c.1 1 x.2.granule 128)
    (when ok (fun t => affPatch c.1 c.2 (storeAt c.1 c.2 t)) { s with af.affCond := none, af.affOk := ok })

theorem condEnded_affCond (c : Nat × List Byte) (ok : Bool) (s : State) : (condEnded c ok s).af.affCond = none := by
  rw [condEnded, loseResv_af]
  cases ok with
  | false => rfl
  | true => exact congrArg AffS.affCond (storeAt_af ..)

theorem condEnded_affOk (c : Nat × List Byte) (ok : Bool) (s : State) : (condEnded c ok s).af.affOk = ok := by
  rw [condEnded, loseResv_af]
  cases ok with
  | false => rfl
  | true => exact congrArg AffS.affOk (storeAt_af ..)

theorem condEnded_mem (c : Nat × List Byte) (ok : Bool) (s : State) :
    (condEnded c ok s).m.mem = (if ok then storeAt c.1 c.2 s else s).m.mem := by
  rw [condEnded, loseResv_mem]
  cases ok with
  | false => rfl
  | true => exact (storeAt_mem ..).trans (storeAt_mem c.1 c.2 s).symm

theorem exec_condAck_of_store {s : State} {q tag : Nat} {r : Req} {c : Nat × List Byte} (hreq : acdReq s q tag .cond = some r)
    (hstore : s.af.affCond = some c) (success : Bool) :
    exec (.condAck q tag success) s =
      .next (condEnded c (success && (coreResv s c.1).isSome) (dropTag (.acd q) tag s)) := by
  refine congrArg _ ((acdAnswer_of_req hreq _).trans ?_)
  have hkept : (dropTag (.acd q) tag s).af.affCond = some c := by rw [dropTag_af, hstore]
  simp only [hkept, coreResv_dropTag]
  rfl

/-! ### Errors (R320, R326) -/

section
variable {s : State} {q tag : Nat}

theorem exec_err_of_request {r : Req} (hreq : reqTo s (.acd q) tag = some r) (k : Nat) :
    exec (.err q false tag k) s = .next (endCond (ownerFails r.owner .target (dropTag (.acd q) tag s))) := by
  show execErr q false tag k s = _
  simp only [execErr, hreq, Bool.false_eq_true, if_false]

theorem exec_err_of_no_request (hreq : reqTo s (.acd q) tag = none) (k : Nat) :
    exec (.err q false tag k) s = .next (acdErr q 0x40 s) := by
  show execErr q false tag k s = _
  simp only [execErr, hreq, Bool.false_eq_true, if_false]

theorem exec_err_of_launch (hlaunch : tabHas (s.acd q).launches tag = true)
    (hopen : (tabGet {} (s.acd q).launches tag).ended = none) (k : Nat) :
    exec (.err q true tag k) s = .next (endLaunch q tag .aborted s) :=
  congrArg _ ((if_pos rfl).trans (if_pos (by rw [hlaunch, hopen]; rfl)))

theorem exec_err_of_no_launch
    (hnone : tabHas (s.acd q).launches tag = false ∨ (tabGet {} (s.acd q).launches tag).ended ≠ none) (k : Nat) :
    exec (.err q true tag k) s = .next (acdErr q 0x40 s) := by
  refine congrArg _ ((if_pos rfl).trans (if_neg ?_))
  rcases hnone with hfree | hended
  · rw [hfree, Bool.false_and]
    exact Bool.false_ne_true
  · rw [Option.isNone_eq_false_iff.2 (Option.isSome_iff_ne_none.2 hended), Bool.and_false]
    exact Bool.false_ne_true

end

/-! ### Held requests (R327) -/

theorem exec_acdRequestRelease_of_held {s : State} {q tag : Nat} {r : Req}
    (hheld : s.lk.reqs.find? (fun r => r.tagged && r.tgt = .acd q && r.tag = tag && !r.sent) = some r) :
    exec (.acdRequestRelease q tag) s =
      .next (if isHot s r.addr then s else modReq (.acd q) tag (fun r => { r with sent := true }) s) := by
  show execAcdRequestRelease q tag s = _
  simp only [execAcdRequestRelease, hheld]

/-- Settles O43: each answer is its equation for the request, the conditional store or the launch that it names. -/
theorem dieAnswersEndRequests : Obligations.DieAnswersEndRequests := by
  unfold Obligations.DieAnswersEndRequests
  refine ⟨?readData, fun s q tag r => exec_acdWrAck_of_req, fun s q tag r => exec_atData_of_req, ?condAck, ?err, ?release⟩
  case readData => exact fun s q tag r hreq => ⟨exec_acdRdData_of_req hreq false, exec_acdRdData_of_req hreq true⟩
  case condAck =>
    exact fun s q tag r c success hreq hstore => ⟨_, exec_condAck_of_store hreq hstore success, condEnded_affCond ..,
      condEnded_affOk .., condEnded_mem ..⟩
  case err =>
    exact fun s q tag k => ⟨fun r hreq => exec_err_of_request hreq k, fun hreq => exec_err_of_no_request hreq k,
      fun hlaunch hopen => exec_err_of_launch hlaunch hopen k, fun hnone => exec_err_of_no_launch hnone k⟩
  case release =>
    intro s q tag r hheld
    rw [exec_acdRequestRelease_of_held hheld]
    exact ⟨fun hcold => by rw [hcold]; rfl, fun hhot => by rw [hhot]; rfl⟩

end Sys2Proof.Machine
end

section
/-! Launches on a compute die: their acceptance, their resends and their ends (R112, R325, R328). -/

namespace Sys2Proof.Machine

open Sys2Proof

/-! ### The end of a launch without FAIL (R112, R325) -/

/-- Launch tag of port q has ended OK, and keeps this end for its entry. -/
def launchKept (q tag : Nat) (s : State) : State := modLaunch q tag (fun l => { l with ended := some .ok }) s

section
variable {s : State} {q tag h : Nat} {i : W32} {e : Entry}

theorem completeLaunch_of_not_started (hphase : e.phase ≠ .started) : completeLaunch q tag h i e s = launchKept q tag s :=
  if_pos hphase

theorem completeLaunch_of_no_fence (hphase : e.phase = .started) (hdst : e.dst = 0) :
    completeLaunch q tag h i e s = endLaunch q tag .ok s := (if_neg (not_not.2 hphase)).trans (if_pos hdst)

/-- The fence is raised; the launch ends with it, or keeps its end while an answer to it is due. -/
theorem completeLaunch_of_fence {ps : List Part} {g : State} (hphase : e.phase = .started) (hdst : e.dst ≠ 0)
    (hgate : gateSeg (.seg h i 0) (s.hoop h).vat [(e.dst.toNat, 8, .atomic)] s = (.go ps, g)) :
    completeLaunch q tag h i e s =
      let u := raiseFence (.seg h i 0) h i e.dst e.fenceVal g
      if waitsFor u (.seg h i 0) then launchKept q tag u else endLaunch q tag .ok u := by
  refine (if_neg (not_not.2 hphase)).trans ((if_neg hdst).trans ?_)
  simp only [hgate]
  rfl

end

/-! ### Notices about a launch (R325, R328) -/

section
variable {s : State} {q tag : Nat} {l : Launch} (hlive : liveLaunch s q tag = some l)
include hlive

theorem exec_accept_of_sent (hsent : l.sent = true) (hnew : l.accepted = false) (retry : Bool) :
    exec (.accept q tag retry) s = .next (modLaunch q tag
      (fun l => if retry then { l with retry := true } else { l with accepted := true, retry := false }) s) := by
  show execAccept q tag retry s = _
  simp only [execAccept, hlive, hsent, hnew, Bool.not_false, Bool.and_self, if_true]

theorem exec_complete_of_failed : exec (.complete q tag true) s = .next (endLaunch q tag .aborted s) := by
  show execComplete q tag true s = _
  simp only [execComplete, hlive, if_true]

theorem exec_complete_of_entry {e : Entry} (hentry : entryOf s l.hoop l.idx = some e) :
    exec (.complete q tag false) s = .next (completeLaunch q tag l.hoop l.idx e s) := by
  show execComplete q tag false s = _
  simp only [execComplete, hlive, hentry, Bool.false_eq_true, if_false]

theorem exec_launchResend_of_retry (hretry : l.retry = true) : exec (.launchResend q tag) s = .next (pushLaunch q tag s) := by
  show execLaunchResend q tag s = _
  simp only [execLaunchResend, hlive, hretry, if_true]

theorem exec_noAccept_of_not_held (hnew : l.accepted = false) (hfree : launchHeld s q l = false) :
    exec (.noAccept q tag) s = .next (countFault (acdSrc q 0) (acdErr q 0x80 s)) := by
  show execNoAccept q tag s = _
  simp only [execNoAccept, hlive, hnew, hfree, Bool.or_self, Bool.false_eq_true, if_false]

theorem exec_launchThermalTimeout_of_held (hnew : l.accepted = false) (hheld : launchHeld s q l = true) :
    exec (.launchThermalTimeout q tag) s = .next (endLaunch q tag .thermalTimeout s) := by
  show execLaunchThermalTimeout q tag s = _
  simp only [execLaunchThermalTimeout, hlive, hnew, hheld, Bool.not_false, Bool.and_self, if_true]

end

/-- Settles O44: each notice is its equation for the live launch, and COMPLETE without FAIL is that of completeLaunch's branch. -/
theorem launchesEnd : Obligations.LaunchesEnd := by
  unfold Obligations.LaunchesEnd
  refine ⟨fun s q tag l hlive hsent hnew => ?accept, fun s q tag l hlive => ?_⟩
  case accept => exact ⟨exec_accept_of_sent hlive hsent hnew false, exec_accept_of_sent hlive hsent hnew true⟩
  refine ⟨exec_complete_of_failed hlive, fun e hentry => ?complete, exec_launchResend_of_retry hlive,
    exec_noAccept_of_not_held hlive, exec_launchThermalTimeout_of_held hlive⟩
  case complete =>
    rw [exec_complete_of_entry hlive hentry]
    refine ⟨fun hphase hdst => congrArg _ (completeLaunch_of_no_fence hphase hdst), fun ps g hphase hdst hgate => ?fence,
      fun hphase => congrArg _ (completeLaunch_of_not_started hphase)⟩
    case fence =>
      rw [completeLaunch_of_fence hphase hdst hgate]
      exact ⟨fun hdone => congrArg _ (if_neg (by simp [hdone])), fun hwaits => congrArg _ (if_pos hwaits)⟩

end Sys2Proof.Machine
end

section
/-! Reports of a compute die: its stacks' rates, its faults, fence hints and claims (R322, R324, R326, R327). -/

namespace Sys2Proof.Machine

open Sys2Proof

/-! ### Claims (R324) -/

/-- Claim ctag of a line is outstanding on port q. -/
def claimed (q ctag line : Nat) (w : Bool) (s : State) : State :=
  modAcd q (fun p => { p with claims := tabSet p.claims ctag { line := line, write := w } }) s

theorem claimed_write (q ctag line : Nat) (w : Bool) (s : State) :
    (tabGet {} ((claimed q ctag line w s).acd q).claims ctag).write = w := by
  rw [claimed, modAcd_self, tabGet_tabSet_self]

theorem tryClaim_of_no_hits {q ctag : Nat} {s : State} (hnone : claimHits s q ctag = []) :
    tryClaim q ctag s = claimGo q ctag false s := if_pos (List.isEmpty_iff.2 hnone)

theorem tryClaim_of_hits {q ctag : Nat} {s : State} (hhits : claimHits s q ctag ≠ []) :
    tryClaim q ctag s =
      askHosts (.claim q ctag) ((claimHits s q ctag).map (·, (tabGet {} (s.acd q).claims ctag).write)) s :=
  if_neg (mt List.isEmpty_iff.1 hhits)

/-! ### The reports of a port that is up -/

/-- Stack of port q has a new rate. -/
def rated (q stack rate : Nat) (s : State) : State :=
  modAcd q (fun p => { p with rates := tabSet p.rates stack (rate % 256) }) s

/-- Tags of port q's launches that wait to be sent. -/
def unsentLaunches (s : State) (q : Nat) : List Nat :=
  ((s.acd q).launches.filter (fun l => l.2.ended.isNone && !l.2.sent)).map (·.1)

theorem unsentLaunches_rated (q stack rate : Nat) (s : State) : unsentLaunches (rated q stack rate s) q = unsentLaunches s q := by
  rw [unsentLaunches, rated, modAcd_self]
  rfl

/-- Port q has counted the fault that a FAULT of less than the port reports. -/
def faultCounted (q : Nat) (s : State) : State := countFault (acdSrc q 3) (acdErr q 0x8 s)

section
variable {s : State} {q : Nat} (hup : (s.acd q).up = true)
include hup

theorem exec_thermal_of_stack {stack : Nat} (hstack : stack < (s.acd q).stackCount) (rate : Nat) :
    exec (.thermal q stack rate) s = .next (serveAgain (forAll (unsentLaunches s q) (pushLaunch q)
      (if rate % 256 = 0xFF then tryEndHold q (rated q stack rate s) else startHold q (rated q stack rate s)))) := by
  refine congrArg _ ((if_neg (by simp [hup, hstack])).trans ?_)
  rw [← unsentLaunches_rated q stack rate s]
  split <;> rfl

theorem exec_fault_launch (tag a k : Nat) :
    exec (.fault q 0 tag a k) s = .next (if (liveLaunch (faultCounted q s) q tag).isSome then
      endLaunch q tag .aborted (faultCounted q s) else faultCounted q s) := congrArg _ (if_neg (by simp [hup]))

theorem exec_fault_request (tag a k : Nat) :
    exec (.fault q 1 tag a k) s = .next (endCond (failReqs (fun r => r.tgt = .acd q && r.sent &&
      overlap (q * 2 ^ 40 + a) 1 r.addr r.len) (fun _ => .target) (faultCounted q s))) := congrArg _ (if_neg (by simp [hup]))

theorem exec_fault_stack (tag a k : Nat) :
    exec (.fault q 2 tag a k) s = .next (endCond (failReqs (fun r => r.tgt = .acd q && r.sent &&
      stackOf (acdErr q 0x8 s) q r.addr = k) (fun _ => .target) (faultCounted q s))) := congrArg _ (if_neg (by simp [hup]))

theorem exec_fault_port (tag a k : Nat) : exec (.fault q 3 tag a k) s = .next (acdFails q (acdErr q 0x8 s)) :=
  congrArg _ (if_neg (by simp [hup]))

theorem exec_fenceHint_of_up (a : Nat) :
    exec (.fenceHint q a) s = .next (forAll (watchersAt s (q * 2 ^ 40 + a) 8) readWatcher s) := congrArg _ (if_pos hup)

theorem exec_claim_of_room {ctag : Nat} (hnew : tabHas (s.acd q).claims ctag = false) (hroom : (s.acd q).claims.length < 256)
    (line : Nat) (w : Bool) : exec (.claim q ctag line w) s = .next (tryClaim q ctag (claimed q ctag line w s)) :=
  congrArg _ (if_neg (by simp [hup, hnew, hroom]))

end

/-- Settles O45: each report is its equation, and a claim goes on by whether a host holds its line. -/
theorem dieReportsTakeEffect : Obligations.DieReportsTakeEffect := by
  unfold Obligations.DieReportsTakeEffect
  refine ⟨?thermal, ?fault, fun s q a hup => exec_fenceHint_of_up hup a, ?claim⟩
  case thermal => exact fun s q stack rate hup hstack => exec_thermal_of_stack hup hstack rate
  case fault =>
    intro s q tag a k hup u v
    rw [exec_fault_launch hup]
    exact ⟨fun hnone => congrArg _ (if_neg (Option.not_isSome_iff_eq_none.2 hnone)), fun hlive => congrArg _ (if_pos hlive),
      exec_fault_request hup tag a k, exec_fault_stack hup tag a k, exec_fault_port hup tag a k⟩
  case claim =>
    intro s q ctag line w hup hnew hroom u
    rw [exec_claim_of_room hup hnew hroom]
    refine ⟨fun hnone => congrArg _ (tryClaim_of_no_hits hnone), fun hhits => congrArg _ ((tryClaim_of_hits hhits).trans ?_)⟩
    rw [show u = claimed q ctag line w s from rfl, claimed_write]

end Sys2Proof.Machine
end

section
/-! The queue and the stops: a step runs the command at the front, no command changes what waits behind it, and only the Affineur
core's own accesses can stop. -/

namespace Sys2Proof.Machine

open Sys2Proof

/-- Settles O1: the queue's head is the command put there. -/
theorem stepRunsTheFrontCommand : Obligations.StepRunsTheFrontCommand := by
  unfold Obligations.StepRunsTheFrontCommand
  exact fun s c => step_of_pending_cons (s := { s with pending := c :: s.pending }) rfl

/-- Settles O5: the queue belongs to no footprint. -/
theorem noCommandTouchesTheQueue : Obligations.NoCommandTouchesTheQueue := by
  unfold Obligations.NoCommandTouchesTheQueue
  exact fun c s t ht => (exec_same c s t ht).pending

theorem byteAt_reset (a : Nat) : byteAt State.reset a = 0 := rfl

/-- Settles O4: memory starts as the empty list of bytes. -/
theorem resetIsSafe : Obligations.ResetIsSafe := by
  unfold Obligations.ResetIsSafe
  exact ⟨⟨List.Pairwise.nil, List.forall_mem_nil _⟩, rfl, byteAt_reset⟩

/-! ### Accesses of the core to an address without a home (log entry 7) -/

theorem ite_next_or_absentAddress {b : Bool} {o : Host.Outcome State Fault Refusal} (ho : ∃ t, o = .next t) :
    (∃ t, (if b then o else .fault .absentAddress) = .next t) ∨
      ((if b then o else .fault .absentAddress) = .fault .absentAddress ∧ b = false) := by
  cases b with
  | false => exact .inr ⟨rfl, rfl⟩
  | true => exact .inl ho

theorem ite_next {p : Prop} [Decidable p] {a b : Host.Outcome State Fault Refusal} (ha : ∃ t, a = .next t)
    (hb : ∃ t, b = .next t) : ∃ t, (if p then a else b) = .next t := by
  split
  · exact ha
  · exact hb

theorem execAffLoad_next_or_absentAddress (a n : Nat) (s : State) : (∃ t, execAffLoad a n s = .next t) ∨
    (execAffLoad a n s = .fault .absentAddress ∧ affPlaced a n = false) :=
  ite_next_or_absentAddress (ite_next ⟨_, rfl⟩ (ite_next ⟨_, rfl⟩ ⟨_, rfl⟩))

theorem execAffStore_next_or_absentAddress (a : Nat) (d : List Byte) (s : State) : (∃ t, execAffStore a d s = .next t) ∨
    (execAffStore a d s = .fault .absentAddress ∧ affPlaced a d.length = false) :=
  ite_next_or_absentAddress (ite_next ⟨_, rfl⟩ ⟨_, rfl⟩)

theorem execAffNtStore_next_or_absentAddress (a : Nat) (d : List Byte) (s : State) : (∃ t, execAffNtStore a d s = .next t) ∨
    (execAffNtStore a d s = .fault .absentAddress ∧ affPlaced a d.length = false) :=
  ite_next_or_absentAddress (ite_next ⟨_, rfl⟩ ⟨_, rfl⟩)

theorem execAffReservedLoad_next_or_absentAddress (a : Nat) (s : State) : (∃ t, execAffReservedLoad a s = .next t) ∨
    (execAffReservedLoad a s = .fault .absentAddress ∧ affPlaced a 1 = false) :=
  ite_next_or_absentAddress (ite_next ⟨_, rfl⟩ (ite_next ⟨_, rfl⟩ ⟨_, rfl⟩))

theorem execAffConditionalStore_next_or_absentAddress (a o : Nat) (d : List Byte) (s : State) :
    (∃ t, execAffConditionalStore a o d s = .next t) ∨
      (execAffConditionalStore a o d s = .fault .absentAddress ∧ affPlaced a 1 = false) :=
  ite_next_or_absentAddress ⟨_, rfl⟩

/-- Settles O7: every meaning but those of the core's five accesses is a next state by its definition. -/
theorem onlyAnAbsentAddressStops : Obligations.OnlyAnAbsentAddressStops := by
  unfold Obligations.OnlyAnAbsentAddressStops
  intro c s
  cases c with
  | affLoad a n =>
    exact (execAffLoad_next_or_absentAddress a n s).imp_right fun ⟨h, hp⟩ => ⟨h, .inl ⟨a, n, rfl, hp⟩⟩
  | affStore a d =>
    exact (execAffStore_next_or_absentAddress a d s).imp_right fun ⟨h, hp⟩ => ⟨h, .inr (.inl ⟨a, d, rfl, hp⟩)⟩
  | affNtStore a d =>
    exact (execAffNtStore_next_or_absentAddress a d s).imp_right fun ⟨h, hp⟩ => ⟨h, .inr (.inr (.inl ⟨a, d, rfl, hp⟩))⟩
  | affReservedLoad a =>
    exact (execAffReservedLoad_next_or_absentAddress a s).imp_right
      fun ⟨h, hp⟩ => ⟨h, .inr (.inr (.inr (.inl ⟨a, rfl, hp⟩)))⟩
  | affConditionalStore a o d =>
    exact (execAffConditionalStore_next_or_absentAddress a o d s).imp_right
      fun ⟨h, hp⟩ => ⟨h, .inr (.inr (.inr (.inr ⟨a, o, d, rfl, hp⟩)))⟩
  | _ => exact .inl ⟨_, rfl⟩

end Sys2Proof.Machine
end

section
/-! Wheels: what CREATE_WHEEL makes and deletes, and what a BIND that passes its checks begins (R414 to R423). -/

namespace Sys2Proof.Machine

open Sys2Proof

/-! ### CREATE_WHEEL (R414) -/

theorem adminState_wheel (s : State) (a w : Nat) : (adminState s a).wheel w = s.wheel w := by
  simp only [State.wheel, adminState_wh]

theorem exec_createWheel_of_wheelCheck {s : State} {a : Nat} {e : Entry} {q : List W64} (h : AdminGot s a 0x87 e q)
    (hmake : bitOf (qw q 0) 16 = false) (hcheck : wheelCheck (adminState s a) a q = none) :
    exec (.createWheel a) s =
      .next (adminEnd a .ok (makeWheel (field (qw q 0) 3 0) (field (qw q 0) 11 8) (adminState s a))) := by
  refine congrArg Host.Outcome.next ((adminRun_of_adminGot h (by rw [hmake]; rfl) _).trans ?_)
  simp only [hcheck]

theorem exec_deleteWheel_of_wheelCheck {s : State} {a : Nat} {e : Entry} {q : List W64} (h : AdminGot s a 0x87 e q)
    (hdelete : bitOf (qw q 0) 16 = true) (hcheck : wheelCheck (adminState s a) a q = none) :
    exec (.deleteWheel a) s = .next (adminEnd a .ok (dropWheel (field (qw q 0) 3 0) (adminState s a))) := by
  refine congrArg Host.Outcome.next ((adminRun_of_adminGot h hdelete _).trans ?_)
  simp only [hcheck]

theorem makeWheel_wheel_self (w m : Nat) (s : State) : (makeWheel w m s).wheel w = { present := true, manager := m } :=
  modWheel_self ..

theorem makeWheel_wheel_other {w x : Nat} (hx : x ≠ w) (m : Nat) (s : State) : (makeWheel w m s).wheel x = s.wheel x :=
  modWheel_other _ _ _ _ hx

theorem dropWheel_wheel_self (w : Nat) (s : State) : (dropWheel w s).wheel w = {} := tabGet_tabDel_self ..

theorem wheel_ne_of_mem_dropWheel_exports {w : Nat} {s : State} {x : Nat × Export} (hx : x ∈ (dropWheel w s).pr.exports) :
    x.2.wheel ≠ w := by
  have hkept := (List.mem_filter.1 hx).2
  simpa [Export.namesWheel] using hkept

theorem wheel_ne_of_mem_dropWheel_colls {w : Nat} {s : State} {x : Nat × Coll} (hx : x ∈ (dropWheel w s).pr.colls) :
    x.2.wheel ≠ w :=
  of_decide_eq_true (List.mem_filter.1 hx).2

/-- Settles O17: between the read of its block and its end, the command makes its wheel or deletes it. -/
theorem wheelCommandsComplete : Obligations.WheelCommandsComplete := by
  unfold Obligations.WheelCommandsComplete
  refine ⟨fun s a e q h hmake hcheck => ?create, fun s a e q h hdelete hcheck => ?delete⟩
  case create =>
    exact ⟨_, exec_createWheel_of_wheelCheck h hmake hcheck, makeWheel_wheel_self .., fun w hw =>
      (makeWheel_wheel_other hw ..).trans (adminState_wheel s a w)⟩
  case delete =>
    exact ⟨_, exec_deleteWheel_of_wheelCheck h hdelete hcheck, congrArg Wheel.present (dropWheel_wheel_self ..),
      fun _ => wheel_ne_of_mem_dropWheel_exports, fun _ => wheel_ne_of_mem_dropWheel_colls⟩

/-! ### BIND (R416 to R423) -/

/-- A BIND of the selected OP that passes every row goes on with its own work. -/
theorem bindRun_of_bindCheck {s : State} {a : Nat} {e : Entry} {q : List W64} (h : AdminGot s a 0x88 e q)
    (hcheck : bindCheck (adminState s a) a q = none) {sel : Nat → Bool} (hsel : sel (bOp q) = true)
    (go : List W64 → State → State) : bindRun a sel go s = go q (adminState s a) := by
  refine (adminRun_of_adminGot h hsel _).trans ?_
  simp only [hcheck]

theorem adminHold_wh (a : Nat) (k : AdminKind) (st : Status) (n : Nat) (s : State) : (adminHold a k st n s).wh = s.wh := by
  unfold adminHold
  split <;> rfl

theorem bindAccept_wh (a : Nat) (q : List W64) (k : AdminKind) (s : State) : (bindAccept a q k s).wh = { s.wh with
    bindBusy := true
    bindWheels := if usesVf (bOp q) then [] else if usesFrom (bOp q) then [bFrom q, bTo q] else [bTo q] } :=
  adminHold_wh ..

/-- A WHEEL_RESET of wheel w has been accepted, and the wheel reads RESETTING. -/
def wheelResetBegun (a w : Nat) (q : List W64) (s : State) : State :=
  modWheel w (fun x => { x with resetting := true }) (bindAccept a q (.wheelReset w) s)

section
variable {s : State} {a : Nat} {e : Entry} {q : List W64} (h : AdminGot s a 0x88 e q)
include h

theorem adminWaits_bindAccept (k : AdminKind) : AdminWaits (bindAccept a q k (adminState s a)) a k := by
  refine adminWaits_adminHold (e := e) ?_ k .ok 0
  exact adminCur_adminState_of_adminGot h

/-- What acceptance of a BIND leaves: it is in progress on its wheels, and its command waits. -/
theorem bindAccept_begins {ws : List Nat} (hws : (if usesVf (bOp q) then [] else if usesFrom (bOp q) then [bFrom q, bTo q]
      else [bTo q]) = ws) (k : AdminKind) :
    (bindAccept a q k (adminState s a)).wh.bindBusy = true ∧ (bindAccept a q k (adminState s a)).wh.bindWheels = ws ∧
      AdminWaits (bindAccept a q k (adminState s a)) a k := by
  rw [bindAccept_wh]
  exact ⟨rfl, hws, adminWaits_bindAccept h k⟩

variable (hcheck : bindCheck (adminState s a) a q = none)
include hcheck

theorem exec_bindMove_of_bindCheck (hop : bOp q = 1) :
    exec (.bindMove a) s = .next (bindAccept a q (.bind q) (adminState s a)) :=
  congrArg Host.Outcome.next (bindRun_of_bindCheck h hcheck (by rw [hop]; rfl) _)

theorem exec_bindVats_of_bindCheck (hop : bOp q = 2) :
    exec (.bindVats a) s = .next (bindAccept a q (.bind q) (adminState s a)) :=
  congrArg Host.Outcome.next (bindRun_of_bindCheck h hcheck (decide_eq_true hop) _)

theorem exec_bindEvqs_of_bindCheck (hop : bOp q = 3) :
    exec (.bindEvqs a) s = .next (bindAccept a q (.bind q) (adminState s a)) :=
  congrArg Host.Outcome.next (bindRun_of_bindCheck h hcheck (decide_eq_true hop) _)

theorem exec_bindShare_of_bindCheck (hop : bOp q = 4) :
    exec (.bindShare a) s = .next (bindAccept a q (.bind q) (adminState s a)) :=
  congrArg Host.Outcome.next (bindRun_of_bindCheck h hcheck (decide_eq_true hop) _)

theorem exec_vfGrant_of_bindCheck (hop : bOp q = 5) :
    exec (.vfGrant a) s = .next (bindAccept a q (.bind q) (adminState s a)) :=
  congrArg Host.Outcome.next (bindRun_of_bindCheck h hcheck (decide_eq_true hop) _)

theorem exec_funcReset_of_bindCheck (hop : bOp q = 6) :
    exec (.funcReset a) s = .next (tearVats (vatsOf s (.vf a (bVf q)))
      (bindAccept a q (.funcReset (.vf a (bVf q))) (adminState s a))) := by
  refine congrArg Host.Outcome.next ((bindRun_of_bindCheck h hcheck (decide_eq_true hop) _).trans ?_)
  simp only [vatsOf, adminState_wk]

theorem exec_wheelReset_of_bindCheck (hop : bOp q = 7) :
    exec (.wheelReset a) s = .next (tearVats (wheelVats s (bTo q)) (wheelResetBegun a (bTo q) q (adminState s a))) := by
  refine congrArg Host.Outcome.next ((bindRun_of_bindCheck h hcheck (decide_eq_true hop) _).trans ?_)
  simp only [wheelVats, adminState_wk]
  rfl

end

/-- Settles O18: an accepted BIND is bindAccept, behind which the two resets begin their teardowns. -/
theorem bindsAreAccepted : Obligations.BindsAreAccepted := by
  unfold Obligations.BindsAreAccepted
  intro s a e q h hcheck
  refine ⟨fun hop => ?move, fun hop => ?vats, fun hop => ?evqs, fun hop => ?share, fun hop => ?grant, fun hop => ?funcReset,
    fun hop => ?wheelReset⟩
  case move => exact ⟨_, exec_bindMove_of_bindCheck h hcheck hop, bindAccept_begins h (by rw [hop]; rfl) _⟩
  case vats => exact ⟨_, exec_bindVats_of_bindCheck h hcheck hop, bindAccept_begins h (by rw [hop]; rfl) _⟩
  case evqs => exact ⟨_, exec_bindEvqs_of_bindCheck h hcheck hop, bindAccept_begins h (by rw [hop]; rfl) _⟩
  case share => exact ⟨_, exec_bindShare_of_bindCheck h hcheck hop, bindAccept_begins h (by rw [hop]; rfl) _⟩
  case grant => exact ⟨_, exec_vfGrant_of_bindCheck h hcheck hop, bindAccept_begins h (by rw [hop]; rfl) _⟩
  case funcReset =>
    obtain ⟨hbusy, -, hwaits⟩ := bindAccept_begins h rfl (.funcReset (.vf a (bVf q)))
    exact ⟨_, exec_funcReset_of_bindCheck h hcheck hop, hbusy, hwaits⟩
  case wheelReset =>
    obtain ⟨hbusy, -, hwaits⟩ := bindAccept_begins h rfl (.wheelReset (bTo q))
    exact ⟨_, exec_wheelReset_of_bindCheck h hcheck hop, hbusy, congrArg Wheel.resetting (modWheel_self ..), hwaits⟩

end Sys2Proof.Machine
end

section
/-! Commands of the device manager and key sessions: CALIBRATE, SELFTEST, KEY_SESSION, FW_UPDATE and FW_ACTIVATE (R357, R358, R396,
R397, R434, R435, R450, R451). -/

namespace Sys2Proof.Machine

open Sys2Proof

/-! ### What an admin command's state and its holding keep -/

theorem adminState_se (s : State) (a : Nat) : (adminState s a).se = s.se :=
  (dropOwner_same (c := 1026) (Same.refl s) (by decide)).part .security (by decide)

theorem adminState_sp (s : State) (a : Nat) : (adminState s a).sp = s.sp :=
  (dropOwner_same (c := 1026) (Same.refl s) (by decide)).part .spares (by decide)

theorem adminState_st (s : State) (a : Nat) : (adminState s a).st = s.st :=
  (dropOwner_same (c := 1026) (Same.refl s) (by decide)).part .store (by decide)

theorem isDevmgr_adminState (s : State) (a : Nat) (f : Fn) : isDevmgr (adminState s a) f = isDevmgr s f := by
  simp only [isDevmgr, adminState_wh]

theorem adminHold_sp (a : Nat) (k : AdminKind) (st : Status) (n : Nat) (s : State) : (adminHold a k st n s).sp = s.sp :=
  (adminHold_same (c := 16) (Same.refl s) (by decide)).part .spares (by decide)

theorem adminHold_st (a : Nat) (k : AdminKind) (st : Status) (n : Nat) (s : State) : (adminHold a k st n s).st = s.st :=
  (adminHold_same (c := 16) (Same.refl s) (by decide)).part .store (by decide)

/-- What the operation does for one member of a list, and what none undoes, holds after all of them. -/
theorem forAll_of_mem {α : Type} {P : State → Prop} {f : α → State → State} {l : List α} {x : α} (hx : x ∈ l)
    (hdoes : ∀ t, P (f x t)) (hkeeps : ∀ y t, P t → P (f y t)) (s : State) : P (forAll l f s) := by
  induction l generalizing s with
  | nil => cases hx
  | cons y l ih =>
    by_cases hl : x ∈ l
    · exact ih hl (f y s)
    · obtain rfl : x = y := (List.mem_cons.1 hx).resolve_right hl
      have hrest : ∀ (r : List α) t, P t → P (forAll r f t) := fun r => by
        induction r with
        | nil => exact fun t ht => ht
        | cons z r ihr => exact fun t ht => ihr (f z t) (hkeeps z t ht)
      exact hrest l _ (hdoes s)

/-! ### CALIBRATE (R357, R358) -/

/-- Port n is calibrating. -/
def portCalibrating (n : Nat) : State → State := modRsh n (fun x => { x with calibrating := true })

theorem portCalibrating_rsh (n m : Nat) (s : State) :
    ((portCalibrating n s).rsh m).calibrating = true ↔ m = n ∨ (s.rsh m).calibrating = true := by
  by_cases hm : m = n
  · subst hm
    simp [portCalibrating]
  · rw [portCalibrating, modRsh_other _ _ _ _ hm]
    simp [hm]

/-- The work of a CALIBRATE that waits for its ports, its results going to address p. -/
def calibrateHeld (a p : Nat) (ports : List Nat) (s : State) : State :=
  modAdmin a (fun x => { x with cur := x.cur.map (fun w => { w with ports := ports, dst := p }) })
    (adminHold a (.calibrate ports) .ok 0 s)

theorem adminWaits_calibrateHeld {s : State} {a : Nat} {e : Entry} (hcur : adminCur s a = some e) (p : Nat) (ports : List Nat) :
    AdminWaits (calibrateHeld a p ports s) a (.calibrate ports) := by
  obtain ⟨w, hw, hkind⟩ := adminWaits_adminHold hcur (.calibrate ports) .ok 0
  exact ⟨{ w with ports := ports, dst := p }, by rw [calibrateHeld, modAdmin_self, hw]; rfl, hkind⟩

theorem exec_calibrate_of_calCheck {s : State} {a : Nat} {e : Entry} {q : List W64} (h : AdminGot s a 0x8F e q)
    (hcheck : calCheck (adminState s a) e q = none) :
    exec (.calibrate a) s =
      .next (forAll (calPorts q) portCalibrating (calibrateHeld a e.dst.toNat (calPorts q) (adminState s a))) := by
  refine congrArg Host.Outcome.next ((adminRun_of_adminGot h rfl _).trans ?_)
  simp only [hcheck]
  rfl

theorem forAll_portCalibrating_admin (l : List Nat) (s : State) (a : Nat) :
    (forAll l portCalibrating s).admin a = s.admin a :=
  forAll_keeps (π := fun t => t.admin a) (f := portCalibrating) (fun _ _ => rfl) l s

/-! ### SELFTEST (R396, R397) -/

theorem moveHoop_sp (u : Unit_) (h : Nat) (s : State) : (moveHoop u h s).sp = s.sp :=
  (moveHoop_same (c := 16) (Same.refl s) (by decide)).part .spares (by decide)

theorem swapLadle_turn (q k new : Nat) (s : State) : (swapLadle q k new s).sp.turn = s.sp.turn :=
  forAll_keeps (π := fun t => t.sp.turn) (fun _ _ => congrArg SpareS.turn (moveHoop_sp ..)) _ _

theorem swapEngine_turn (q k new : Nat) (s : State) : (swapEngine q k new s).sp.turn = s.sp.turn :=
  forAll_keeps (π := fun t => t.sp.turn) (fun _ _ => congrArg SpareS.turn (moveHoop_sp ..)) _ _

theorem dropCellResv_sp (c : Nat) (s : State) : (dropCellResv c s).sp = s.sp :=
  (dropCellResv_same (c := 1042) (Same.refl s) (by decide)).part .spares (by decide)

/-- Whatever spare it takes, a test that starts is the one that runs. -/
theorem startTest_turn (kind q k : Nat) (swap : Bool) (by_ : Option Nat) (s : State) :
    ∃ x, (startTest kind q k swap by_ s).sp.turn = some x ∧ x.kind = kind ∧ x.quad = q ∧ x.index = k ∧ x.selftest = by_ := by
  unfold startTest
  cases swap with
  | false => exact ⟨_, rfl, rfl, rfl, rfl, rfl⟩
  | true =>
    rw [if_neg (by decide)]
    split
    · exact ⟨_, by rw [modSpareQ_sp_turn, dropCellResv_sp], rfl, rfl, rfl, rfl⟩
    · exact ⟨_, by rw [modSpareQ_sp_turn, swapLadle_turn], rfl, rfl, rfl, rfl⟩
    · exact ⟨_, by rw [modSpareQ_sp_turn, swapEngine_turn], rfl, rfl, rfl, rfl⟩
    · exact ⟨_, rfl, rfl, rfl, rfl, rfl⟩
    · exact ⟨_, rfl, rfl, rfl, rfl, rfl⟩

theorem exec_selftest_of_selftestCheck {s : State} {a : Nat} {e : Entry} {q : List W64} {swap : Bool}
    (h : AdminGot s a 0x90 e q) (hmgr : isDevmgr s (adminFn a) = true)
    (hcheck : selftestCheck (adminState s a) e q = .ok swap) (hnone : s.sp.turn = none) :
    exec (.selftest a) s = .next (startTest (stKind q) (stQuad q) (stUnit q) swap (some a)
      (adminHold a .selftest .ok 0 (adminState s a))) := by
  refine congrArg Host.Outcome.next ((adminRun_of_adminGot h rfl _).trans ?_)
  simp only [isDevmgr_adminState, hmgr, hcheck, adminState_sp, hnone]
  rfl

/-! ### KEY_SESSION (R434, R435) -/

theorem ksOut_se (a : Nat) (e : Entry) (num err st : Nat) (reply : List Byte) (s : State) :
    (ksOut a e num err st reply s).se = s.se :=
  (ksOut_same (c := 3) (Same.refl s) (by decide)).part .security (by decide)

theorem num_ne_of_mem_closeMig {n : Nat} {s : State} {x : MigSession} (hx : x ∈ (closeMig n s).se.migs) : x.num ≠ n :=
  of_decide_eq_true (List.mem_filter.1 hx).2

/-- A session that a message takes one step on, or establishes. -/
def MigSession.stepped (est : Bool) (x : MigSession) : MigSession :=
  { x with steps := x.steps + 1, established := x.established || est }

theorem ksTake_of_error {a : Nat} {e : Entry} {m : MigSession} {msg : List Byte} {c : Nat}
    (hstep : Config.spdmStep m.num m.steps msg = .error c) (s : State) :
    ksTake a e m msg s = adminEnd a .cryptoReject (ksOut a e m.num c 2 [] (closeMig m.num s)) := by
  simp only [ksTake, hstep]

theorem ksTake_of_ok {a : Nat} {e : Entry} {m : MigSession} {msg : List Byte} {est : Bool} {reply : List Byte}
    (hstep : Config.spdmStep m.num m.steps msg = .ok (est, reply)) (s : State) :
    ksTake a e m msg s = adminFinish a .ok false (16 + (reply.take 4080).length)
      (ksOut a e m.num 0 (b2n (m.established || est)) reply (modMig m.num (MigSession.stepped est) s)) := by
  simp only [ksTake, hstep]
  rfl

/-- Session m is added and takes a number of its own and a key. -/
def migOpened (m : MigSession) (s : State) : State :=
  drawKey { s with se.migs := s.se.migs ++ [m], se.nextMig := (s.se.nextMig + 1) % 2 ^ 32 }

/-- Where no session has the new one's number, a change of that number changes it alone. -/
theorem modMig_migOpened_migs {s : State} {m : MigSession} (hnew : ∀ x ∈ s.se.migs, x.num ≠ m.num)
    (g : MigSession → MigSession) : (modMig m.num g (migOpened m s)).se.migs = s.se.migs ++ [g m] := by
  have hold : s.se.migs.map (fun x => if x.num = m.num then g x else x) = s.se.migs :=
    (List.map_congr_left fun x hx => if_neg (hnew x hx)).trans (List.map_id _)
  show (s.se.migs ++ [m]).map (fun x => if x.num = m.num then g x else x) = _
  rw [List.map_append, hold, List.map_singleton, if_pos rfl]

section
variable {s : State} {a : Nat} {e : Entry} {q : List W64} (h : AdminGot s a 0x91 e q)
include h

/-- What a KEY_SESSION OPEN that nothing refuses goes on with. -/
theorem exec_keySessionOpen_of_room (hop : ksOp q = 1) (hnames : namesVf (adminState s a) a (ksFn q) = true)
    (hfields : ksFieldsOk e q = true) (hroom : (s.se.migs.filter (fun m => !m.spent)).length < 64) {m : MigSession}
    (hm : m = { num := s.se.nextMig, fn := fnOfId (ksFn q), responder := ksRole q }) :
    exec (.keySessionOpen a) s = .next (if ksRole q then
        ksTake a e m (ksMessage (adminState s a) a e q) (migOpened m (adminState s a))
      else adminFinish a .ok false (16 + ((Config.spdmFirst m.num).take 4080).length)
        (ksOut a e m.num 0 0 (Config.spdmFirst m.num)
          (modMig m.num (fun x => { x with steps := 1 }) (migOpened m (adminState s a))))) := by
  subst hm
  refine congrArg Host.Outcome.next ((adminRun_of_adminGot h (by rw [hop]; rfl) _).trans ?_)
  simp only [hnames, hfields, adminState_se, Nat.not_le.2 hroom, migOpened, Bool.not_true, Bool.false_eq_true, if_false]

theorem exec_keySessionStep_of_ownMig (hop : ksOp q = 2) {m : MigSession} (hown : ownMig s a (ksSession q) = some m)
    (hfields : ksFieldsOk e q = true) :
    exec (.keySessionStep a) s = .next (ksTake a e m (ksMessage (adminState s a) a e q) (adminState s a)) := by
  have hown' : ownMig (adminState s a) a (ksSession q) = some m := by rw [ownMig, adminState_se]; exact hown
  refine congrArg Host.Outcome.next ((adminRun_of_adminGot h (decide_eq_true hop) _).trans ?_)
  simp only [hown', hfields, Bool.not_true, Bool.false_eq_true, if_false]

theorem exec_keySessionClose_of_ownMig (hop : ksOp q = 3) {m : MigSession} (hown : ownMig s a (ksSession q) = some m)
    (hfields : ksFieldsOk e q = true) :
    exec (.keySessionClose a) s =
      .next (adminFinish a .ok false 16 (ksOut a e m.num 0 2 [] (closeMig m.num (adminState s a)))) := by
  have hown' : ownMig (adminState s a) a (ksSession q) = some m := by rw [ownMig, adminState_se]; exact hown
  refine congrArg Host.Outcome.next ((adminRun_of_adminGot h (decide_eq_true hop) _).trans ?_)
  simp only [hown', hfields, Bool.not_true, Bool.false_eq_true, if_false]

end

/-- Settles O22: each command, its checks passed, is the one change that it makes of its ports, its test or its session. -/
theorem testsAndKeySessionsComplete : Obligations.TestsAndKeySessionsComplete := by
  unfold Obligations.TestsAndKeySessionsComplete
  refine ⟨fun s a e q h hcheck => ?calibrate, fun s a e q swap h hmgr hcheck hnone => ?selftest, fun s a e q h => ?sessionOpen,
    fun s a e q m h => ?sessionStep, fun s a e q m h hop hown hfields => ?sessionClose⟩
  case calibrate =>
    refine ⟨_, exec_calibrate_of_calCheck h hcheck, ?_, fun n hn => ?_⟩
    · obtain ⟨w, hw, hkind⟩ := adminWaits_calibrateHeld (adminCur_adminState_of_adminGot h) e.dst.toNat (calPorts q)
      exact ⟨w, by rw [forAll_portCalibrating_admin, hw], hkind⟩
    · exact forAll_of_mem hn (fun t => (portCalibrating_rsh n n t).2 (.inl rfl))
        (fun m t ht => (portCalibrating_rsh m n t).2 (.inr ht)) _
  case selftest =>
    exact ⟨_, exec_selftest_of_selftestCheck h hmgr hcheck hnone, adminWaits_adminHold (adminCur_adminState_of_adminGot h) ..,
      (adminHold_sp ..).trans (adminState_sp s a), startTest_turn ..⟩
  case sessionOpen =>
    intro u hop hnames hfields hroom hnew m v
    have hexec := exec_keySessionOpen_of_room (m := m) h hop hnames hfields hroom rfl
    have hv : v = migOpened m u := by simp only [v, migOpened, u, adminState_se]
    refine ⟨fun hrole => ?_, fun hrole => ?_⟩
    · refine ⟨_, by rw [hexec, if_neg (by simp [hrole])], ?_⟩
      have hnew' : ∀ x ∈ u.se.migs, x.num ≠ m.num := by rw [adminState_se]; exact hnew
      rw [ksOut_se, modMig_migOpened_migs hnew', adminState_se]
    · rw [hexec, if_pos hrole, hv]
  case sessionStep =>
    intro u hop hown hfields
    have hexec := exec_keySessionStep_of_ownMig h hop hown hfields
    split
    next c hstep =>
      exact ⟨_, by rw [hexec, ksTake_of_error hstep], fun x hx => num_ne_of_mem_closeMig (by rwa [ksOut_se] at hx)⟩
    next est reply hstep =>
      refine ⟨_, by rw [hexec, ksTake_of_ok hstep], ?_⟩
      rw [ksOut_se, modMig, adminState_se]
      rfl
  case sessionClose =>
    exact ⟨_, exec_keySessionClose_of_ownMig h hop hown hfields,
      fun x hx => num_ne_of_mem_closeMig (by rwa [ksOut_se] at hx)⟩

/-! ### FW_UPDATE and FW_ACTIVATE (R450, R451) -/

/-- The inactive slot holds image img, whose activation is pending. -/
def fwWritten (img : List Byte) (s : State) : State :=
  modFwSlot (fwOther s) (fun _ => { digest := sha384 img, svn := Config.fwSvnOf img, valid := true })
    { s with st.fwPending := true }

theorem fwWritten_fwSlot (img : List Byte) (s : State) :
    (fwWritten img s).fwSlot (fwOther s) = { digest := sha384 img, svn := Config.fwSvnOf img, valid := true } :=
  modFwSlot_self ..

theorem fwOther_adminState (s : State) (a : Nat) : fwOther (adminState s a) = fwOther s := by
  simp only [fwOther, adminState_st]

theorem fwOk_adminState (s : State) (a : Nat) (img : List Byte) : fwOk (adminState s a) img = fwOk s img := by
  simp only [fwOk, adminState_st]

theorem fwSlot_adminState (s : State) (a k : Nat) : (adminState s a).fwSlot k = s.fwSlot k := by
  simp only [State.fwSlot, adminState_st]

section
variable {s : State} {a : Nat} {e : Entry} {q : List W64} (h : AdminGot s a 0x92 e q)
  (hearly : fwEarly (adminState s a) a e q = none) (hread : inputOk (adminState s a) a (fwAddr q) (fwBytes q) = true)
include h hearly hread

theorem exec_fwUpdate_of_unwritten :
    exec (.fwUpdate a false) s = .next (adminEnd a .busy (fwAbandon (adminState s a))) := by
  refine congrArg Host.Outcome.next ((adminRun_of_adminGot h rfl _).trans ?_)
  simp only [hearly, hread, Bool.not_true, Bool.false_eq_true, if_false, Bool.not_false, if_true]

theorem exec_fwUpdate_of_bad {img : List Byte} (himg : img = readBytes (adminState s a) (hostLoc a (fwAddr q)) (fwBytes q))
    (hbad : fwOk s img = false) :
    exec (.fwUpdate a true) s = .next (adminEnd a .cryptoReject (fwAbandon (adminState s a))) := by
  refine congrArg Host.Outcome.next ((adminRun_of_adminGot h rfl _).trans ?_)
  simp only [hearly, hread, ← himg, fwOk_adminState, hbad, Bool.not_true, Bool.false_eq_true, if_false, Bool.not_false, if_true]

theorem exec_fwUpdate_of_good {img : List Byte} (himg : img = readBytes (adminState s a) (hostLoc a (fwAddr q)) (fwBytes q))
    (hgood : fwOk s img = true) :
    exec (.fwUpdate a true) s = .next (adminHold a .fwUpdate .ok 0 (fwWritten img (adminState s a))) := by
  refine congrArg Host.Outcome.next ((adminRun_of_adminGot h rfl _).trans ?_)
  simp only [hearly, hread, ← himg, fwOk_adminState, hgood, Bool.not_true, Bool.false_eq_true, if_false]
  rfl

end

/-- An FW_ACTIVATE that may change over: the standbys stand by, and the image in the inactive slot is valid and no older than the
stored SVN. -/
structure FwReady (s : State) : Prop where
  pending : s.st.fwPending = true
  core : s.sp.affStandby = true
  engine : s.sp.secStandby = true
  valid : (s.fwSlot (fwOther s)).valid = true
  current : s.st.fwSvn ≤ (s.fwSlot (fwOther s)).svn

theorem exec_fwActivate_of_ready {s : State} {a : Nat} {e : Entry} {q : List W64} (h : AdminGot s a 0x93 e q)
    (hmgr : isDevmgr s (adminFn a) = true) (hready : FwReady s) :
    exec (.fwActivate a) s = .next (adminHold a .fwActivate .ok 0 (adminState s a)) := by
  obtain ⟨hpending, hcore, hengine, hvalid, hcurrent⟩ := hready
  refine congrArg Host.Outcome.next ((adminRun_of_adminGot h rfl _).trans ?_)
  simp only [isDevmgr_adminState, hmgr, fwOther_adminState, fwSlot_adminState, adminState_st, adminState_sp, hpending, hcore,
    hengine, hvalid, Nat.not_lt.2 hcurrent]
  rfl

/-- Settles O23: an update writes the inactive slot or abandons it, and an activation waits. -/
theorem firmwareCommandsComplete : Obligations.FirmwareCommandsComplete := by
  unfold Obligations.FirmwareCommandsComplete
  refine ⟨fun s a e q h => ?update, fun s a e q h hmgr hpending hcore hengine hvalid hcurrent => ?activate⟩
  case update =>
    intro u hearly hread img
    refine ⟨fun hgood => ?_, fun hbad => ⟨_, exec_fwUpdate_of_bad h hearly hread rfl hbad, rfl⟩,
      ⟨_, exec_fwUpdate_of_unwritten h hearly hread, rfl⟩⟩
    refine ⟨_, exec_fwUpdate_of_good h hearly hread rfl hgood, ?_, ?_, ?_⟩
    · rw [adminHold_st]
      rfl
    · rw [State.fwSlot, adminHold_st, ← fwOther_adminState s a]
      exact fwWritten_fwSlot ..
    · refine adminWaits_adminHold (e := e) ?_ .fwUpdate .ok 0
      exact adminCur_adminState_of_adminGot h
  case activate =>
    exact ⟨_, exec_fwActivate_of_ready h hmgr ⟨hpending, hcore, hengine, hvalid, hcurrent⟩,
      adminWaits_adminHold (adminCur_adminState_of_adminGot h) .., (adminHold_st ..).trans (adminState_st s a)⟩

end Sys2Proof.Machine
end

section
/-! The security engine's answers, migration sessions, supplies, trips and the time base (R18, R398, R428 to R439, R478, R487, R488). -/

namespace Sys2Proof.Machine

open Sys2Proof

/-! ### Measurements (R436 to R438) -/

/-- Blocks 0 and 32 to 255 do not exist for any requester. -/
theorem range_of_mayMeasure {s : State} {ch : SpdmCh} {k : Nat} (h : mayMeasure s ch k = true) : 1 ≤ k ∧ k < 32 := by
  simp only [mayMeasure, Bool.or_eq_true, Bool.and_eq_true, decide_eq_true_eq] at h
  rcases h with hdevice | hwheel
  · omega
  · obtain ⟨⟨⟨hlow, hhigh⟩, -⟩, -⟩ := hwheel
    omega

section
variable {s : State} {ch : SpdmCh} (hopen : chOpen s ch = true)
include hopen

theorem exec_getMeasurements_number : exec (.getMeasurements ch 0) s =
    .next (emit (.spdm ch "MEASUREMENTS" (natLe 1 ((List.range 32).filter (mayMeasure s ch)).length)) s) := by
  show execGetMeasurements ch 0 s = _
  simp [execGetMeasurements, hopen]

theorem exec_getMeasurements_block {k : Nat} (hmay : mayMeasure s ch k = true) (hfree : measBusy s k = false) :
    exec (.getMeasurements ch k) s = .next (emit (.spdm ch "MEASUREMENTS" (measBlock s k)) s) := by
  obtain ⟨hlow, hhigh⟩ := range_of_mayMeasure hmay
  have hne : k ≠ 0 := by omega
  have hall : k ≠ 0xFF := by omega
  show execGetMeasurements ch k s = _
  simp [execGetMeasurements, hopen, hne, hall, hmay, hfree]

/-! ### Sessions of a channel (R432, R439) -/

theorem exec_spdmRequest_of_open (code : SpdmCode) : exec (.spdmRequest ch code) s = .next (spdmServe ch code s) := by
  show execSpdmRequest ch code s = _
  rw [execSpdmRequest, if_pos hopen]

section
variable (hneg : (spdmOf s ch).negotiated = true) (hsec : (spdmOf s ch).secured = false) {pt : EcPoint}
include hneg hsec

theorem exec_keyExchange_of_bad {c : Nat} (hbad : pointError pt = some c) :
    exec (.keyExchange ch pt) s = .next (emit (.spdmError ch c) s) := by
  show execKeyExchange ch pt s = _
  simp only [execKeyExchange, hopen, hneg, hsec, hbad, Bool.not_true, Bool.false_eq_true, if_false]

theorem exec_keyExchange_of_good (hgood : pointError pt = none) : exec (.keyExchange ch pt) s =
    .next (spdmAnswer ch "KEY_EXCHANGE_RSP" 0xE4 (modSpdm ch (fun x => { x with keyed := true }) (drawKey s))) := by
  show execKeyExchange ch pt s = _
  simp only [execKeyExchange, hopen, hneg, hsec, hgood, Bool.not_true, Bool.false_eq_true, if_false]

end

end

theorem spdmOf_spdmAnswer_modSpdm (ch : SpdmCh) (what : String) (k : Nat) (g : SpdmSess → SpdmSess) (s : State) :
    spdmOf (spdmAnswer ch what k (modSpdm ch g s)) ch = g (spdmOf s ch) := tabGet_tabSet_self ..

theorem spdmServe_finish_of_keyed {s : State} {ch : SpdmCh} (hkeyed : (spdmOf s ch).keyed = true) :
    spdmServe ch (.finish true) s =
      spdmAnswer ch "FINISH_RSP" 0xE5 (modSpdm ch (fun x => { x with keyed := false, secured := true, updates := 0 }) s) := by
  simp only [spdmServe, hkeyed, Bool.not_true, Bool.false_eq_true, if_false, if_true]

/-! ### MCTP (R428) -/

/-- The two readings of island i's sensors have been sent. -/
def sensorsSent (i : Nat) (s : State) : State :=
  takeFree 2 (emit (.sensor i 1 (Config.freeNat (s.m.free + 1))) (emit (.sensor i 0 (Config.freeNat s.m.free)) s))

theorem exec_mctpMessage_sensor {i : Nat} (hi : i < 60) (s : State) :
    exec (.mctpMessage (.sensor i)) s = .next (sensorsSent i s) := by
  show execMctpMessage (.sensor i) s = _
  simp only [execMctpMessage, if_pos hi, sensorsSent]

theorem sensorsSent_out (i : Nat) (s : State) : (sensorsSent i s).pin.out = s.pin.out ++
    [.sensor i 0 (Config.freeNat s.m.free), .sensor i 1 (Config.freeNat (s.m.free + 1))] :=
  List.append_assoc ..

/-- Settles O38: on an open channel each request is its answer, and MCTP is always open. -/
theorem theResponderAnswers : Obligations.TheResponderAnswers := by
  unfold Obligations.TheResponderAnswers
  refine ⟨fun s ch hopen => exec_getMeasurements_number hopen, fun s ch k hopen => exec_getMeasurements_block hopen,
    fun s ch pt hopen hneg hsec => ?keyExchange, fun s ch hopen => ⟨?version, ?algorithms, fun hkeyed => ?finish⟩,
    fun s => rfl, fun s i hi => ⟨_, exec_mctpMessage_sensor hi s, sensorsSent_out i s⟩, fun s c => rfl⟩
  case keyExchange =>
    exact ⟨fun c => exec_keyExchange_of_bad hopen hneg hsec, fun hgood =>
      ⟨_, exec_keyExchange_of_good hopen hneg hsec hgood, congrArg SpdmSess.keyed (spdmOf_spdmAnswer_modSpdm ..), rfl⟩⟩
  case version => exact exec_spdmRequest_of_open hopen _
  case algorithms =>
    exact ⟨_, exec_spdmRequest_of_open hopen _, congrArg SpdmSess.negotiated (spdmOf_spdmAnswer_modSpdm ..)⟩
  case finish =>
    refine ⟨_, exec_spdmRequest_of_open hopen _, ?_⟩
    rw [spdmServe_finish_of_keyed hkeyed, spdmOf_spdmAnswer_modSpdm]

/-! ### Conditions behind sources: rails, temperature, power (R398, R478, R488) -/

theorem conditionOff_cause (x : Nat) (s : State) : ((conditionOff x s).rsrc x).cause = false :=
  congrArg Rsrc.cause (modRsrc_self ..)

theorem exec_logicRailLow_of_range {s : State} (h : s.st.logicLow = false) :
    exec .logicRailLow s = .next (conditionOn 0x0F0 { s with st.logicLow := true }) := by
  show execLogicRailLow s = _
  simp [execLogicRailLow, h]

theorem exec_photRailLow_of_range {s : State} (h : s.st.photLow = false) :
    exec .photRailLow s = .next (conditionOn 0x0F1 { s with st.photLow := true }) := by
  show execPhotRailLow s = _
  simp [execPhotRailLow, h]

theorem exec_rail18Low_of_range {s : State} (h : s.st.mramBlocked = false) :
    exec .rail18Low s =
      .next (conditionOn 0x0F2 { s with st.mramBlocked := true, st.blocks := min 65535 (s.st.blocks + 1) }) := by
  show execRail18Low s = _
  simp [execRail18Low, h]

theorem exec_thermTrip_of_cool {s : State} (h : s.pin.thermTrip = false) :
    exec .thermTrip s = .next (setLsrEn (conditionOn 0x0F8 { s with pin.thermTrip := true })) := by
  show execThermTrip s = _
  simp [execThermTrip, h]

theorem exec_coreRailLoss_of_powered {s : State} (hrest : s.tm.boot ≠ .deepRest) (hwake : s.tm.boot ≠ .deepWake) :
    exec .coreRailLoss s = .next (coldDomain s) := by
  show execCoreRailLoss s = _
  simp [execCoreRailLoss, hrest, hwake]

theorem exec_coreRailLoss_of_deep {s : State} (h : s.tm.boot = .deepRest ∨ s.tm.boot = .deepWake) :
    exec .coreRailLoss s = .next s := by
  show execCoreRailLoss s = _
  simp [execCoreRailLoss, h]

/-! ### Time and sessions (R18, R434) -/

/-- Island i's copy of DEVICE_TIME takes time x. -/
def islandAligned (x : Nat) (i : Nat) : State → State := modIsland i (fun y => { y with time := x })

theorem islandAligned_time_self (x : Nat) (i : Nat) (s : State) : ((islandAligned x i s).island i).time = x :=
  congrArg Island.time (modIsland_self ..)

theorem islandAligned_time_of_aligned {x i : Nat} {s : State} (h : (s.island i).time = x) (j : Nat) :
    ((islandAligned x j s).island i).time = x := by
  by_cases hij : i = j
  · subst hij
    exact islandAligned_time_self x i s
  · rw [islandAligned, modIsland_other _ _ _ _ hij, h]

theorem exec_timeRealign_of_timeKnown {s : State} (h : s.tm.timeKnown = true) :
    exec .timeRealign s = .next (forAll (List.range 60) (islandAligned s.tm.deviceTime) s) := by
  show execTimeRealign s = _
  rw [execTimeRealign, if_pos h]
  rfl

theorem exec_migSessionExpiry (n : Nat) (s : State) :
    exec (.migSessionExpiry n) s = .next (modMig n (fun m => if m.established then { m with spent := true } else m) s) := rfl

theorem mem_modMig_migs {s : State} {m : MigSession} (hm : m ∈ s.se.migs) (g : MigSession → MigSession) :
    g m ∈ (modMig m.num g s).se.migs :=
  List.mem_map.2 ⟨m, hm, if_pos rfl⟩

/-- Settles O52: each event is the one change of the state that its rule gives. -/
theorem suppliesAndTimersTakeEffect : Obligations.SuppliesAndTimersTakeEffect := by
  unfold Obligations.SuppliesAndTimersTakeEffect
  refine ⟨fun s => exec_logicRailLow_of_range, fun s => exec_photRailLow_of_range, fun s => exec_rail18Low_of_range,
    fun s => ⟨rfl, rfl, rfl, rfl, fun x => conditionOff_cause x s⟩, fun s => exec_thermTrip_of_cool,
    fun s => exec_coreRailLoss_of_powered, fun s => exec_coreRailLoss_of_deep, fun s => ⟨_, rfl, rfl, rfl, rfl, rfl, rfl⟩,
    fun s hknown => ⟨_, exec_timeRealign_of_timeKnown hknown, fun i hi => ?realign⟩, fun s mw => rfl, fun s o a => rfl,
    fun s => rfl, fun s m hm hest => ⟨_, exec_migSessionExpiry .., ?expiry⟩, fun s n => ⟨rfl, rfl, rfl, rfl, rfl⟩⟩
  case realign =>
    exact forAll_of_mem (P := fun t => (t.island i).time = s.tm.deviceTime) (List.mem_range.2 hi)
      (fun t => islandAligned_time_self ..) (fun j t ht => islandAligned_time_of_aligned ht j) s
  case expiry =>
    have hspent := mem_modMig_migs hm (fun m => if m.established then { m with spent := true } else m)
    rwa [if_pos hest] at hspent

end Sys2Proof.Machine
end

section
/-! Rennet's commands: counted events, windows, gates, MRAM writes, turning tests and calibration results (R359, R381, R390, R394,
R398, R402, R446). -/

namespace Sys2Proof.Machine

open Sys2Proof

/-! ### Sources and gates (R381, R389, R390) -/

section
variable {s : State} {src : Nat} {unc : Bool} (hexists : srcExists src = true)
include hexists

theorem exec_sourceEvent_counted (h : isSramSrc src = true → unc = false → 4 ≤ tabGet 0 s.sp.sramRows src) (alive : Bool)
    (lost : List Nat) : exec (.sourceEvent src ⟨unc, lost⟩ alive) s = .next (rennetEvent src unc alive alive false lost s) := by
  have hno : ¬ ((isSramSrc src && !unc && decide (tabGet 0 s.sp.sramRows src < 4)) = true) := by
    simpa using h
  show execSourceEvent src ⟨unc, lost⟩ alive s = _
  rw [execSourceEvent, if_neg (by simp [hexists]), if_neg hno]

theorem exec_sourceEvent_spareRow (hsram : isSramSrc src = true) (hcorrected : unc = false)
    (hspare : tabGet 0 s.sp.sramRows src < 4) (alive : Bool) (lost : List Nat) :
    exec (.sourceEvent src ⟨unc, lost⟩ alive) s =
      .next { s with sp.sramRows := tabSet s.sp.sramRows src (tabGet 0 s.sp.sramRows src + 1) } := by
  show execSourceEvent src ⟨unc, lost⟩ alive s = _
  rw [execSourceEvent, if_neg (by simp [hexists]), if_pos (by simp [hsram, hcorrected, hspare])]

end

theorem exec_windowExpiry_of_below {s : State} {src : Nat} (hsevere : (s.rsrc src).severe = false)
    (hbelow : (s.rsrc src).count < threshOf s src) :
    exec (.windowExpiry src) s = .next (modRsrc src (fun q => { q with count := 0 }) s) := by
  show execWindowExpiry src s = _
  rw [execWindowExpiry, if_neg (by simp [hsevere, hbelow])]

theorem exec_windowExpiry_of_severe_or_reached {s : State} {src : Nat}
    (h : (s.rsrc src).severe = true ∨ threshOf s src ≤ (s.rsrc src).count) : exec (.windowExpiry src) s = .next s := by
  show execWindowExpiry src s = _
  rw [execWindowExpiry, if_pos (by simpa using h)]

theorem exec_writeGateClosed_of_closing {s : State} {u : Unit_} (hgate : u ∈ s.rn.gates) (hopen : u ∉ s.rn.gatesClosed) :
    exec (.writeGateClosed u) s = .next { s with rn.gatesClosed := s.rn.gatesClosed ++ [u] } := by
  show execWriteGateClosed u s = _
  rw [execWriteGateClosed, if_pos (by simp [hgate, hopen])]

/-! ### MRAM writes (R398, R402, R446) -/

theorem mramWrite_of_blocked {s : State} (h : s.st.mramBlocked = true) (j : MramJob) :
    mramWrite j s = { s with st.mramWaits := s.st.mramWaits ++ [j] } := by
  rw [mramWrite, if_pos h]

theorem mramWrite_of_free {s : State} (h : s.st.mramBlocked = false) (j : MramJob) : mramWrite j s = mramDo j s := by
  rw [mramWrite, if_neg (by simp [h])]

theorem logCommit_logPending {s : State} {r : LogRec} {rest : List LogRec} (h : s.st.logPending = r :: rest) :
    (logCommit s).st.logPending = rest := by
  simp only [logCommit, h]

theorem logCommit_log_of_room {s : State} {r : LogRec} {rest : List LogRec} (h : s.st.logPending = r :: rest)
    (hroom : s.st.log.length < 16384) :
    (logCommit s).st.log = s.st.log ++ [{ r with seq := (newestSeq s + 1) % 2 ^ 32 }] := by
  have hnone : (s.st.log ++ [{ r with seq := (newestSeq s + 1) % 2 ^ 32 }]).length - 16384 = 0 := by
    rw [List.length_append, List.length_singleton]
    omega
  simp only [logCommit, h, hnone, List.drop_zero]

section
variable {s : State} (hpending : s.st.logPending ≠ []) (hnotWaiting : MramJob.log ∉ s.st.mramWaits)
include hpending hnotWaiting

theorem exec_logRecordWrite_of_blocked (hblocked : s.st.mramBlocked = true) (ok : Bool) :
    exec (.logRecordWrite ok) s = .next { s with st.mramWaits := s.st.mramWaits ++ [.log] } := by
  show execLogRecordWrite ok s = _
  rw [execLogRecordWrite, if_neg (by simp [hpending, hnotWaiting]), if_pos (by simp [hblocked]), mramWrite_of_blocked hblocked]

theorem exec_logRecordWrite_of_verified (hfree : s.st.mramBlocked = false) :
    exec (.logRecordWrite true) s = .next (logCommit s) := by
  show execLogRecordWrite true s = _
  rw [execLogRecordWrite, if_neg (by simp [hpending, hnotWaiting]), if_pos (by simp), mramWrite_of_free hfree, mramDo]

theorem exec_logRecordWrite_of_lost (hfree : s.st.mramBlocked = false) (hnone : s.sp.mramSpare = 0) :
    exec (.logRecordWrite false) s = .next (severeFault 0x0F3 (logLose s)) := by
  show execLogRecordWrite false s = _
  rw [execLogRecordWrite, if_neg (by simp [hpending, hnotWaiting]), if_neg (by simp [hfree]), if_pos hnone]

/-- A bad sector is remapped: its event takes the spare where the reaction to it has not. -/
theorem exec_logRecordWrite_of_remapped (hfree : s.st.mramBlocked = false) (hspare : s.sp.mramSpare ≠ 0) {u : State}
    (hu : u = countFault 0x0F3 (logCommit s)) :
    exec (.logRecordWrite false) s = .next (if u.sp.mramSpare = s.sp.mramSpare then
      { u with sp.mramSpare := u.sp.mramSpare - 1 } else u) := by
  subst hu
  show execLogRecordWrite false s = _
  rw [execLogRecordWrite, if_neg (by simp [hpending, hnotWaiting]), if_neg (by simp [hfree]), if_neg hspare]

end

theorem exec_mramWriteWaitTimeout_of_cons {s : State} {j : MramJob} {r : List MramJob} (h : s.st.mramWaits = j :: r) :
    exec .mramWriteWaitTimeout s = .next (mramFail j { s with st.mramWaits := r }) := by
  show execMramWriteWaitTimeout s = _
  simp only [execMramWriteWaitTimeout, h]

theorem exec_portConfigCommit_of_dirty {s : State} (hdirty : s.st.cfgDirty = true)
    (hnotWaiting : MramJob.cfg ∉ s.st.mramWaits) : exec .portConfigCommit s = .next (mramWrite .cfg s) := by
  show execPortConfigCommit s = _
  rw [execPortConfigCommit, if_pos (by simp [hdirty, hnotWaiting])]

/-- No record of port n waits to be written. -/
def NoCalWaits (s : State) (n : Nat) : Prop := ∀ m x, MramJob.cal m x ∈ s.st.mramWaits → m ≠ n

/-- The result of a port that a CALIBRATE still has to do, and whose record does not wait already, is taken. -/
theorem exec_portCalibrationDone_of_calWork {s : State} {n : Nat} {w : Nat × List Nat × Nat} (hwork : calWork s n = some w)
    (hnoWait : NoCalWaits s n) (result ms : Nat) :
    exec (.portCalibrationDone n result ms) s =
      .next (if result = 0 then mramWrite (.cal n ms) s else calDone n result ms s) := by
  have hnone : s.st.mramWaits.any (fun j => match j with | .cal m _ => m = n | _ => false) = false := by
    rw [List.any_eq_false]
    rintro (⟨m, x⟩ | _ | _) hj
    · simpa using hnoWait m x hj
    · exact Bool.false_ne_true
    · exact Bool.false_ne_true
  show execPortCalibrationDone n result ms s = _
  rw [execPortCalibrationDone, if_neg]
  rw [Bool.or_eq_true, not_or]
  exact ⟨by simp [hwork], ne_true_of_eq_false hnone⟩

/-! ### Turning (R394 to R397) -/

theorem exec_turnDue_of_starts {s : State} {kind q k : Nat} (hon : s.sp.turnEn = true) (hnone : s.sp.turn = none)
    (hunit : turnUnit s kind q = some k) : exec (.turnDue kind q) s = .next (runTurn kind q k s) := by
  show execTurnDue kind q s = _
  simp only [execTurnDue, hon, hnone, hunit, Bool.not_true, Bool.false_eq_true, if_false]

theorem exec_turnDue_of_deferred {s : State} {kind q : Nat} (hon : s.sp.turnEn = true)
    (hbusy : s.sp.turn ≠ none ∨ turnUnit s kind q = none) (hnew : (kind, q) ∉ s.sp.deferred) :
    exec (.turnDue kind q) s = .next { s with sp.deferred := s.sp.deferred ++ [(kind, q)] } := by
  show execTurnDue kind q s = _
  rw [execTurnDue, if_neg (by simp [hon])]
  split
  next k hnone hunit =>
    rcases hbusy with hturn | hnoUnit
    · exact absurd hnone hturn
    · cases hnoUnit.symm.trans hunit
  next => rw [if_neg (by simpa using hnew)]

theorem exec_turnTestDone_of_turn {s : State} {t : Turn} (hturn : s.sp.turn = some t) (pass : Bool) :
    exec (.turnTestDone pass) s = .next (endTest t pass (when (!pass) (failedTest (testSource s t)) s)) := by
  show execTurnTestDone pass s = _
  simp only [execTurnTestDone, hturn]

/-- Settles O51: each event is taken by the one branch that its case selects. -/
theorem rennetEventsAreCounted : Obligations.RennetEventsAreCounted := by
  unfold Obligations.RennetEventsAreCounted
  refine ⟨fun s src unc alive lost hexists => ?sources, fun s src => ⟨exec_windowExpiry_of_below,
    exec_windowExpiry_of_severe_or_reached⟩, fun s u => exec_writeGateClosed_of_closing, fun s r rest ok hlog hwait => ?log,
    fun s j r => exec_mramWriteWaitTimeout_of_cons, fun s hdirty hwait => ?config, fun s kind q hon => ?due,
    fun s t hturn => ⟨exec_turnTestDone_of_turn hturn true, exec_turnTestDone_of_turn hturn false⟩,
    fun s n ms a all dst hwork hwait => ?calibration⟩
  case sources =>
    exact ⟨fun h => exec_sourceEvent_counted hexists h alive lost,
      fun hsram hcorrected hspare => exec_sourceEvent_spareRow hexists hsram hcorrected hspare alive lost⟩
  case log =>
    have hpending : s.st.logPending ≠ [] := by simp [hlog]
    refine ⟨fun hblocked => exec_logRecordWrite_of_blocked hpending hwait hblocked ok, fun hfree hok => ?_,
      fun hfree hok hnone => ?_, fun hfree hok hspare => ?_, logCommit_logPending hlog, logCommit_log_of_room hlog⟩
    · rw [hok]
      exact exec_logRecordWrite_of_verified hpending hwait hfree
    · rw [hok]
      exact exec_logRecordWrite_of_lost hpending hwait hfree hnone
    · intro u
      rw [hok, exec_logRecordWrite_of_remapped (u := u) hpending hwait hfree hspare rfl]
      exact ⟨fun hsame => by rw [if_pos hsame], fun htaken => by rw [if_neg htaken]⟩
  case config =>
    rw [exec_portConfigCommit_of_dirty hdirty hwait]
    exact ⟨fun hfree => congrArg _ (mramWrite_of_free hfree .cfg), fun hblocked => congrArg _ (mramWrite_of_blocked hblocked .cfg)⟩
  case due => exact ⟨fun k => exec_turnDue_of_starts hon, exec_turnDue_of_deferred hon⟩
  case calibration =>
    have hexec := exec_portCalibrationDone_of_calWork hwork hwait
    refine ⟨fun result hbad => by rw [hexec, if_neg hbad], fun hfree => ?_, fun hblocked => ?_⟩
    · rw [hexec, if_pos rfl, mramWrite_of_free hfree, mramDo]
    · rw [hexec, if_pos rfl, mramWrite_of_blocked hblocked]

end Sys2Proof.Machine
end

section
/-! Rosham's physical layer: training, spare switches, laser inputs and reference clocks (R334, R342, R351, R352, R355, R485). -/

namespace Sys2Proof.Machine

open Sys2Proof

/-! ### Training (R334, R355) -/

/-- Rosham port n is enabled, out of its safe state and not trained. -/
structure Trainable (s : State) (n : Nat) : Prop where
  enabled : rshEn s n = true
  notSafe : rshSafe s n = false
  untrained : (s.rsh n).trained = false

theorem Trainable.not_passed {s : State} {n : Nat} (h : Trainable s n) :
    ¬ ((!rshEn s n || rshSafe s n || (s.rsh n).trained) = true) := by
  simp [h.enabled, h.notSafe, h.untrained]

theorem exec_roshamTrained_of_uncalibrated {s : State} {n : Nat} (h : Trainable s n) (hcal : n ∉ s.st.calValid) (x : Crossing) :
    exec (.roshamTrained ⟨n, x⟩) s = .next (rshErr n 0x2 s) := by
  show execRoshamTrained ⟨n, x⟩ s = _
  rw [execRoshamTrained, if_neg h.not_passed, if_pos (by simp [hcal])]

theorem exec_roshamTrained_of_ready {s : State} {n : Nat} (h : Trainable s n) (hcal : n ∈ s.st.calValid)
    (hlit : portLit s n = true) (htx : 8 ≤ lanesUp s n 0) (hrx : 8 ≤ lanesUp s n 1) (x : Crossing) :
    exec (.roshamTrained ⟨n, x⟩) s =
      .next (if x = .other then rshErr n 0x1 s else modRsh n (fun y => { y with trained := true }) s) := by
  show execRoshamTrained ⟨n, x⟩ s = _
  rw [execRoshamTrained, if_neg h.not_passed, if_neg (by simp [hcal]), if_pos (by simp [hlit, htx, hrx])]

/-! ### Spare switches (R342) -/

theorem exec_swap_of_free {s : State} {fb : Nat} (htx : isTxFibre fb = true) (htrained : (s.rsh (fibreOf fb).1).trained = true)
    (hfree : (fibreMap s fb).switching = none) (lane : Nat) :
    exec (.swap fb lane (fibreMap s fb).spare) s = .next (emit (.lane fb "MARK" lane (fibreMap s fb).spare)
      (modFibre fb (fun m => { m with switching := some lane, started := true }) s)) := by
  show execSwap fb lane (fibreMap s fb).spare s = _
  rw [execSwap, if_pos (by simp [htx, htrained, hfree])]

theorem exec_mark_of_switching {s : State} {fb lane : Nat} (hlane : (fibreMap s fb).switching = some lane)
    (hreceiver : (fibreMap s fb).started = false) : exec (.mark fb lane) s =
      .next (switchDone fb lane (emit (.lane fb "DONE" lane (fibreMap s fb).spare) s)) := by
  show execMark fb lane s = _
  rw [execMark, if_pos (by simp [hlane, hreceiver])]

theorem exec_done_of_switching {s : State} {fb lane : Nat} (hlane : (fibreMap s fb).switching = some lane)
    (htransmitter : (fibreMap s fb).started = true) : exec (.done fb lane) s =
      .next (switchDone fb lane (emit (.lane fb "IDLE" lane (laneCh (fibreMap s fb) lane)) s)) := by
  show execDone fb lane s = _
  rw [execDone, if_pos (by simp [hlane, htransmitter])]

/-! ### Laser inputs (R351) -/

theorem getLsbD_or_two_pow (x : BitVec 8) {k : Nat} (hk : k < 8) (j : Nat) :
    (x ||| BitVec.ofNat 8 (2 ^ k)).getLsbD j = (x.getLsbD j || decide (k = j)) := by
  rw [BitVec.getLsbD_or, BitVec.getLsbD_ofNat, Nat.testBit_two_pow]
  by_cases hj : k = j
  · subst hj
    simp [hk]
  · simp [hj]

/-- Laser input k is within limits, and nothing stands behind its source. -/
def laserBack (k : Nat) (s : State) : State :=
  setLsrEn (conditionOff (0xF60 + k) { s with lk.laserIn := s.lk.laserIn ||| BitVec.ofNat 8 (2 ^ k) })

theorem laserBack_laserIn (k : Nat) (s : State) : (laserBack k s).lk.laserIn = s.lk.laserIn ||| BitVec.ofNat 8 (2 ^ k) := rfl

theorem laserBack_cause (k : Nat) (s : State) : ((laserBack k s).rsrc (0xF60 + k)).cause = false :=
  conditionOff_cause (0xF60 + k) { s with lk.laserIn := s.lk.laserIn ||| BitVec.ofNat 8 (2 ^ k) }

theorem exec_laserInputFault_of_lit {s : State} {k : Nat} (hlit : s.lk.laserIn.getLsbD k = true) {u : State}
    (hu : u = severeFault (0xF60 + k) { s with lk.laserIn := s.lk.laserIn &&& ~~~ (BitVec.ofNat 8 (2 ^ k)) }) :
    exec (.laserInputFault k) s = .next (setLsrEn (modRsrc (0xF60 + k) (fun q => { q with cause := !laserIdle u k }) u)) := by
  subst hu
  show execLaserInputFault k s = _
  rw [execLaserInputFault, if_neg (by simp [hlit])]

/-! ### Reference clocks (R485) -/

/-- The sources that a lost reference input feeds are severe. -/
def refclkFaults (c : RefClk) (s : State) : State :=
  forAll (clkSources c) (fun x s => severeFault x (modRsrc x (fun q => { q with cause := true }) s))
    { s with pin.refclkLost := s.pin.refclkLost ++ [clkNum c] }

theorem exec_refclkLoss_of_running {s : State} {c : RefClk} (hrunning : clkNum c ∉ s.pin.refclkLost) :
    exec (.refclkLoss c) s = .next (when (c = .bringUp) buDown (refclkFaults c s)) := by
  show execRefclkLoss c s = _
  rw [execRefclkLoss, if_neg (by simp [hrunning])]
  rfl

/-- Nothing stands behind source x any more: conditionOff for one source of a clock. -/
theorem conditionOff_cause_of_off {x : Nat} {s : State} (h : (s.rsrc x).cause = false) (y : Nat) :
    ((conditionOff y s).rsrc x).cause = false := by
  by_cases hxy : x = y
  · subst hxy
    exact conditionOff_cause x s
  · rw [conditionOff, modRsrc_other _ _ _ _ hxy, h]

theorem exec_refclkRestored (c : RefClk) (s : State) : exec (.refclkRestored c) s =
    .next (forAll (clkSources c) conditionOff { s with pin.refclkLost := s.pin.refclkLost.filter (· ≠ clkNum c) }) := rfl

theorem forAll_conditionOff_pin (l : List Nat) (s : State) : (forAll l conditionOff s).pin = s.pin :=
  forAll_keeps (f := conditionOff) (fun _ _ => rfl) l s

/-- Settles O50: each event is the one branch that its case selects; a clock's sources are cleared one by one. -/
theorem opticsFollowTheirEvents : Obligations.OpticsFollowTheirEvents := by
  unfold Obligations.OpticsFollowTheirEvents
  refine ⟨fun s n x hen hsafe htrained => ?training, fun s fb lane htx htrained hfree => exec_swap_of_free htx htrained hfree lane,
    fun s fb lane hlane => ⟨exec_mark_of_switching hlane, exec_done_of_switching hlane⟩,
    fun s k hlit => exec_laserInputFault_of_lit hlit rfl, fun s k hk => ⟨laserBack k s, rfl, ?restored⟩, fun s => rfl,
    fun s c hrunning => ?lost, fun s c => ⟨_, exec_refclkRestored c s, ?back⟩⟩
  case training =>
    have h : Trainable s n := ⟨hen, hsafe, htrained⟩
    refine ⟨fun hcal => exec_roshamTrained_of_uncalibrated h hcal x, fun hcal hlit htx hrx => ?_⟩
    rw [exec_roshamTrained_of_ready h hcal hlit htx hrx]
    exact ⟨fun hx => by rw [if_pos hx], fun hx => by rw [if_neg hx]⟩
  case restored =>
    simp only [laserBack_laserIn, getLsbD_or_two_pow _ hk]
    exact ⟨by simp, laserBack_cause k s, fun j hj => by simp [hj.symm]⟩
  case lost =>
    rw [exec_refclkLoss_of_running hrunning]
    refine ⟨fun hc => ?_, fun hc => ?_⟩
    · rw [when, if_neg (by simpa using hc)]
      rfl
    · rw [when, if_pos (by simpa using hc)]
      rfl
  case back =>
    refine ⟨?_, fun x hx => ?_⟩
    · rw [forAll_conditionOff_pin]
      simp
    · exact forAll_of_mem (P := fun t => (t.rsrc x).cause = false) hx (conditionOff_cause x) (fun y t ht => conditionOff_cause_of_off ht y) _

end Sys2Proof.Machine
end

section
/-! Peer links: frames, replays, keys and sessions (R261, R262, R345 to R348, R433). -/

namespace Sys2Proof.Machine

open Sys2Proof

/-! ### Frames (R345 to R348) -/

/-- Peer port p has taken frame f: its acknowledgement and credits, its sequence number and its packets of unknown TYPE. -/
def frameTaken (p : Nat) (f : Frame) (s : State) : State :=
  modPeerP p (fun x => { frameTrailer f x with
    rxSeq := if f.idle then x.rxSeq else x.rxSeq + 1
    badType := min 65535 (x.badType + (f.types.filter (fun t => !typeKnown t)).length) }) s

section
variable {s : State} {p : Nat} (hup : (s.peerP p).up = true)
include hup

theorem exec_peerFrame_of_bad_crc {f : Frame} (hcrc : f.crcOk = false) :
    exec (.peerFrame p f) s = .next (emit (.frameNak p (s.peerP p).rxSeq) s) := by
  show execPeerFrame p f s = _
  simp [execPeerFrame, hup, hcrc]

theorem exec_peerFrame_of_bad_tag {f : Frame} (hcrc : f.crcOk = true) (htag : f.tagOk = false) :
    exec (.peerFrame p f) s = .next (countFault (0xA80 + 8 * p + 2) (rshErr (16 + p) 0x40 (peerDown p s))) := by
  show execPeerFrame p f s = _
  simp [execPeerFrame, hup, hcrc, htag]

theorem exec_peerFrame_of_out_of_sequence {f : Frame} (hcrc : f.crcOk = true) (htag : f.tagOk = true) (hidle : f.idle = false)
    (hseq : f.seq ≠ (s.peerP p).rxSeq) : exec (.peerFrame p f) s = .next (emit (.frameNak p (s.peerP p).rxSeq) s) := by
  show execPeerFrame p f s = _
  simp [execPeerFrame, hup, hcrc, htag, hidle, hseq]

theorem exec_peerFrame_of_good {f : Frame} (hcrc : f.crcOk = true) (htag : f.tagOk = true)
    (hseq : f.idle = true ∨ f.seq = (s.peerP p).rxSeq) : exec (.peerFrame p f) s =
      .next (when f.nak (fun t => countFault (0xA80 + 8 * p + 1) (emit (.frameReplay p (f.ack + 1)) t))
        (drainPackets p (s.peerP p).txq.length (frameTaken p f s))) := by
  have hin : ¬ ((!f.idle && decide (f.seq ≠ (s.peerP p).rxSeq)) = true) := by
    rcases hseq with h | h <;> simp [h]
  show execPeerFrame p f s = _
  rw [execPeerFrame, if_neg (by simp [hup]), if_neg (by simp [hcrc]), if_neg (by simp [htag]), if_neg hin]
  rfl

/-! ### Replays, keys and the loss of the link (R261, R262, R347) -/

theorem exec_frameReplayTimeout_of_unacknowledged (hreplay : (s.peerP p).replay ≠ []) :
    exec (.frameReplayTimeout p) s = .next (countFault (0xA80 + 8 * p + 1)
      (emit (.frameReplay p ((s.peerP p).replay.headD (s.peerP p).ackd)) s)) := by
  show execFrameReplayTimeout p s = _
  rw [execFrameReplayTimeout, if_pos (by simp [hup, hreplay])]

theorem exec_replayStuck_of_up : exec (.replayStuck p) s = .next (rshErr (16 + p) 0x20 (peerDown p s)) := by
  show execReplayStuck p s = _
  rw [execReplayStuck, if_pos hup]

theorem exec_peerKeyRenewal_of_up :
    exec (.peerKeyRenewal p) s = .next (modPeerP p (fun x => { x with keyPhase := !x.keyPhase }) (drawKey s)) := by
  show execPeerKeyRenewal p s = _
  rw [execPeerKeyRenewal, if_pos hup]

theorem exec_peerLinkDown_of_up : exec (.peerLinkDown p) s = .next (peerDown p s) := by
  show execPeerLinkDown p s = _
  rw [execPeerLinkDown, if_pos (by simp [hup])]

end

/-! ### Sessions (R261, R433) -/

/-- Peer port p is up on a session with a far end's node, whose keys have just been drawn. -/
def peerLinked (p node : Nat) (s : State) : State :=
  modPeerP p (fun x => { x with
    up := true, farNode := node, keyHeld := true, keyPhase := false, txSeq := 0, rxSeq := 0, ackd := 0
    replay := [], credits := fullCredits }) (drawKey s)

theorem peerLinked_peerP (p node : Nat) (s : State) : (peerLinked p node s).peerP p = { s.peerP p with
    up := true, farNode := node, keyHeld := true, keyPhase := false, txSeq := 0, rxSeq := 0, ackd := 0
    replay := [], credits := fullCredits } := modPeerP_self ..

/-- Peer port p is enabled, trained, out of its safe state and down. -/
structure PeerWaits (s : State) (p : Nat) : Prop where
  enabled : (s.peerP p).en = true
  down : (s.peerP p).up = false
  notSafe : (s.peerP p).safe = false
  trained : (s.rsh (16 + p)).trained = true

theorem PeerWaits.not_passed {s : State} {p : Nat} (h : PeerWaits s p) :
    ¬ ((!(s.peerP p).en || (s.peerP p).up || (s.peerP p).safe || !(s.rsh (16 + p)).trained) = true) := by
  simp [h.enabled, h.down, h.notSafe, h.trained]

theorem exec_peerSessionEstablished_of_unauthentic {s : State} {p : Nat} (h : PeerWaits s p) (node : Nat) :
    exec (.peerSessionEstablished p node false) s = .next (countFault (0xA80 + 8 * p + 2) s) := by
  show execPeerSessionEstablished p node false s = _
  rw [execPeerSessionEstablished, if_neg h.not_passed, if_pos Bool.not_false]

theorem exec_peerSessionEstablished_of_authentic {s : State} {p : Nat} (h : PeerWaits s p) (node : Nat) :
    exec (.peerSessionEstablished p node true) s =
      .next (if node = s.pr.nodeId then s else giveTags (peerLinked p node s)) := by
  show execPeerSessionEstablished p node true s = _
  rw [execPeerSessionEstablished, if_neg h.not_passed, if_neg (by decide)]
  rfl

/-- Settles O49: each frame, timeout and session is the one branch that its case selects. -/
theorem peerLinksCarryFrames : Obligations.PeerLinksCarryFrames := by
  unfold Obligations.PeerLinksCarryFrames
  refine ⟨fun s p f hup => ?link, fun s p node hen hdown hsafe htrained => ?session⟩
  case link =>
    refine ⟨fun hcrc htag hseq => ⟨frameTaken p f s, rfl, fun hnak => ?_, fun hnak => ?_⟩, exec_peerFrame_of_bad_crc hup,
      exec_peerFrame_of_out_of_sequence hup, exec_peerFrame_of_bad_tag hup, exec_frameReplayTimeout_of_unacknowledged hup,
      exec_replayStuck_of_up hup, ⟨_, exec_peerKeyRenewal_of_up hup, ?_, rfl⟩, exec_peerLinkDown_of_up hup⟩
    · rw [exec_peerFrame_of_good hup hcrc htag hseq, hnak]
      rfl
    · rw [exec_peerFrame_of_good hup hcrc htag hseq, hnak]
      rfl
    · exact congrArg PeerPort.keyPhase (modPeerP_self ..)
  case session =>
    have h : PeerWaits s p := ⟨hen, hdown, hsafe, htrained⟩
    refine ⟨fun hother => ⟨peerLinked p node s, ?_, ?_⟩, fun hown => ?_, exec_peerSessionEstablished_of_unauthentic h node⟩
    · rw [exec_peerSessionEstablished_of_authentic h, if_neg hother]
    · rw [peerLinked_peerP]
      exact ⟨rfl, rfl, rfl, rfl, rfl, rfl⟩
    · rw [exec_peerSessionEstablished_of_authentic h, if_pos hown]

end Sys2Proof.Machine
end

section
/-! Requests to host-class ports: configuration, power state, bus master and L0p (R279, R280, R284, R291, R446, R453). -/

namespace Sys2Proof.Machine

open Sys2Proof

/-! ### Configuration requests (R280, R291, R446) -/

theorem cfgAnswer_of_no_function {s : State} {p n : Nat} (h : cfgFn s p n = none) (op : CfgOp) :
    cfgAnswer p n op s = emit (.cfgUr p n) s := by
  simp only [cfgAnswer, h]

theorem cfgAnswer_read {s : State} {p n : Nat} {f : Fn} (h : cfgFn s p n = some f) (x : CfgItem) :
    cfgAnswer p n (.read x) s = emit (.cfgAnswer p n (cfgValue s f x)) s := by
  simp only [cfgAnswer, h]

theorem cfgAnswer_write {s : State} {p n : Nat} {f : Fn} (h : cfgFn s p n = some f) {op : CfgOp} (hop : ∀ x, op ≠ .read x) :
    cfgAnswer p n op s = emit (.cfgAnswer p n 0) (cfgWrite p f op s) := by
  cases op with
  | read x => exact absurd rfl (hop x)
  | _ => simp only [cfgAnswer, h]

theorem exec_configRequest_bringUp {s : State} (hup : s.lk.buLinkUp = true) (n : Nat) (op : CfgOp) :
    exec (.configRequest ⟨16, n, op⟩) s = .next (cfgAnswer 16 n op s) := by
  show execConfigRequest ⟨16, n, op⟩ s = _
  rw [execConfigRequest, if_neg (by simp), if_pos rfl, when, if_pos hup]

section
variable {s : State} {p : Nat} (hp : p < 16) (htaken : tlpDropped s p none = false)
include hp htaken

theorem exec_configRequest_of_answering (hboot : s.tm.boot = .running ∨ s.tm.boot = .rest) (n : Nat) (op : CfgOp) :
    exec (.configRequest ⟨p, n, op⟩) s = .next (cfgAnswer p n op s) := by
  show execConfigRequest ⟨p, n, op⟩ s = _
  rw [execConfigRequest, if_neg (by simp [htaken]), if_neg (Nat.ne_of_lt hp)]
  rcases hboot with hboot | hboot <;> rw [hboot]

theorem exec_configRequest_of_starting (hboot : s.tm.boot = .held ∨ s.tm.boot = .deepWake) (n : Nat) (op : CfgOp) :
    exec (.configRequest ⟨p, n, op⟩) s = .next (emit (.cfgRetry p) s) := by
  show execConfigRequest ⟨p, n, op⟩ s = _
  rw [execConfigRequest, if_neg (by simp [htaken]), if_neg (Nat.ne_of_lt hp)]
  rcases hboot with hboot | hboot <;> rw [hboot]

end

/-! ### Power states, bus master and L0p (R279, R284, R453) -/

section
variable {s : State} {p : Nat} (hhost : hostMode s p = true)
include hhost

theorem exec_pmcsrDState_of_host (d3 : Bool) :
    exec (.pmcsrDState p d3) s = .next (modFnS (.pf p) (fun x => { x with dstate3 := d3 }) s) := by
  show execPmcsrDState p d3 s = _
  rw [execPmcsrDState, if_pos hhost]

theorem exec_busMasterEnable_of_host :
    exec (.busMasterEnable p) s = .next (tryFound p (modHc p (fun x => { x with busMaster := true }) s)) := by
  show execBusMasterEnable p s = _
  rw [execBusMasterEnable, if_pos hhost]

end

/-- A port takes a width, or keeps it until its spare switch ends. -/
def HcPort.widthAsked (width : Nat) (switching : Bool) (x : HcPort) : HcPort :=
  if switching then { x with pendWidth := some width } else { x with width := width, pendWidth := none }

/-- Port p has accepted a width. -/
def widthAccepted (p width : Nat) (s : State) : State :=
  emit (.l0p p width true) (modHc p (HcPort.widthAsked width (portSwitching s p)) s)

theorem widthAccepted_hc (p width : Nat) (s : State) :
    (widthAccepted p width s).hc p = HcPort.widthAsked width (portSwitching s p) (s.hc p) := modHc_self ..

section
variable {s : State} {p width : Nat} (hhost : hostMode s p = true) (hup : (s.hc p).linkUp = true)
include hhost hup

theorem exec_l0pRequest_of_width (hwidth : width ∈ [2, 4, 8, 16]) :
    exec (.l0pRequest p width) s = .next (widthAccepted p width s) := by
  show execL0pRequest p width s = _
  rw [execL0pRequest, if_neg (by simp [hhost, hup]), if_pos (List.contains_iff_mem.2 hwidth)]
  rfl

theorem exec_l0pRequest_of_no_width (hwidth : width ∉ [2, 4, 8, 16]) :
    exec (.l0pRequest p width) s = .next (emit (.l0p p width false) s) := by
  show execL0pRequest p width s = _
  rw [execL0pRequest, if_neg (by simp [hhost, hup]), if_neg (mt List.contains_iff_mem.1 hwidth)]

end

/-- Settles O34: a configuration request that is answered is cfgAnswer, and each other request is one change of its port. -/
theorem hostPortRequestsComplete : Obligations.HostPortRequestsComplete := by
  unfold Obligations.HostPortRequestsComplete
  refine ⟨fun s p n op hport => ?config, fun s p n op hp htaken hboot => exec_configRequest_of_starting hp htaken hboot n op,
    fun s p d3 hhost => ?dState, fun s p hhost => ?busMaster, fun s p width hhost hup => ⟨fun hwidth => ?width,
      exec_l0pRequest_of_no_width hhost hup⟩⟩
  case config =>
    have hexec : exec (.configRequest ⟨p, n, op⟩) s = .next (cfgAnswer p n op s) := by
      rcases hport with ⟨hp, htaken, hboot⟩ | ⟨rfl, hup⟩
      · exact exec_configRequest_of_answering hp htaken hboot n op
      · exact exec_configRequest_bringUp hup n op
    refine ⟨fun hnone => by rw [hexec, cfgAnswer_of_no_function hnone], fun f hf => ⟨fun x hx => ?_, fun hop => ?_⟩⟩
    · rw [hexec, hx, cfgAnswer_read hf]
    · rw [hexec, cfgAnswer_write hf hop]
  case dState =>
    exact ⟨_, exec_pmcsrDState_of_host hhost d3, congrArg FnState.dstate3 (modFnS_self ..), fun f hf => modFnS_other _ _ _ _ hf⟩
  case busMaster => exact ⟨_, exec_busMasterEnable_of_host hhost, congrArg HcPort.busMaster (modHc_self ..)⟩
  case width =>
    refine ⟨_, exec_l0pRequest_of_width hhost hup hwidth, rfl, fun hfree => ?_, fun hswitching => ?_⟩
    · rw [widthAccepted_hc, hfree]
      rfl
    · rw [widthAccepted_hc, hswitching]
      exact ⟨rfl, rfl⟩

end Sys2Proof.Machine
end

section
/-! Requests that fail leave the state of the bring-up link as it is (R307, R308): a failed request ends entries, faults vats and
answers peers, and no part of that brings the link up or takes it down. One lemma per operation, up to `failReqs`. -/

namespace Sys2Proof.Machine

open Sys2Proof

/-- 64511 is the mask of every part of the state but the links. -/
theorem lk_of_same {s t : State} (h : Same 64511 s t) : t.lk = s.lk := h.part .links (by decide)

/-! ### Control operators -/

@[simp] theorem emit_buLinkUp (o : Out) (s : State) : (emit o s).lk.buLinkUp = s.lk.buLinkUp := rfl

@[simp] theorem ite_buLinkUp (p : Prop) [Decidable p] (a b : State) :
    (if p then a else b).lk.buLinkUp = if p then a.lk.buLinkUp else b.lk.buLinkUp :=
  apply_ite (fun t : State => t.lk.buLinkUp) p a b

@[simp] theorem when_buLinkUp (b : Bool) (f : State → State) (s : State) :
    (when b f s).lk.buLinkUp = if b then (f s).lk.buLinkUp else s.lk.buLinkUp := ite_buLinkUp ..

@[simp] theorem forAll_buLinkUp {α : Type} {f : α → State → State} (hf : ∀ x t, (f x t).lk.buLinkUp = t.lk.buLinkUp)
    (l : List α) (s : State) : (forAll l f s).lk.buLinkUp = s.lk.buLinkUp :=
  forAll_keeps (π := fun t => t.lk.buLinkUp) hf l s

theorem foldl_buLinkUp {α β : Type} {f : β × State → α → β × State}
    (hf : ∀ r x, (f r x).2.lk.buLinkUp = r.2.lk.buLinkUp) (l : List α) (r : β × State) :
    (l.foldl f r).2.lk.buLinkUp = r.2.lk.buLinkUp := by
  induction l generalizing r with
  | nil => rfl
  | cons x l ih => exact (ih (f r x)).trans (hf r x)

/-! ### Operations whose footprint leaves the links out -/

@[simp] theorem takeFree_lk (n : Nat) (s : State) : (takeFree n s).lk = s.lk := rfl
@[simp] theorem writeBytes_lk (a : Nat) (bs : List Byte) (s : State) : (writeBytes a bs s).lk = s.lk := rfl

@[simp] theorem startXlate_lk (k v va : Nat) (need : Access) (s : State) : (startXlate k v va need s).lk = s.lk :=
  lk_of_same (startXlate_same (.refl s) (by decide))

@[simp] theorem askXlate_lk (k v va : Nat) (need : Access) (s : State) : (askXlate k v va need s).lk = s.lk :=
  lk_of_same (askXlate_same (.refl s) (by decide))

@[simp] theorem touchLines_lk (a n : Nat) (s : State) : (touchLines a n s).lk = s.lk :=
  lk_of_same (touchLines_same (.refl s) (by decide))

@[simp] theorem askHosts_lk (o : Owner) (hits : List (Filt × Bool)) (s : State) : (askHosts o hits s).lk = s.lk :=
  lk_of_same (askHosts_same (.refl s) (by decide))

@[simp] theorem hostPut_lk (p pa : Nat) (bs : List Byte) (relaxed : Bool) (s : State) : (hostPut p pa bs relaxed s).lk = s.lk :=
  lk_of_same (hostPut_same (.refl s) (by decide))

@[simp] theorem ownedGate_lk (o : Owner) (v va pa n : Nat) (s : State) : (ownedGate o v va pa n s).2.lk = s.lk :=
  lk_of_same (ownedGate_same (.refl s) (by decide))

theorem lk_of_ownedGate {o : Owner} {v va pa n : Nat} {s t : State} {b : Bool} (h : ownedGate o v va pa n s = (b, t)) :
    t.lk = s.lk := by
  have hgate := ownedGate_lk o v va pa n s
  rwa [h] at hgate

@[simp] theorem sendMsix_lk (f : Fn) (v : Nat) (s : State) : (sendMsix f v s).lk = s.lk :=
  lk_of_same (sendMsix_same (.refl s) (by decide))

@[simp] theorem dropRec_lk (e : Nat) (s : State) : (dropRec e s).lk = s.lk :=
  lk_of_same (dropRec_same (.refl s) (by decide))

@[simp] theorem pulseOf_lk (r : EvRec) (e : Nat) (s : State) : (pulseOf r e s).lk = s.lk :=
  lk_of_same (pulseOf_same (.refl s) (by decide))

@[simp] theorem setVatBit_lk (v : Nat) (b : VatBit) (cause va : Nat) (s : State) : (setVatBit v b cause va s).lk = s.lk :=
  lk_of_same (setVatBit_same (.refl s) (by decide))

@[simp] theorem holdPages_lk (k : Nat) (s : State) : (holdPages k s).lk = s.lk :=
  lk_of_same (holdPages_same (.refl s) (by decide))

@[simp] theorem modEntry_lk (h : Nat) (i : W32) (f : Entry → Entry) (s : State) : (modEntry h i f s).lk = s.lk :=
  lk_of_same (modEntry_same (.refl s) (by decide))

@[simp] theorem stopHoop_lk (h : Nat) (s : State) : (stopHoop h s).lk = s.lk :=
  lk_of_same (stopHoop_same (.refl s) (by decide))

@[simp] theorem endGroups_lk (h : Nat) (s : State) : (endGroups h s).lk = s.lk :=
  lk_of_same (endGroups_same (.refl s) (by decide))

@[simp] theorem headFails_lk (h : Nat) (s : State) : (headFails h s).lk = s.lk :=
  lk_of_same (headFails_same (.refl s) (by decide))

@[simp] theorem tryEvict_lk (s : State) : (tryEvict s).lk = s.lk :=
  lk_of_same (tryEvict_same (.refl s) (by decide))

@[simp] theorem trimPages_lk (s : State) : (trimPages s).lk = s.lk :=
  lk_of_same (trimPages_same (.refl s) (by decide))

@[simp] theorem toWhey_lk (h : Nat) (s : State) : (toWhey h s).lk = s.lk :=
  lk_of_same (toWhey_same (.refl s) (by decide))

@[simp] theorem ownReport_lk (g c : Nat) (s : State) : (ownReport g c s).lk = s.lk :=
  lk_of_same (ownReport_same (.refl s) (by decide))

@[simp] theorem ringStops_lk (h : Nat) (s : State) : (ringStops h s).lk = s.lk :=
  lk_of_same (ringStops_same (.refl s) (by decide))

@[simp] theorem disarmWait_lk (h : Nat) (i : W32) (s : State) : (disarmWait h i s).lk = s.lk :=
  lk_of_same (disarmWait_same (.refl s) (by decide))

@[simp] theorem setPeerMark_lk (key : JKey) (n : Nat) (s : State) : (setPeerMark key n s).lk = s.lk :=
  lk_of_same (setPeerMark_same (.refl s) (by decide))

@[simp] theorem fwAbandon_lk (s : State) : (fwAbandon s).lk = s.lk :=
  lk_of_same (fwAbandon_same (.refl s) (by decide))

/-! ### Requests, their tags and the packets they send -/

@[simp] theorem modAcd_buLinkUp (k : Nat) (g : AcdPort → AcdPort) (s : State) :
    (modAcd k g s).lk.buLinkUp = s.lk.buLinkUp := by
  simp [modAcd]

@[simp] theorem sendAcd_buLinkUp (q msg tag addr : Nat) (q1 : W64) (s : State) :
    (sendAcd q msg tag addr q1 s).lk.buLinkUp = s.lk.buLinkUp := by
  simp [sendAcd]

@[simp] theorem putPacket_buLinkUp (p type : Nat) (k : Pkt) (s : State) :
    (putPacket p type k s).lk.buLinkUp = s.lk.buLinkUp := by
  simp [putPacket]

@[simp] theorem sendPacket_buLinkUp (p type : Nat) (k : Pkt) (s : State) :
    (sendPacket p type k s).lk.buLinkUp = s.lk.buLinkUp := by
  simp [sendPacket]

@[simp] theorem putReq_buLinkUp (type : Nat) (r : Req) (s : State) : (putReq type r s).lk.buLinkUp = s.lk.buLinkUp := by
  unfold putReq
  split <;> simp

@[simp] theorem recordReq_buLinkUp (r : Req) (s : State) : (recordReq r s).lk.buLinkUp = s.lk.buLinkUp := by
  unfold recordReq
  dsimp only
  split <;> simp

@[simp] theorem giveTags_buLinkUp (s : State) : (giveTags s).lk.buLinkUp = s.lk.buLinkUp := by
  refine forAll_buLinkUp (fun r t => ?_) _ s
  split <;> simp

@[simp] theorem dropReqs_buLinkUp (p : Req → Bool) (s : State) : (dropReqs p s).lk.buLinkUp = s.lk.buLinkUp := by
  simp [dropReqs]

@[simp] theorem addReq_buLinkUp (t : Tgt) (o : Owner) (k : ReqKind) (a n : Nat) (ep : BitVec 8) (s : State) :
    (addReq t o k a n ep s).lk.buLinkUp = s.lk.buLinkUp := by
  simp [addReq]

@[simp] theorem dropOwner_buLinkUp (o : Owner) (s : State) : (dropOwner o s).lk.buLinkUp = s.lk.buLinkUp := by
  simp [dropOwner]

@[simp] theorem sendPeer_buLinkUp (w tc : Nat) (o : Owner) (k : ReqKind) (pa n atop : Nat) (wide ret : Bool) (bs : List Byte)
    (ep : BitVec 8) (s : State) :
    (sendPeer w tc o k pa n atop wide ret bs ep s).lk.buLinkUp = s.lk.buLinkUp := by
  simp [sendPeer]

/-! ### Stores, records and faults -/

@[simp] theorem freeWatch_buLinkUp (r : Resv) (s : State) : (freeWatch r s).lk.buLinkUp = s.lk.buLinkUp := by
  unfold freeWatch
  split <;> simp

@[simp] theorem loseResv_buLinkUp (p : Nat × Resv → Bool) (s : State) : (loseResv p s).lk.buLinkUp = s.lk.buLinkUp := by
  unfold loseResv
  exact forAll_buLinkUp (f := fun r : Nat × Resv => freeWatch r.2) (fun r => freeWatch_buLinkUp r.2) _ _

@[simp] theorem breakResv_buLinkUp (a n : Nat) (s : State) : (breakResv a n s).lk.buLinkUp = s.lk.buLinkUp := by
  simp [breakResv]

@[simp] theorem storeAt_buLinkUp (a : Nat) (bs : List Byte) (s : State) :
    (storeAt a bs s).lk.buLinkUp = s.lk.buLinkUp := by
  simp [storeAt]

@[simp] theorem ctrlWrite_buLinkUp (o : Owner) (w tc pa : Nat) (bs : List Byte) (ep : BitVec 8) (s : State) :
    (ctrlWrite o w tc pa bs ep s).lk.buLinkUp = s.lk.buLinkUp := by
  unfold ctrlWrite
  dsimp only
  split <;> simp

@[simp] theorem putRec_buLinkUp (e : Nat) (r : EvRec) (pa : Nat) (s : State) :
    (putRec e r pa s).lk.buLinkUp = s.lk.buLinkUp := by
  simp [putRec]

/-- The gate of a record's location, where its event hoop has a vat. -/
theorem lk_of_recordGate {v? : Option Nat} {o : Owner} {va pa n : Nat} {s t : State} {b : Bool}
    (h : v?.elim (true, s) (fun v => ownedGate o v va pa n s) = (b, t)) : t.lk = s.lk := by
  cases v? with
  | none => exact congrArg (fun x : Bool × State => x.2.lk) h.symm
  | some v => exact lk_of_ownedGate h

@[simp] theorem postN_buLinkUp (n e : Nat) (r : EvRec) (s : State) : (postN n e r s).lk.buLinkUp = s.lk.buLinkUp := by
  induction n generalizing e r s with
  | zero => rfl
  | succ n ih =>
    unfold postN
    dsimp only
    split
    · rfl
    split
    · simp
    split
    · simp
    · split
      · simp
      split
      next t ht => simp [lk_of_recordGate ht]
      next t ht => simp [lk_of_recordGate ht]
    · simp [ih]

@[simp] theorem postRec_buLinkUp (e : Nat) (r : EvRec) (s : State) : (postRec e r s).lk.buLinkUp = s.lk.buLinkUp := by
  simp [postRec]

@[simp] theorem vatFault_buLinkUp (v : Nat) (b : VatBit) (cause va : Nat) (s : State) :
    (vatFault v b cause va s).lk.buLinkUp = s.lk.buLinkUp := by
  simp [vatFault]

@[simp] theorem stopOnXlate_buLinkUp (h cause va : Nat) (s : State) :
    (stopOnXlate h cause va s).lk.buLinkUp = s.lk.buLinkUp := by
  simp [stopOnXlate]

/-! ### Ends of admin entries -/

@[simp] theorem hostWord_buLinkUp (a pa x : Nat) (s : State) : (hostWord a pa x s).lk.buLinkUp = s.lk.buLinkUp := by
  simp [hostWord]

/-- The steps of `adminWrite`, with the words that it writes, the records that it posts and the fields that it sets left open. -/
theorem adminSteps_buLinkUp (a p₀ p₁ p₂ x₀ x₁ x₂ v : Nat) (b₀ b₁ b₂ : Bool) (g₁ g₂ : AdminHoop → AdminHoop) (ev : Nat)
    (r : EvRec) (s : State) :
    (s |> when b₀ (hostWord a p₀ x₀) |> hostWord a p₁ x₁ |> modAdmin a g₁ |> hostWord a p₂ x₂
      |> when b₁ (sendMsix .bu v) |> when b₂ (postRec ev r) |> modAdmin a g₂).lk.buLinkUp = s.lk.buLinkUp := by
  simp

@[simp] theorem adminWrite_buLinkUp (a : Nat) (e : Entry) (st : Status) (seg : Bool) (done : Nat) (s : State) :
    (adminWrite a e st seg done s).lk.buLinkUp = s.lk.buLinkUp := by
  unfold adminWrite
  exact adminSteps_buLinkUp ..

@[simp] theorem adminDrain_buLinkUp (a n : Nat) (s : State) : (adminDrain a n s).lk.buLinkUp = s.lk.buLinkUp := by
  induction n generalizing s with
  | zero => rfl
  | succ n ih =>
    unfold adminDrain
    split
    · split
      · simp [ih]
      · rfl
    · rfl

@[simp] theorem adminFinish_buLinkUp (a : Nat) (st : Status) (seg : Bool) (done : Nat) (s : State) :
    (adminFinish a st seg done s).lk.buLinkUp = s.lk.buLinkUp := by
  unfold adminFinish
  split <;> simp

@[simp] theorem adminEnd_buLinkUp (a : Nat) (st : Status) (s : State) :
    (adminEnd a st s).lk.buLinkUp = s.lk.buLinkUp := by
  simp [adminEnd]

/-! ### Hoops, their heads and the ends of their entries -/

@[simp] theorem tryIdle_buLinkUp (h : Nat) (s : State) : (tryIdle h s).lk.buLinkUp = s.lk.buLinkUp := by
  unfold tryIdle
  dsimp only
  split
  · split <;> simp
  · rfl

@[simp] theorem postDue_buLinkUp (h : Nat) (s : State) : (postDue h s).lk.buLinkUp = s.lk.buLinkUp := by
  simp [postDue]

@[simp] theorem headOver_buLinkUp (h : Nat) (s : State) : (headOver h s).lk.buLinkUp = s.lk.buLinkUp := by
  simp [headOver]

@[simp] theorem publishHead_buLinkUp (h : Nat) (s : State) : (publishHead h s).lk.buLinkUp = s.lk.buLinkUp := by
  unfold publishHead
  dsimp only
  split
  · rfl
  split
  · simp
  split
  · simp
  · simp
  next pa hpa =>
    split
    · simp
    split
    next t ht => simp [lk_of_ownedGate ht]
    next t ht => simp [lk_of_ownedGate ht]

@[simp] theorem tryFrozen_buLinkUp (f : Fn) (s : State) : (tryFrozen f s).lk.buLinkUp = s.lk.buLinkUp := by
  unfold tryFrozen
  dsimp only
  split
  · split
    · split <;> simp
    · simp
  · rfl

@[simp] theorem tryUnload_buLinkUp (f : Fn) (s : State) : (tryUnload f s).lk.buLinkUp = s.lk.buLinkUp := by
  unfold tryUnload
  split
  · rfl
  · dsimp only
    split <;> simp

@[simp] theorem retireEntry_buLinkUp (h : Nat) (e : Entry) (s : State) :
    (retireEntry h e s).lk.buLinkUp = s.lk.buLinkUp := by
  simp [retireEntry]

@[simp] theorem writeStatus_buLinkUp (h : Nat) (e : Entry) (pa : Nat) (s : State) :
    (writeStatus h e pa s).lk.buLinkUp = s.lk.buLinkUp := by
  simp [writeStatus]

@[simp] theorem tryFinish_buLinkUp (h : Nat) (i : W32) (s : State) : (tryFinish h i s).lk.buLinkUp = s.lk.buLinkUp := by
  unfold tryFinish
  split
  · rfl
  dsimp only
  split
  · rfl
  split
  · simp
  split
  · simp
  · simp
  next pa hpa =>
    split
    · simp
    split
    next t ht => simp [lk_of_ownedGate ht]
    next t ht => simp [lk_of_ownedGate ht]

@[simp] theorem statusAnswered_buLinkUp (h : Nat) (i : W32) (s : State) :
    (statusAnswered h i s).lk.buLinkUp = s.lk.buLinkUp := by
  unfold statusAnswered
  split <;> simp

@[simp] theorem statusFails_buLinkUp (h : Nat) (i : W32) (s : State) :
    (statusFails h i s).lk.buLinkUp = s.lk.buLinkUp := by
  simp [statusFails]

@[simp] theorem decideEntry_buLinkUp (h : Nat) (i : W32) (st : Status) (seg : Bool) (done : Nat) (s : State) :
    (decideEntry h i st seg done s).lk.buLinkUp = s.lk.buLinkUp := by
  simp [decideEntry]

@[simp] theorem sendColl_buLinkUp (type g dst payload n : Nat) (s : State) :
    (sendColl type g dst payload n s).lk.buLinkUp = s.lk.buLinkUp := by
  unfold sendColl
  split <;> simp

@[simp] theorem closeInstance_buLinkUp (g c : Nat) (s : State) : (closeInstance g c s).lk.buLinkUp = s.lk.buLinkUp := by
  unfold closeInstance
  dsimp only
  split
  · simp
  · split <;> simp

@[simp] theorem collProgress_buLinkUp (g : Nat) (s : State) : (collProgress g s).lk.buLinkUp = s.lk.buLinkUp := by
  unfold collProgress
  dsimp only
  split
  · rfl
  split <;> simp

@[simp] theorem finishEntry_buLinkUp (h : Nat) (i : W32) (st : Status) (seg : Bool) (done : Nat) (s : State) :
    (finishEntry h i st seg done s).lk.buLinkUp = s.lk.buLinkUp := by
  unfold finishEntry
  split
  · rfl
  split <;> simp

@[simp] theorem failEntry_buLinkUp (h : Nat) (i : W32) (st : Status) (seg : Bool) (s : State) :
    (failEntry h i st seg s).lk.buLinkUp = s.lk.buLinkUp := by
  unfold failEntry
  split <;> simp

@[simp] theorem failInput_buLinkUp (h : Nat) (i : W32) (c : FailCause) (s : State) :
    (failInput h i c s).lk.buLinkUp = s.lk.buLinkUp := by
  simp [failInput]

@[simp] theorem ringFailed_buLinkUp (h : Nat) (s : State) : (ringFailed h s).lk.buLinkUp = s.lk.buLinkUp := by
  simp [ringFailed]

@[simp] theorem adminStop_buLinkUp (a : Nat) (s : State) : (adminStop a s).lk.buLinkUp = s.lk.buLinkUp := by
  simp [adminStop]

@[simp] theorem vstore_buLinkUp (v : Nat) (need : Access) (va : Nat) (bs : List Byte) (s : State) :
    (vstore v need va bs s).lk.buLinkUp = s.lk.buLinkUp := by
  refine forAll_buLinkUp (fun x t => ?_) _ s
  dsimp only
  split <;> simp

@[simp] theorem addHeld_buLinkUp (a : Nat) (bs : List Byte) (s : State) :
    (addHeld a bs s).lk.buLinkUp = s.lk.buLinkUp := by
  simp [addHeld]

@[simp] theorem clobber_buLinkUp (v va n : Nat) (s : State) : (clobber v va n s).lk.buLinkUp = s.lk.buLinkUp := by
  simp [clobber]

@[simp] theorem clobberEntry_buLinkUp (h : Nat) (e : Entry) (s : State) :
    (clobberEntry h e s).lk.buLinkUp = s.lk.buLinkUp := by
  simp [clobberEntry]

@[simp] theorem settle_buLinkUp (h : Nat) (i : W32) (s : State) : (settle h i s).lk.buLinkUp = s.lk.buLinkUp := by
  unfold settle
  split <;> simp

@[simp] theorem failSeg_buLinkUp (h : Nat) (i : W32) (j : Nat) (c : FailCause) (n : Nat) (s : State) :
    (failSeg h i j c n s).lk.buLinkUp = s.lk.buLinkUp := by
  simp [failSeg]

@[simp] theorem endWait_buLinkUp (st : Status) (seg : Bool) (w : Wait) (s : State) :
    (endWait st seg w s).lk.buLinkUp = s.lk.buLinkUp := by
  simp [endWait]

@[simp] theorem failWaits_buLinkUp (y : Watcher) (c : FailCause) (s : State) :
    (failWaits y c s).lk.buLinkUp = s.lk.buLinkUp := by
  unfold failWaits
  split <;> simp

/-! ### Requests served for a peer -/

@[simp] theorem answerPkt_buLinkUp (type reason : Nat) (bs : List Byte) (k : Pkt) (s : State) :
    (answerPkt type reason bs k s).lk.buLinkUp = s.lk.buLinkUp := by
  unfold answerPkt
  split <;> simp

@[simp] theorem nakPkt_buLinkUp (reason : Nat) (k : Pkt) (s : State) :
    (nakPkt reason k s).lk.buLinkUp = s.lk.buLinkUp := by
  simp [nakPkt]

@[simp] theorem applyAtomic_buLinkUp (atop w pa x cmp : Nat) (s : State) :
    (applyAtomic atop w pa x cmp s).2.lk.buLinkUp = s.lk.buLinkUp := by
  simp [applyAtomic]

@[simp] theorem atApply_buLinkUp (k : Pkt) (pa mark : Nat) (s : State) :
    (atApply k pa mark s).2.lk.buLinkUp = s.lk.buLinkUp := by
  unfold atApply
  dsimp only
  refine foldl_buLinkUp (fun r x => ?_) _ _
  split <;> simp

@[simp] theorem serveRead_buLinkUp (k : Pkt) (pa : Nat) (s : State) :
    (serveRead k pa s).2.lk.buLinkUp = s.lk.buLinkUp := by
  unfold serveRead
  split <;> simp

@[simp] theorem serveWrite_buLinkUp (k : Pkt) (pa : Nat) (s : State) :
    (serveWrite k pa s).2.lk.buLinkUp = s.lk.buLinkUp := by
  unfold serveWrite
  dsimp only
  repeat' split
  all_goals simp

@[simp] theorem serveAtomic_buLinkUp (k : Pkt) (pa : Nat) (s : State) :
    (serveAtomic k pa s).2.lk.buLinkUp = s.lk.buLinkUp := by
  unfold serveAtomic
  dsimp only
  repeat' split
  all_goals simp

@[simp] theorem tryServe_buLinkUp (type : Nat) (k : Pkt) (s : State) :
    (tryServe type k s).2.lk.buLinkUp = s.lk.buLinkUp := by
  unfold tryServe
  dsimp only
  repeat' split
  all_goals simp

theorem buLinkUp_of_tryServe {type : Nat} {k : Pkt} {s t : State} {b : Bool} (h : tryServe type k s = (b, t)) :
    t.lk.buLinkUp = s.lk.buLinkUp := by
  have hserve := tryServe_buLinkUp type k s
  rwa [h] at hserve

@[simp] theorem peerServe_buLinkUp (type : Nat) (k : Pkt) (s : State) :
    (peerServe type k s).lk.buLinkUp = s.lk.buLinkUp := by
  unfold peerServe
  split
  · rfl
  split
  next t ht => exact buLinkUp_of_tryServe ht
  next t ht =>
    have hlink : t.lk.buLinkUp = s.lk.buLinkUp := buLinkUp_of_tryServe ht
    exact hlink

/-! ### Owners of failed requests -/

@[simp] theorem serveAgain_buLinkUp (s : State) : (serveAgain s).lk.buLinkUp = s.lk.buLinkUp := by
  simp [serveAgain]

@[simp] theorem failServed_buLinkUp (src tag : Nat) (s : State) :
    (failServed src tag s).lk.buLinkUp = s.lk.buLinkUp := by
  simp [failServed]

@[simp] theorem claimGo_buLinkUp (q ctag : Nat) (fail : Bool) (s : State) :
    (claimGo q ctag fail s).lk.buLinkUp = s.lk.buLinkUp := by
  simp [claimGo]

@[simp] theorem failLive_buLinkUp (h : Nat) (i : W32) (j : Nat) (c : FailCause) (s : State) :
    (failLive h i j c s).lk.buLinkUp = s.lk.buLinkUp := by
  unfold failLive
  split
  · rfl
  split
  · rfl
  split
  · simp
  split <;> simp

@[simp] theorem adminReadFails_buLinkUp (a : Nat) (refused : Bool) (s : State) :
    (adminReadFails a refused s).lk.buLinkUp = s.lk.buLinkUp := by
  unfold adminReadFails
  split <;> simp

@[simp] theorem headErr_buLinkUp (h : Nat) (s : State) : (headErr h s).lk.buLinkUp = s.lk.buLinkUp := by
  simp [headErr]

@[simp] theorem ownerFails_buLinkUp (o : Owner) (c : FailCause) (s : State) :
    (ownerFails o c s).lk.buLinkUp = s.lk.buLinkUp := by
  unfold ownerFails
  split <;> simp

@[simp] theorem failReqs_buLinkUp (p : Req → Bool) (c : Req → FailCause) (s : State) :
    (failReqs p c s).lk.buLinkUp = s.lk.buLinkUp := by
  simp [failReqs]

end Sys2Proof.Machine
end

section
/-! Cold start, resets, the bring-up link, and the ways into and out of Rest and Deep Rest (R307, R374, R378, R444 to R456, R479). -/

namespace Sys2Proof.Machine

open Sys2Proof

/-! ### Start and reset (R444, R446) -/

theorem persistConditions_eq_self {s : State} (hlogic : s.st.logicLow = false) (hphot : s.st.photLow = false)
    (hmram : s.st.mramBlocked = false) (htrip : s.pin.thermTrip = false) (hclk : s.pin.refclkLost = []) :
    persistConditions s = s := by
  simp [persistConditions, when, forAll, hlogic, hphot, hmram, htrip, hclk]

/-- A start without a condition left behind a source goes through its steps with no fault. -/
theorem startUp_tm_cv {s : State} (hlogic : s.st.logicLow = false) (hphot : s.st.photLow = false)
    (hmram : s.st.mramBlocked = false) (htrip : s.pin.thermTrip = false) (hclk : s.pin.refclkLost = []) :
    (startUp s).tm = { s.tm with
      boot := .running, bootCount := s.tm.bootCount + 1, recovery := (bootSlot s).isNone
      islands := (List.range 60).map (fun i => (i, { time := s.tm.deviceTime })) } ∧ (startUp s).cv = s.cv := by
  unfold startUp
  dsimp only
  rw [persistConditions_eq_self (by exact hlogic) (by exact hphot) (by exact hmram) (by exact htrip) (by exact hclk)]
  exact ⟨rfl, rfl⟩

/-- What COLD_START starts: the cold domain in reset, with what the Cave kept and no condition left on a pin. -/
def coldStartDomain (s : State) : State :=
  { coldDomain s with
    cv := if s.tm.timeKnown then s.cv else {}
    tm.deviceTime := if s.tm.timeKnown then s.tm.deviceTime else 0
    tm.timeKnown := true
    pin.refclkLost := [], pin.thermTrip := false, pin.undriven := false
    st.logicLow := false, st.photLow := false, st.mramBlocked := false }

theorem exec_coldStart (s : State) : exec .coldStart s = .next (startUp (coldStartDomain s)) := rfl

theorem isUp_iff {s : State} : isUp s = true ↔ s.tm.boot = .running ∨ s.tm.boot = .rest := by
  simp [isUp]

theorem exec_warmReset_of_up {s : State} (hup : s.tm.boot = .running ∨ s.tm.boot = .rest) :
    exec .warmReset s = .next (startUp (coldDomain s)) :=
  congrArg _ (if_pos (isUp_iff.2 hup))

/-! ### The bring-up port (R307, R308, R444, R449) -/

@[simp] theorem buDown_buLinkUp (s : State) : (buDown s).lk.buLinkUp = false := by
  simp [buDown]

/-- BU_RESET takes the bring-up link down, ends the calibrations of its admin hoop, and drops the hoop and the function. -/
theorem exec_buReset (s : State) :
    ∃ t, exec .buReset s = .next t ∧ t.fnS .bu = {} ∧ t.admin 16 = {} ∧ t.lk.buLinkUp = false := by
  have hports : ∀ (l : List Nat) (t : State),
      (forAll l (fun n => modRsh n (fun x => { x with calibrating := false })) t).lk.buLinkUp = t.lk.buLinkUp :=
    forAll_buLinkUp (fun _ _ => rfl)
  exact ⟨_, rfl, tabGet_tabDel_self .., tabGet_tabDel_self .., (hports _ _).trans (buDown_buLinkUp s)⟩

theorem exec_buLinkTrained_of_up {s : State} (hup : isUp s = true) (hclk : clkNum .bringUp ∉ s.pin.refclkLost) (rate width : Nat) :
    exec (.buLinkTrained rate width) s = .next { s with lk.buLinkUp := true, lk.buRate := rate, lk.buWidth := width } := by
  show execBuLinkTrained rate width s = _
  simp [execBuLinkTrained, hup, hclk]

theorem exec_vatStoreRemirror_of_single {s : State} {q r : Nat} (hstore : s.st.vatStore = [q])
    (hport : (List.range 4).find? (fun r => r ≠ q && (s.acd r).up && !(s.acd r).safe) = some r) :
    exec .vatStoreRemirror s = .next { s with st.vatStore := [q, r] } := by
  show execVatStoreRemirror s = _
  simp only [execVatStoreRemirror, hstore, hport]

/-! ### The way into Rest and Deep Rest (R454) -/

theorem restRequest_of_accepted {s : State} {deep : Bool} (hrun : s.tm.boot = .running) (hentry : s.tm.restEnter = false)
    (hok : restRefusal deep s = 0) : restRequest deep s = { s with tm.restDeep := deep, tm.restEnter := true } := by
  simp [restRequest, hrun, hentry, hok]

theorem restRequest_of_refused {s : State} {deep : Bool} (hrun : s.tm.boot = .running) (hentry : s.tm.restEnter = false)
    (hno : restRefusal deep s ≠ 0) : restRequest deep s = { s with tm.refused := restRefusal deep s } := by
  simp [restRequest, hrun, hentry, hno]

/-- Both commands of the device manager's function ask for their form of rest. -/
theorem exec_restEnter_of_devmgr {s : State} {f : Fn} (htlp : tlpDropped s (pfOf f) none = false)
    (hd0 : (s.fnS f).dstate3 = false) (hmgr : isDevmgr s f = true) {c : Instr} {deep : Bool}
    (hc : (c = .restEnter f ∧ deep = false) ∨ (c = .deepRestEnter f ∧ deep = true)) :
    exec c s = .next (restRequest deep s) := by
  obtain ⟨rfl, rfl⟩ | ⟨rfl, rfl⟩ := hc
  · show execRestEnter f s = _
    rw [execRestEnter, inD0_of_reached htlp hd0, if_pos hmgr]
  · show execDeepRestEnter f s = _
    rw [execDeepRestEnter, inD0_of_reached htlp hd0, if_pos hmgr]

theorem stopTurning_eq_self {s : State} (h : s.sp.turn = none) : stopTurning s = s := by
  simp only [stopTurning, h]

theorem exec_restEntryComplete_rest {s : State} (hentry : s.tm.restEnter = true) (hturn : s.sp.turn = none)
    (hlight : s.tm.restDeep = false)
    (hwatch : watchedPending { s with tm.restEnter := false, tm.refused := 0, tm.boot := .rest } = []) :
    exec .restEntryComplete s = .next { s with tm.restEnter := false, tm.refused := 0, tm.boot := .rest } := by
  show execRestEntryComplete s = _
  rw [execRestEntryComplete, if_neg (by simp [hentry])]
  dsimp only
  rw [stopTurning_eq_self (by exact hturn), if_neg (by simp [hlight]), hwatch]

theorem exec_restEntryComplete_deep {s : State} (hentry : s.tm.restEnter = true) (hturn : s.sp.turn = none)
    (hdeep : s.tm.restDeep = true) :
    exec .restEntryComplete s = .next { portsDown { s with tm.restEnter := false, tm.refused := 0 } with
      tm.boot := .deepRest, pin.vcoreEn := false, pin.lsrEn := false, pin.safen := false } := by
  show execRestEntryComplete s = _
  rw [execRestEntryComplete, if_neg (by simp [hentry])]
  dsimp only
  rw [stopTurning_eq_self (by exact hturn), if_pos (by exact hdeep)]

/-! ### The way out (R374, R378, R455, R456) -/

theorem wake_of_rest {s : State} {c : WakeCause} (hon : causeOn s c = true)
    (hrest : s.tm.boot = .rest ∨ (s.tm.boot = .running ∧ s.tm.restEnter = true ∧ s.tm.restDeep = false)) :
    wake c s = wakeUp c s := by
  obtain hboot | ⟨-, hentry, hlight⟩ := hrest
  · simp [wake, hon, hboot]
  · simp [wake, hon, hentry, hlight]

theorem wake_of_deepRest {s : State} {c : WakeCause} (hon : causeOn s c = true) (hfixed : isFixed c = true)
    (hboot : s.tm.boot = .deepRest) (hentry : s.tm.restEnter = false) :
    wake c s = recordCause c { s with tm.boot := .deepWake, pin.vcoreEn := true } := by
  simp [wake, hon, hfixed, hboot, hentry]

theorem exec_restWake_of_not_deepRest {s : State} (h : s.tm.boot ≠ .deepRest) (c : WakeCause) :
    exec (.restWake c) s = .next (wake c s) := congrArg _ (if_neg h)

theorem exec_deepRestWake_of_not_rest {s : State} (h : s.tm.boot ≠ .rest) (c : WakeCause) :
    exec (.deepRestWake c) s = .next (wake c s) := congrArg _ (if_neg h)

/-- WAKEN and the alarm arrive by commands of their own. -/
theorem exec_ownWakes {s t : State} {c : WakeCause} (hwake : wake c s = t) :
    (c = .waken → exec .wakenAssert s = .next t) ∧ (c = .alarm → exec .caveAlarmMatch s = .next t) := by
  subst hwake
  exact ⟨fun h => by subst h; rfl, fun h => by subst h; rfl⟩

theorem exec_coreRailsReady_of_deepWake {s : State} (h : s.tm.boot = .deepWake) :
    exec .coreRailsReady s = .next (sendMsix .bu 3 (startUp (coldDomain s))) := congrArg _ (if_pos h)

/-- Settles O53: a start leaves no condition behind a source, so its faults do not run; a failed request of the bring-up host does
not bring its link up; the rest are the branches of the commands. -/
theorem deviceStartsAndRests : Obligations.DeviceStartsAndRests := by
  unfold Obligations.DeviceStartsAndRests
  refine ⟨?coldStart, ?warmReset, exec_buReset, fun s rate width hup hclk => exec_buLinkTrained_of_up hup hclk rate width,
    fun _ => rfl, fun s q r => exec_vatStoreRemirror_of_single, ?restEnter, ?entryComplete, ?restWake, ?deepRestWake,
    fun s => exec_coreRailsReady_of_deepWake⟩
  case coldStart =>
    intro s
    obtain ⟨htm, hcv⟩ := startUp_tm_cv (s := coldStartDomain s) rfl rfl rfl rfl rfl
    refine ⟨_, exec_coldStart s, ?_⟩
    rw [htm, hcv]
    exact ⟨rfl, rfl, rfl, fun hknown => ⟨if_pos hknown, if_pos hknown⟩, fun hlost => if_neg (Bool.eq_false_iff.1 hlost)⟩
  case warmReset =>
    exact fun s hup => ⟨exec_warmReset_of_up hup, rfl, rfl, rfl, rfl, rfl⟩
  case restEnter =>
    intro s f htlp hd0 hmgr hrun hentry c deep hc
    rw [exec_restEnter_of_devmgr htlp hd0 hmgr hc]
    exact ⟨fun hok => congrArg _ (restRequest_of_accepted hrun hentry hok),
      fun hno => congrArg _ (restRequest_of_refused hrun hentry hno)⟩
  case entryComplete =>
    intro s hentry hturn
    exact ⟨fun hlight hwatch => ⟨_, exec_restEntryComplete_rest hentry hturn hlight hwatch, rfl, rfl⟩,
      fun hdeep => ⟨_, exec_restEntryComplete_deep hentry hturn hdeep, rfl, rfl⟩⟩
  case restWake =>
    intro s c hon hrest
    have hwake := wake_of_rest hon hrest
    have hboot : s.tm.boot ≠ .deepRest := by
      obtain h | ⟨h, -⟩ := hrest <;> simp [h]
    exact ⟨(exec_restWake_of_not_deepRest hboot c).trans (congrArg _ hwake), exec_ownWakes hwake⟩
  case deepRestWake =>
    intro s c hon hfixed hboot hentry
    have hwake := wake_of_deepRest hon hfixed hboot hentry
    exact ⟨(exec_deepRestWake_of_not_rest (by simp [hboot]) c).trans (congrArg _ hwake), exec_ownWakes hwake⟩

end Sys2Proof.Machine
end
